-- ==== Sys2Proof/Word.lean ====
section
/-!
DEFINITION. The word types of the ZP-480: bytes, 16-bit fields and 32-bit window words (R5, R6).
-/

namespace Sys2Proof

/-- A byte: what a window offset, an SRAM address or an ENS address holds. -/
abbrev Byte := BitVec 8

/-- A 16-bit field: an opcode, a status code, a sequence number. -/
abbrev Half := BitVec 16

/-- A 32-bit word of the mailbox window (R6). -/
abbrev Word := BitVec 32

/-- A tenant, T0 to T7 (R137); T0 is the owner. -/
abbrev Ten := Fin 8

/-- A command or result slot of a window (R122); slot 7 is the rescue slot. -/
abbrev SlotIx := Fin 8

/-- A power domain index of Table 1.1 (R13). -/
abbrev Dom := Fin 13

end Sys2Proof
end

