-- ==== Sys2Proof/Syntax.lean ====
section
/-!
DEFINITION. The commands of the ZP-480: one constructor per row of the opcode table. A mailbox
command names the tenant and the slot whose descriptor it runs; an event carries the raw data the
hardware meets (levels, bytes, code-groups), never a decision the manual gives the terminal.
-/

namespace Sys2Proof

/-- How an access reaches a window (R107): an SPI port, the in-band frames of a lane tenant, or the
owner's LMMs. -/
inductive Via where
  | spi (port : Fin 4)
  | lane (t : Ten)
  | owner
deriving DecidableEq, Repr

/-- An access to the bulk aperture at a window offset of 0x900 or above (R113). -/
inductive Aperture where
  | read (off len : Nat)
  | write (off : Nat) (data : List Byte)
deriving DecidableEq, Repr

/-- The ready signals of Table 3.5. -/
inductive ReadySig where
  | railAux | railMain
  | psw (d : Dom)
  | refOk | xtOk | pllaLock | memOk
  | rstAck (d : Dom)
deriving DecidableEq, Repr

/-- A 10-bit code-group as received (R184): its bits, first received the most significant. -/
abbrev CodeGroup := BitVec 10

/-- The rows of the opcode table, in its order. -/
inductive Instr where
  /-- SYS_IDENTIFY (R28): Command returning terminal ID, stepping, grade, firmware, image, lifecycle and debug level. -/
  | sysIdentify (t : Ten) (n : SlotIx)
  /-- SYS_BLOCK_STATUS (R28): Command returning domain, clock, power-state and active-lane status. -/
  | sysBlockStatus (t : Ten) (n : SlotIx)
  /-- SYS_RESET (R106): Owner command requesting a chip reset after the notice period, or a domain reset of PD_LNL, PD_INF or PD_AUD. -/
  | sysReset (t : Ten) (n : SlotIx)
  /-- SYS_RESET_CAUSE (R91): Command returning the reset-cause record. -/
  | sysResetCause (t : Ten) (n : SlotIx)
  /-- SYS_IMAGE_STATUS (R106): Command returning MIN_SVN, image states and the SVN and generation of each image. -/
  | sysImageStatus (t : Ten) (n : SlotIx)
  /-- SYS_IMAGE_COMMIT (R101): Owner command that confirms the running image and can raise MIN_SVN. -/
  | sysImageCommit (t : Ten) (n : SlotIx)
  /-- SYS_ABORT (R130): Command asking for the tenant's pending command with a given SEQ to stop at a safe point. -/
  | sysAbort (t : Ten) (n : SlotIx)
  /-- TENANT_STATUS (R163): Command returning a tenant's state, authorities, session, leases and heartbeat age. -/
  | tenantStatus (t : Ten) (n : SlotIx)
  /-- TENANT_ATTACH (R141): Command that opens a session for an SPI tenant, with a new session number and reset window. -/
  | tenantAttach (t : Ten) (n : SlotIx)
  /-- TENANT_DETACH (R158): Command that ends the tenant's session, stops its commands and releases its leases. -/
  | tenantDetach (t : Ten) (n : SlotIx)
  /-- TENANT_RESET (R159): Command that ends a tenant's session, clears its slots and ring and flushes its port, optionally keeping memory. -/
  | tenantReset (t : Ten) (n : SlotIx)
  /-- TENANT_LEASE (R154): Command to acquire, release or take (owner) a lease on an exclusive resource. -/
  | tenantLease (t : Ten) (n : SlotIx)
  /-- TENANT_BIND (R138): Owner command that binds a tenant to a transport with a credential and authority mask. -/
  | tenantBind (t : Ten) (n : SlotIx)
  /-- TENANT_SET_QOS (R150): Owner command that sets a tenant's command, Firn, event and upstream shares. -/
  | tenantSetQos (t : Ten) (n : SlotIx)
  /-- TENANT_PARTITION (R151): Owner command that sets the tenant partition sizes in shared SRAM. -/
  | tenantPartition (t : Ten) (n : SlotIx)
  /-- TENANT_DELEGATE (R148): T0 command that names, renews or ends a delegate holding owner authority. -/
  | tenantDelegate (t : Ten) (n : SlotIx)
  /-- EVT_SUBSCRIBE (R167): Command that maps a router source to a virtual ID of the tenant. -/
  | evtSubscribe (t : Ten) (n : SlotIx)
  /-- EVT_UNSUBSCRIBE (R170): Command that removes a VID mapping after events already served under it are written. -/
  | evtUnsubscribe (t : Ten) (n : SlotIx)
  /-- EVT_CONFIG (R165): Owner command that sets a source's enable, delivery mode and priority. -/
  | evtConfig (t : Ten) (n : SlotIx)
  /-- EVT_AO_WATCH (R177): Command that sets the always-on watch set of sources 0x00 to 0x1F. -/
  | evtAoWatch (t : Ten) (n : SlotIx)
  /-- EVT_STATUS (R182): Command returning the event summary or one VID's routing entry and counts. -/
  | evtStatus (t : Ten) (n : SlotIx)
  /-- EVT_TEST (R182): Command that asserts the test event source 0xF1 with given data. -/
  | evtTest (t : Ten) (n : SlotIx)
  /-- POWER_STATUS (R86): Command returning power state, floor, boost, junction estimate, light-wake counts and wake record. -/
  | powerStatus (t : Ten) (n : SlotIx)
  /-- POWER_SET_STATE (R61): Command requesting DUSK, NIGHT, GLACIER or PERMAFROST, checked against floors and blockers. -/
  | powerSetState (t : Ten) (n : SlotIx)
  /-- POWER_FLOOR (R57): Command that sets or clears the tenant's power floor. -/
  | powerFloor (t : Ten) (n : SlotIx)
  /-- POWER_TIMERS (R55): Owner command that sets the idle timers, C_MAX and GLACIER flags. -/
  | powerTimers (t : Ten) (n : SlotIx)
  /-- POWER_WAKE_CFG (R177): Command that configures the wake pins, debounce and light-wake enables. -/
  | powerWakeCfg (t : Ten) (n : SlotIx)
  /-- POWER_BOOST (R80): Command that sets the boost policy to OFF or AUTO. -/
  | powerBoost (t : Ten) (n : SlotIx)
  /-- TIME_STATUS (R306): Command returning the session state, flags, RATE, TE_EST, leap data and counters. -/
  | timeStatus (t : Ten) (n : SlotIx)
  /-- TIME_READ (R306): Command returning TT, the FRC, the quality flags and session state. -/
  | timeRead (t : Ten) (n : SlotIx)
  /-- TIME_SESSION_OPEN (R276): Command that opens a HEAD session (owner) or a TENANT session (TIME lease holder). -/
  | timeSessionOpen (t : Ten) (n : SlotIx)
  /-- TIME_SESSION_CLOSE (R277): Owner command that closes the open time session in any state. -/
  | timeSessionClose (t : Ten) (n : SlotIx)
  /-- TIME_STEP (R285): Command that applies the one step of a TENANT session by offset or date. -/
  | timeStep (t : Ten) (n : SlotIx)
  /-- TIME_RATE (R285): Command that sets a TENANT session's target RATE and may report an observed error. -/
  | timeRate (t : Ten) (n : SlotIx)
  /-- TIME_CMP_ARM (R292): Command that arms, parks or fires at once a comparator for a 64-bit TT target. -/
  | timeCmpArm (t : Ten) (n : SlotIx)
  /-- TIME_CMP_CANCEL (R294): Command that cancels a comparator unless it has already fired. -/
  | timeCmpCancel (t : Ten) (n : SlotIx)
  /-- TIME_CAL_READ (R295): Command returning the calendar view of TT in UTC or local time. -/
  | timeCalRead (t : Ten) (n : SlotIx)
  /-- TIME_ZONE (R296): Command that sets the tenant's zone offset. -/
  | timeZone (t : Ten) (n : SlotIx)
  /-- TIME_ALARM (R298): Command that sets or clears a calendar alarm. -/
  | timeAlarm (t : Ten) (n : SlotIx)
  /-- TIME_PPS (R299): Command that configures the PPS_OUT mode and width. -/
  | timePps (t : Ten) (n : SlotIx)
  /-- TIME_GRID_REF (R301): Command that configures GRID_REF_OUT mode, frequency, origin and event divider. -/
  | timeGridRef (t : Ten) (n : SlotIx)
  /-- TIME_PULSE (R302): Command that schedules a window, start or stop on PULSE0 or PULSE1. -/
  | timePulse (t : Ten) (n : SlotIx)
  /-- TIME_CAPTURE_CFG (R304): Command that selects the capture edges of a TS_IN input. -/
  | timeCaptureCfg (t : Ten) (n : SlotIx)
  /-- TIME_CAPTURE_READ (R304): Command returning up to four capture stamps from an input FIFO. -/
  | timeCaptureRead (t : Ten) (n : SlotIx)
  /-- TIME_CONFIG (R286): Owner command that sets the holdover model parameters Y0, D and Y_TK. -/
  | timeConfig (t : Ten) (n : SlotIx)
  /-- CLOCK_STATUS (R324): Command returning PLL and DPLL-T state, STEER, counters and dither. -/
  | clockStatus (t : Ten) (n : SlotIx)
  /-- CLOCK_BAND_READ (R309): Command returning band-table entries. -/
  | clockBandRead (t : Ten) (n : SlotIx)
  /-- CLOCK_BAND_WRITE (R310): Command that writes band-table entries when the result is well formed, in FACTORY or THAWED. -/
  | clockBandWrite (t : Ten) (n : SlotIx)
  /-- CLOCK_DITHER (R313): Command that sets the dither seed and amplitude. -/
  | clockDither (t : Ten) (n : SlotIx)
  /-- CLOCK_DPLL_CONFIG (R319): Owner command that sets the DPLL-T bandwidth. -/
  | clockDpllConfig (t : Ten) (n : SlotIx)
  /-- CLOCK_RELOCK (R316): Command that performs a run-time relock of PLL-A. -/
  | clockRelock (t : Ten) (n : SlotIx)
  /-- LANE_STATUS (R208): Command returning a lane's state, role, mode, link and counters. -/
  | laneStatus (t : Ten) (n : SlotIx)
  /-- LANE_CONFIG (R202): Owner command that configures fibre protection or a local lane's mode, taking a local link down. -/
  | laneConfig (t : Ten) (n : SlotIx)
  /-- LANE_SWITCH (R198): Owner command that switches to the standby lane now, or sets or clears lockout. -/
  | laneSwitch (t : Ten) (n : SlotIx)
  /-- LANE_MODE (R191): Command that places a lane in raw mode or returns it to normal. -/
  | laneMode (t : Ten) (n : SlotIx)
  /-- LANE_SLIP (R192): Command that moves a raw lane's word boundary by n UI. -/
  | laneSlip (t : Ten) (n : SlotIx)
  /-- LANE_CAPTURE (R191): Command returning the last 24 received code-groups of a lane. -/
  | laneCapture (t : Ten) (n : SlotIx)
  /-- LTX_DS_STATUS (R229): Command returning a fibre lane's framer state, defects, key state and counters. -/
  | ltxDsStatus (t : Ten) (n : SlotIx)
  /-- LTX_DS_SNAPSHOT (R229): Command returning the last valid frame header and its arrival capture. -/
  | ltxDsSnapshot (t : Ten) (n : SlotIx)
  /-- LTX_REG_STATUS (R248): Command returning activation state, RH, EqD, ranging and registration counters. -/
  | ltxRegStatus (t : Ten) (n : SlotIx)
  /-- LTX_ACTIVATION (R248): Owner command that stops, starts or restarts activation. -/
  | ltxActivation (t : Ten) (n : SlotIx)
  /-- LTX_US_STATUS (R269): Command returning a grant stream's forecast pattern and upstream counters. -/
  | ltxUsStatus (t : Ten) (n : SlotIx)
  /-- LTX_US_CONFIG (R260): Owner command that sets a grant stream's run-ahead depth. -/
  | ltxUsConfig (t : Ten) (n : SlotIx)
  /-- LTX_QUEUE_MAP (R256): Owner command that maps an upstream queue to a grant stream, band and PROT setting. -/
  | ltxQueueMap (t : Ten) (n : SlotIx)
  /-- RULES_STATUS (R349): Command returning version roles, lanes, free entries and classifier counters. -/
  | rulesStatus (t : Ten) (n : SlotIx)
  /-- RULES_PROFILE (R339): Command that writes profile records into STAGING, opening it if needed. -/
  | rulesProfile (t : Ten) (n : SlotIx)
  /-- RULES_WRITE (R339): Command that writes or excludes rule entries in STAGING, opening it if needed. -/
  | rulesWrite (t : Ten) (n : SlotIx)
  /-- RULES_COMMIT (R341): Command that commits STAGING in VERSIONED or PAUSE mode. -/
  | rulesCommit (t : Ten) (n : SlotIx)
  /-- RULES_DISCARD (R343): Command that discards STAGING. -/
  | rulesDiscard (t : Ten) (n : SlotIx)
  /-- RULES_READ (R347): Command returning one rule entry from the shadow. -/
  | rulesRead (t : Ten) (n : SlotIx)
  /-- RULES_LANE (R345): Command that takes a classifier lane out of service or returns it. -/
  | rulesLane (t : Ten) (n : SlotIx)
  /-- RULES_COUNTERS (R334): Command returning and optionally clearing rule counters. -/
  | rulesCounters (t : Ten) (n : SlotIx)
  /-- RULES_SLOW_CONFIG (R331): Owner command that sets SLOW_DEADLINE. -/
  | rulesSlowConfig (t : Ten) (n : SlotIx)
  /-- TRAFFIC_STATUS (R373): Command returning buffer use, holds and traffic counters. -/
  | trafficStatus (t : Ten) (n : SlotIx)
  /-- TRAFFIC_QUEUE_CFG (R352): Owner command that sets a queue's limits, shaper and latency threshold. -/
  | trafficQueueCfg (t : Ten) (n : SlotIx)
  /-- TRAFFIC_QUEUE_STATUS (R368): Command returning a queue's depth, credit, counters and high-water marks, then clearing the marks. -/
  | trafficQueueStatus (t : Ten) (n : SlotIx)
  /-- TRAFFIC_POLICER (R363): Command that writes or reads a policer. -/
  | trafficPolicer (t : Ten) (n : SlotIx)
  /-- TRAFFIC_BUFFER (R351): Owner command that sets the upstream pool size and the XOFF and XON thresholds. -/
  | trafficBuffer (t : Ten) (n : SlotIx)
  /-- TRAFFIC_HOLD (R366): Owner command that holds or releases grant streams or a local port. -/
  | trafficHold (t : Ten) (n : SlotIx)
  /-- TRAFFIC_WATCH (R370): Command that starts or stops the queue sampler. -/
  | trafficWatch (t : Ten) (n : SlotIx)
  /-- TRAFFIC_WATCH_READ (R371): Command that copies watch entries to a bulk range. -/
  | trafficWatchRead (t : Ten) (n : SlotIx)
  /-- TRAFFIC_INJECT (R361): Command that offers frame records from the partition to ingress source 3. -/
  | trafficInject (t : Ten) (n : SlotIx)
  /-- TRAFFIC_RECEIVE (R359): Command that copies frames from the tenant port queues to the partition. -/
  | trafficReceive (t : Ten) (n : SlotIx)
  /-- CIPHER_STATUS (R412): Command returning cipher engine state and counters. -/
  | cipherStatus (t : Ten) (n : SlotIx)
  /-- CIPHER_GCM_SEAL (R390): Tenant job sealing data with AES-GCM under a hardware-built IV. -/
  | cipherGcmSeal (t : Ten) (n : SlotIx)
  /-- CIPHER_GCM_OPEN (R376): Tenant job opening and verifying AES-GCM data. -/
  | cipherGcmOpen (t : Ten) (n : SlotIx)
  /-- CIPHER_CTR (R390): Tenant job running AES-CTR with a hardware nonce or a given block. -/
  | cipherCtr (t : Ten) (n : SlotIx)
  /-- CIPHER_CMAC (R387): Tenant job generating or verifying an AES-CMAC tag. -/
  | cipherCmac (t : Ten) (n : SlotIx)
  /-- CIPHER_CORE (R384): Command that takes an AES core out of service or returns it after self-test. -/
  | cipherCore (t : Ten) (n : SlotIx)
  /-- KEYS_INFO (R412): Command returning a slot's or handle's attributes, without the key. -/
  | keysInfo (t : Ten) (n : SlotIx)
  /-- KEYS_IMPORT (R397): Owner command that installs a wrapped key into an EMPTY slot. -/
  | keysImport (t : Ten) (n : SlotIx)
  /-- KEYS_DERIVE (R398): Command that derives a key into a handle or, for the owner, a slot. -/
  | keysDerive (t : Ten) (n : SlotIx)
  /-- KEYS_DESTROY (R399): Command that empties a slot or handle or makes it DECRYPT_ONLY. -/
  | keysDestroy (t : Ten) (n : SlotIx)
  /-- ENS_READ (R403): Command that reads an ENS region with tag verification. -/
  | ensRead (t : Ten) (n : SlotIx) (fixed : Nat) (bad : List Nat)
  /-- ENS_WRITE (R405): Command that starts an update of an ENS region under its lease. -/
  | ensWrite (t : Ten) (n : SlotIx)
  /-- ENS_ABORT (R406): Command that stops a region's running update at its next line boundary. -/
  | ensAbort (t : Ten) (n : SlotIx)
  /-- ENS_STATUS (R412): Command returning spares, DEGRADED and update masks, suspect lines and journal state. -/
  | ensStatus (t : Ten) (n : SlotIx)
  /-- ENS_LINE_INFO (R412): Command returning a line's wear count, suspect and remap status. -/
  | ensLineInfo (t : Ten) (n : SlotIx)
  /-- SEC_STATUS (R429): Command returning lifecycle, debug level, security flags and thaw counts. -/
  | secStatus (t : Ten) (n : SlotIx)
  /-- SEC_THAW_CHALLENGE (R423): Command that draws a new thaw nonce. -/
  | secThawChallenge (t : Ten) (n : SlotIx)
  /-- SEC_THAW (R424): Command that checks a thaw token and raises the debug level. -/
  | secThaw (t : Ten) (n : SlotIx)
  /-- SEC_FREEZE (R427): Command that lowers the debug level to FROZEN, by chip reset from THAWED. -/
  | secFreeze (t : Ten) (n : SlotIx)
  /-- SEC_SEAL (R417): Owner command that stores the owner debug key and burns the SEALED fuse. -/
  | secSeal (t : Ten) (n : SlotIx)
  /-- SEC_RETIRE (R418): Owner command that burns the RETIRED fuse, erases owner material and resets. -/
  | secRetire (t : Ten) (n : SlotIx)
  /-- FIRN_STATUS (R460): Command returning Firn engine state and counters. -/
  | firnStatus (t : Ten) (n : SlotIx)
  /-- FIRN_MODEL_LOAD (R436): Command that verifies a model package in region 2 and loads it into a handle. -/
  | firnModelLoad (t : Ten) (n : SlotIx)
  /-- FIRN_MODEL_UNLOAD (R437): Command that unloads a model with no job present. -/
  | firnModelUnload (t : Ten) (n : SlotIx)
  /-- FIRN_MODEL_INFO (R460): Command returning a loaded model's attributes. -/
  | firnModelInfo (t : Ten) (n : SlotIx)
  /-- FIRN_RUN (R448): Command that submits one inference job. -/
  | firnRun (t : Ten) (n : SlotIx)
  /-- FIRN_ENGINE (R457): Command that takes the Firn engine out of service or returns it after self-test. -/
  | firnEngine (t : Ten) (n : SlotIx)
  /-- FIRN_MODEL_KEY (R435): Owner command that sets or clears the owner model key. -/
  | firnModelKey (t : Ten) (n : SlotIx)
  /-- AUDIO_STATUS (R484): Command returning audio port states and counters. -/
  | audioStatus (t : Ten) (n : SlotIx)
  /-- AUDIO_CONFIG (R463): Command that sets the sampling frequency. -/
  | audioConfig (t : Ten) (n : SlotIx)
  /-- AUDIO_PORT (R463): Command that configures an audio port's word length, source, gate and status bits. -/
  | audioPort (t : Ten) (n : SlotIx)
  /-- AUDIO_OPEN (R463): Command that opens an audio port to MUTED or closes it. -/
  | audioOpen (t : Ten) (n : SlotIx)
  /-- AUDIO_SCHEDULE (R474): Command that schedules a start, stop or window on an audio port. -/
  | audioSchedule (t : Ten) (n : SlotIx)
  /-- TPS_STATUS (R484): Command returning a TPS port's state, FIFO fills and counters. -/
  | tpsStatus (t : Ten) (n : SlotIx)
  /-- TPS_SCHEDULE (R482): Command that schedules the opening or closing of a TPS port. -/
  | tpsSchedule (t : Ten) (n : SlotIx)
  /-- DIAG_PADS (R52): Command returning sampled pad levels, faults and the voltage code. -/
  | diagPads (t : Ten) (n : SlotIx)
  /-- RCV_START (R103): Recovery window START command that checks RCV_LEN and enters RECEIVING. -/
  | rcvStart
  /-- RCV_CHUNK (R103): Recovery window CHUNK command that checks and stages one chunk. -/
  | rcvChunk
  /-- RCV_FINISH (R103): Recovery window FINISH command that starts verification of the staged image. -/
  | rcvFinish
  /-- RCV_REBOOT (R103): Recovery window REBOOT command that takes a chip reset with cause RECOVERY_DONE. -/
  | rcvReboot
  /-- RECOVERY_VERIFIED (R103): Completion of verification of a recovery image, leading to WRITING or FAILED. -/
  | recoveryVerified
  /-- RECOVERY_WRITTEN (R103): Completion of the recovery write, setting the region NEW and state DONE. -/
  | recoveryWritten (ok : Bool)
  /-- SPI_STATUS_READ (R116): 0xA5 transaction returning the port status byte and MBX_STATUS from hardware. -/
  | spiStatusRead (port : Fin 4) (sent : List Byte) (clocks : Nat)
  /-- MBX_STATUS_READ (R96): Read of MBX_STATUS that releases the MBX_READY notice and stops notice repeats. -/
  | mbxStatusRead (via : Via)
  /-- MBX_STATUS_CLEAR (R111): Write-one-to-clear of the MBX_STATUS flag bits. -/
  | mbxStatusClear (via : Via) (value : Word)
  /-- DOORBELL (R122): Write to DOORBELL posting command slots, which become PENDING with their descriptors copied. -/
  | doorbell (via : Via) (value : Word)
  /-- RESULT_ACK (R122): Write to RESULT_ACK that returns READY slots to EMPTY. -/
  | resultAck (via : Via) (value : Word)
  /-- RESULT_SLOT_READ (R123): Read of a result slot that counts reads of a READY result. -/
  | resultSlotRead (via : Via) (slot : SlotIx)
  /-- EVT_TAIL (R110): Write to EVT_TAIL consuming event records, ignored if beyond HEAD. -/
  | evtTail (via : Via) (value : Word)
  /-- BULK_BASE (R109): Write to BULK_BASE moving the bulk aperture, ignored outside the partition. -/
  | bulkBase (via : Via) (value : Word)
  /-- HEARTBEAT (R155): Whole-word write to HEARTBEAT that restarts the tenant's heartbeat watch. -/
  | heartbeat (via : Via) (value : Word)
  /-- BULK_APERTURE_ACCESS (R113): Access to the bulk aperture of the tenant partition, waking the terminal from NIGHT if needed. -/
  | bulkApertureAccess (via : Via) (access : Aperture)
  /-- REGISTER_WRITE (R108): Write to a window location with no behaviour of its own, such as TEN_CPRI, interrupt enables or command slot bytes. -/
  | registerWrite (via : Via) (off : Nat) (data : List Byte)
  /-- WRITE_BUFFER_DRAIN (R115): Posted write data taking effect after its wait and freeing write-buffer space. -/
  | writeBufferDrain (port : Fin 4)
  /-- INBAND_MBX_FRAME (R117): In-band mailbox request frame on a local lane, checked and executed against the window. -/
  | inbandMbxFrame (lane : Fin 2) (src : List Byte) (payload : List Byte)
  /-- NOTICE_FRAME_REPEAT (R119): Expiry of the 10 ms repeat of an in-band notice frame. -/
  | noticeFrameRepeat (t : Ten)
  /-- ATTACH_REQ (R143): Lane attach request frame answered with ATTACH_CHAL. -/
  | attachReq (lane : Fin 2) (dst : List Byte) (src : List Byte) (payload : List Byte)
  /-- ATTACH_CONF (R144): Lane attach confirmation frame that opens the new session and derives the in-band key. -/
  | attachConf (lane : Fin 2) (src : List Byte) (payload : List Byte)
  /-- ATTACH_LOCKOUT_END (R143): End of the 60 s attach lockout after repeated tag failures. -/
  | attachLockoutEnd (t : Ten)
  /-- COMMAND_START (R525): CC0 or CC1 starts an accepted command once order, FENCE and rate allow, applying the common checks. -/
  | commandStart (t : Ten) (n : SlotIx)
  /-- COMMAND_TIMEOUT (R129): Expiry of a command's TIMEOUT, requesting a stop at a safe point. -/
  | commandTimeout (t : Ten) (n : SlotIx)
  /-- CORE_WATCHDOG_EXPIRY (R90): Expiry of a control core's watchdog, resetting that core or escalating to a chip reset. -/
  | coreWatchdogExpiry (core : Fin 2)
  /-- CORE_RESTART_DONE (R131): A reset core has restarted and posts ABORTED with RESTART for its unposted commands. -/
  | coreRestartDone (core : Fin 2)
  /-- HEARTBEAT_DEADLINE (R155): Three lease periods pass without a heartbeat. -/
  | heartbeatDeadline (t : Ten)
  /-- DELEGATION_EXPIRY (R148): Expiry of a delegation's duration. -/
  | delegationExpiry
  /-- RESCUE_RESIDUE_DONE (R162): CC0 completes the queued parts of a rescue and clears RESIDUAL. -/
  | rescueResidueDone
  /-- PERMISSION_DRAIN_DONE (R160): The last access begun under an old permission ends and the changing command posts. -/
  | permissionDrainDone (t : Ten) (n : SlotIx)
  /-- EVENT_SOURCE_ASSERT (R166): A router source asserts, setting or merging into its pending latch. -/
  | eventSourceAssert (src : Fin 256) (data : Word)
  /-- EVENT_LATCH_SERVE (R166): The router serves the highest-priority latch and delivers the event under its mode. -/
  | eventLatchServe
  /-- MBX_NOTICE_REPEAT (R176): Expiry of the 8-multiframe repeat of the owner's MBX_NOTICE. -/
  | mbxNoticeRepeat
  /-- T_DUSK_EXPIRY (R55): Expiry of T_DUSK, moving the terminal from NOON to DUSK. -/
  | tDuskExpiry
  /-- T_INF_EXPIRY (R55): Expiry of T_INF, switching PD_INF off. -/
  | tInfExpiry
  /-- T_BOOST_EXPIRY (R80): Expiry of T_BOOST, leaving the boost point. -/
  | tBoostExpiry
  /-- T_AUD_EXPIRY (R55): Expiry of T_AUD in DUSK, switching PD_AUD off. -/
  | tAudExpiry
  /-- T_LNL_EXPIRY (R55): Expiry of T_LNL in DUSK, switching PD_LNL off. -/
  | tLnlExpiry
  /-- T_LNL_PROBE_EXPIRY (R55): Expiry of T_LNL_PROBE, powering PD_LNL for 2 ms to look for a link partner. -/
  | tLnlProbeExpiry
  /-- LNL_PROBE_END (R56): End of the 2 ms probe, keeping PD_LNL on if a partner was found. -/
  | lnlProbeEnd (partner : Bool)
  /-- T_NIGHT_EXPIRY (R66): Expiry of T_NIGHT, queueing SLEEP_REQ when NIGHT is allowed. -/
  | tNightExpiry
  /-- T_GLACIER_EXPIRY (R59): Expiry of T_GLACIER, leading to automatic GLACIER when allowed. -/
  | tGlacierExpiry
  /-- T_DARK_EXPIRY (R59): Expiry of T_DARK, leading to automatic GLACIER when allowed. -/
  | tDarkExpiry
  /-- T_NOTICE_EXPIRY (R63): End of the notice period, aborting pending commands and running the GLACIER or PERMAFROST entry steps. -/
  | tNoticeExpiry
  /-- DOMAIN_WORK_ARRIVAL (R56): Work for a blocked or off domain returns the terminal to NOON or wakes the domain. -/
  | domainWorkArrival (d : Dom)
  /-- SLEEP_ANSWER_TIMEOUT (R66): No SLEEP_GRANT or SLEEP_DENY within 16 multiframes of SLEEP_REQ. -/
  | sleepAnswerTimeout
  /-- NIGHT_LISTEN_WAKE (R69): 250 µs before a listen multiframe, PD_LNA, PD_FRM and the active lane are woken. -/
  | nightListenWake
  /-- NIGHT_LISTEN_END (R69): End of a listen multiframe, switching the lane off and counting a missed listen. -/
  | nightListenEnd
  /-- WAKE_TRIGGER (R73): A wake source starts a wake sequence or cancels an entry before the commit point. -/
  | wakeTrigger (src : Fin 32) (data : Word)
  /-- WAKE_STEP_READY (R73): A wake step's ready signal arrives and the next step or firmware resume begins. -/
  | wakeStepReady (sig : ReadySig)
  /-- WAKE_STEP_TIMEOUT (R75): A wake step's ready signal misses its timeout, aborting the wake. -/
  | wakeStepTimeout (sig : ReadySig) (noBand : Bool)
  /-- WAKE_DEBOUNCE_EXPIRY (R506): A wake pin's debounce period ends and the pin is judged. -/
  | wakeDebounceExpiry (pin : Fin 4)
  /-- WAKE_PIN_CHANGE (R506): A level or edge on WAKE0 to WAKE3. -/
  | wakePinChange (pin : Fin 4) (level : Bool) (ns : Nat)
  /-- CS_N_FALL (R30): SPIn_CS_N falls, seen by the always-on watch. -/
  | csNFall (port : Fin 4)
  /-- DEBUG_ATTACH (R421): A rising edge on TRST_N opens access according to the debug level. -/
  | debugAttach
  /-- DEBUG_DETACH (R421): TRST_N falls, ending a trace session. -/
  | debugDetach
  /-- VBAT_LOW (R164): VBAT falls below 2.0 V. -/
  | vbatLow (mv : Nat)
  /-- XTAL_FAULT (R314): The 32.768 kHz crystal faults and the supervisor falls back to the internal oscillator. -/
  | xtalFault
  /-- LIGHT_WAKE_FRAME (R83): A light-wake frame decoded from RSSI is checked against the group ID. -/
  | lightWakeFrame
  /-- TJ_UPDATE (R487): Millisecond update of the junction estimate, with boost and Firn thermal actions. -/
  | tjUpdate (tj : Int)
  /-- PMIC_WRITE_COMPLETE (R49): A VDD_CORE voltage-code write on the PMIC port is acknowledged or fails. -/
  | pmicWriteComplete (ack : Bool) (stretch : Nat)
  /-- PMIC_SETTLE_EXPIRY (R79): The 50 µs wait after a voltage write ends, letting the bias and assist sequence continue. -/
  | pmicSettleExpiry
  /-- PMIC_RETRY_TIMER (R524): Expiry of the retry timer after a failed PMIC write. -/
  | pmicRetryTimer
  /-- RAIL_OK_LOW (R37): RAIL_OK qualified low, a BROWNOUT chip reset or a failed wake. -/
  | railOkLow (ns : Nat)
  /-- VBAT_POWER_ON (R38): VBAT rises past 1.65 V, taking a power-on reset and the power-up sequence. -/
  | vbatPowerOn (mv : Nat)
  /-- VBAT_FALL (R38): VBAT falls below 1.60 V, holding every domain in reset. -/
  | vbatFall (mv : Nat)
  /-- RST_N_LOW (R505): A qualified low on RST_N takes a chip reset. -/
  | rstNLow (ns : Nat)
  /-- RST_N_RELEASE (R93): RST_N rises, releasing reset and starting the wake and boot. -/
  | rstNRelease (gpio0 : Bool)
  /-- BOOT (R93): Boot ROM and Nergor start steps from the logic step to MBX_READY. -/
  | boot
  /-- ROM_WATCHDOG_EXPIRY (R95): The ROM has not jumped to firmware within 250 ms. -/
  | romWatchdogExpiry
  /-- MBX_READY_TIMEOUT (R95): MBX_READY not set within 500 ms of reset release. -/
  | mbxReadyTimeout
  /-- DOMAIN_RESET_START (R89): A domain reset starts after its result, resets the domain and wakes it. -/
  | domainResetStart
  /-- LANE_LOCK (R188): A lane meets its lock criterion. -/
  | laneLock (lane : Fin 4) (rd cdr : Bool) (groups : List CodeGroup)
  /-- LANE_LOSS (R188): A lane meets its loss criterion through invalid code-groups or CDR loss. -/
  | laneLoss (lane : Fin 4) (rd : Bool) (groups : List CodeGroup) (cdr : Bool)
  /-- OPT_LOS_CHANGE (R188): OPT_LOS of a lane changes level after its 100 ns filter. -/
  | optLosChange (lane : Fin 2) (level : Bool)
  /-- LANE_RELOCK_QUALIFIED (R190): A returning lane has held lock or link for 10 ms. -/
  | laneRelockQualified (lane : Fin 4)
  /-- HOLD_OFF_EXPIRY (R196): The protection hold-off ends and the terminal switches to the eligible standby lane. -/
  | holdOffExpiry
  /-- WAIT_TO_RESTORE_EXPIRY (R198): The wait-to-restore time ends and the preferred lane becomes active again. -/
  | waitToRestoreExpiry
  /-- LOCAL_LINK_UP (R202): A local lane's link comes up and its held queues drain. -/
  | localLinkUp (lane : Fin 2) (mode : Byte) (pauseRx : Bool) (pauseTx : Bool)
  /-- LOCAL_LINK_DOWN (R201): A local lane's link goes down, holding its egress queues and marking its tenants unreachable. -/
  | localLinkDown (lane : Fin 2)
  /-- EGRESS_HOLD_EXPIRY (R201): The egress hold time ends with the link down and the lane's queues are flushed. -/
  | egressHoldExpiry (lane : Fin 2)
  /-- MAC_FRAME_RECEIVE (R204): A local lane MAC receives a frame and checks, sorts or drops it. -/
  | macFrameReceive (lane : Fin 2) (frame : List Byte) (fcsOk : Bool)
  /-- PAUSE_FRAME_RECEIVED (R205): A MAC control PAUSE frame is received and, if honoured, pauses egress. -/
  | pauseFrameReceived (lane : Fin 2) (quanta : Half)
  /-- PAUSE_TIME_END (R205): The received PAUSE time runs out. -/
  | pauseTimeEnd (lane : Fin 2)
  /-- XOFF_CROSSING (R367): The ingress FIFO fill crosses XOFF and a PAUSE frame is sent. -/
  | xoffCrossing (lane : Fin 2)
  /-- XON_CROSSING (R367): The ingress FIFO fill falls below XON and a PAUSE with quanta 0 is sent. -/
  | xonCrossing (lane : Fin 2)
  /-- PAUSE_REPEAT (R206): Half the sent quanta time passes while above XON and the PAUSE frame is repeated. -/
  | pauseRepeat (lane : Fin 2)
  /-- FAW_DETECTED (R222): A FAW position is judged correct or errored, driving frame alignment and the frame-start capture. -/
  | fawDetected (lane : Fin 2) (pos : Nat) (rd : Bool) (groups : List CodeGroup) (shift : Int)
  /-- FRAME_HEADER (R212): A frame header is checked and acted on, including multiframe alignment and defects. -/
  | frameHeader (lane : Fin 2) (bytes : List Byte)
  /-- GRANT_ENTRY (R216): A grant entry for the terminal's RH is checked and accepted into the grant table. -/
  | grantEntry (lane : Fin 2) (bytes : List Byte)
  /-- DISCOVERY_ENTRY (R235): A discovery entry is used or skipped in LISTEN. -/
  | discoveryEntry (lane : Fin 2) (bytes : List Byte)
  /-- PACKET_CONTAINER (R219): A packet container is delineated and accepted for decryption or skipped. -/
  | packetContainer (lane : Fin 2) (bytes : List Byte)
  /-- PACKET_DECRYPT_DONE (R219): Decryption of a packet container completes and the frame passes to the parser or is discarded. -/
  | packetDecryptDone
  /-- AUDIO_CONTAINER (R468): An announcement container is checked and written to the slip buffer by its sequence gap. -/
  | audioContainer (lane : Fin 2) (bytes : List Byte)
  /-- TPS_CONTAINER (R481): A TPS container is checked and its bits are destuffed, with tributary defect evaluation. -/
  | tpsContainer (lane : Fin 2) (bytes : List Byte)
  /-- ASSIGN_RH (R236): ASSIGN_RH LMM loading the RH and coarse EqD in DISCOVERY. -/
  | assignRh (lane : Fin 2) (slot : Fin 3) (bytes : List Byte)
  /-- AUTH_CHAL (R238): AUTH_CHAL LMM answered with AUTH_RESP and new derived keys. -/
  | authChal (lane : Fin 2) (slot : Fin 3) (bytes : List Byte)
  /-- KEY_DELIVER (R240): KEY_DELIVER LMM checked, unwrapped, installed and answered with KEY_ACK. -/
  | keyDeliver (lane : Fin 2) (slot : Fin 3) (bytes : List Byte)
  /-- RANGE_RESULT (R242): RANGE_RESULT LMM setting a lane's EqD and completing or continuing ranging. -/
  | rangeResult (lane : Fin 2) (slot : Fin 3) (bytes : List Byte)
  /-- DEREGISTER (R231): DEREGISTER LMM to rediscover, go silent, end silence or disable. -/
  | deregister (lane : Fin 2) (slot : Fin 3) (bytes : List Byte)
  /-- TIME_INFO (R283): TIME_INFO LMM updating the UTC offset, leap and timing fields. -/
  | timeInfo (lane : Fin 2) (slot : Fin 3) (bytes : List Byte)
  /-- UP_HOLD (R364): UP_HOLD LMM holding or releasing upstream grant streams. -/
  | upHold (lane : Fin 2) (slot : Fin 3) (bytes : List Byte)
  /-- SLEEP_GRANT (R67): SLEEP_GRANT LMM accepted or discarded, scheduling NIGHT listens. -/
  | sleepGrant (lane : Fin 2) (slot : Fin 3) (bytes : List Byte)
  /-- SLEEP_DENY (R66): SLEEP_DENY LMM deferring the next NIGHT request. -/
  | sleepDeny (lane : Fin 2) (slot : Fin 3) (bytes : List Byte)
  /-- NIGHT_WAKE (R72): NIGHT_WAKE LMM triggering NIGHT exit. -/
  | nightWake (lane : Fin 2) (slot : Fin 3) (bytes : List Byte)
  /-- OWNER_MBX (R244): OWNER_MBX LMM giving the head end access to the T0 window. -/
  | ownerMbx (lane : Fin 2) (slot : Fin 3) (bytes : List Byte)
  /-- TRIB_CFG (R461): TRIB_CFG LMM replacing the tributary configuration. -/
  | tribCfg (lane : Fin 2) (slot : Fin 3) (bytes : List Byte)
  /-- LOF_8MS_EXPIRY (R225): LOF on the active lane lasts more than 8 ms and the transmitter is silenced. -/
  | lof8msExpiry
  /-- LOF_2S_EXPIRY (R225): LOF on the active lane lasts more than 2 s, deregistering locally. -/
  | lof2sExpiry
  /-- LOL_CLEAR (R224): PLLA_LOCK has been held 1 ms and LOL clears. -/
  | lolClear (lane : Fin 2)
  /-- KEY_SWITCH_BOUNDARY (R227): The armed multiframe boundary of a key switch is reached. -/
  | keySwitchBoundary
  /-- KEY_RETIRE (R228): One multiframe after a switch the old key generation is retired. -/
  | keyRetire
  /-- GRANT_TABLE_FRAME_END (R216): An upstream frame ends and its grant entries are removed. -/
  | grantTableFrameEnd
  /-- ACTIVATION_LISTEN (R231): A usable fibre lane moves activation from INITIAL to LISTEN. -/
  | activationListen
  /-- T_ASSIGN_EXPIRY (R231): T_ASSIGN expires in DISCOVERY, returning to LISTEN. -/
  | tAssignExpiry
  /-- T_AUTH_EXPIRY (R231): T_AUTH expires in AUTH, deregistering locally. -/
  | tAuthExpiry
  /-- T_RANGE_EXPIRY (R231): T_RANGE expires in RANGING, deregistering locally. -/
  | tRangeExpiry
  /-- SILENT_DURATION_EXPIRY (R247): The silent duration ends and the terminal returns to IN_SERVICE. -/
  | silentDurationExpiry
  /-- DEREG_NOTICE_TIMEOUT (R246): The 4 ms wait for a burst to carry DEREG_NOTICE ends. -/
  | deregNoticeTimeout
  /-- EQD_CHANGE_APPLY (R243): A new EqD for a transmitting lane takes effect at the chosen upstream frame. -/
  | eqdChangeApply (lane : Fin 2)
  /-- SERIAL_NUMBER_BURST (R235): The serial-number burst is sent at its backoff tick. -/
  | serialNumberBurst
  /-- RANGING_BURST (R241): A ranging burst is sent at a RANGING grant's start. -/
  | rangingBurst (lane : Fin 2)
  /-- BURST_FREEZE (R258): A burst's packet, report and LMM content freezes 90 µs before its start. -/
  | burstFreeze (gs : Fin 8)
  /-- PROTECTION_SLOT_CLOSE (R258): A forecast burst's protection slot closes 12 µs before its start. -/
  | protectionSlotClose (gs : Fin 8)
  /-- PACKET_SEAL_DONE (R257): Sealing of a taken upstream packet completes. -/
  | packetSealDone
  /-- BURST_COMMIT (R264): The serialiser sends a burst's first preamble code-group and the burst commits. -/
  | burstCommit (gs : Fin 8)
  /-- WITHDRAWAL (R266): A withdrawal returns taken packets to their queues, restores credit and retires IVs once sealing jobs have ended. -/
  | withdrawal (gs : Fin 8)
  /-- TIME_STAMP (R278): CC1 processes a frame-start stamp, stepping TT or feeding rate correction. -/
  | timeStamp
  /-- RATE_CORRECTION (R280): Once per multiframe CC1 moves RATE toward the mean stamp error. -/
  | rateCorrection
  /-- HOLDOVER_ENTRY (R281): A HEAD session passes 10 ms without a usable stamp and enters HOLDOVER. -/
  | holdoverEntry
  /-- TRANSFORM_REBASE (R271): Periodic rebase of the TT transform before the FRC wrap. -/
  | transformRebase
  /-- COMPARATOR_FIRE (R291): A comparator fires when TT reaches its target. -/
  | comparatorFire (i : Fin 16)
  /-- PARKED_TARGET_CHECK (R292): Periodic check that arms a parked comparator target within range. -/
  | parkedTargetCheck
  /-- PPS_SECOND (R300): PPS_OUT rises at a whole TT second. -/
  | ppsSecond
  /-- GRID_REF_CYCLE (R301): GRID_REF_OUT starts a cycle. -/
  | gridRefCycle
  /-- PULSE_START (R302): A scheduled pulse output rises at its start time. -/
  | pulseStart (i : Fin 2)
  /-- PULSE_STOP (R302): A pulse output falls at its stop time. -/
  | pulseStop (i : Fin 2)
  /-- CAPTURE_EDGE (R304): An edge on TS_IN is stamped into the input FIFO; `ns` is how long the new level lasts. -/
  | captureEdge (input : Fin 4) (rising : Bool) (phase ns : Nat)
  /-- LEAP_SECOND (R284): TT reaches LEAP_AT and the held UTC offset changes. -/
  | leapSecond
  /-- CALENDAR_ALARM (R298): A calendar alarm fires when TT reaches its target second. -/
  | calendarAlarm (i : Fin 4)
  /-- PLLA_LOCK_ACQUIRED (R308): PLL-A phase error stays within ±25 ps for 256 cycles and PLLA_LOCK is set. -/
  | pllaLockAcquired
  /-- PLLA_LOSS_OF_LOCK (R308): PLL-A loses lock and coasts. -/
  | pllaLossOfLock
  /-- LOSS_OF_REFERENCE (R314): The supervisor counts a bad REFCLK period and PLL-A coasts. -/
  | lossOfReference (edges : Nat)
  /-- REFCLK_QUALIFIED (R316): REFCLK passes 16 good periods and the loop re-closes from the frozen word. -/
  | refclkQualified
  /-- RELOCK_TIMEOUT (R316): PLLA_LOCK not set within 1 ms of re-closing, starting a run-time relock. -/
  | relockTimeout
  /-- LOCK_SEARCH_ATTEMPT_TIMEOUT (R312): A band entry fails to lock within 300 µs and the search tries the next. -/
  | lockSearchAttemptTimeout
  /-- RELOCK_RETRY (R316): The 100 ms retry of a failed run-time lock search. -/
  | relockRetry
  /-- DPLL_MEASUREMENT (R318): A two-frame frequency measurement ends, jumping STEER or entering TRACK. -/
  | dpllMeasurement (df : Int)
  /-- DPLL_TRACK_UPDATE (R319): Per-frame update of the DPLL-T loop in TRACK. -/
  | dpllTrackUpdate (phase : Int)
  /-- INGRESS_FRAME (R325): A frame enters its source's ingress FIFO or is dropped. -/
  | ingressFrame (src : Fin 4) (bytes : List Byte) (oversize : Bool)
  /-- PARSER_TAKE (R326): A frame leaves its FIFO into the parser and receives a sequence number and version tag. -/
  | parserTake
  /-- LANE_LOOKUP_DONE (R335): A classifier lane completes a lookup and decides the frame's action. -/
  | laneLookupDone (lane : Fin 4) (parity entry : Bool)
  /-- SLOW_PATH_DECIDE (R330): CC0 software decides the action of an admitted slow-path frame. -/
  | slowPathDecide
  /-- SLOW_DEADLINE_EXPIRY (R331): A slow-path frame's deadline expires and its position is released as a drop. -/
  | slowDeadlineExpiry
  /-- SLOW_PATH_SECOND (R330): End of a second in which slow-path drops rose. -/
  | slowPathSecond
  /-- REORDER_RELEASE (R336): A frame leaves the reorder buffer and its action is applied. -/
  | reorderRelease (src : Fin 4)
  /-- VERSION_DRAIN (R342): No frame of the DRAINING tag remains in flight and the tag is freed. -/
  | versionDrain
  /-- PAUSE_UPDATE_QUIESCED (R344): No CURRENT-tagged frame remains in flight and the PAUSE commit swaps versions. -/
  | pauseUpdateQuiesced
  /-- PAUSE_UPDATE_TIMEOUT (R344): A PAUSE commit reaches 50 µs without completing and rolls back. -/
  | pauseUpdateTimeout
  /-- ENTRY_SCRUB (R337): The 10 ms scrub of rule-table parity. -/
  | entryScrub (failed : List Nat)
  /-- LANE_OUT_EMPTY (R345): A classifier lane taken out has emptied. -/
  | laneOutEmpty (lane : Fin 4)
  /-- LANE_MARKER_OUT (R346): A rejoining lane's flush marker comes out and the lane rejoins or stays out. -/
  | laneMarkerOut (lane : Fin 4) (pass : Bool)
  /-- PORT_EGRESS_SELECT (R358): A local MAC is ready and a frame is chosen from its egress queues. -/
  | portEgressSelect (lane : Fin 2)
  /-- HOLD_EXPIRY (R365): A grant-stream or local-port hold reaches the end of its duration. -/
  | holdExpiry (id : Fin 10)
  /-- WATCH_PERIOD (R370): End of a sampler period, writing one watch entry per listed queue. -/
  | watchPeriod
  /-- INJECT_OFFER (R361): Room in the source 3 FIFO lets the next injection record be offered. -/
  | injectOffer (t : Ten) (n : SlotIx)
  /-- CIPHER_JOB_DONE (R376): A cipher job completes and writes its output after its checks pass. -/
  | cipherJobDone
  /-- CIPHER_PARITY_FAULT (R382): A parity mismatch in an AES core aborts the job and reloads the context. -/
  | cipherParityFault (core : Fin 2)
  /-- CIPHER_SELF_TEST_DONE (R383): The fenced engine's self-test ends and passing cores return. -/
  | cipherSelfTestDone (core : Fin 2) (pass : Bool)
  /-- KBUS_OP_DONE (R379): A KBUS LOAD, ZERO or STORE completes. -/
  | kbusOpDone
  /-- KBUS_WATCHDOG (R380): A KBUS operation exceeds 4 µs and the context is zeroed. -/
  | kbusWatchdog
  /-- CEIL_WRITE_DONE (R393): A nonce ceiling write to ENS completes, successfully or not. -/
  | ceilWriteDone (slot : Nat) (ok : Bool)
  /-- CEIL_WRITE_RETRY (R395): The 10 ms retry of a failed ceiling write. -/
  | ceilWriteRetry
  /-- ENS_LINE_WRITE_DONE (R404): An ENS line write and its verify complete, with remap and the update's next line or end. -/
  | ensLineWriteDone (region : Nat) (verify : Bool) (ok : Bool) (fixed : Nat)
  /-- LEVEL_TIMER_EXPIRY (R427): The debug level timer expires, resetting from THAWED or dropping SLUSH to FROZEN. -/
  | levelTimerExpiry
  /-- THAW_NONCE_EXPIRY (R423): An outstanding thaw nonce expires after 600 s. -/
  | thawNonceExpiry
  /-- THAW_LOCKOUT_END (R423): The 600 s challenge lockout after repeated thaw failures ends. -/
  | thawLockoutEnd
  /-- FIRN_JOB_RESIDENT (R449): Work banks become free and a job's input is copied into local SRAM. -/
  | firnJobResident (job : Nat)
  /-- FIRN_LAYER_BOUNDARY (R450): A layer ends and the scheduler chooses the next job layer. -/
  | firnLayerBoundary
  /-- FIRN_LAYER_WATCHDOG (R454): A layer overruns its estimate and is stopped. -/
  | firnLayerWatchdog
  /-- FIRN_SRAM_ERROR (R455): An uncorrectable local SRAM error aborts the affected jobs. -/
  | firnSramError (area : Nat) (single : Bool)
  /-- FIRN_OUTPUT_COPIED (R453): A job's output copy completes and the job posts OK. -/
  | firnOutputCopied
  /-- FIRN_SELF_TEST_DONE (R457): The Firn self-test ends and the engine returns or stays out. -/
  | firnSelfTestDone (pass : Bool)
  /-- AUDIO_BLOCK_BOUNDARY (R469): At an output block boundary one block is read from the slip buffer or repeated. -/
  | audioBlockBoundary (monitor : Bool)
  /-- AUDIO_START_BOUNDARY (R474): An armed start's sample boundary is reached and the gate starts opening. -/
  | audioStartBoundary (port : Fin 3)
  /-- AUDIO_STOP_BOUNDARY (R474): An armed stop's sample boundary is reached and the gate starts closing. -/
  | audioStopBoundary (port : Fin 3)
  /-- GATE_TIMEOUT (R473): The zero-crossing gate timeout expires and waiting channels ramp. -/
  | gateTimeout (port : Fin 3)
  /-- AUDIO_INPUT_LOCK (R466): The AUD_IN receiver locks. -/
  | audioInputLock (apart : Nat) (ppm : Int)
  /-- AUDIO_INPUT_LOSS (R466): The AUD_IN receiver loses lock and INPUT_DEF is set. -/
  | audioInputLoss (bad : Nat) (ppm : Int) (ns : Nat)
  /-- AUDIO_INPUT_BLOCK (R465): A complete input block's channel status is read and checked for non-PCM content. -/
  | audioInputBlock (cs : List Byte)
  /-- UPSTREAM_TRIB_CLOSE (R462): At a tributary's close tick the mapper closes one upstream container and queues it. -/
  | upstreamTribClose (ttype : Byte)
  /-- VDDIO_LEVEL_DETECT (R32): VDDIO_HOST or VDDIO_FIELD rises from below 0.5 V past 1.2 V and the level detector fixes 1.8 V or 3.3 V pad mode, cleared when the rail falls below 0.5 V. -/
  | vddioLevelDetect (field : Bool) (mv : Nat)
  /-- BURST_END (R187): The last end-of-burst code-group leaves and the lane's OPT_TXDIS is released 2 bt later. -/
  | burstEnd
  /-- LIGHT_WAKE_SAMPLE (R81): A 4 kHz RSSI sample is classified against VREF, VREF tracks or jumps, and the detector arms or disarms at 60 mV. -/
  | lightWakeSample (a b : Nat)
  /-- SAMPLE_BOUNDARY (R473): At each audio sample boundary the gate checks each channel for its crossing, steps or ends a ramp, and input samples are taken with parity, V and FIFO-overflow handling. -/
  | sampleBoundary (port : Fin 3) (pair : List Byte) (parity : BitVec 2) (invalid : BitVec 2)
  /-- TPS_RXD_BIT (R476): The TPS receiver accepts a level on TPSn_RXD and decides a bit by majority, adding it to the mapper FIFO. -/
  | tpsRxdBit (port : Fin 2) (samples : BitVec 3)
  /-- TPS_TXD_BIT_START (R480): At each transmitted bit start the destuffer shortens or lengthens the bit period, or re-centres when a bit is due with its FIFO empty. -/
  | tpsTxdBitStart (port : Fin 2)
deriving DecidableEq, Repr

end Sys2Proof
end

