-- ==== Sys2Proof/Config.lean ====
section
/-!
DEFINITION. What an implementation fixes and what the manual leaves open: free values, the random
source and the cryptographic primitives the manual names but does not define. Each is an opaque
constant without a body, so no proof can see a value of it.
-/

namespace Sys2Proof.Config

/-- FREE VALUE. The value the manual does not state, drawn at the model's own counter
(log entry 2). -/
opaque freeNat : Nat → Nat

/-- FREE VALUE. A byte of a cipher job's output range before its result is READY, by a counter and the partition
offset (R376). -/
opaque pendingByte : Nat → Nat → BitVec 8

/-- The random source of the terminal: session bases (R140), nonces, back-off draws (log entry 3). -/
opaque random : Nat → Nat

/-- Byte `i` of the AES-CTR key stream under a key and an initial counter block
(FIPS 197, SP 800-38A; log entry 4). -/
opaque keyStream : List Byte → List Byte → Nat → Byte

/-- The full 128-bit GCM tag over additional data and cipher text (SP 800-38D; log entry 4). -/
opaque gcmTag : List Byte → List Byte → List Byte → List Byte → BitVec 128

/-- AES-CMAC of a message under a key (SP 800-38B; log entry 4). -/
opaque cmac : List Byte → List Byte → BitVec 128

/-- SHA-256 of a message (FIPS 180-4; log entry 4). -/
opaque sha256 : List Byte → BitVec 256

/-- ECDSA P-256 verification: public key (64 bytes), digest, signature `r ‖ s` (log entry 4). -/
opaque ecdsaVerify : List Byte → BitVec 256 → List Byte → Bool

/-- Whether 64 bytes are a point of the curve P-256 (log entry 4). -/
opaque onCurve : List Byte → Bool

/-- The Graundal image public key, 64 bytes, whose hash the factory region holds (R97). -/
opaque imageKey : List Byte

/-- `TERMINAL_ID` of the part (Table 1.7). -/
opaque terminalId : BitVec 64

/-- The grade: true for ZP-480E (Table 1.7). -/
opaque gradeE : Bool

/-- `FW_MINOR` of the running release (Table 1.7). -/
opaque fwMinor : Byte

/-- `FW_PATCH` of the running release (Table 1.7). -/
opaque fwPatch : Byte

/-- `T_RX` of the part, the receive path delay in units of 2⁻¹⁶ ns, in the factory region (R278). -/
opaque tRx : Nat

/-- `T_TX` of the part, the transmit path delay in units of 2⁻¹⁶ ns, in the factory region (R278). -/
opaque tTx : Nat

/-- FREE VALUE. The `STEER` that the type-2 loop of DPLL-T aims for, by bandwidth code, phase sample and
counter: the manual gives the loop's kind and limits, not its gains (R319). -/
opaque loopSteer : Nat → Int → Nat → Int

/-- The Graundal debug public key (R422), X then Y. -/
opaque debugKey : List Byte

/-- The Graundal model public key (R435), X then Y. -/
opaque modelKey : List Byte

/-- The special functions of Firn (R443). -/
inductive Sfu where
  | exp2 | log2 | recip | rsqrt | sin | cos | tanh | gelu | silu
deriving DecidableEq, Repr

/-- FREE VALUE. A special function at an FP32 input of its domain: the manual bounds its error and gives
no value (R443). -/
opaque sfu : Sfu → BitVec 32 → BitVec 32

/-- FREE VALUE. The larger (true) or smaller of two FP32 values that the comparison does not order: a NaN
among them, or zeros of two signs (Table 18.5). -/
opaque minMax : Bool → BitVec 32 → BitVec 32 → BitVec 32

/-- FREE VALUE. The INT32 accumulator of a CONV1D whose exact sum lies outside INT32 (R441). -/
opaque overAcc : Int → BitVec 32

/-- Entry `k` of the ladder generated from an FP32 base for width `d` (R446): the manual names IEEE double
precision without the order of its roundings. -/
opaque ladder : BitVec 32 → Nat → Nat → BitVec 48

end Sys2Proof.Config
end

