-- ==== Sys2Proof/Machine/State.lean ====
section
/-!
DEFINITION. The state of the ZP-480 as plain data: every register, queue, counter, mode and pin the
manual gives the part, the queue of waiting commands, and the state after a power-on reset.
-/

namespace Sys2Proof.Machine

/-- Why a step can stop with a fault. -/
inductive Fault where
  /-- Raised by no meaning: the manual gives every row an effect or leaves the state unchanged (log entry 1).
  Safe: the machine goes on wherever the hardware does. -/
  | none
deriving DecidableEq, Repr

/-- Why a step can be refused. -/
inductive Refusal where
  /-- Raised by exec alone, for a row that has no meaning yet. Safe: the run stops. -/
  | notModelled (mnemonic : String)
deriving DecidableEq, Repr

/-- What leaves the terminal, in the order it leaves (log entry 6): the model's own record of SPI
answers, frames, bursts and messages. -/
inductive Emission where
  /-- Bytes an access reads from its window, after the wait bytes and the token on SPI. -/
  | read (via : Via) (bytes : List Byte)
  /-- A frame of the lane's MAC: lane, destination, source, EtherType, payload. -/
  | frame (lane : Fin 2) (dst src : List Byte) (etype : Half) (payload : List Byte)
  /-- A MAC control PAUSE frame of a local lane with its quanta. -/
  | pause (lane : Fin 2) (quanta : Half)
  /-- A frame forwarded out of a local lane. -/
  | egress (lane : Fin 2) (bytes : List Byte)
  /-- A burst launched on a fibre lane (R187): start in bt of its upstream frame, the instant its `OPT_TXDIS` has gone
  low, its bytes from header to trailer, and the code-groups of the lane from there to its end. -/
  | burst (lane : Fin 2) (startBt : Nat) (litAt : Nat) (bytes : List Byte) (groups : List CodeGroup)
  /-- A register write on the two-wire port PM: 7-bit address, register index, VDD_CORE code (R49). -/
  | pmic (addr reg code : Nat)
  /-- An edge on a time output: 0 `PPS_OUT`, 1 `GRID_REF_OUT`, 2 `PULSE0`, 3 `PULSE1`. -/
  | timeEdge (out : Fin 4) (level : Bool) (tt : Nat)
  /-- A frame of an audio output: port, whether it opens a channel-status block, and time slots 4 to 31 of
  its two subframes, slot 4 in bit 0. -/
  | audio (port : Fin 2) (first : Bool) (left right : BitVec 28)
  /-- A bit of a TPS output and the sample ticks it lasts. -/
  | tps (port : Fin 2) (bit : Bool) (ticks : Nat)
deriving DecidableEq, Repr

/-- A byte-addressed memory in its canonical form: addresses strictly rising, no zero byte listed. -/
abbrev Memory := List Host.Cell


/-! ### Power, pads and the always-on domain (chapters 01 to 04) -/

/-- The power states of Table 0.6, with the boost point of NOON (R54). -/
inductive PState where
  | noon | boost | dusk | night | glacier | permafrost
deriving DecidableEq, Repr

/-- The condition of a power domain (R53); `held` is powered and held in reset (R38, R89). -/
inductive DomState where
  | on | gated | ret | off | held
deriving DecidableEq, Repr

/-- What a wake sequence is for (R73, R75). -/
inductive WakeKind where
  | powerOn | rstRelease | permafrost | glacier | listen | nightExit | domains (ds : List Dom)
deriving DecidableEq, Repr

/-- One run of the steps of Table 3.5: the step reached, the ready signals still awaited (the first
one is the one a regulator step waits for) and the domains the run has switched on. -/
structure WakeSeq where
  kind : WakeKind
  src : PState
  step : Nat
  waiting : List ReadySig
  doms : List Dom
  raised : List ReadySig
  startAt : Nat
  pins : BitVec 4
deriving DecidableEq, Repr

/-- The wake record of Table 3.7, bytes 0x10 to 0x17 of the backup registers (R77). -/
structure WakeRec where
  src : Byte := 0
  dst : Byte := 0
  step : Byte := 0
  detail : Byte := 0
  fails : Nat := 0
  elapsed : Nat := 0
deriving DecidableEq, Repr

/-- The reset-cause record of Table 4.3, bytes 0x00 to 0x0F of the backup registers (R91). -/
structure ResetRec where
  cause : Byte := 0
  detail : Byte := 0
  prev : Byte := 0
  scopeLast : Byte := 0
  chipCount : Nat := 0
  core0 : Nat := 0
  core1 : Nat := 0
  image : Byte := 0
  tries : Nat := 0
  skip : Byte := 0
  flags : Byte := 0
  ready : Nat := 0
deriving DecidableEq, Repr

/-- The debug level, held in PD_AO (R419): 0 FROZEN, 1 SLUSH, 2 THAWED, with the signer of its token, the
end of its duration, if it has one, and the tenant whose `SEC.THAW` was accepted. -/
structure Debug where
  level : Nat := 0
  signer : Nat := 0xFF
  by_ : Option Nat := none
  ten : Option Ten := none
deriving DecidableEq, Repr

/-- A pending latch of the router (R166). -/
structure Latch where
  tt : Nat
  est : Bool
  data : Word
deriving DecidableEq, Repr

/-- The AO-watch set and the wake configuration (R86, R177): bits 0 to 3 of `set` are the wake pins' enables, bit 8 is
`LW_EN`; a pin is active high or rising, edge or level sensed; the debounce in ticks; `LW_BCAST`. -/
structure WakeCfg where
  set : BitVec 32 := 0
  pinHigh : BitVec 4 := 0
  pinEdge : BitVec 4 := 0
  debounce : Nat := 0
  bcast : Bool := false
deriving DecidableEq, Repr

/-- What PD_AO holds through every reset but a power-on reset (Table 4.1). -/
structure AoState where
  rst : ResetRec := {}
  wake : WakeRec := {}
  /-- The AO-watch set and the wake configuration as step 7 of R64 wrote them (R178). -/
  cfg : WakeCfg := {}
  pend : BitVec 32 := 0
  /-- The stamp and the data of each assertion in `AO_PEND` (R175). -/
  stamps : List (Fin 32 × Latch) := []
  /-- A wake source that failed a wake and has not been inactive since (R76). -/
  spent : BitVec 32 := 0
  keyLock : Bool := false
  dbg : Debug := {}
  imageLock : Option (Fin 2) := none
  /-- The voltage code in force, `VCODE_AO` (R524). -/
  vcode : Nat := 30
  /-- Bytes 0x18 to 0xFF of the backup registers, held for Nergor (R91). -/
  nergor : List Host.Cell := []
deriving DecidableEq, Repr

/-- The balls of chapter 02: levels, detected modes, enables and pull-check faults. -/
structure Pads where
  vbatMv : Nat := 1650
  /-- VBAT above the thresholds of R38. -/
  powered : Bool := true
  rstN : Bool := true
  enAux : Bool := false
  enMain : Bool := false
  /-- The level the board gives `RAIL_OK`, but for a low under way. -/
  railOk : Bool := false
  /-- The end of the last low of `RAIL_OK` (R36, R37). -/
  railLowTo : Nat := 0
  /-- The 32.768 kHz crystal runs (R73). -/
  xtal : Bool := false
  /-- The last instant an enable rose, for the 100 µs of R36. -/
  enRise : Nat := 0
  hostMode : Option Bool := none
  fieldMode : Option Bool := none
  wakePins : BitVec 4 := 0
  los : BitVec 2 := 3
  trstN : Bool := false
  gpio : BitVec 24 := 0
  gpioIn : BitVec 24 := 0
  strap : Bool := false
  /-- `OPT_TXDIS_A`, `OPT_TXDIS_B` pulled low by the terminal (R43). -/
  txdisLow : BitVec 2 := 0
  /-- The level the board gives a released `OPT_TXDIS` ball (R44). -/
  txdisBoard : BitVec 2 := 3
  txdisFault : BitVec 2 := 0
deriving DecidableEq, Repr

/-- `POWER.TIMERS` values (Table 3.14), times in the units of that table. -/
structure TimerCfg where
  tDusk : Nat := 100
  tNight : Nat := 300
  tGlacier : Nat := 3600
  tDark : Nat := 1800
  tInf : Nat := 50
  tAud : Nat := 1000
  tLnl : Nat := 60
  tLnlProbe : Nat := 1000
  tBoost : Nat := 5
  tNotice : Nat := 100
  cMax : Nat := 16
  glacierAuto : Bool := false
  glacierRetain : Bool := true
deriving DecidableEq, Repr

/-- The instants from which the idle timers of Table 3.2 run. -/
structure IdleFrom where
  dusk : Nat := 0
  inf : Nat := 0
  boost : Nat := 0
  aud : Nat := 0
  lnl : Nat := 0
  probe : Nat := 0
  night : Nat := 0
  glacier : Nat := 0
  dark : Nat := 0
deriving DecidableEq, Repr

/-- The change of point a voltage write belongs to (R79, R524). -/
inductive PmicWhy where
  | toNoon | toDusk | toBoost | fromBoost | boot | glacierWake
deriving DecidableEq, Repr

/-- A change of VDD_CORE under way over the PMIC link (R49, R79). -/
structure PmicOp where
  /-- The codes still to be written, the one on the wire first. -/
  codes : List Nat
  why : PmicWhy
  retried : Bool := false
  /-- End of the 50 µs wait of R49, once acknowledged. -/
  settleBy : Option Nat := none
  /-- The instant of the next attempt after a failure. -/
  retryAt : Option Nat := none
  /-- The retry has failed as well, and the write is repeated every 10 ms (chapter 03, "At the edges", R524). -/
  failed : Bool := false
deriving DecidableEq, Repr

/-- Where an entry to GLACIER or PERMAFROST, or a chip-scope `SYS.RESET`, stands (R63, R64, R106). -/
inductive EntryStage where
  | notice | dereg
  /-- The nonce counters are being persisted (R64 step 2, R395). -/
  | persist
deriving DecidableEq, Repr

/-- What an entry leads to. -/
inductive EntryTarget where
  | glacier | permafrost | chipReset
deriving DecidableEq, Repr

/-- An accepted entry (R62, R63). -/
structure Entry where
  target : EntryTarget
  stage : EntryStage
  deadline : Nat
  retain : Bool
  byTenant : Ten
  /-- An owner's command with `FORCE`, which no floor holds back (R57). -/
  force : Bool := false
deriving DecidableEq, Repr

/-- NIGHT negotiation and listening (R66 to R72). -/
structure Night where
  reqCause : Byte := 0
  /-- The request came with `FORCE` from the owner, and no floor holds it back (R57). -/
  reqForce : Bool := false
  answerBy : Option Nat := none
  retryFrom : Nat := 0
  attempts : Nat := 0
  discards : Nat := 0
  /-- A grant accepted and not yet ended. -/
  granted : Bool := false
  cycle : Nat := 0
  /-- TT in ns of the next listen multiframe start. -/
  nextListen : Nat := 0
  /-- A later grant whose anchor has not come: cycle and anchor. -/
  nextGrant : Option (Nat × Nat) := none
  listening : Bool := false
  missedRun : Nat := 0
  missed : Nat := 0
  /-- `NIGHT_EXIT` cause bits gathered and not yet sent. -/
  exitCause : Byte := 0
  exitPending : Bool := false
  /-- A trigger of R72 has come, and the exit is not complete. -/
  exiting : Bool := false
deriving DecidableEq, Repr

/-- A sample against `VREF` (R81). -/
inductive LwLevel where
  | high | low | none
deriving DecidableEq, Repr

/-- The light-wake detector (R81 to R83); voltages in µV. -/
structure LightWake where
  group : Half := 0
  site : Half := 0
  hits : Nat := 0
  ignored : Nat := 0
  badchk : Nat := 0
  lane : Fin 2 := 0
  vref : Nat := 0
  sinceStep : Nat := 0
  farRun : Nat := 0
  samples : List LwLevel := []
  bits : List Bool := []
  body : Option (List Bool) := none
  frame : Option (Half × Half) := none
deriving DecidableEq, Repr

/-- Power states, domains, timers, bias and voltage (chapter 03). -/
structure Power where
  pstate : PState := .permafrost
  dom : Vector DomState 13 := Vector.replicate 13 .off
  wake : Option WakeSeq := none
  /-- Domains whose wake waits for the sequence under way. -/
  wakeQueue : List Dom := []
  cfg : TimerCfg := {}
  idle : IdleFrom := {}
  /-- The end of the 2 ms of a `T_LNL_PROBE` probe. -/
  probing : Option Nat := none
  /-- PD_LNL is being switched on for a probe. -/
  probeWake : Bool := false
  entry : Option Entry := none
  pmic : Option PmicOp := none
  /-- Work came while the voltage was on its way to the DUSK point (R56). -/
  workDue : Bool := false
  /-- DUSK follows the departure from the boost point, after a cancelled entry (R65). -/
  duskDue : Bool := false
  /-- Automatic requests whose timers have expired and that wait for a blocker to end (R61): NIGHT, GLACIER. -/
  nightWaits : Bool := false
  glacierWaits : Bool := false
  rdAssist : Bool := true
  wrAssist : Bool := true
  fwdBias : Bool := false
  /-- Firn clock at 781.25 MHz (R24). -/
  firnFull : Bool := false
  /-- The boost point is to be left at the next Firn layer boundary (R79). -/
  leaveBoost : Bool := false
  boostAuto : Bool := true
  thermalHold : Bool := false
  /-- Junction estimate, units of 0.25 °C. -/
  tj : Int := 100
  night : Night := {}
  /-- The `AO` bits and the wake configuration as commands set them (R177). -/
  wcfg : WakeCfg := {}
  lw : LightWake := {}
  wakeSrc : BitVec 32 := 0
  nightFails : Nat := 0
  /-- Wake pins waiting for the end of their debounce: deadline per pin. -/
  debounceBy : Vector (Option Nat) 4 := Vector.replicate 4 none
  /-- Wake failures to report at the next successful wake (R75). -/
  faultPend : Bool := false
  /-- Retained SRAM contents lost by a failed memory step (R75). -/
  memLost : Bool := false
deriving DecidableEq, Repr

/-- Where a chip-scope start stands. -/
inductive BootPhase where
  | held | waking | rom | recovery | running
deriving DecidableEq, Repr

/-- The recovery window's registers (Table 4.7). -/
structure Recovery where
  state : Nat := 1
  err : Nat := 0
  next : Nat := 0
  len : Nat := 0
  chunk : Nat := 0
  crc : Word := 0
  target : Fin 2 := 0
  buf : List Host.Cell := []
  staged : List Byte := []
deriving DecidableEq, Repr

/-- Boot, watchdogs and resets (chapter 04). -/
structure Boot where
  phase : BootPhase := .waking
  releaseAt : Nat := 0
  /-- Cause and detail of the start under way, by the priority of Table 4.4. -/
  cause : Option (Nat × Nat) := none
  image : Option (Fin 2) := none
  wdt0 : List Nat := []
  wdt1 : List Nat := []
  core0Up : Bool := false
  core1Up : Bool := false
  /-- Slot 7 is served by CC0 (R25). -/
  mbxReady : Bool := false
  rcv : Recovery := {}
  domReset : List (Dom × Nat) := []
  /-- A domain in the 10 µs of R89, with the instant its wake starts. -/
  domHeld : Option (Dom × Nat) := none
deriving DecidableEq, Repr

/-- The state of an image region (R98). -/
inductive ImageState where
  | fresh | confirmed | rejected
deriving DecidableEq, Repr

/-- The image control block (R98), in the key store and nonce-counter region. -/
structure Icb where
  minSvn : Nat := 0
  stateA : ImageState := .confirmed
  stateB : ImageState := .rejected
deriving DecidableEq, Repr

/-! ### Terminal time (chapter 12); a TT value is in units of 2⁻¹⁶ ns unless its name says otherwise -/

/-- Session states of Table 12.1. -/
inductive SState where
  | none | unstepped | locked | holdover | fault
deriving DecidableEq, Repr

/-- The source of a time session (R274). -/
inductive SSource where
  | none | head | tenant (t : Ten)
deriving DecidableEq, Repr

/-- The base of `TE_EST` (R286); `E0` in ns and the instant of entry. -/
inductive TeBase where
  | unknown | drift (e0 at_ : Nat) | glacier (e0 at_ : Nat)
deriving DecidableEq, Repr

/-- The holdover model of `TIME.CONFIG` (R286, Table 12.4), in the units of that table. -/
structure TimeCfg where
  y0 : Nat := 20
  d : Nat := 100
  yTk : Nat := 100
deriving DecidableEq, Repr

/-- An armed or parked comparator (R292); the target in ns. -/
structure Cmp where
  owner : Ten
  target : Nat
  parked : Bool
deriving DecidableEq, Repr

/-- Modes of `PPS_OUT` and `GRID_REF_OUT` (R299). -/
inductive OutMode where
  | off | always | qualified
deriving DecidableEq, Repr

/-- `PPS_OUT` (R300). -/
structure Pps where
  mode : OutMode := .off
  widthUs : Nat := 100000
  last : Option Nat := none
deriving DecidableEq, Repr

/-- `GRID_REF_OUT` (R301): F in mHz, `T0` in ns, N; the cycle that runs, its start as an instant, and
the period in force when it began. -/
structure Grid where
  mode : OutMode := .off
  f : Nat := 50000
  t0 : Nat := 0
  n : Nat := 1
  cycle : Option Nat := none
  cycleAt : Nat := 0
  half : Nat := 0
  /-- A new setting or a step has come since the cycle began. -/
  changed : Bool := false
deriving DecidableEq, Repr

/-- A pulse output (R302); times in ns. -/
structure Pulse where
  invert : Bool := false
  active : Bool := false
  start : Option Nat := none
  stop : Option Nat := none
deriving DecidableEq, Repr

/-- A capture record (R304). -/
structure Stamp where
  tt : Nat
  rising : Bool
  est : Bool
  loss : Bool
deriving DecidableEq, Repr

/-- A capture input (R304): its edges, its FIFO, the half-nanosecond instant of the last captured edge. -/
structure Capture where
  cfg : BitVec 2 := 0
  fifo : List Stamp := []
  lost : Nat := 0
  loss : Bool := false
  lastEdge : Option Nat := none
deriving DecidableEq, Repr

/-- The low-rate timekeeper (R289): TT at the tick it was loaded, that instant, and its period. -/
structure Timekeeper where
  tt : Nat
  at_ : Nat
  period : Nat
deriving DecidableEq, Repr

/-- A frame-start stamp that CC1 has not processed (R278): the lane, TT(capture) and `HE_TS`. -/
structure HeadStamp where
  lane : Fin 2
  capture : Int
  /-- The lane's round trip and the timing fields in force for the frame (R242, R283). -/
  rtd : Option Nat
  timing : Option (Int × Int × Int)
  heTs : Nat
deriving DecidableEq, Repr

/-- The time unit and the calendar. -/
structure TimeUnit where
  /-- The instant at which the FRC was 0 (R270). -/
  epoch : Nat := 0
  offset : Int := 0
  anchor : Nat := 0
  rate : Int := 0
  unset : Bool := true
  estimated : Bool := false
  sstate : SState := .none
  source : SSource := .none
  gen : Half := 0
  spent : Bool := false
  ebar : Int := 0
  outliers : Nat := 0
  run : Nat := 0
  /-- Usable stamps' errors since the last correction (R280). -/
  errs : List Int := []
  /-- Stamps in a row beyond 1 ms (R282). -/
  bad : Nat := 0
  lastStamp : Nat := 0
  lastCorr : Nat := 0
  target : Option Int := none
  stamp : Option HeadStamp := none
  utcOff : Int := 0
  leapKind : Nat := 0
  leapAt : Nat := 0
  traceable : Bool := false
  /-- Timing fields held (R283): `ASYM_A`, `ASYM_B`, `HE_DELTA`. -/
  timing : Option (Int × Int × Int) := none
  te : TeBase := .unknown
  cfg : TimeCfg := {}
  holdovers : Nat := 0
  pulseLost : Nat := 0
  cmps : Vector (Option Cmp) 16 := Vector.replicate 16 none
  /-- Alarms in PD_TKP, in TT seconds (R298). -/
  alarms : Vector (Option Nat) 4 := Vector.replicate 4 none
  zones : Vector Int 8 := Vector.replicate 8 0
  pps : Pps := {}
  grid : Grid := {}
  pulses : Vector Pulse 2 := Vector.replicate 2 {}
  caps : Vector Capture 4 := Vector.replicate 4 {}
  tk : Option Timekeeper := none
deriving DecidableEq, Repr


/-! ### Clock synthesis (chapter 13) -/

/-- States of DPLL-T (Table 13.2). -/
inductive Dpll where
  | open_ | acquire | track | hold
deriving DecidableEq, Repr

/-- A run-time relock (R316): the entries still to try, the one under trial first, the end of the
present attempt, the next search after a failure, the domains whose clocks stand, and the
`CLOCK.RELOCK` that asked. -/
structure Relock where
  tries : List (Fin 32)
  attemptBy : Option Nat
  retryAt : Option Nat
  stopped : List Dom
  by_ : Option (Ten × SlotIx)
deriving DecidableEq, Repr

/-- PLL-A, the band table, dither, the reference supervisor and DPLL-T. -/
structure Clk where
  /-- The band table (Table 13.1), in PD_TKP. -/
  bands : Vector (BitVec 64) 32 := Vector.replicate 32 0
  romDefault : Bool := false
  /-- The entry in use; none for the ROM's default entry. -/
  entry : Option (Fin 32) := none
  lock : Bool := false
  coast : Bool := false
  coastAt : Nat := 0
  refOk : Bool := false
  /-- The supervisor counts against PD_AO's oscillator (R314). -/
  fallback : Bool := false
  /-- End of the 1 ms after re-closing (R316). -/
  recloseBy : Option Nat := none
  /-- The search at the PLL step of a wake (R312). -/
  wakeTries : List (Fin 32) := []
  relock : Option Relock := none
  steer : Int := 0
  dpll : Dpll := .open_
  /-- TRACK has been reached since the last chip-scope start. -/
  tracked : Bool := false
  /-- ACQUIRE has made its jump. -/
  jumped : Bool := false
  /-- The last update of the loop in TRACK. -/
  loopAt : Nat := 0
  ferr : Int := 0
  bw : Nat := 1
  amp : Nat := 1
  seed : Nat := 0x5A5A5A
  lolCount : Nat := 0
  lorCount : Nat := 0
  relocks : Nat := 0
  holds : Nat := 0
  steerLim : Nat := 0
  lastCoast : Nat := 0
deriving DecidableEq, Repr


/-! ### Mailboxes, tenants and the event router (chapters 05 to 07) -/

/-- The states of a slot (R122), PENDING split by R125: doorbell taken and held, accepted, started. -/
inductive Phase where
  | empty | held | accepted | running | ready
deriving DecidableEq, Repr

/-- Why a running command was asked to stop at its next safe point (R128 to R130, R156, R158). -/
inductive StopWhy where
  | abort | timeout | faulted | detach | reset | entry | lease
deriving DecidableEq, Repr

/-- What the checks of a started command go by (R146, R160): the authority mask with `OWNER`, the lease mask, and the
partition size in units of 64 KiB, as they stood at its start. -/
structure Rights where
  auth : Half := 0
  leases : Nat := 0
  part : Nat := 0
deriving DecidableEq, Repr

/-- Command slot n and result slot n together (R122, Tables 5.5 and 5.7). -/
structure Slot where
  phase : Phase := .empty
  /-- The 64 bytes of the command slot as the window shows them. -/
  cmd : Vector Byte 64 := Vector.replicate 64 0
  /-- The descriptor the doorbell copied. -/
  desc : Vector Byte 64 := Vector.replicate 64 0
  order : Nat := 0
  deadline : Option Nat := none
  stop : Option StopWhy := none
  /-- The slots of this tenant whose `SYS.ABORT` waits for this command. -/
  aborters : List SlotIx := []
  /-- Its `TIMEOUT` has expired (R129), or a `SYS.ABORT` has named it (R130). -/
  expired : Bool := false
  abortAsked : Bool := false
  /-- A command of slot 7 that CC0 accepted, or whose result a reset of CC1 leaves to CC0 (R25, R131). -/
  core0 : Bool := false
  /-- What the tenant held when the command started (R146, R160). -/
  rights : Rights := {}
  /-- The command of a slot emptied while it ran, completing without a result (R128, Table 6.7). -/
  ghost : Bool := false
  status : Half := 3
  data : List Byte := []
  readCount : Nat := 0
  bulkOut : Bool := false
  restart : Bool := false
  timedOut : Bool := false
  late : Bool := false
deriving DecidableEq, Repr

/-- An event record of the ring (Table 5.8). -/
structure EvtRec where
  flags : Byte := 0
  vid : Byte := 0
  code : Half := 0
  tt : Nat := 0
  data : Word := 0
  seq : Half := 0
deriving DecidableEq, Repr

/-- DETACHED, ATTACHED or FAULTED (R139). -/
inductive TState where
  | detached | attached | faulted
deriving DecidableEq, Repr

/-- The lane attach exchange of one tenant (R143). -/
structure AttachEx where
  nT : List Byte := []
  nD : List Byte := []
  session : Word := 0
  leaseMs : Nat := 0
  hbAlways : Bool := false
  src : List Byte := []
  /-- The instant of `ATTACH_CHAL`, while an exchange is open. -/
  chalAt : Option Nat := none
  fails : List Nat := []
  lockBy : Option Nat := none
deriving DecidableEq, Repr

/-- A token bucket: tokens in units of 10⁻⁹ of a token, and the instant they were counted. -/
structure Bucket where
  level : Nat := 0
  at_ : Nat := 0
deriving DecidableEq, Repr

/-- The binding, rights and shares of a tenant, held in the ENS config region (R137, R150). -/
structure TenCfg where
  transport : Byte := 0
  cred : Nat := 0
  auth : Half := 0
  weight : Nat := 16
  rate : Nat := 1000
  firnWeight : Nat := 16
  evtBudget : Nat := 500
  uqMask : BitVec 64 := 0
  gsCap : Vector Nat 8 := Vector.replicate 8 0
  /-- Partition size in units of 64 KiB (R151). -/
  part : Nat := 4
deriving DecidableEq, Repr

/-- The window registers of Table 5.1 that hold a value of their own. -/
structure Win where
  coreRestart : Bool := false
  evtOvf : Bool := false
  bulkErr : Bool := false
  ringErr : Bool := false
  wbufOvf : Bool := false
  irqRes : Bool := true
  irqEvt : Bool := true
  cpri : BitVec 4 := 0
  head : Half := 0
  tail : Half := 0
  bulkBase : BitVec 14 := 0
  beat : Word := 0
deriving DecidableEq, Repr

/-- One tenant: its session, its window, its slots, its ring and its notices. -/
structure Tenant where
  st : TState := .detached
  session : Word := 0
  base : Word := 0
  cfg : TenCfg := {}
  leaseMs : Nat := 1000
  hbAlways : Bool := false
  /-- The instant the heartbeat watch last started, while it runs (R155). -/
  hbFrom : Option Nat := none
  /-- The instant of the last heartbeat. -/
  hbLast : Nat := 0
  floor : Option PState := none
  residual : Bool := false
  win : Win := {}
  slots : Vector Slot 8 := Vector.replicate 8 {}
  ring : Vector EvtRec 64 := Vector.replicate 64 {}
  evtSeq : Half := 0
  loss : Bool := false
  lostBudget : Nat := 0
  lostRing : Nat := 0
  vids : Vector (Option (Fin 256)) 64 := Vector.replicate 64 none
  cmdBucket : Bucket := { level := 8 * 10 ^ 9 }
  evtBucket : Bucket := {}
  /-- Commands started at CC0's present visit (R125). -/
  visit : Nat := 0
  /-- The MBX_READY notice of R96 is outstanding. -/
  notice : Bool := false
  /-- `MBX_STATUS` read since the last notice (R119, R176). -/
  statusRead : Bool := false
  noticeBy : Option Nat := none
  noticeSeq : Half := 0
  ibSeq : Half := 0
  ibResp : List Byte := []
  ibMac : List Byte := []
  att : AttachEx := {}
deriving DecidableEq, Repr

/-- Posted write data of an SPI port (R114): a window offset and a run of bytes. -/
structure Posted where
  off : Nat
  data : List Byte
deriving DecidableEq, Repr

/-- An SPI port: its write buffer (R114, R115) and its R96 notice. -/
structure Port where
  buf : List Posted := []
  notice : Bool := false
  /-- A read of the bulk aperture that waits for the exit from NIGHT (R113): offset and length. -/
  waiting : Option (Nat × Nat) := none
deriving DecidableEq, Repr

/-- What a result that waits still has to do when it is posted (R154, R159, R160). -/
inductive Finish where
  /-- Nothing but the result. -/
  | plain
  /-- The lease of a resource granted to the requester. -/
  | grant (id : Nat)
  /-- A tenant's session ended by reset: `KEEP_MEM`, and the commands stopped. -/
  | reset (target : Ten) (keep : Bool) (stopped : Nat)
  /-- A tenant's session ended by its own detach. -/
  | detach
deriving DecidableEq, Repr

/-- A command whose result waits for accesses begun under an old permission, for stopped commands
and for resources whose revocation is completing (R154, R159, R160). -/
structure Drain where
  ten : Ten
  slot : SlotIx
  data : List Byte
  /-- Running commands that must end first. -/
  after : List (Ten × SlotIx)
  /-- Resources whose revocation must complete first. -/
  res : List Nat
  /-- Frames classified under an old permission that must leave the reorder buffer first, by number. -/
  held : List Nat := []
  fin : Finish
deriving DecidableEq, Repr

/-- A command with no safe point whose slot was emptied while it ran (R128, Table 6.7). -/
structure Ghost where
  ten : Ten
  slot : SlotIx
  cmd : Slot
deriving DecidableEq, Repr

/-- What the mailbox machinery shares among tenants. -/
structure Mbx where
  ports : Vector Port 4 := Vector.replicate 4 {}
  /-- Next acceptance number. -/
  nextOrder : Nat := 0
  /-- The tenant CC0 visits (R125). -/
  rr : Ten := 0
  delegate : Option (Ten × Nat) := none
  /-- Lease holders (R153): bit-numbered resource and tenant. -/
  leases : List (Nat × Ten) := []
  /-- Resources whose revocation is still completing (R154, R162). -/
  revoking : List Nat := []
  /-- Resources that CC0 still has to stop for a rescue, with the tenant rescued (R162). -/
  residue : List (Ten × Nat) := []
  drains : List Drain := []
  ghosts : List Ghost := []
  /-- Frames dropped at L2 and L3 before the parser (R117, R143). -/
  ibDrops : Vector Nat 2 := Vector.replicate 2 0
  attDrops : Vector Nat 2 := Vector.replicate 2 0
  /-- Instants of the `ATTACH_REQ` frames of the last second, per lane (R143). -/
  attReqs : Vector (List Nat) 2 := Vector.replicate 2 []
deriving DecidableEq, Repr

/-- A routing entry of Table 7.2 with its latch and counts; the core bits of `TARGETS` follow
from the source's number (R526), and the `AO` bits of all entries stand together in `WakeCfg` (R165). -/
structure Source where
  en : Bool := true
  lowest : Bool := false
  prio : BitVec 4 := 8
  /-- Tenant bits of `TARGETS`, T0 first. -/
  targets : BitVec 8 := 0
  latch : Option Latch := none
  merged : Nat := 0
  noTarget : Nat := 0
  /-- The round-robin pointer of R173, as a tenant number. -/
  ptr : Ten := 0
deriving DecidableEq, Repr

/-- A directed firmware event that the router has not served (R168). -/
structure Directed where
  code : Half
  targets : BitVec 8
  latch : Latch
deriving DecidableEq, Repr

/-- The event router (chapter 07). -/
structure Router where
  srcs : Vector Source 256 := Vector.replicate 256 {}
  directed : List Directed := []
  /-- The event each core has taken last (R171, R179). -/
  core : Vector (Option (Fin 256 × Latch)) 2 := Vector.replicate 2 none
deriving DecidableEq, Repr



/-! ### Lanes (chapter 08) -/

/-- A serial lane's receiver and serialiser (R184, R188 to R192): lane 0 is A, 1 B, 2 L2, 3 L3. -/
structure Phy where
  /-- Locked (R188), or synchronised with negotiation complete (R189). -/
  lock : Bool := false
  /-- End of the 10 ms of R190 while they run. -/
  qualBy : Option Nat := none
  /-- Lock or link held for 10 ms since the last loss (R190). -/
  good : Bool := false
  /-- A loss has come since the lane was powered (R190). -/
  lost : Bool := false
  raw : Bool := false
  /-- The pattern a raw local lane sends (R191). -/
  pattern : List (BitVec 9) := []
  /-- Slips applied, modulo 10 (R192). -/
  slips : Nat := 0
  /-- A slip that takes effect (R192): its command and its UI. -/
  slip : Option (Ten × SlotIx × Nat) := none
  /-- Code-groups have been judged since the lane's reset, so its running disparity is the stream's (R184). -/
  seen : Bool := false
  /-- The last 24 code-groups as `LANE.CAPTURE` gives them, oldest first. -/
  recent : List Half := []
  invalid : Nat := 0
  disparity : Nat := 0
  losses : Nat := 0
deriving DecidableEq, Repr

/-- `LANE.CONFIG` of the fibre lanes (Table 8.7). -/
structure ProtCfg where
  revertive : Bool := false
  preferB : Bool := false
  holdOffUs : Nat := 500
  wtrS : Nat := 300
  invert : BitVec 4 := 0
deriving DecidableEq, Repr

/-- Fibre protection (R193 to R200). -/
structure Prot where
  cfg : ProtCfg := {}
  active : Fin 2 := 0
  lockout : Bool := false
  /-- End of the hold-off of R196. -/
  holdBy : Option Nat := none
  /-- End of the wait to restore (R198). -/
  wtrBy : Option Nat := none
  /-- Both lanes have been lost: the active one waits until it has re-locked and its channel is in SYNC (R199). -/
  bothLost : Bool := false
  /-- Ranged with no loss since (R195). -/
  fit : Vector Bool 2 := Vector.replicate 2 false
  hits : Vector Nat 2 := Vector.replicate 2 0
  switches : Vector Nat 2 := Vector.replicate 2 0
deriving DecidableEq, Repr

/-- `LANE.CONFIG` of a local lane (Table 8.7). -/
structure LocalCfg where
  mode : Nat := 2
  an : Bool := true
  pauseRx : Bool := false
  pauseTx : Bool := false
  invert : BitVec 2 := 0
  holdMs : Nat := 50
  quanta : Nat := 0xFFFF
deriving DecidableEq, Repr

/-- A frame of a local lane's own MAC: destination, EtherType, payload. -/
structure MacFrame where
  dst : List Byte
  etype : Half
  payload : List Byte
deriving DecidableEq, Repr

/-- A local lane's PCS results, MAC and counters (R201 to R207). -/
structure LocalLane where
  cfg : LocalCfg := {}
  /-- 0 10, 1 100, 2 1,000, 3 2,500 Mbit/s. -/
  speed : Nat := 2
  negotiated : Bool := false
  rxPause : Bool := false
  txPause : Bool := false
  /-- End of the received PAUSE time (R205). -/
  pausedBy : Option Nat := none
  /-- The MAC sends a frame until this instant. -/
  busyTo : Nat := 0
  /-- Its own frames that wait for the end of the PAUSE time (R205). -/
  macq : List MacFrame := []
  /-- The queue and the cells of the frame it sends, held until then (R351). -/
  txQid : Nat := 0
  txCells : Nat := 0
  /-- End of the egress hold (R201). -/
  holdBy : Option Nat := none
  /-- The ingress stands above XOFF and has not fallen below XON; the next repeat (R206). -/
  xoff : Bool := false
  repeatBy : Option Nat := none
  fcsErr : Nat := 0
  pauseRxN : Nat := 0
  pauseTxN : Nat := 0
  ctlDrop : Nat := 0
  oversize : Nat := 0
  rxFrames : Nat := 0
  txFrames : Nat := 0
  /-- Half-duplex announcements and received remote faults (Table 8.5). -/
  halfDuplex : Nat := 0
  remoteFaults : Nat := 0
deriving DecidableEq, Repr

/-- The four lanes. -/
structure Lanes where
  phy : Vector Phy 4 := Vector.replicate 4 {}
  prot : Prot := {}
  locals : Vector LocalLane 2 := Vector.replicate 2 {}
deriving DecidableEq, Repr


/-! ### Lineatex downstream (chapter 09) -/

/-- Frame alignment states (Table 9.7). -/
inductive FState where
  | hunt | presync | sync
deriving DecidableEq, Repr

/-- The counters of Table 9.11. -/
structure ChanCounts where
  lofEvents : Nat := 0
  frames : Nat := 0
  hdrFail : Nat := 0
  fawErr : Nat := 0
  lmmDrop : Nat := 0
  grantDrop : Nat := 0
  hecErr : Nat := 0
  authFail : Nat := 0
  replay : Nat := 0
  noKey : Nat := 0
  tribCrc : Nat := 0
  overrun : Nat := 0
deriving DecidableEq, Repr

/-- The frame a channel is receiving: what its header gave and how far delineation has come (R210 to
R220). -/
structure FrameRx where
  /-- A header has been checked since the FAW. -/
  judged : Bool := false
  hdrOk : Bool := false
  gmapLen : Nat := 0
  entries : Nat := 0
  /-- Slots that carry a message by `LMM_USED` and have not come yet (R213). -/
  lmm : BitVec 3 := 0
  /-- Silencing ended inside this frame's grant map: entries are taken from the next one (R226, R247). -/
  mapDead : Bool := false
  tribCnt : Nat := 0
  tribLen : Nat := 0
  tribSeen : Nat := 0
  tribBytes : Nat := 0
  tribDead : Bool := false
  pktCnt : Nat := 0
  pktSeen : Nat := 0
  /-- Data-byte offset of the next packet container. -/
  pos : Nat := 0
  pktDead : Bool := false
deriving DecidableEq, Repr

/-- A framer channel (R222 to R224). -/
structure Chan where
  st : FState := .hunt
  /-- Number of the present downstream frame. -/
  k : Nat := 0
  /-- Its frame start, as an instant; `half` adds 0.5 ns (R209). -/
  start : Nat := 0
  half : Bool := false
  /-- The arrival capture: FRC in [47:0], interpolator phase above (R209, R278). -/
  capture : Nat := 0
  /-- TT at the capture. -/
  capTt : Int := 0
  fawOk : Bool := false
  /-- Consecutive errored FAWs in SYNC. -/
  fawRun : Nat := 0
  rx : FrameRx := {}
  /-- The last valid header and its capture (Table 9.10). -/
  hdr : List Byte := []
  hdrCap : Nat := 0
  aligned : Bool := false
  /-- Predicted MFI of the present frame while aligned. -/
  mfi : Nat := 0
  /-- The reference of R223: MFI and frame. -/
  ref : Option (Nat × Nat) := none
  count : Nat := 0
  miss : Nat := 0
  /-- Header-check failures of the last 8 frames processed in SYNC, newest first. -/
  window : List Bool := []
  /-- The frame position and multiframe alignment kept through the sleep of NIGHT (R69): number, start and MFI of a
  frame. -/
  kept : Option (Nat × Nat × Nat) := none
  /-- Since when the channel has been out of SYNC. -/
  lofFrom : Option Nat := some 0
  n : ChanCounts := {}
deriving DecidableEq, Repr

/-- Both channels, silencing (R226) and the key switch (R227, R228). -/
structure Framer where
  ch : Vector Chan 2 := Vector.replicate 2 {}
  lol : Bool := false
  /-- End of the 1 ms of `PLLA_LOCK` that clears LOL (Table 9.8). -/
  lolBy : Option Nat := none
  silenced : Bool := false
  /-- The defects sources 0x51 to 0x53 last reported: LOF, LOMF, RDI. -/
  told : BitVec 3 := 0
  kiDown : Bool := false
  kiUp : Bool := false
  /-- The armed boundary: frame number of its first frame. -/
  arm : Option Nat := none
  /-- A switch that waits for a missing key (R228). -/
  late : Bool := false
  /-- The generation to retire and the frame number from which it is retired. -/
  retire : Option (Bool × Nat) := none
  /-- The boundary of the last switch (R227). -/
  lastSwitch : Option Nat := none
  /-- Announcements that break the guarantee of R227, discarded and counted (R3). -/
  breach : Nat := 0
deriving DecidableEq, Repr


/-! ### Discovery, registration and ranging (chapter 10) -/

/-- Activation states (Table 10.1). -/
inductive Act where
  | initial | listen | discovery | auth | ranging | inService | silent | dereg
deriving DecidableEq, Repr

/-- A ranging or serial-number burst that waits for its start. -/
structure Shot where
  /-- The upstream frame, its start in bt, and the back-off of a serial-number burst. -/
  frame : Nat
  start : Nat
  backoff : Nat := 0
  /-- The downstream frame its entry came in. -/
  rx : Nat := 0
deriving DecidableEq, Repr

/-- What an `LTX.ACTIVATION` that waits for its notice will do (R246, R248). -/
structure ActWait where
  ten : Ten
  slot : SlotIx
  rediscover : Bool
  by_ : Nat
  /-- The wait belongs to a `SEC.RETIRE` (R418). -/
  retire : Bool := false
  /-- Its session was rescued: nothing is posted for it (R162). -/
  orphan : Bool := false
deriving DecidableEq, Repr

/-- A new EqD waiting for its upstream frame (R243). -/
structure EqdNext where
  value : Nat
  frame : Nat
deriving DecidableEq, Repr

/-- Registration. -/
structure Reg where
  st : Act := .initial
  rh : Nat := 0xFFF
  /-- EqD × 16 + φ per lane. -/
  eqd : Vector Nat 2 := Vector.replicate 2 0
  eqdNext : Vector (Option EqdNext) 2 := Vector.replicate 2 none
  /-- End of the lane's last burst under the old values, in ns (R243). -/
  lastEnd : Vector Nat 2 := Vector.replicate 2 0
  rtd : Vector Nat 2 := Vector.replicate 2 0
  ranged : Vector Bool 2 := Vector.replicate 2 false
  /-- A ranging burst is outstanding (R242). -/
  shotOut : Vector Bool 2 := Vector.replicate 2 false
  /-- The lane's last result asked it to range again, so its ranging goes on (R242). -/
  again : Vector Bool 2 := Vector.replicate 2 false
  /-- Ranging bursts sent since ranging began. -/
  rangeTries : Vector Nat 2 := Vector.replicate 2 0
  /-- Ranging bursts accepted and not sent. -/
  rangeShot : Vector (List Shot) 2 := Vector.replicate 2 []
  serial : Option Shot := none
  /-- Serial-number bursts since LISTEN. -/
  attempts : Nat := 0
  /-- Discovery entries still to be skipped (R235). -/
  skip : Nat := 0
  tAssign : Option Nat := none
  tAuth : Option Nat := none
  tRange : Option Nat := none
  silentBy : Option Nat := none
  nHe : List Byte := []
  nT : List Byte := []
  /-- Highest accepted `KSEQ` and the index in current use, by role (R240). -/
  kseq : Vector Nat 3 := Vector.replicate 3 0
  inUse : Vector (Option Bool) 3 := Vector.replicate 3 none
  /-- One more than the highest accepted `IV_CTR`, by downstream role and generation; 0 when none has been
  accepted (R219). -/
  ivHigh : Vector Nat 4 := Vector.replicate 4 0
  authFails : Nat := 0
  oseq : Option Nat := none
  oresp : List Byte := []
  wait : Option ActWait := none
  snSent : Nat := 0
  timeouts : Nat := 0
  keyFail : Nat := 0
  regDrop : Nat := 0
  deregs : Nat := 0
  lastDereg : Nat := 0
  lastReason : Nat := 0
deriving DecidableEq, Repr


/-! ### Parsing and traffic (chapters 14 and 15) -/

/-- Colours of R333. -/
inductive Colour where
  | green | yellow | red
deriving DecidableEq, Repr

/-- A frame, destination address to last payload byte, without FCS (R325). -/
structure Frame where
  bytes : List Byte
  src : Fin 4 := 0
  oversize : Bool := false
  /-- The injecting tenant of source 3. -/
  ten : Ten := 0
  /-- Its container was addressed to RH 0x000. -/
  bcast : Bool := false
  colour : Colour := .green
  /-- The admission time, an instant. -/
  at_ : Nat := 0
deriving DecidableEq, Repr

/-- A profile of Table 14.2. -/
structure Profile where
  valid : Bool := false
  kind : Nat := 0
  etype : Nat := 0
  mask : Nat := 0
  l3 : Nat := 0
  nh : Nat := 0
  /-- Offset with `L4REL` in bit 15, length, and mask bytes, by field. -/
  fields : List (Nat × Nat × List Byte) := []
  default_ : Nat := 0
deriving DecidableEq, Repr

/-- A rule-table entry (R332); value and care as the bytes of Table 14.9. -/
structure Rule where
  num : Nat
  value : List Byte
  care : List Byte
  action : Nat
  vmask : BitVec 4
deriving DecidableEq, Repr

/-- Where a frame in flight stands (R326, R330, R336). -/
inductive FlightAt where
  | lane (l : Fin 4) | slow (by_ : Nat) | decided (action : Nat) | dropped
deriving DecidableEq, Repr

/-- A frame in a reorder buffer. -/
structure Flight where
  seq : Half
  tag : Fin 4
  frame : Frame
  key : List Byte
  prof : Nat
  /-- Its number among all frames taken. -/
  n : Nat
  at_ : FlightAt
  /-- The injecting tenant's `UQ_MASK` when the action was decided (R160). -/
  uq : BitVec 64 := 0
deriving DecidableEq, Repr

/-- A slow-path descriptor (R330): the frame it names, which may have left its reorder position. -/
structure SlowItem where
  src : Fin 4
  n : Nat
  size : Nat
deriving DecidableEq, Repr

/-- A PAUSE commit under way (R344). -/
structure PauseUpd where
  ten : Ten
  slot : SlotIx
  by_ : Nat
  persist : Bool
  /-- Its session was rescued: nothing is posted for it (R162). -/
  orphan : Bool := false
deriving DecidableEq, Repr

/-- A rule version as persisted (R348): profiles and entries. -/
structure Version where
  profiles : Vector Profile 5
  rules : List Rule
deriving DecidableEq, Repr

/-- The profiles of a terminal without a rule table (R338); index 4 is profile 7. -/
def Profile.none_ : Vector Profile 5 := (Vector.replicate 5 {}).set 4 { valid := true }

/-- The parser, the classifier and its versions (chapter 14). -/
structure Parser where
  fifo : Vector (List Frame) 4 := Vector.replicate 4 []
  nextSrc : Fin 4 := 0
  seqs : Vector Half 4 := Vector.replicate 4 0
  taken : Nat := 0
  reorder : Vector (List Flight) 4 := Vector.replicate 4 []
  cur : Fin 4 := 0
  drain : Option (Fin 4) := none
  queued : Option (Fin 4) := none
  staging : Option (Fin 4) := none
  profiles : Vector (Vector Profile 5) 4 := Vector.replicate 4 Profile.none_
  rules : List Rule := []
  counters : List (Nat × Nat × Nat) := []
  /-- When the present DRAINING tag left CURRENT. -/
  drainAt : Nat := 0
  lastDrainUs : Nat := 0
  /-- PERSIST was asked for the version named, which is QUEUED or CURRENT. -/
  persist : Option (Fin 4) := none
  pause : Option PauseUpd := none
  lanesIn : Vector Bool 4 := Vector.replicate 4 true
  laneRr : Fin 4 := 0
  /-- Parity errors of a lane in the last second. -/
  laneErrs : Vector (List Nat) 4 := Vector.replicate 4 []
  /-- A `RULES.LANE` out that waits for the lane to empty, or an in that waits for its marker. -/
  laneOut : Vector (Option (Option (Ten × SlotIx))) 4 := Vector.replicate 4 none
  laneIn : Vector (Option (Option (Ten × SlotIx))) 4 := Vector.replicate 4 none
  slow : List SlowItem := []
  slowBucket : Bucket := { level := 64 * 10 ^ 9 }
  slowDeadline : Nat := 500
  slowSecond : Nat := 0
  slowSecondBy : Nat := 10 ^ 9
  slowIn : Nat := 0
  slowDrop : Nat := 0
  slowLate : Nat := 0
  lenErr : Nat := 0
  oversize : Nat := 0
  inFull : Nat := 0
  dsUp : Nat := 0
  uqDeny : Nat := 0
  noDest : Nat := 0
  laneErr : Nat := 0
  entryErr : Nat := 0
  pauseTo : Nat := 0
deriving DecidableEq, Repr

/-- The settings of a queue (R352, R357, R369): cells, kbit/s, bytes, µs. -/
structure QueueCfg where
  qmax : Nat := 256
  ymax : Nat := 128
  shape : Bool := false
  kbps : Nat := 1
  hi : Nat := 16384
  lo : Int := -16384
  latTh : Nat := 0
deriving DecidableEq, Repr

/-- A queue of Table 15.1. -/
structure Queue where
  cfg : QueueCfg := {}
  /-- Frames not yet taken, the head first. -/
  frames : List Frame := []
  /-- Credit in 1/256 byte, and the instant it was counted (R357). -/
  credit : Int := 0
  creditAt : Nat := 0
  hwmDepth : Nat := 0
  /-- The greatest sojourn, in ns (R368). -/
  hwmDelay : Nat := 0
  enq : Nat := 0
  sent : Nat := 0
  tailDrop : Nat := 0
  yDrop : Nat := 0
  redDrop : Nat := 0
  flush : Nat := 0
deriving DecidableEq, Repr

/-- An upstream queue's place (R256). -/
structure QMap where
  gs : Fin 8
  band : Fin 4
  prot : Bool := false
  plen : Nat := 0
deriving DecidableEq, Repr

/-- A policer (Table 15.4); rates in kbit/s, buckets in bytes. -/
structure PolicerCfg where
  en : Bool := false
  aware : Bool := false
  cir : Nat := 0
  pir : Nat := 0
  cbs : Nat := 64
  pbs : Nat := 64
deriving DecidableEq, Repr

/-- A policer with its buckets in units of 1/8,000,000 byte (1 kbit/s for 1 ns) and its counts. -/
structure Policer where
  cfg : PolicerCfg := {}
  tc : Nat := 0
  tp : Nat := 0
  at_ : Nat := 0
  green : Nat := 0
  yellow : Nat := 0
  red : Nat := 0
deriving DecidableEq, Repr

/-- `TRAFFIC.BUFFER` (Table 15.7); thresholds in KiB. -/
structure BufCfg where
  upCells : Nat := 4096
  xoff : Vector Nat 2 := Vector.replicate 2 8
  xon : Vector Nat 2 := Vector.replicate 2 4
deriving DecidableEq, Repr

/-- A hold: until cancelled, or until an instant (R364). -/
structure Hold where
  until_ : Option Nat
  incProt : Bool := false
deriving DecidableEq, Repr

/-- The latency watch sampler (R370). -/
structure Sampler where
  running : Bool := false
  k : Nat := 0
  qids : List Nat := []
  start : Nat := 0
  startTt : Nat := 0
  period : Nat := 0
  /-- The ring: entries of 64 bits, newest first, and the write index. -/
  ring : List (BitVec 64) := []
  index : Nat := 0
deriving DecidableEq, Repr

/-- The default grant stream and band of an upstream queue (R256). -/
def QMap.default (q : Fin 64) : QMap :=
  { gs := Fin.ofNat 8 (q.val / 8), band := Fin.ofNat 4 (q.val % 8 / 2) }

/-- The default limits (R352). -/
def QueueCfg.default (qid : Nat) : QueueCfg :=
  if qid < 64 then {} else if qid < 128 then { qmax := 128, ymax := 64 } else { qmax := 64, ymax := 32 }

/-- The traffic manager. -/
structure Traffic where
  queues : Vector Queue 184 := Vector.ofFn fun q => { cfg := QueueCfg.default q.val }
  map : Vector QMap 64 := Vector.ofFn QMap.default
  /-- The pointers `rr` of R355 by grant stream and band, as queue numbers; then by local port and band. -/
  rr : Vector (Option Nat) 40 := Vector.replicate 40 none
  policers : Vector Policer 128 := Vector.replicate 128 {}
  buf : BufCfg := {}
  holdHe : Vector (Option Hold) 8 := Vector.replicate 8 none
  holdOwn : Vector (Option Hold) 8 := Vector.replicate 8 none
  holdPort : Vector (Option Hold) 2 := Vector.replicate 2 none
  /-- Source 0x78 may be raised again (R354). -/
  fillArmed : Bool := true
  hwmCells : Nat := 0
  poolDrop : Nat := 0
  pwrFlush : Nat := 0
  linkFlush : Nat := 0
  xoffCnt : Vector Nat 2 := Vector.replicate 2 0
  /-- A queue of the grant stream has dropped since its last report (Table 11.4). -/
  dropped : Vector Bool 8 := Vector.replicate 8 false
  /-- `PORT_RX` has been raised and not served (R360). -/
  rxTold : Vector Bool 8 := Vector.replicate 8 false
  sampler : Sampler := {}
  /-- Records already offered by a running `TRAFFIC.INJECT`, per tenant and slot: offset and count. -/
  inject : List (Ten × SlotIx × Nat × Nat) := []
deriving DecidableEq, Repr


/-! ### Upstream (chapter 11) -/

/-- An upstream LMM waiting for a burst that carries one (R254), with its arrival number. -/
structure LmmOut where
  type : Byte
  body : List Byte
  n : Nat := 0
deriving DecidableEq, Repr

/-- The key of a grant entry (R260) with its further flags (Table 9.5). -/
structure Grant where
  /-- The upstream frame it applies to, and the downstream frame it came in. -/
  frame : Nat
  rxFrame : Nat
  gs : Fin 8
  start : Nat
  len : Nat
  long : Bool
  report : Bool
  lmm : Bool
  ranging : Bool
  slot : Bool
  short : Bool
deriving DecidableEq, Repr

/-- A packet taken into a prepared burst (R257, R266): its queue, its `IV_CTR`, whether its sealing job
has ended, and the credit and instant just before the take. -/
structure Take where
  q : Fin 64
  frame : Frame
  iv : Nat
  ki : Bool := false
  sealed : Bool := false
  c0 : Int
  t0 : Nat
deriving DecidableEq, Repr

/-- A prepared burst (R257, R261). -/
structure Burst where
  gs : Fin 8
  frame : Nat
  start : Nat
  len : Nat
  long : Bool
  report : Bool
  slot : Bool
  forecast : Bool
  /-- The downstream frame of its entry, or the one a forecast expects it in. -/
  rx : Nat
  /-- The entry that authorises it: granted length and `SEND_LMM`. -/
  bound : Option (Nat × Bool) := none
  ki : Bool := false
  takes : List Take := []
  /-- Packet area when filling began (R356). -/
  area : Nat := 0
  slotIv : Option Nat := none
  slotTake : Option Take := none
  slotClosed : Bool := false
  frozen : Bool := false
  rep : List Byte := []
  lmm : Option LmmOut := none
deriving DecidableEq, Repr

/-- What the forecaster knows of a grant stream (R260). -/
structure Pattern where
  n : Nat := 0
  start : Nat := 0
  len : Nat := 0
  long : Bool := false
  report : Bool := false
  slot : Bool := false
  last : Nat := 0
  period : Nat := 0
deriving DecidableEq, Repr

/-- A grant stream: its depth, its forecaster, its prepared bursts in start order, what a withdrawal
still has to undo, and its counters (Table 11.9). -/
structure Stream where
  depth : Nat := 2
  pat : Pattern := {}
  /-- The last upstream frames for which a watched entry was accepted. -/
  watched : List Nat := []
  bursts : List Burst := []
  /-- Takes that wait for their sealing jobs to end (R266), in take order, and slot IVs with them. -/
  undo : List Take := []
  /-- Pre-allocated slot IVs withdrawn with them. -/
  undoIvs : Nat := 0
  nBursts : Nat := 0
  hits : Nat := 0
  misses : Nat := 0
  trunc : Nat := 0
  wdPkts : Nat := 0
  retired : Nat := 0
  late : Nat := 0
  slotUsed : Nat := 0
  cut : Nat := 0
deriving DecidableEq, Repr

/-- The burst on the lane (R187, R196): its lane, its end, its grant stream and packets. -/
structure Sending where
  lane : Fin 2
  end_ : Nat
  gs : Fin 8
  pkts : Nat
deriving DecidableEq, Repr

/-- The burst engine. -/
structure Upstream where
  lmmq : List LmmOut := []
  lmmN : Nat := 0
  lmmOvf : Nat := 0
  gs : Vector Stream 8 := Vector.replicate 8 {}
  /-- The grant table of the active lane (R216) and of the standby lane (R217). -/
  table : List Grant := []
  standby : List Grant := []
  /-- The last grant maps of the active lane, newest first: frame, whether its header was valid. -/
  maps : List (Nat × Bool) := []
  bseq : Byte := 0
  sending : Option Sending := none
deriving DecidableEq, Repr


/-! ### Cipher engine, key store and the non-volatile store (chapter 16) -/

/-- An entry of the session bank (R388). -/
structure BankKey where
  key : List Byte
  salt : List Byte := []
  big : Bool := false
  flags : Byte := 0
  ctr : Nat := 1
  decOnly : Bool := false
  owner : Option Ten := none
  /-- The number its tenant gives a handle (R389). -/
  handle : Nat := 0
deriving DecidableEq, Repr

/-- A slot 8 to 63 of the key store (Table 16.4): `state` 0 EMPTY, 1 ACTIVE, 2 DECRYPT_ONLY. -/
structure KeySlot where
  state : Nat := 0
  key : List Byte := []
  big : Bool := false
  flags : Byte := 0
  tmask : Byte := 0
  salt : List Byte := []
  ctr : Nat := 1
  ceil : Nat := 65536
  iseq : Nat := 0
  /-- A ceiling write under way or to be repeated (R393, R395). -/
  pend : Option Nat := none
  failed : Bool := false
deriving DecidableEq, Repr

/-- Where a context's key comes from (Table 16.2): a session entry, a slot, or an in-band key. -/
inductive KeySrc where
  | entry (e : Fin 32) | slot (n : Fin 64)
deriving DecidableEq, Repr

/-- A key context (R377): its source, its key, its tenant (none: firmware), and when it was last used. -/
structure Ctx where
  src : KeySrc
  key : List Byte
  ten : Option Ten := none
  used : Nat := 0
deriving DecidableEq, Repr

/-- A KBUS operation (R379). -/
inductive KOp where
  | load (c : Fin 16) (src : KeySrc) (ten : Option Ten)
  | zero (c : Fin 16)
deriving DecidableEq, Repr

/-- A tenant job (R375): the key it started with, the IV or counter block it drew. -/
structure Job where
  num : Nat
  ten : Ten
  slot : SlotIx
  src : KeySrc
  ctx : Option (Fin 16) := none
  started : Bool := false
  key : List Byte := []
  iv : List Byte := []
  /-- Its slot was emptied: nothing is posted for it (R128, R162), and its command is held here. -/
  orphan : Bool := false
  cmd : Slot := {}
deriving DecidableEq, Repr

/-- A downstream container that waits for its tag check (R219). -/
structure Dec where
  lane : Fin 2
  bytes : List Byte
  role : Fin 2
  gen : Bool
deriving DecidableEq, Repr

/-- What a cipher core works on (R21): a sealing job by grant stream, `KI` and `IV_CTR`, a downstream container, or a
tenant job by its number. -/
inductive CoreWork where
  | seal (g : Fin 8) (ki : Bool) (iv : Nat) | dec (d : Dec) | job (num : Nat)
deriving DecidableEq, Repr

/-- A `KEYS.DESTROY` that waits for started jobs (R399). -/
structure KeyWait where
  by_ : Option (Ten × SlotIx)
  src : KeySrc
deriving DecidableEq, Repr

/-- The cipher engine and the key store. -/
structure Cipher where
  bank : Vector (Option BankKey) 32 := Vector.replicate 32 none
  ctx : Vector (Option Ctx) 16 := Vector.replicate 16 none
  kbus : List KOp := []
  uses : Nat := 0
  core : Vector Bool 2 := Vector.replicate 2 true
  /-- A core that failed its self-test (R383). -/
  broken : Vector Bool 2 := Vector.replicate 2 false
  fenced : Bool := false
  /-- Cores whose self-test runs, and the `CIPHER.CORE` that asked. -/
  testing : Vector Bool 2 := Vector.replicate 2 false
  coreBy : Vector (Option (Ten × SlotIx)) 2 := Vector.replicate 2 none
  faultsAt : List Nat := []
  /-- Downstream containers, and sealing jobs by grant stream, `KI` and `IV_CTR`, oldest first. -/
  decq : List Dec := []
  sealq : List (Fin 8 × Bool × Nat) := []
  jobs : List Job := []
  nextJob : Nat := 0
  /-- What each core works on now. -/
  run : Vector (Option CoreWork) 2 := Vector.replicate 2 none
  destroys : List KeyWait := []
  dsFault : Nat := 0
  fenceDrop : Nat := 0
  faults : Nat := 0
  fences : Nat := 0
  kbusWd : Nat := 0
  ceilFail : Nat := 0
  nJobs : Nat := 0
  nBytes : Nat := 0
deriving DecidableEq, Repr

/-- The key store's slots, which a reset keeps but for the live counters (R385, R394), and the factory
slots 1 and 2 (R386). -/
structure KeyStore where
  slots : Vector KeySlot 64 := Vector.replicate 64 {}
  device : List Byte := List.replicate 32 0
  kek : List Byte := List.replicate 32 0
deriving DecidableEq, Repr

/-- An update of a region by `ENS.WRITE` (R405): the next address, what is still to be written. -/
structure EnsUpd where
  region : Nat
  addr : Nat
  data : List Byte
  ten : Ten
  slot : SlotIx
  written : Nat := 0
  remapped : Nat := 0
  /-- The line's write has failed its verify once (R404). -/
  again : Bool := false
  /-- The `ENS.ABORT` that waits for the line boundary. -/
  aborter : Option (Ten × SlotIx) := none
  /-- Asked to stop at its next line boundary. -/
  stop : Bool := false
  /-- Its session was rescued: nothing is posted for it (R162). -/
  orphan : Bool := false
deriving DecidableEq, Repr

/-- The states of the remap journal (R104). -/
inductive JState where
  | idle | copying | copied | mapped
deriving DecidableEq, Repr

/-- A line of the remap journal (R104, R409): its sequence number, its state, the line and the spare it concerns, and
whether its tag verifies. -/
structure JLine where
  seq : Nat := 0
  st : JState := .idle
  line : Nat := 0
  spare : Nat := 0
  valid : Bool := true
deriving DecidableEq, Repr

/-- Lines, wear and remap (R402 to R410). A physical line is a line number below 131,072, or 131,072 +
512 × bank + spare. -/
structure Ens where
  wear : List (Nat × Nat) := []
  map : List (Nat × Nat) := []
  used : Vector Nat 4 := Vector.replicate 4 0
  warned : Vector Bool 4 := Vector.replicate 4 false
  /-- Lines marked suspect, and lines whose tag fails. -/
  suspect : List Nat := []
  badTag : List Nat := []
  degraded : BitVec 16 := 0
  eccCorr : Nat := 0
  remaps : Nat := 0
  /-- The two alternating lines of the remap journal (R104). -/
  journal : Vector JLine 2 := #v[{}, { seq := 1 }]
  upd : List EnsUpd := []
deriving DecidableEq, Repr


/-! ### Lifecycle, debug thaw (chapter 17) -/

/-- The lifecycle (Table 17.1). -/
inductive Life where
  | factory | sealed | retired
deriving DecidableEq, Repr

/-- The one-time fuses (R413). -/
structure Fuses where
  life : Life := .factory
deriving DecidableEq, Repr

/-- What of chapter 17 the factory region holds, beside the fuses: the two copies of the owner key, none
for a copy that does not verify (R417), whether the retirement erase is recorded (R418), and the tokens
accepted since the lifecycle last changed (Table 17.7). -/
structure FactorySec where
  keys : Vector (Option (List Byte)) 2 := Vector.replicate 2 none
  erased : Bool := false
  thaws : Nat := 0
deriving DecidableEq, Repr

/-- A `SEC.THAW` to THAWED that waits for running cipher jobs (R426 step 4). -/
structure Thawing where
  ten : Ten
  slot : Option SlotIx
deriving DecidableEq, Repr

/-- The instructions of the test access port (Table 17.2). -/
inductive TapInstr where
  | bypass | idcode | sample | extest
deriving DecidableEq, Repr

/-- Thaw nonces, failures, the trace session and the test access port (R419 to R426). -/
structure Sec where
  /-- The outstanding nonce and the end of its 600 s (R423). -/
  nonce : Option (List Byte × Nat) := none
  failsAt : List Nat := []
  lockBy : Option Nat := none
  fails : Nat := 0
  trace : Bool := false
  thawing : Option Thawing := none
  /-- The instruction the test access port holds (R420). -/
  tap : TapInstr := .idcode
deriving DecidableEq, Repr


/-! ### The Firn engine (chapter 18) -/

/-- A loaded model: its package in the staging area (R434), with the ladders generated at its load. -/
structure FModel where
  loader : Ten
  hdr : List Byte
  ops : List Byte
  const : List Byte
  /-- Its constants stand in the constant area. -/
  ready : Bool := false
deriving DecidableEq, Repr

/-- A job of the engine (R448 to R453). -/
structure FJob where
  num : Nat
  ten : Ten
  slot : SlotIx
  handle : Fin 8
  posBase : Nat
  inOff : Nat
  outOff : Nat
  acceptedAt : Nat
  resident : Bool := false
  /-- The work area. -/
  work : Memory := []
  /-- Layers completed. -/
  layer : Nat := 0
  /-- The start of its first layer. -/
  firstAt : Option Nat := none
  runNs : Nat := 0
  preempt : Nat := 0
  sat : Nat := 0
  smEmpty : Nat := 0
  oor : Nat := 0
  /-- Asked to stop at its next layer boundary, with the reason of Table 18.11. -/
  stop : Option Nat := none
  /-- Its session was rescued: nothing is posted for it (R162). -/
  orphan : Bool := false
deriving DecidableEq, Repr

/-- The engine. -/
structure Firn where
  inService : Bool := true
  /-- The self-test has failed (R457). -/
  failed : Bool := false
  /-- A self-test runs, and the `FIRN.ENGINE` that asked. -/
  testing : Bool := false
  testBy : Option (Ten × SlotIx) := none
  /-- A `FIRN.ENGINE` out that waits for the running job. -/
  outBy : Option (Option (Ten × SlotIx)) := none
  models : Vector (Option FModel) 8 := Vector.replicate 8 none
  /-- Jobs in acceptance order. -/
  jobs : List FJob := []
  nextNum : Nat := 0
  /-- The job whose layer runs and the layer's start. -/
  run : Option (Nat × Nat) := none
  /-- The finish tag of that layer, which its tenant's virtual time takes at the layer's end (R450). -/
  runTag : Nat := 0
  /-- The `FIRN.MODEL_LOAD` under way (R436). -/
  loading : Option (Ten × SlotIx) := none
  /-- That layer runs at the boost clock, which changes at layer boundaries only (R452). -/
  runFull : Bool := false
  /-- The job whose output is being copied. -/
  copying : Option Nat := none
  lastRun : Option Nat := none
  /-- Virtual times of R450, in units of 1/lcm(1..255) cycle. -/
  vt : Vector Nat 8 := Vector.replicate 8 0
  v : Nat := 0
  thermal : Bool := false
  wdtAt : List Nat := []
  completed : Nat := 0
  aborted : Nat := 0
  wdt : Nat := 0
  eccCorr : Nat := 0
  eccUncorr : Nat := 0
  thermPause : Nat := 0
  busyNs : Nat := 0
  cycles : Nat := 0
  preempts : Nat := 0
deriving DecidableEq, Repr


/-! ### Tributaries, audio and teleprotection (chapter 19) -/

/-- A record of `TRIB_CFG` (Table 19.1). -/
structure Trib where
  down : Bool
  up : Bool
  queue : Fin 64
  rate : Nat
  close : Nat
deriving DecidableEq, Repr

/-- The configuration of the three tributaries: 0 audio, 1 TPS0, 2 TPS1. -/
abbrev TribCfg := Vector (Option Trib) 3

/-- A pair of samples, left and right, as signed 24-bit numbers. -/
abbrev Pair := Int × Int

/-- A slip buffer (R469): blocks held, whether it fills after having been emptied, the block being played
and the last one written. -/
structure SlipBuf where
  blocks : List (List Pair) := []
  filling : Bool := true
  play : Option (List Pair) := none
  last : Option (List Pair) := none
deriving DecidableEq, Repr

/-- States of Table 19.2. -/
inductive AState where
  | closed | muted | opening | playing | closing
deriving DecidableEq, Repr

/-- A channel's gate (R473): shut, passing, waiting for its crossing, or at a ramp sample. -/
inductive Gate where
  | shut | pass | waitOpen | waitClose | rampOpen (k : Nat) | rampClose (k : Nat)
deriving DecidableEq, Repr

/-- `AUDIO.PORT` of a port. -/
structure AudioCfg where
  word : Nat := 24
  monitor : Bool := false
  gateMs : Nat := 20
  copyOk : Bool := false
  category : Byte := 0
deriving DecidableEq, Repr

/-- An audio port. -/
structure APort where
  cfg : AudioCfg := {}
  st : AState := .closed
  gates : Vector Gate 2 := Vector.replicate 2 .shut
  /-- The source's previous sample, per channel. -/
  prev : Vector Int 2 := Vector.replicate 2 0
  /-- Next pair of the block being played. -/
  pos : Nat := 0
  /-- Frame in the 192-frame channel-status block. -/
  frame : Nat := 0
  /-- The phase of its sample boundaries in TT, ns (a free value). -/
  phase : Nat := 0
  start : Option Nat := none
  stop : Option Nat := none
  /-- End of the gate timeout. -/
  gateBy : Option Nat := none
  /-- A gate of the present start or stop has ramped. -/
  ramped : Bool := false
  /-- The port goes to CLOSED when closing has finished, and whether that is forced (R475). -/
  shutting : Bool := false
  forced : Bool := false
  /-- A start reached while CLOSING opens after it. -/
  startDue : Bool := false
  late : Nat := 0
deriving DecidableEq, Repr

/-- A TPS port (R476 to R482). -/
structure Tps where
  open_ : Bool := false
  openAt : Option Nat := none
  closeAt : Option Nat := none
  /-- Mapper: bits received, whether the target has been reached, the next `TSEQ`. -/
  rx : List Bool := []
  rxGo : Bool := false
  seqOut : Nat := 0
  /-- Destuffer: bits held, whether it transmits. -/
  tx : List Bool := []
  txGo : Bool := false
  seqIn : Option Nat := none
  /-- A valid container has come in the present frame. -/
  got : Bool := false
  misses : Nat := 0
  good : Nat := 0
  defect : Bool := false
  remote : Bool := false
  /-- Consecutive valid containers whose `TRI` differs from the remote indication. -/
  triRun : Nat := 0
  tais : Bool := false
  late : Nat := 0
  rxOk : Nat := 0
  sent : Nat := 0
  jcInv : Nat := 0
  jcMinor : Nat := 0
  lost : Nat := 0
  slip : Nat := 0
  leak : Nat := 0
deriving DecidableEq, Repr

/-- The audio unit, the TPS unit and the tributary mappers. -/
structure Aud where
  /-- The configuration received, the one the downstream side applies, and the one the upstream side does. -/
  cfg : TribCfg := Vector.replicate 3 none
  down : TribCfg := Vector.replicate 3 none
  up : TribCfg := Vector.replicate 3 none
  /-- fs code (Table 19.5). -/
  fs : Nat := 2
  ports : Vector APort 3 := Vector.replicate 3 {}
  slip : SlipBuf := {}
  mon : SlipBuf := {}
  /-- Samples of the monitor block being gathered. -/
  monIn : List Pair := []
  /-- The last accepted `ASEQ`. -/
  seq : Option Nat := none
  /-- The input: lock, `NONPCM`, channel status, FIFO of gated pairs, `ASEQ` of its containers. -/
  lock : Bool := false
  nonPcm : Bool := false
  cs : List Byte := List.replicate 5 0
  fifo : List Pair := []
  vfill : Bool := false
  seqOut : Nat := 0
  tps : Vector Tps 2 := Vector.replicate 2 {}
  ramps : Nat := 0
  slipRep : Nat := 0
  slipDrop : Nat := 0
  conceal : Nat := 0
  resync : Nat := 0
  stale : Nat := 0
  tribRx : Nat := 0
  schedLost : Nat := 0
  monSlip : Nat := 0
  inParity : Nat := 0
  inVfill : Nat := 0
  inFscode : Nat := 0
  inOvf : Nat := 0
  upSkip : Nat := 0
  tribDeny : Nat := 0
deriving DecidableEq, Repr

/-- The two-wire ports (Table 2.3). -/
inductive TwPort where
  | opa | opb | pm
deriving DecidableEq, Repr

/-- The two-wire controller (R48): the port whose transfer runs, since when, and how the last transfer ended. -/
structure TwoWire where
  active : Option TwPort := none
  since : Nat := 0
  last : Half := 0
deriving DecidableEq, Repr

/-- What the ENS config region keeps for the next chip-scope start, beside the bindings. -/
structure Store where
  /-- The PMIC's 7-bit address and register index (R49). -/
  pmicAddr : Nat := 0x62
  pmicReg : Nat := 0x10
  timers : Option TimerCfg := none
  parts : Vector Nat 8 := Vector.replicate 8 4
  time : Option TimeCfg := none
  /-- The factory record of the band table (R311). -/
  bands : Option (Vector (BitVec 64) 32) := none
  seed : Option Nat := none
  bw : Option Nat := none
  /-- Lanes the factory configuration record marks absent (R51): bit 0 A, 1 B, 2 L2, 3 L3. -/
  absent : BitVec 4 := 0
  /-- The MAC addresses of L2 and L3 in the factory region (R143). -/
  laneMac : Vector (List Byte) 2 := Vector.replicate 2 (List.replicate 6 0)
  prot : Option ProtCfg := none
  locals : Vector (Option LocalCfg) 2 := Vector.replicate 2 none
  depth : Vector (Option Nat) 8 := Vector.replicate 8 none
  map : Vector (Option QMap) 64 := Vector.replicate 64 none
  queues : Vector (Option QueueCfg) 184 := Vector.replicate 184 none
  policers : Vector (Option PolicerCfg) 128 := Vector.replicate 128 none
  buf : Option BufCfg := none
  rules : Option Version := none
  slowDeadline : Option Nat := none
  fs : Option Nat := none
  audio : Vector (Option AudioCfg) 3 := Vector.replicate 3 none
  /-- The owner model key, X then Y (R435). -/
  modelKey : Option (List Byte) := none
deriving DecidableEq, Repr

/-- The whole state of the terminal. -/
structure State where
  /-- The commands that wait, first in first out. -/
  pending : List Instr := []
  /-- Nanoseconds since VBAT was first applied (log entry 5). -/
  now : Nat := 0
  /-- Draws made from the random source (log entry 3). -/
  rand : Nat := 0
  /-- Free values drawn (log entry 2). -/
  free : Nat := 0
  out : List Emission := []
  ao : AoState := {}
  pads : Pads := {}
  tw : TwoWire := {}
  power : Power := {}
  boot : Boot := {}
  icb : Icb := {}
  tenants : Vector Tenant 8 := Vector.replicate 8 {}
  /-- The config region's persisted tenant records and timers (R137, R163, Table 3.14). -/
  store : Store := {}
  mbx : Mbx := {}
  evt : Router := {}
  /-- The tenant area of shared SRAM, 2 MiB (R151). -/
  sram : Memory := []
  time : TimeUnit := {}
  clk : Clk := {}
  lanes : Lanes := {}
  fr : Framer := {}
  reg : Reg := {}
  us : Upstream := {}
  pars : Parser := {}
  tm : Traffic := {}
  cip : Cipher := {}
  keys : KeyStore := {}
  /-- The embedded non-volatile store, 8 MiB, by logical address (chapter 16). -/
  ens : Memory := []
  nvm : Ens := {}
  sec : Sec := {}
  fuses : Fuses := {}
  fsec : FactorySec := {}
  firn : Firn := {}
  aud : Aud := {}
deriving DecidableEq, Repr

/-- A debug attach is a wake trigger in GLACIER at SLUSH or THAWED only (R421). -/
def AoState.debugOpen (x : AoState) : Bool := x.dbg.level != 0

/-- The domains a chip-scope start from cold switches on first (Table 2.5, R73). -/
def coldDoms : List Dom := [1, 2, 3, 4, 10]

/-- The state right after a power-on reset (R38, Table 4.1): VBAT has risen past 1.65 V, PD_AO runs, every
other domain is held, `PWR_EN_AUX` is high and the wake sequence of Table 2.5 waits in its first step. -/
def State.reset : State :=
  { now := 1000000
    pads := { enAux := true, enRise := 1000000 }
    power := {
      dom := (Vector.replicate 13 .held).set 0 .on
      wake := some {
        kind := .powerOn, src := .permafrost, step := 1
        waiting := [.railAux, .railMain] ++ coldDoms.map .psw
        doms := coldDoms, raised := [.railAux], startAt := 0, pins := 0 } }
    boot := { cause := some (1, 0) } }

end Sys2Proof.Machine
end

