-- ==== Sys2Proof/Machine/Bytes.lean ====
section
/-!
DEFINITION. Bytes, words and check fields: byte orders (R6, R7), bit sets, the CRC checks of the
manual, and the sparse byte memories with their one canonical form.
-/

namespace Sys2Proof.Machine

/-- `n` bytes of a number, least significant byte first (R6). -/
def leBytes : Nat → Nat → List Byte
  | 0, _ => []
  | n + 1, v => BitVec.ofNat 8 v :: leBytes n (v / 256)

/-- `n` bytes of a number, most significant byte first (R7). -/
def beBytes (n v : Nat) : List Byte := (leBytes n v).reverse

/-- The number of a byte string, least significant byte first. -/
def leNat : List Byte → Nat
  | [] => 0
  | b :: bs => b.toNat + 256 * leNat bs

/-- The number of a byte string, most significant byte first. -/
def beNat (bs : List Byte) : Nat := leNat bs.reverse

/-- `n` bytes of a string from an offset; bytes beyond its end read zero. -/
def field (bs : List Byte) (off n : Nat) : List Byte :=
  (List.range n).map fun i => bs.getD (off + i) 0

/-- A field read least significant byte first. -/
def leAt (bs : List Byte) (off n : Nat) : Nat := leNat (field bs off n)

/-- A field read most significant byte first. -/
def beAt (bs : List Byte) (off n : Nat) : Nat := beNat (field bs off n)

/-- A byte of a string as a number; zero beyond its end. -/
def byteAt (bs : List Byte) (off : Nat) : Nat := (bs.getD off 0).toNat

/-- Bits `lo + w - 1` down to `lo` of a number. -/
def bits (v lo w : Nat) : Nat := v / 2 ^ lo % 2 ^ w

/-- One bit of a number. -/
def bit (v i : Nat) : Bool := v.testBit i

/-- 1 for true, 0 for false. -/
def b2n (b : Bool) : Nat := if b then 1 else 0

/-- The number whose bit i is `f i`. -/
def bitsOf (n : Nat) (f : Fin n → Bool) : Nat :=
  (List.finRange n).foldl (fun a i => a + if f i then 2 ^ i.val else 0) 0

/-- A count that stops at its last value. -/
def satTo (top v : Nat) : Nat := if v < top then v else top

/-- One more, stopping at the last value. -/
def satInc (top v : Nat) : Nat := satTo top (v + 1)

/-- A signed number in `n` bytes, two's complement, least significant byte first. -/
def leInt (n : Nat) (v : Int) : List Byte := leBytes n (v % (256 ^ n : Int)).toNat

/-- The signed reading of a number of `w` bits. -/
def toSigned (w v : Nat) : Int := if v < 2 ^ (w - 1) then v else (v : Int) - 2 ^ w

/-- One bit of a CRC register of width `w`, most significant bit first. -/
def crcBit (w poly reg : Nat) (b : Bool) : Nat :=
  if (reg.testBit (w - 1) != b) then ((2 * reg) % 2 ^ w) ^^^ poly else (2 * reg) % 2 ^ w

/-- One byte into a CRC register, most significant bit first. -/
def crcByte (w poly reg : Nat) (b : Byte) : Nat :=
  [7, 6, 5, 4, 3, 2, 1, 0].foldl (fun r i => crcBit w poly r (b.toNat.testBit i)) reg

/-- CRC-16-CCITT: x¹⁶ + x¹² + x⁵ + 1, initial 0xFFFF, not reflected, no final XOR (R82). -/
def crc16 (bs : List Byte) : Nat := bs.foldl (crcByte 16 0x1021) 0xFFFF

/-- One byte into the reflected CRC-32 register of IEEE 802.3. -/
def crc32Byte (reg : Nat) (b : Byte) : Nat :=
  [0, 1, 2, 3, 4, 5, 6, 7].foldl
    (fun r _ => if r.testBit 0 then (r / 2) ^^^ 0xEDB88320 else r / 2) (reg ^^^ b.toNat)

/-- CRC-32 as the IEEE 802.3 frame check sequence. -/
def crc32 (bs : List Byte) : Nat := (bs.foldl crc32Byte 0xFFFFFFFF) ^^^ 0xFFFFFFFF

/-- The FCS bytes in the order IEEE 802.3 sends them (R7). -/
def fcsBytes (bs : List Byte) : List Byte := leBytes 4 (crc32 bs)

/-- The first 64 bits of a 128-bit value as bytes, first byte first (R117). -/
def top64 (v : BitVec 128) : List Byte := beBytes 8 (v.toNat / 2 ^ 64)

/-- The exclusive or of two byte strings, as long as the shorter one. -/
def xorBytes (a b : List Byte) : List Byte := List.zipWith (· ^^^ ·) a b

/-- AES-CTR over a string (SP 800-38A). -/
def ctrCrypt (key iv bs : List Byte) : List Byte :=
  bs.zipIdx.map fun p => p.1 ^^^ Config.keyStream key iv p.2

/-- Output block `i` of the key derivation of R237 for an output of `n` blocks of 128 bits: the counter, the
label, 0x00, the context, the length in bits. -/
def kdfBlock (key label context : List Byte) (n i : Nat) : List Byte :=
  beBytes 16 (Config.cmac key (beBytes 4 i ++ label ++ [0] ++ context ++ beBytes 4 (128 * n))).toNat

/-- The counter-mode key derivation of SP 800-108 with AES-CMAC (R237): `n` blocks of 16 bytes. -/
def kdf (n : Nat) (key label context : List Byte) : List Byte :=
  (List.range n).flatMap fun i => kdfBlock key label context n (i + 1)

/-! ### Memories -/

/-- The byte at an address; an address not listed reads zero (log entry 7). -/
def Memory.get : Memory → Nat → Byte
  | [], _ => 0
  | (k, b) :: m, a => if k = a then b else Memory.get m a

/-- A list with every entry at an address taken out. -/
def Memory.drop (m : Memory) (a : Nat) : Memory := m.filter fun c => c.1 != a

/-- An entry put where its address belongs. -/
def Memory.insert : Memory → Nat → Byte → Memory
  | [], a, v => [(a, v)]
  | (k, b) :: m, a, v => if a < k then (a, v) :: (k, b) :: m else (k, b) :: Memory.insert m a v

/-- A byte written; writing zero removes the entry. -/
def Memory.put (m : Memory) (a : Nat) (v : Byte) : Memory :=
  if v = 0 then m.drop a else (m.drop a).insert a v

/-- A run of bytes read. -/
def Memory.getN (m : Memory) (a n : Nat) : List Byte := (List.range n).map fun i => m.get (a + i)

/-- A run of bytes written from an address upward. -/
def Memory.putN : Memory → Nat → List Byte → Memory
  | m, _, [] => m
  | m, a, b :: bs => Memory.putN (m.put a b) (a + 1) bs

/-- A run of addresses set to zero. -/
def Memory.clear (m : Memory) (a n : Nat) : Memory := m.filter fun c => !(a ≤ c.1 && c.1 < a + n)

/-- The canonical form: addresses strictly rising, no zero byte listed, all below a bound. -/
abbrev Memory.wf (bound : Nat) (m : Memory) : Prop :=
  m.Pairwise (fun x y => x.1 < y.1) ∧ ∀ c ∈ m, c.2 ≠ 0 ∧ c.1 < bound

end Sys2Proof.Machine
end

