-- ==== Sys2Proof/Machine/Code8b10b.lean ====
section
/-!
DEFINITION. The 8b/10b code of IEEE 802.3 Clause 36 (R184): code-groups with bit a as their most
significant bit, running disparity, validity, and the sequences of Table 8.2.
-/

namespace Sys2Proof.Machine

/-- `abcdei` of data values 0 to 31 at negative running disparity. -/
def six : Vector Nat 32 := #v[
  0b100111, 0b011101, 0b101101, 0b110001, 0b110101, 0b101001, 0b011001, 0b111000,
  0b111001, 0b100101, 0b010101, 0b110100, 0b001101, 0b101100, 0b011100, 0b010111,
  0b011011, 0b100011, 0b010011, 0b110010, 0b001011, 0b101010, 0b011010, 0b111010,
  0b110011, 0b100110, 0b010110, 0b110110, 0b001110, 0b101110, 0b011110, 0b101011]

/-- `fghj` of values 0 to 7 at negative running disparity. -/
def four : Vector Nat 8 := #v[0b1011, 0b1001, 0b0101, 0b1100, 0b1101, 0b1010, 0b0110, 0b1110]

/-- The special code-groups at negative running disparity: byte and code. -/
def specials : List (Nat × Nat) :=
  [(0x1C, 0b0011110100), (0x3C, 0b0011111001), (0x5C, 0b0011110101), (0x7C, 0b0011110011),
   (0x9C, 0b0011110010), (0xBC, 0b0011111010), (0xDC, 0b0011110110), (0xFC, 0b0011111000),
   (0xF7, 0b1110101000), (0xFB, 0b1101101000), (0xFD, 0b1011101000), (0xFE, 0b0111101000)]

/-- Ones of a number of `w` bits. -/
def ones (w v : Nat) : Nat := ((List.range w).filter v.testBit).length

/-- A running disparity after a sub-block of IEEE 802.3 Clause 36: positive is true. More ones, 000111 and 0011 make it
positive; more zeros, 111000 and 1100 make it negative. -/
def rdAfter (w v : Nat) (rd : Bool) : Bool :=
  if 2 * ones w v ≠ w then decide (w < 2 * ones w v)
  else if w = 6 then (if v = 0b000111 then true else if v = 0b111000 then false else rd)
  else if v = 0b0011 then true else if v = 0b1100 then false else rd

/-- The six-bit sub-block of a value at a disparity. -/
def sixOf (x : Fin 32) (rd : Bool) : Nat :=
  if rd && (ones 6 six[x] != 3 || x.val == 7) then 63 - six[x] else six[x]

/-- The four-bit sub-block of a value at the disparity before it; `alt` chooses the A7 form. -/
def fourOf (x y : Nat) (rd : Bool) : Nat :=
  let alt := y = 7 ∧ ((!rd && (x == 17 || x == 18 || x == 20)) || (rd && (x == 11 || x == 13 || x == 14)))
  let v := if alt then 0b0111 else four[(Fin.ofNat 8 y : Fin 8)]
  if rd && (ones 4 v != 2 || y == 3) then 15 - v else v

/-- A data code-group at a running disparity. -/
def encData (b : Nat) (rd : Bool) : Nat :=
  let x := b % 32
  let s := sixOf (Fin.ofNat 32 x) rd
  s * 16 + fourOf x (b / 32) (rdAfter 6 s rd)

/-- A special code-group at a running disparity. -/
def encSpecial (b : Nat) (rd : Bool) : Option Nat :=
  (specials.find? fun p => p.1 == b).map fun p => if rd then 1023 - p.2 else p.2

/-- The running disparity after a code-group, judged by its sub-blocks. -/
def rdNext (g : CodeGroup) (rd : Bool) : Bool :=
  rdAfter 4 (g.toNat % 16) (rdAfter 6 (g.toNat / 16) rd)

/-- The byte of a code-group in a column, and whether it is special. -/
def decGroup (g : CodeGroup) (rd : Bool) : Option (Nat × Bool) :=
  match specials.find? fun p => (if rd then 1023 - p.2 else p.2) == g.toNat with
  | some p => some (p.1, true)
  | none =>
    match (List.finRange 32).find? fun x => sixOf x rd == g.toNat / 16 with
    | none => none
    | some x => ((List.range 8).find? fun y =>
        fourOf x.val y (rdAfter 6 (g.toNat / 16) rd) == g.toNat % 16).map fun y => (y * 32 + x.val, false)

/-- How a received code-group stands (R184): valid with its byte, in the wrong column, or absent. -/
inductive Judged where
  | data (b : Nat) | special (b : Nat) | wrongColumn | absent
deriving DecidableEq, Repr

/-- A code-group judged at a running disparity; `used` are the special bytes the lane's mode uses. -/
def judge (used : Nat → Bool) (g : CodeGroup) (rd : Bool) : Judged :=
  match decGroup g rd with
  | some (b, false) => .data b
  | some (b, true) => if used b then .special b else .absent
  | none => if (decGroup g !rd).isSome then .wrongColumn else .absent

/-- Whether a judgement is an invalid code-group. -/
def Judged.invalid : Judged → Bool
  | .wrongColumn | .absent => true
  | _ => false

/-- A run of code-groups judged from a running disparity. -/
def judgeAll (used : Nat → Bool) : List CodeGroup → Bool → List Judged
  | [], _ => []
  | g :: gs, rd => judge used g rd :: judgeAll used gs (rdNext g rd)

/-- K28.5, the only comma of Lineatex (R185). -/
def isComma (j : Judged) : Bool := j == .special 0xBC

/-- A Lineatex lane uses K28.5 alone (R185). -/
def lineatexUses (b : Nat) : Bool := b == 0xBC

/-- A local lane in its normal mode uses K28.5 and the ordered sets R, S, T and V of Clause 36. -/
def clause36Uses (b : Nat) : Bool := [0xBC, 0xF7, 0xFB, 0xFD, 0xFE].contains b

/-- What the receiver makes of a code-group (R186): passed on, part of an idle pair, an invalid code-group, or marked
errored by the invalid one before it. -/
inductive Mark where
  | good | idle | invalid | errored
deriving DecidableEq, Repr

/-- A code-group by itself. -/
def Judged.mark (j : Judged) : Mark := if j.invalid then .invalid else .good

/-- A Lineatex stream marked (R186): an idle pair K28.5 D16.2 is removed, K28.5 D27.3 starts a FAW, and K28.5 followed by
anything else counts as one invalid code-group with both errored. -/
def lineMarks : List Judged → List Mark
  | .special 0xBC :: .data 0x50 :: t => .idle :: .idle :: lineMarks t
  | .special 0xBC :: .data 0x7B :: t => .good :: .good :: lineMarks t
  | .special 0xBC :: _ :: t => .invalid :: .errored :: lineMarks t
  | j :: t => j.mark :: lineMarks t
  | [] => []

/-- What the receiver delivers to the framer (R186): no idle pairs, and nothing readable where a code-group is errored. -/
def delivered (js : List Judged) : List Judged :=
  ((js.zip (lineMarks js)).filter fun p => p.2 != .idle).map fun p => if p.2 == .good then p.1 else .absent

/-- The frame alignment word K28.5 D27.3 D11.6 D3.4 (Table 8.2). -/
def fawSeq : List Judged := [.special 0xBC, .data 0x7B, .data 0xCB, .data 0x83]

/-- A correct FAW: the four code-groups at the position, none invalid (R222). -/
def fawCorrect (js : List Judged) : Bool := js.length == 4 && delivered js == fawSeq

/-- A code-group as `LANE.CAPTURE` gives it: a in bit 0, bit 14 special, bit 15 valid. -/
def captureWord (g : CodeGroup) (j : Judged) : Half :=
  BitVec.ofNat 16 (bitsOf 10 (fun i => g.getMsbD i.val)
    + (match j with | .special _ => 2 ^ 14 + 2 ^ 15 | .data _ => 2 ^ 15 | _ => 0))

/-- The search for lock through a stream: `run` holds the places of the last commas since an invalid code-group, newest
first, `at_` the place reached. -/
def seekLock : List (Judged × Mark) → List Nat → Nat → Bool
  | [], _, _ => false
  | (j, m) :: t, run, at_ =>
    if m == .invalid then seekLock t [] (at_ + 1)
    else if !isComma j then seekLock t run (at_ + 1)
    else match run with
      | [_, _, first] => at_ - first < 1024 || seekLock t (at_ :: run.take 2) (at_ + 1)
      | _ => seekLock t (at_ :: run) (at_ + 1)

/-- The lock criterion of Table 8.3 beside the CDR's: 4 consecutive commas without an invalid code-group between them,
all within 1,024 symbols. -/
def lockMet (js : List Judged) (ms : List Mark) : Bool := seekLock (js.zip ms) [] 0

/-- Invalid code-groups of a run. -/
def invalids (ms : List Mark) : Nat := (ms.filter (· == .invalid)).length

/-- The loss criterion of Table 8.3: 16 invalid code-groups within 64 consecutive symbols. -/
def lossMet (ms : List Mark) : Bool :=
  (List.range (ms.length + 1)).any fun i => 16 ≤ invalids ((ms.drop i).take 64)

/-- A pattern entry of `LANE.MODE`: a valid code-group (R208), and not K28.1 or K28.7, which the terminal never sends
(R185). -/
def patternOk (v : Nat) : Bool :=
  v < 512 && (!bit v 8 || (encSpecial (v % 256) false).isSome && v % 256 != 0x3C && v % 256 != 0xFC)

/-! ### What the terminal sends (R185, R187) -/

/-- Code-groups sent from a running disparity: each byte with whether it is special. -/
def encodeRun : List (Bool × Nat) → Bool → List CodeGroup
  | [], _ => []
  | (k, b) :: t, rd =>
    let g : CodeGroup := BitVec.ofNat 10 (if k then (encSpecial b rd).getD 0 else encData b rd)
    g :: encodeRun t (rdNext g rd)

/-- D21.5 of the preamble. -/
def preamble (long : Bool) : List (Bool × Nat) := List.replicate (if long then 32 else 12) (false, 0xB5)

/-- The delimiter K28.5 D11.3 D20.7 D30.2. -/
def delimiter : List (Bool × Nat) := [(true, 0xBC), (false, 0x6B), (false, 0xF4), (false, 0x5E)]

/-- The end of burst K29.7 K23.7. -/
def endOfBurst : List (Bool × Nat) := [(true, 0xFD), (true, 0xF7)]

/-- The code-groups of a burst from the enable on (R187): 2 bt of D21.5, then the burst, encoded from negative running
disparity at its first preamble code-group. -/
def encodeBurst (long : Bool) (bytes : List Byte) : List CodeGroup :=
  List.replicate 2 (BitVec.ofNat 10 (encData 0xB5 false))
    ++ encodeRun (preamble long ++ delimiter ++ bytes.map (fun b => (false, b.toNat)) ++ endOfBurst) false

end Sys2Proof.Machine
end

