-- ==== Sys2Proof/Machine/Flags.lean ====
section
/-!
DEFINITION. The status words and interrupt conditions the terminal computes from its state:
`MBX_STATUS` (Table 5.1), the port status byte (Table 5.3), the interrupt condition (R111), and the
status and event codes (Tables 5.9, 22.3 and 22.4).
-/

namespace Sys2Proof.Machine

/-! ### Status codes (Table 22.3) -/
namespace Status
abbrev ok : Half := 0x0000
abbrev notReady : Half := 0x0002
abbrev empty : Half := 0x0003
abbrev opcode : Half := 0x0100
abbrev param : Half := 0x0101
abbrev authority : Half := 0x0102
abbrev busy : Half := 0x0103
abbrev regionBusy : Half := 0x0104
abbrev state : Half := 0x0105
abbrev tooFar : Half := 0x0106
abbrev order : Half := 0x0107
abbrev badDate : Half := 0x0108
abbrev stepSpent : Half := 0x0109
abbrev badSeed : Half := 0x010A
abbrev tag : Half := 0x010B
abbrev worn : Half := 0x010C
abbrev nonceExhausted : Half := 0x010D
abbrev lease : Half := 0x010E
abbrev pauseTimeout : Half := 0x010F
abbrev versionsFull : Half := 0x0110
abbrev noBand : Half := 0x0111
abbrev unreachable : Half := 0x0112
abbrev signature : Half := 0x0113
abbrev aborted : Half := 0x0200
abbrev abortLate : Half := 0x0201
abbrev abortUnknown : Half := 0x0202
abbrev faultCipher : Half := 0x0300
abbrev faultTenant : Half := 0x0301
abbrev faultWake : Half := 0x0302
abbrev timeFault : Half := 0x0303
end Status

/-! ### Directed event codes (Table 22.4) -/
namespace Code
abbrev powerLeaving : Half := 0x2001
abbrev tenantFaulted : Half := 0x2002
abbrev delegateEnd : Half := 0x2003
abbrev leaseRevoked : Half := 0x2004
abbrev imageFallback : Half := 0x2005
abbrev journalLost : Half := 0x2006
abbrev faultWake : Half := 0x2007
abbrev portRx : Half := 0x2008
end Code

/-- The power-state codes of chapter 03. -/
def PState.code : PState → Nat
  | .noon => 0 | .boost => 1 | .dusk => 2 | .night => 3 | .glacier => 4 | .permafrost => 5

/-- A slot that holds a command not yet posted (R122). -/
def Slot.pending (x : Slot) : Bool := x.phase == .held || x.phase == .accepted || x.phase == .running

/-- `RES_READY`. -/
def Tenant.resReady (x : Tenant) : Nat := bitsOf 8 fun i => x.slots[i].phase == .ready

/-- `RES_PENDING`. -/
def Tenant.resPending (x : Tenant) : Nat := bitsOf 8 fun i => x.slots[i].pending

/-- `EVT_PEND`. -/
def Tenant.evtPend (x : Tenant) : Bool := x.win.head != x.win.tail

/-- Bits [28:24] of `MBX_STATUS`. -/
def Win.flags (w : Win) : Nat :=
  16 * b2n w.coreRestart + 8 * b2n w.evtOvf + 4 * b2n w.bulkErr + 2 * b2n w.ringErr + b2n w.wbufOvf

/-- The interrupt condition of R111, the R96 notice of the tenant's own window included. -/
def Tenant.irq (x : Tenant) : Bool :=
  (x.win.irqRes && x.resReady != 0) || (x.win.irqEvt && x.evtPend) || x.win.flags != 0 || x.notice

/-- `MBX_STATUS` of a tenant's window (Table 5.1). -/
def mbxStatus (ready : Bool) (x : Tenant) : Nat :=
  b2n ready * 2 ^ 31 + b2n (x.st == .attached || x.st == .faulted) * 2 ^ 30
    + b2n (x.st == .faulted) * 2 ^ 29 + x.win.flags * 2 ^ 24 + x.resReady * 2 ^ 16
    + x.resPending * 2 ^ 8 + b2n x.win.irqRes * 2 ^ 7 + b2n x.win.irqEvt * 2 ^ 6
    + b2n x.evtPend * 2 ^ 5

/-- `AWAKE`: the aperture is served without extended wait; clear in NIGHT sleep and during a wake. -/
def State.awake (s : State) : Bool :=
  !(s.power.pstate == .night && !s.power.night.listening) && s.power.wake.isNone

/-- The port status byte of Table 5.3. -/
def statusByte (s : State) (irq busy : Bool) (port : Nat) : Nat :=
  b2n s.boot.mbxReady * 128 + b2n s.awake * 64 + b2n irq * 32 + b2n busy * 16 + port

end Sys2Proof.Machine
end

