-- ==== Sys2Proof/Machine/TimeBase.lean ====
section
/-!
DEFINITION. The counter and the transform (R270 to R273), the timekeeper of GLACIER (R289), and the
holdover estimate (R286). Instants are in ns of `now`; TT values in units of 2⁻¹⁶ ns.
-/

namespace Sys2Proof.Machine

/-- The FRC at an instant (R270). -/
def TimeUnit.frcAt (x : TimeUnit) (at_ : Nat) : Nat := (at_ - x.epoch) / 8 % 2 ^ 48

/-- Counts since `ANCHOR`. -/
def TimeUnit.sinceAnchor (x : TimeUnit) (at_ : Nat) : Nat := (x.frcAt at_ + 2 ^ 48 - x.anchor) % 2 ^ 48

/-- TT at an instant by the transform, truncated towards zero (R271). -/
def TimeUnit.ttAt (x : TimeUnit) (at_ : Nat) : Int :=
  x.offset + ((x.sinceAnchor at_ : Int) * 524288 * (2 ^ 40 + x.rate)) / 2 ^ 40

/-- Ticks of the 32.768 kHz clock between two instants. -/
def ticks (from_ to_ : Nat) : Nat := (to_ - from_) * 32768 / 10 ^ 9

/-- The timekeeper's TT at an instant (R289). -/
def Timekeeper.ttAt (k : Timekeeper) (at_ : Nat) : Nat := k.tt + ticks k.at_ at_ * k.period

/-- TT at an instant: the timekeeper's while PD_PLL is off (R289, R298), else the transform's. -/
def TimeUnit.tt (x : TimeUnit) (at_ : Nat) : Nat :=
  match x.tk with
  | some k => k.ttAt at_
  | none => (x.ttAt at_).toNat

/-- TT now, in units of 2⁻¹⁶ ns. -/
def State.ttU (s : State) : Nat := s.time.tt s.now

/-- TT now, in ns (R272). -/
def State.ttNs (s : State) : Nat := s.ttU / 65536 % 2 ^ 64

/-- TT is ESTIMATED (R273). -/
def State.ttEst (s : State) : Bool := s.time.unset || s.time.estimated

/-- The 10 bytes of a TT value (R272). -/
def ttBytes (u : Nat) : List Byte := leBytes 8 (u / 65536) ++ leBytes 2 u

/-- The first instant, not before a given one, at which TT reaches a target. -/
def TimeUnit.instantOf (x : TimeUnit) (at_ : Nat) (target : Int) : Nat :=
  match x.tk with
  | some k =>
    let n : Int := (target - (k.tt : Int) + (k.period : Int) - 1) / (k.period : Int)
    max at_ (k.at_ + (n.toNat * 10 ^ 9 + 32767) / 32768)
  | none =>
    let rate : Int := 524288 * (2 ^ 40 + x.rate)
    let n : Int := ((target - x.offset) * 2 ^ 40 + rate - 1) / rate
    let c : Int := n - (x.sinceAnchor at_ : Int)
    if c ≤ 0 then at_ else (at_ - x.epoch) / 8 * 8 + x.epoch + 8 * c.toNat

/-- Time moves to the first instant at which TT reaches a number of ns. -/
def State.reachTt (s : State) (ns : Nat) : State :=
  { s with now := s.time.instantOf s.now ((ns : Int) * 65536) }

/-- The transform rebased (R271): TT is continuous. -/
def TimeUnit.rebase (x : TimeUnit) (at_ : Nat) : TimeUnit :=
  { x with offset := x.ttAt at_, anchor := x.frcAt at_ }

/-- A change of `RATE` (R271). -/
def TimeUnit.setRate (x : TimeUnit) (at_ : Nat) (r : Int) : TimeUnit :=
  if x.rate = r then x else { x.rebase at_ with rate := r }

/-- The drift of a base at an instant (R286), none for an unknown one. -/
def TimeUnit.drift (x : TimeUnit) (at_ : Nat) : Option Nat :=
  match x.te with
  | .unknown => none
  | .drift e0 f =>
    let dt := at_ - f
    some (e0 + (x.cfg.y0 * dt) / 10 ^ 11 + (x.cfg.d * dt * dt) / (2 * 10 ^ 24))
  | .glacier e0 f => some (e0 + 31000 + x.cfg.yTk * (at_ - f) / 10 ^ 7)

/-- `TE_EST` in ns; none for unknown (R286). -/
def TimeUnit.teEst (x : TimeUnit) (at_ : Nat) : Option Nat :=
  if x.unset then none else
  match x.source, x.sstate with
  | .head, .locked => some (x.ebar.natAbs / 65536 + 10)
  | .tenant _, _ => none
  | _, _ => x.drift at_

/-- `TE_EST` as 32 bits, saturating. -/
def TimeUnit.teWord (x : TimeUnit) (at_ : Nat) : Nat :=
  match x.teEst at_ with
  | some e => satTo (2 ^ 32 - 1) e
  | none => 2 ^ 32 - 1

/-- The estimate carried into a new state: E0 is the value at entry (R286). -/
def TimeUnit.carryTe (x : TimeUnit) (at_ : Nat) : TeBase :=
  match x.teEst at_ with
  | some e => .drift e at_
  | none => .unknown

/-- The block without a command: one tick of the 125 MHz clock passes (log entry 5). -/
def State.idle (s : State) : State := { s with now := s.now + 8 }

end Sys2Proof.Machine
end

