-- ==== Sys2Proof/Machine/Ops.lean ====
section
/-!
DEFINITION. The shared operations of the meanings: tenants and slots, power domains, the event
router's latches (R166), directed events (R168), notices (R119, R176), results (R124) and leases.
-/

namespace Sys2Proof.Machine

/-- What a meaning answers. -/
abbrev Out := Host.Outcome State Fault Refusal

/-! ### Draws -/

/-- The next draw of the random source. -/
def State.draw (s : State) : Nat := Config.random s.rand

/-- The state after a draw. -/
def State.drawn (s : State) : State := { s with rand := s.rand + 1 }

/-- The next free value. -/
def State.freeVal (s : State) : Nat := Config.freeNat s.free

/-- The state after a free value is drawn. -/
def State.freed (s : State) : State := { s with free := s.free + 1 }

/-- Something leaves the terminal. -/
def State.emit (s : State) (e : Emission) : State := { s with out := s.out ++ [e] }

/-- Time moves to an instant, never back: an expiry is served at or after its deadline. -/
def State.reach (s : State) (t : Nat) : State := { s with now := max s.now t }

/-! ### Tenants and slots -/

/-- A tenant's record. -/
def State.ten (s : State) (t : Ten) : Tenant := s.tenants[t]

/-- A tenant's record replaced. -/
def State.setTen (s : State) (t : Ten) (x : Tenant) : State := { s with tenants := s.tenants.set t x }

/-- A tenant's record changed. -/
def State.modTen (s : State) (t : Ten) (f : Tenant → Tenant) : State := s.setTen t (f (s.ten t))

/-- All tenants, T0 first. -/
def allTen : List Ten := List.finRange 8

/-- A slot of a tenant. -/
def State.slot (s : State) (t : Ten) (n : SlotIx) : Slot := (s.ten t).slots[n]

/-- A slot replaced. -/
def Tenant.setSlot (x : Tenant) (n : SlotIx) (y : Slot) : Tenant := { x with slots := x.slots.set n y }

/-- A slot replaced. -/
def State.setSlot (s : State) (t : Ten) (n : SlotIx) (y : Slot) : State :=
  s.modTen t fun x => x.setSlot n y

/-- A slot changed. -/
def State.modSlot (s : State) (t : Ten) (n : SlotIx) (f : Slot → Slot) : State :=
  s.setSlot t n (f (s.slot t n))

/-- The SPI port of a transport code (Table 6.1). -/
def spiOf (code : Byte) : Option (Fin 4) :=
  if 0x10 ≤ code.toNat ∧ code.toNat ≤ 0x13 then some (Fin.ofNat 4 (code.toNat - 0x10)) else none

/-- The local lane of a transport code: 0 is L2, 1 is L3. -/
def laneOf (code : Byte) : Option (Fin 2) :=
  if code = 0x22 then some 0 else if code = 0x23 then some 1 else none

/-- The tenant bound to an SPI port (R138: at most one). -/
def State.tenOfPort (s : State) (p : Fin 4) : Option Ten :=
  allTen.find? fun t => spiOf (s.ten t).cfg.transport == some p

/-- The tenant an access reaches: over one transport only (R107), and over a lane in a session only (R117). -/
def State.tenOf (s : State) : Via → Option Ten
  | .spi p => s.tenOfPort p
  | .lane t => if (laneOf (s.ten t).cfg.transport).isSome && (s.ten t).st != .detached then some t else none
  | .owner => some 0

/-- The current delegate (R148). -/
def State.delegate (s : State) : Option Ten := s.mbx.delegate.map (·.1)

/-- T0 or the current delegate (R147); no tenant in RETIRED (R416). -/
def State.isOwner (s : State) (t : Ten) : Bool := s.fuses.life != .retired && (t == 0 || s.delegate == some t)

/-- A tenant's authority mask with `OWNER` and what the owner holds (R146, R147). -/
def State.authOf (s : State) (t : Ten) : Half :=
  if s.isOwner t then 0x81FF else (s.ten t).cfg.auth

/-- Whether a tenant holds the authority of a bit of Table 6.4. -/
def State.holds (s : State) (t : Ten) (b : Nat) : Bool := (s.authOf t).getLsbD b

/-- A tenant is reached over its lane or its port, or is the owner: none of Table 6.1's binding codes for T0 (R137). -/
def State.bound (s : State) (u : Ten) : Bool := (s.ten u).cfg.transport != 0

/-- Base of a tenant's partition in the tenant area, in units of 64 KiB (R151). -/
def State.partBase (s : State) (t : Ten) : Nat :=
  ((List.finRange 8).filter (· < t)).foldl (fun a u => a + (s.ten u).cfg.part) 0

/-- A tenant's partition size in bytes. -/
def State.partBytes (s : State) (t : Ten) : Nat := (s.ten t).cfg.part * 65536

/-- The tenant area address of a partition offset. -/
def State.partAddr (s : State) (t : Ten) (off : Nat) : Nat := s.partBase t * 65536 + off

/-- Whether a bulk range lies wholly inside the partition (R121). -/
def State.inPart (s : State) (t : Ten) (off len : Nat) : Bool := off + len ≤ s.partBytes t

/-- Bytes of a partition. -/
def State.partRead (s : State) (t : Ten) (off len : Nat) : List Byte := s.sram.getN (s.partAddr t off) len

/-- Bytes written into a partition. -/
def State.partWrite (s : State) (t : Ten) (off : Nat) (bs : List Byte) : State :=
  { s with sram := s.sram.putN (s.partAddr t off) bs }

/-! ### Domains -/

/-- The condition of a domain. -/
def State.dom (s : State) (d : Dom) : DomState := s.power.dom[d]

/-- Powered and clocked or gated (R53). -/
def State.domOn (s : State) (d : Dom) : Bool := s.dom d == .on || s.dom d == .gated

/-- A domain's condition set. -/
def State.setDom (s : State) (d : Dom) (x : DomState) : State :=
  { s with power.dom := s.power.dom.set d x }

/-- Several domains' condition set. -/
def State.setDoms (s : State) (ds : List Dom) (x : DomState) : State := ds.foldl (·.setDom · x) s

/-- Domain indices of Table 1.1. -/
abbrev dTKP : Dom := 1
abbrev dCTL : Dom := 2
abbrev dMEM : Dom := 3
abbrev dPLL : Dom := 4
abbrev dLNA : Dom := 5
abbrev dLNL : Dom := 6
abbrev dFRM : Dom := 7
abbrev dPKT : Dom := 8
abbrev dCIP : Dom := 9
abbrev dNVM : Dom := 10
abbrev dINF : Dom := 11
abbrev dAUD : Dom := 12

/-- A lane is fitted: A, B, L2, L3 (R51). -/
def State.fitted (s : State) (i : Fin 4) : Bool := !s.store.absent.getLsbD i.val

/-! ### Buckets -/

/-- A bucket filled up to an instant: `rate` tokens a second, at most `depth` tokens. -/
def Bucket.fill (b : Bucket) (rate depth now : Nat) : Bucket :=
  { level := min (depth * 10 ^ 9) (b.level + (now - b.at_) * rate), at_ := now }

/-- Whether a filled bucket holds a token. -/
def Bucket.any (b : Bucket) : Bool := 10 ^ 9 ≤ b.level

/-- A token taken. -/
def Bucket.take (b : Bucket) : Bucket := { b with level := b.level - 10 ^ 9 }

/-! ### The router's latches -/

/-- The domain of a source, where Table 7.1 has the source (R164); none for a reserved source. -/
def sourceDom (src : Nat) : Option Dom :=
  if src ≤ 0x03 then some 0 else if src ≤ 0x08 then some dTKP
  else if src ≤ 0x11 then some 0 else if src ≤ 0x1F then none
  else if src ≤ 0x39 then some dPLL else if src ≤ 0x3F then none
  else if src ≤ 0x43 then some dLNA else if src ≤ 0x47 then some dLNL
  else if src ≤ 0x4F then none else if src ≤ 0x56 then some dFRM
  else if src ≤ 0x5F then none else if src ≤ 0x63 then some dPKT
  else if src ≤ 0x6F then none else if src ≤ 0x79 then some dPKT
  else if src ≤ 0x7F then none else if src ≤ 0x81 then some dCIP
  else if src ≤ 0x86 then some dNVM else if src ≤ 0x8F then none
  else if src ≤ 0x93 then some dINF else if src ≤ 0x9F then none
  else if src ≤ 0xA4 then some dAUD else if src ≤ 0xA7 then none
  else if src ≤ 0xAB then some dAUD else if src ≤ 0xAF then none
  else if src ≤ 0xBB then some dCTL else if src ≤ 0xC7 then some dAUD
  else if src ≤ 0xEF then none else if src ≤ 0xF1 then some dCTL else none

/-- The core bits of `TARGETS` (R526, Table 7.9): CC0 is bit 0, CC1 is bit 1. -/
def coreTargets (src : Nat) : Nat :=
  if src ≤ 0x11 then 1 else if src < 0x36 then 0 else if src ≤ 0x39 then 2
  else if src < 0x40 then 0 else if src ≤ 0x43 then 2 else if src ≤ 0x47 then 1
  else if src < 0x50 then 0 else if src ≤ 0x56 then 2 else if src < 0x60 then 0
  else if src ≤ 0x63 then 1 else if src < 0x70 then 0 else if src ≤ 0x79 then 1
  else if src < 0x80 then 0 else if src ≤ 0x86 then 1 else if src < 0x90 then 0
  else if src ≤ 0x93 then 1 else if src < 0xA0 then 0 else if src ≤ 0xA4 then 1
  else if src < 0xA8 then 0 else if src ≤ 0xAB then 1 else 0

/-- A routing entry. -/
def State.source (s : State) (i : Fin 256) : Source := s.evt.srcs[i]

/-- A routing entry changed. -/
def State.modSource (s : State) (i : Fin 256) (f : Source → Source) : State :=
  { s with evt.srcs := s.evt.srcs.set i (f (s.source i)) }

/-- An assertion meets a latch (R166): the latch is set, or the assertion is merged into it. -/
def Source.assert (x : Source) (tt : Nat) (est : Bool) (data : Word) : Source :=
  if !x.en then x else
  match x.latch with
  | none => { x with latch := some { tt := tt, est := est, data := data } }
  | some l => { x with latch := some { l with data := data }, merged := satInc 255 x.merged }

/-- Whether a source can assert: not reserved, its domain on and the router powered (R164). -/
def State.canAssert (s : State) (i : Fin 256) : Bool :=
  s.domOn dCTL && (match sourceDom i.val with | some d => s.domOn d | none => false)

/-- A source asserts (R166). -/
def State.raise (s : State) (i : Fin 256) (data : Word) : State :=
  if s.canAssert i && i.val != 0xF0 then
    s.modSource i fun x => x.assert s.ttNs s.ttEst data
  else s

/-- An event taken by its core targets (R171, R526). -/
def State.coreEvent (s : State) (i : Fin 256) (l : Latch) : State :=
  { s with evt.core := Vector.ofFn fun c => if (coreTargets i.val).testBit c.val then some (i, l) else s.evt.core[c] }

/-- The AO-watch set and the wake configuration in force: PD_AO's copy while PD_CTL is off (R177, R178). -/
def State.wakeCfg (s : State) : WakeCfg := if s.domOn dCTL then s.power.wcfg else s.ao.cfg

/-- A directed firmware event is posted to its targets (R168); a DETACHED target takes none (R169). -/
def State.direct (s : State) (code : Half) (targets : List Ten) (data : Nat) : State :=
  let mask := (targets.filter fun t => (s.ten t).st != .detached).foldl
    (fun (m : BitVec 8) t => m ||| (1#8 <<< t.val)) 0
  if mask = 0 then s else
  { s with evt.directed := s.evt.directed ++
      [{ code := code, targets := mask,
         latch := { tt := s.ttNs, est := s.ttEst, data := BitVec.ofNat 32 data } }] }

/-! ### Notices and results -/

/-- The rank of an upstream LMM (Table 11.5). -/
def lmmRank (type : Byte) : Nat :=
  match type.toNat with
  | 0x83 => 1 | 0x85 => 2 | 0x81 => 3 | 0x82 => 3 | 0x87 => 4 | 0x86 => 5 | _ => 6

/-- LMMs reserved in prepared bursts: they stay pending until their burst commits (R262). -/
def State.lmmReserved (s : State) : Nat :=
  s.us.gs.toList.foldl (fun a x => a + (x.bursts.filter (·.lmm.isSome)).length) 0

/-- The oldest message of the lowest-ranked type present (R254). -/
def lmmVictim (q : List LmmOut) : Option LmmOut :=
  let low := q.foldl (fun m x => max m (lmmRank x.type)) 0
  q.find? fun x => lmmRank x.type == low

/-- A message joins the upstream LMM queue (R254): a new `MBX_NOTICE` replaces a pending one, and a
seventeenth message discards the oldest of the lowest-ranked type. -/
def State.queueLmm (s : State) (type : Byte) (body : List Byte) : State :=
  let u := s.us
  if type = 0x86 ∧ u.lmmq.any (·.type == 0x86) then
    { s with us.lmmq := u.lmmq.map fun x => if x.type == 0x86 then { x with body := body } else x }
  else
    let full := 16 ≤ u.lmmq.length + s.lmmReserved
    let kept := match lmmVictim u.lmmq with
      | some v => if full then u.lmmq.filter fun x => x.n != v.n else u.lmmq
      | none => u.lmmq
    let x : LmmOut := { type := type, body := body, n := u.lmmN }
    { s with us := { u with
        lmmq := kept ++ [x], lmmN := u.lmmN + 1, lmmOvf := if full then satInc 255 u.lmmOvf else u.lmmOvf } }

/-- A message put back among those pending, in its place by arrival (R262). -/
def State.requeueLmm (s : State) (x : LmmOut) : State :=
  { s with us.lmmq := (s.us.lmmq.takeWhile fun y => y.n < x.n) ++ x :: s.us.lmmq.dropWhile fun y => y.n < x.n }

/-- The message the next burst carries: the best rank, in arrival order within it. -/
def nextLmm (q : List LmmOut) : Option LmmOut :=
  q.foldl (fun (best : Option LmmOut) x => match best with
    | none => some x
    | some b => if lmmRank x.type < lmmRank b.type then some x else best) none

/-- The port status byte and `MBX_STATUS` of a tenant, as notices carry them (R117, R176). -/
def State.noticeBody (s : State) (t : Ten) : List Byte :=
  let x := s.ten t
  BitVec.ofNat 8 (statusByte s x.irq false 0) :: leBytes 4 (mbxStatus s.boot.mbxReady x)

/-- An in-band frame of the terminal with its tag (Table 5.4). -/
def ibFrame (type : Byte) (t : Ten) (seq : Half) (addr len : Nat) (data key : List Byte) : List Byte :=
  let body := [0x01, type, BitVec.ofNat 8 t.val, 0] ++ beBytes 2 seq.toNat ++ beBytes 2 addr
    ++ beBytes 2 len ++ data
  body ++ top64 (Config.cmac key body)

/-- A local lane's index among the four lanes. -/
def localIx (l : Fin 2) : Fin 4 := Fin.ofNat 4 (2 + l.val)

/-- A local lane's link is up (R189, R190). -/
def State.laneLink (s : State) (l : Fin 2) : Bool := s.lanes.phy[localIx l].good

/-- The address of a local lane (R143). -/
def State.laneMac (s : State) (l : Fin 2) : List Byte := s.store.laneMac[l]

/-- A string filled with zeros to a length. -/
def padTo (n : Nat) (bs : List Byte) : List Byte := bs ++ List.replicate (n - bs.length) 0

/-- A frame of the lane's own MAC goes out: 64 bytes at least with its header and FCS (R203, R204). -/
def State.macOut (s : State) (l : Fin 2) (f : MacFrame) : State :=
  let x := s.lanes.locals[l]
  { s.emit (.frame l f.dst (s.laneMac l) f.etype (padTo 46 f.payload)) with
    lanes.locals := s.lanes.locals.set l { x with txFrames := satInc (2 ^ 32 - 1) x.txFrames } }

/-- The lane's own MAC is to send a frame: not without a link, and not while it is raw (R191, R201); while it is paused,
after the PAUSE time (R205). -/
def State.macSend (s : State) (l : Fin 2) (f : MacFrame) : State :=
  let x := s.lanes.locals[l]
  if !s.laneLink l || s.lanes.phy[localIx l].raw then s
  else if x.pausedBy.isSome then { s with lanes.locals := s.lanes.locals.set l { x with macq := x.macq ++ [f] } }
  else s.macOut l f

/-- The session entry of a tenant's in-band key (R142, Table 16.5). -/
def ibEntry (t : Ten) : Fin 32 := Fin.ofNat 32 (9 + t.val)

/-- A tenant's in-band key (R142). -/
def State.ibKey (s : State) (t : Ten) : Option (List Byte) := s.cip.bank[ibEntry t].map (·.key)

/-- The pool contexts (Table 16.2). -/
def poolCtx : List (Fin 16) := [8, 9, 10, 11, 12, 13, 14, 15]

/-- Contexts that running jobs use. -/
def State.ctxBusy (s : State) : List (Fin 16) := (s.cip.jobs.filter (·.started)).filterMap (·.ctx)

/-- The pool context a load takes: a free one, else the least recently used one no running job uses. -/
def State.ctxFree (s : State) : Option (Fin 16) :=
  let idle := poolCtx.filter fun c => !s.ctxBusy.contains c
  match idle.find? fun c => (s.cip.ctx[c]).isNone with
  | some c => some c
  | none => idle.foldl (fun (best : Option (Fin 16)) c => match best with
      | none => some c
      | some b => if ((s.cip.ctx[c]).map Ctx.used).getD 0 < ((s.cip.ctx[b]).map Ctx.used).getD 0 then some c else some b) none

/-- A firmware job uses a session entry's key through a pool context loaded for firmware (R377, R378). -/
def State.firmUse (s : State) (e : Fin 32) : State :=
  let n := s.cip.uses + 1
  let own := poolCtx.find? fun c => (s.cip.ctx[c]).any fun x => x.src == .entry e && x.ten.isNone
  match own.or s.ctxFree, s.cip.bank[e] with
  | some c, some k =>
    { s with cip := { s.cip with uses := n, ctx := s.cip.ctx.set c (some { src := .entry e, key := k.key, used := n }) } }
  | _, _ => s

/-- The notice of a tenant whose interrupt condition holds: a notice frame on its lane, repeated
every 10 ms (R119), or an `MBX_NOTICE` for the owner, repeated every 8 multiframes (R176). DESIGN CHOICE (log entry 536):
the terminal's `SEQ` counter gives the first notice 1, and its `ADDR` is 0. -/
def State.sendNotice (s : State) (t : Ten) : State :=
  let x := s.ten t
  match laneOf x.cfg.transport with
  | some l =>
    match s.ibKey t with
    | some k =>
      ((s.firmUse (ibEntry t)).macSend l
          ⟨x.ibMac, 0x88B6, ibFrame 0x90 t (x.noticeSeq + 1) 0 5 (s.noticeBody t) k⟩).modTen t
        fun y => { y with noticeSeq := y.noticeSeq + 1, noticeBy := some (s.now + 10000000), statusRead := false }
    | none => s
  | none =>
    if t = 0 then
      (s.queueLmm 0x86 (s.noticeBody t)).modTen t
        fun y => { y with noticeBy := some (s.now + 16000000), statusRead := false }
    else s

/-- A new event record, a READY result or a newly set status bit is announced (R119, R176). -/
def State.notify (s : State) (t : Ten) : State :=
  if (s.ten t).irq then s.sendNotice t else s

/-- A bit of `MBX_STATUS` [28:24] is set; one newly set is announced (R111, R119). -/
def State.flagTen (s : State) (t : Ten) (get : Win → Bool) (f : Win → Win) : State :=
  if get (s.ten t).win then s else (s.modTen t fun x => { x with win := f x.win }).notify t

/-- A command's last work ends now: the idle timers of R55 run from here. -/
def State.touch (s : State) : State := { s with power.idle.dusk := s.now }

/-- A result as its slot holds it (R124): a completion after its timeout or an abort request carries `LATE` (R129,
R130), a command that stopped after its timeout carries `TIMEOUT`. -/
def Slot.posted (x : Slot) (st : Half) (data : List Byte) (bulkOut : Bool) : Slot :=
  let stopped := st == Status.aborted || st == Status.faultTenant
  { x with phase := .ready, status := st, data := data.take 56, readCount := 0, bulkOut := bulkOut,
           restart := false, timedOut := st == Status.aborted && x.expired,
           late := !stopped && (x.expired || x.abortAsked),
           deadline := none, aborters := [] }

/-- A result is written whole and its slot set READY (R124). The command of an emptied slot tells no one. -/
def State.postRaw (s : State) (t : Ten) (n : SlotIx) (st : Half) (data : List Byte) (bulkOut : Bool) : State :=
  let s1 := (s.modSlot t n fun x => x.posted st data bulkOut).touch
  if (s.slot t n).ghost then s1 else s1.notify t

/-- Whether a slot runs a `SYS.ABORT`. -/
def Slot.aborting (x : Slot) : Bool := x.phase == .running && leAt x.desc.toList 0 2 == 0x0107

/-- A result is posted; each `SYS.ABORT` that waits for this command then posts `OK` if the command
stopped and `ABORT_LATE` if it completed (R127, R130). -/
def State.post (s : State) (t : Ten) (n : SlotIx) (st : Half) (data : List Byte) (bulkOut : Bool := false) : State :=
  ((s.slot t n).aborters.filter fun m => m != n).foldl
    (fun s m => if (s.slot t m).aborting then
        s.postRaw t m (if st == Status.aborted then Status.ok else Status.abortLate) [] false
      else s)
    (s.postRaw t n st data bulkOut)

/-- A completion without result data. -/
def State.done (s : State) (t : Ten) (n : SlotIx) (st : Half) : State := s.post t n st []

/-- A completion `OK` with result data. -/
def State.answer (s : State) (t : Ten) (n : SlotIx) (data : List Byte) : State := s.post t n Status.ok data

/-! ### Leases (R153) -/

/-- The holder of a resource. -/
def State.holder (s : State) (id : Nat) : Option Ten := (s.mbx.leases.find? (·.1 == id)).map (·.2)

/-- Whether a tenant holds a lease. -/
def State.hasLease (s : State) (t : Ten) (id : Nat) : Bool := s.holder id == some t

/-- The lease mask of a tenant: bit n stands for ID n (R153). -/
def State.leaseMask (s : State) (t : Ten) : Nat := bitsOf 32 fun i => s.hasLease t i.val

/-- What had to stop for the revocation of a resource has stopped (R154); a part of a rescue waits for the last one (R162). -/
def State.revocationOver (s : State) (id : Nat) : State :=
  if s.mbx.residue.any (·.2 == id) then s
  else { s with mbx.revoking := s.mbx.revoking.filter (· != id) }

/-- A lease dropped from the table. -/
def State.dropLease (s : State) (id : Nat) : State :=
  { s with mbx.leases := s.mbx.leases.filter (·.1 != id) }

end Sys2Proof.Machine
end

