-- ==== Sys2Proof/Machine/Balls.lean ====
section
/-!
DEFINITION. The state of the balls (R29, R30, R38, R41, Tables 2.1, 2.3 and 2.6): which of them operate, float, are
released or are driven low.
-/

namespace Sys2Proof.Machine

/-- The balls, by the rows of Table 2.6. -/
inductive Ball where
  /-- The balls of PG_AO. -/
  | ao
  | fibre (l : Fin 2)
  | localLane (l : Fin 2)
  /-- `REFCLK`, `REFXO` and `IREF`. -/
  | reference
  | txdis (l : Fin 2)
  /-- `OPT_LOS_x` and `OPT_RSSI_x`. -/
  | optics (l : Fin 2)
  | csN (p : Fin 4)
  | trstN
  | tirq (p : Fin 4)
  | twoWire (p : TwPort)
  /-- Every other ball of PG_HOST. -/
  | host
  /-- The balls of PG_FIELD. -/
  | field
  | timeOut (i : Fin 4)
  | tsIn (i : Fin 4)
deriving DecidableEq, Repr

/-- What a ball does (R41). -/
inductive BallState where
  | act | z | rel | low
deriving DecidableEq, Repr

/-- ACT under a condition, another state otherwise. -/
def actIf (c : Bool) (other : BallState) : BallState := if c then .act else other

/-- A fibre lane's balls operate: PD_LNA is on, the lane is fitted, and it is not the standby lane in NIGHT (R41, R54). -/
def State.fibreOn (s : State) (l : Fin 2) : Bool :=
  s.domOn dLNA && s.fitted (Fin.ofNat 4 l.val) && (s.power.pstate != .night || l == s.lanes.prot.active)

/-- A local lane's balls operate. -/
def State.localOn (s : State) (l : Fin 2) : Bool := s.domOn dLNL && s.fitted (Fin.ofNat 4 (2 + l.val))

/-- The "Under reset" column of Table 2.6; a ball whose rail is absent stays high-impedance (R29, R30). -/
def State.ballHeld (s : State) : Ball → BallState
  | .ao => .act
  | .fibre _ | .localLane _ | .host | .field | .tsIn _ => .z
  | .reference => actIf s.pads.enMain .z
  | .txdis _ | .tirq _ | .twoWire _ => .rel
  | .optics _ | .csN _ | .trstN => actIf s.pads.enAux .z
  | .timeOut _ => if s.pads.enAux then .low else .z

/-- The power-state columns of Table 2.6, each ball following its domain (R29). -/
def State.ballRuns (s : State) : Ball → BallState
  | .ao => .act
  | .fibre l => actIf (s.fibreOn l) .z
  | .localLane l => actIf (s.localOn l) .z
  | .reference => actIf (s.domOn dPLL) .z
  | .txdis l => actIf (s.fibreOn l) .rel
  | .optics _ | .csN _ | .trstN => actIf s.pads.enAux .z
  | .tirq _ | .twoWire _ => actIf (s.domOn dCTL) .rel
  | .host => actIf (s.domOn dCTL) .z
  | .field => actIf (s.domOn dAUD) .z
  | .timeOut _ => if s.domOn dTKP then actIf (s.domOn dPLL) .low else .z
  | .tsIn _ => actIf (s.domOn dTKP && s.domOn dPLL) .z

/-- The state of a ball. Below the power-on threshold every ball but PG_AO's is high-impedance (R38). -/
def State.ball (s : State) (b : Ball) : BallState :=
  if !s.pads.powered then (if b = .ao then .act else .z)
  else if !s.pads.rstN then s.ballHeld b else s.ballRuns b

/-- A ball operates by its function. -/
def State.ballActs (s : State) (b : Ball) : Bool := s.ball b == .act

/-! ### Debug access and boundary scan (R414, R419, R420, Table 17.2) -/

/-- The TAP IDCODE (R420): version 0xB, part 0x4800, manufacturer 0x279, and bit 0 set. -/
def tapIdcode : BitVec 32 := (0xB#4 ++ 0x4800#16 ++ 0x279#11 ++ 1#1)

/-- The TAP instructions a lifecycle and a level permit (Table 17.2): in FACTORY EXTEST at every level (R414). -/
def State.tapAllows (s : State) : TapInstr → Bool
  | .bypass => true
  | .idcode => true
  | .sample => s.ao.dbg.level == 2 || s.fuses.life == .factory
  | .extest => s.ao.dbg.level == 2 || s.fuses.life == .factory

/-- The port takes an instruction while `TRST_N` is high and PD_CTL is on; one that is not permitted acts as BYPASS. -/
def State.tapLoad (s : State) (i : TapInstr) : State :=
  if s.pads.trstN && s.domOn dCTL then { s with sec.tap := if s.tapAllows i then i else .bypass } else s

/-- What a boundary cell may do to its ball: those of `OPT_TXDIS_A` and `OPT_TXDIS_B` only observe (R420). -/
def cellDrives : Ball → Bool
  | .txdis _ => false
  | _ => true

/-- EXTEST drives a ball from its boundary cell: never an `OPT_TXDIS` ball (R420). -/
def State.extestDrives (s : State) (b : Ball) : Bool := s.sec.tap == .extest && cellDrives b

/-- What the register between `TDI` and `TDO` captures of the IDCODE and BYPASS instructions. -/
def TapInstr.capture : TapInstr → Option (Nat × Nat)
  | .idcode => some (32, tapIdcode.toNat)
  | .bypass => some (1, 0)
  | _ => none

/-- What the debug access port opens to the cores (Table 17.2). -/
inductive DebugPort where
  | closed | trace | full
deriving DecidableEq, Repr

/-- The debug access port of a level (Table 17.2, R421): at SLUSH a trace session, at THAWED everything. -/
def State.debugPort (s : State) : DebugPort :=
  if !s.pads.trstN then .closed
  else if s.ao.dbg.level = 2 then .full else if s.sec.trace then .trace else .closed

/-- The debug UART of a level (Table 17.2): Nergor's log goes out above FROZEN, the console comes in at THAWED. -/
def State.uartLogs (s : State) : Bool := s.ao.dbg.level != 0
def State.uartConsole (s : State) : Bool := s.ao.dbg.level == 2

/-- The GPIO balls whose receivers can be on: `GPIO0` to `GPIO11` of PG_HOST, `GPIO12` to `GPIO23` of PG_FIELD
(Table 2.1). -/
def State.gpioSeen (s : State) : BitVec 24 :=
  (if s.ballActs .host then 0x000FFF else 0) ||| (if s.ballActs .field then 0xFFF000 else 0)

end Sys2Proof.Machine
end

