-- ==== Sys2Proof/Machine/ClockUnit.lean ====
section
/-!
DEFINITION. Clock synthesis as other units use it: the band table and the lock search (R309 to R312),
and the entry of DPLL-T into HOLD or OPEN (R320).
-/

namespace Sys2Proof.Machine

/-! ### The frequency control word and the dither (R307, R313) -/

/-- `FCW[32:0]` (R307): `FCW_NOM` with `STEER`; the DCO runs at 25.000 MHz times it over 2^24. -/
def Clk.fcw (x : Clk) : Int := 250 * 2 ^ 24 + x.steer

/-- The integer part of `FCW`, which the divider's modulus moves about. -/
def Clk.fcwInteger (x : Clk) : Int := x.fcw / 2 ^ 24

/-- The fraction of `FCW`, the modulator's input. -/
def Clk.fcwFraction (x : Clk) : Int := x.fcw % 2 ^ 24

/-- One shift of the dither register, x^23 + x^18 + 1 (R313). -/
def lfsrNext (x : BitVec 23) : BitVec 23 := (x <<< 1) ||| (BitVec.ofBool (x.getLsbD 22 ^^ x.getLsbD 17)).setWidth 23

/-- The dither term of a cycle (R313): the amplitude times the first difference of the register's output. -/
def ditherTerm (amp : Nat) (now before : Bool) : Int := amp * ((b2n now : Int) - b2n before)

/-! ### The band table -/

/-- `VALID` of an entry (Table 13.1). -/
def bandValid (e : BitVec 64) : Bool := e.getLsbD 15

/-- `F_MIN` in MHz. -/
def bandMin (e : BitVec 64) : Nat := bits e.toNat 32 16

/-- `F_MAX` in MHz. -/
def bandMax (e : BitVec 64) : Nat := bits e.toNat 48 16

/-- The fields of Table 13.1; everything else in an entry is ignored (R310). -/
def bandFields (e : BitVec 64) : BitVec 64 := e &&& 0xFFFFFFFF000081FF#64

/-- Whether a list of valid entries rises strictly in `F_MIN`. -/
def risingMin : List (BitVec 64) → Bool
  | a :: b :: rest => decide (bandMin a < bandMin b) && risingMin (b :: rest)
  | _ => true

/-- A table is well formed (R310). -/
def bandsOk (b : Vector (BitVec 64) 32) : Bool :=
  let valid := b.toList.filter bandValid
  valid.all (fun e => 5600 ≤ bandMin e && bandMax e ≤ 6900 && bandMin e < bandMax e)
    && risingMin valid && valid.any fun e => bandMin e ≤ 6248 && 6252 ≤ bandMax e

/-- The default entry as index 0, covering 6,000 MHz to 6,500 MHz (R311). -/
def defaultBands : Vector (BitVec 64) 32 :=
  (Vector.replicate 32 0).set 0 (BitVec.ofNat 64 (6500 * 2 ^ 48 + 6000 * 2 ^ 32 + 2 ^ 15 + 16 * 16 + 8))

/-- The search target in MHz, rounded (R312). -/
def Clk.target (x : Clk) : Nat := ((25 * x.fcw + 2 ^ 23) / 2 ^ 24).toNat

/-- The entries a lock search tries (R312): the lowest that covers the target, the next valid one above,
the next valid one below; none when no entry covers it. -/
def Clk.searchList (x : Clk) : List (Fin 32) :=
  let valid (i : Fin 32) : Bool := bandValid x.bands[i]
  match (List.finRange 32).find? fun i => valid i && bandMin x.bands[i] ≤ x.target && x.target ≤ bandMax x.bands[i] with
  | none => []
  | some c =>
    let above := ((List.finRange 32).filter fun i => c < i && valid i).take 1
    let below := ((List.finRange 32).reverse.filter fun i => i < c && valid i).take 1
    c :: (above ++ below)

/-- A lock search is running or a run-time relock is under way (R312). -/
def Clk.searching (x : Clk) : Bool := x.relock.isSome || x.wakeTries != []

/-! ### DPLL-T -/

/-- Loss of input (R320): TRACK goes to HOLD; ACQUIRE goes to HOLD once TRACK has been reached since the
chip-scope start, else to OPEN with `STEER` kept. -/
def State.dpllLoss (s : State) : State :=
  let hold : State := { s with clk := { s.clk with dpll := .hold, holds := satInc 65535 s.clk.holds } }
  match s.clk.dpll with
  | .track => hold
  | .acquire => if s.clk.tracked then hold else { s with clk.dpll := .open_ }
  | _ => s

/-- A usable sample (R317): OPEN leaves for ACQUIRE. -/
def State.dpllSample (s : State) : State :=
  if s.clk.lock ∧ s.boot.core1Up ∧ s.clk.dpll = .open_ then
    { s with clk := { s.clk with dpll := .acquire, jumped := false } }
  else s

/-- `DPLLT_LOCK` (R317, R319). -/
def Clk.dpllLock (x : Clk) : Bool := x.dpll == .track && x.steer.natAbs != 838861

/-- `CLK_FLAGS` of Table 1.8. -/
def State.clkFlags (s : State) : Nat :=
  b2n s.clk.lock + 2 * b2n s.clk.coast + 4 * b2n s.clk.dpllLock + 8 * b2n (s.clk.dpll == .hold) + 16 * b2n s.clk.refOk

/-- The transmitter is silenced and nothing is taken while DPLL-T is in OPEN or ACQUIRE (R321). -/
def State.dpllSilent (s : State) : Bool := s.clk.dpll == .open_ || s.clk.dpll == .acquire

/-! ### Wakes and starts -/

/-- The PLL step of a wake from GLACIER begins its search with the `STEER` held (R312, R322). -/
def State.beginWakeSearch (s : State) : State := { s with clk.wakeTries := s.clk.searchList }

/-- PLL-A has locked at a wake: the entry under trial is in use. -/
def State.wakeLocked (s : State) : State :=
  { s with clk := { s.clk with
      lock := true, coast := false, refOk := true, wakeTries := []
      entry := match s.clk.wakeTries with | i :: _ => some i | [] => s.clk.entry } }

/-- The band table, the dither seed and the bandwidth as Nergor sets them at a chip-scope start
(R311, R313). -/
def State.clockBoot (s : State) : State :=
  let c : Clk := { s.clk with seed := s.store.seed.getD 0x5A5A5A, bw := s.store.bw.getD 1 }
  match s.store.bands with
  | some b => { s with clk := { c with bands := b, romDefault := false } }
  | none => { s with clk := { c with bands := defaultBands, romDefault := true } }

/-- PD_PLL goes off on the way into GLACIER: `STEER` and the entry are kept in PD_TKP, and DPLL-T
starts in HOLD at the wake (R322). -/
def State.clockToGlacier (s : State) : State :=
  { s with clk := { s.clk with
      lock := false, coast := false, refOk := false, recloseBy := none, relock := none, dpll := .hold, jumped := false
      holds := if s.clk.dpll = .hold then s.clk.holds else satInc 65535 s.clk.holds } }

end Sys2Proof.Machine
end

