-- ==== Sys2Proof/Machine/FirnNum.lean ====
section
/-!
DEFINITION. Firn's number formats (R432): FP32 and BF16 by exact arithmetic on numerals m × 2^e and one
rounding, conversions, and the special functions (R443).
-/

namespace Sys2Proof.Machine

/-- An FP32 word. -/
abbrev F32 := BitVec 32

/-- An FP32 value: ±m × 2^e when finite. -/
inductive FVal where
  | nan | inf (neg : Bool) | fin (neg : Bool) (m : Nat) (e : Int)
deriving DecidableEq, Repr

/-- The canonical NaN. -/
def fNaN : F32 := 0x7FC00000

/-- An infinity. -/
def fInf (neg : Bool) : F32 := if neg then 0xFF800000 else 0x7F800000

/-- A zero. -/
def fZero (neg : Bool) : F32 := if neg then 0x80000000 else 0

/-- The value of an FP32 word; a subnormal reads as zero of its sign. -/
def F32.val (x : F32) : FVal :=
  let neg := x.getLsbD 31
  let ex := bits x.toNat 23 8
  let fr := bits x.toNat 0 23
  if ex = 255 then (if fr = 0 then .inf neg else .nan)
  else if ex = 0 then .fin neg 0 0
  else .fin neg (2 ^ 23 + fr) ((ex : Int) - 150)

/-- m / 2^k rounded to nearest, ties to even. -/
def rne (m k : Nat) : Nat :=
  let q := m / 2 ^ k
  let r := m % 2 ^ k
  if 2 ^ k < 2 * r ∨ (2 * r = 2 ^ k ∧ q % 2 = 1) then q + 1 else q

/-- Bits of a number. -/
def bitLen (m : Nat) : Nat := if m = 0 then 0 else Nat.log2 m + 1

/-- ±m × 2^e rounded to a binary32 exponent range with `p` significant bits, as an FP32 word (R432): what
would be subnormal becomes zero, what overflows an infinity. -/
def roundTo (p : Nat) (neg : Bool) (m : Nat) (e : Int) : F32 :=
  if m = 0 then fZero neg else
  let grid : Int := max (e + (bitLen m : Int) - p) (-125 - (p : Int))
  let q := if e ≤ grid then rne m (grid - e).toNat else m * 2 ^ (e - grid).toNat
  let n := bitLen q
  let top : Int := grid + n - 1
  if top < -126 then fZero neg
  else if 127 < top then fInf neg
  else
    let fr := if n ≤ 24 then q * 2 ^ (24 - n) else q / 2 ^ (n - 24)
    BitVec.ofNat 32 (b2n neg * 2 ^ 31 + (top + 127).toNat * 2 ^ 23 + (fr - 2 ^ 23))

/-- Rounded to FP32. -/
def round32 (neg : Bool) (m : Nat) (e : Int) : F32 := roundTo 24 neg m e

/-- A value of INT8 or INT32 read in FP32. -/
def f32OfInt (v : Int) : F32 := round32 (decide (v < 0)) v.natAbs 0

/-- The exact sum of finite values as a signed multiple of 2^e. -/
def sumAt (e : Int) (xs : List (Bool × Nat × Int)) : Int :=
  xs.foldl (fun a x => let v : Int := (x.2.1 * 2 ^ (x.2.2 - e).toNat : Nat); if x.1 then a - v else a + v) 0

/-- The finite values of a list. -/
def finites (xs : List FVal) : List (Bool × Nat × Int) :=
  xs.filterMap fun x => match x with | .fin n m e => some (n, m, e) | _ => none

/-- A sum of values with one rounding. -/
def fSum (xs : List FVal) : F32 :=
  let up := xs.contains (.inf false)
  let down := xs.contains (.inf true)
  if xs.contains .nan || (up && down) then fNaN
  else if up then fInf false
  else if down then fInf true
  else
    let fs := finites xs
    let e := fs.foldl (fun a x => if x.2.1 = 0 then a else min a x.2.2) 0
    let v := sumAt e (fs.filter fun x => x.2.1 != 0)
    if v = 0 then fZero (fs.all fun x => x.1 && x.2.1 == 0) else round32 (decide (v < 0)) v.natAbs e

/-- The negation of a word. -/
def fNeg (a : F32) : F32 := a ^^^ 0x80000000

/-- a + b. -/
def fAdd (a b : F32) : F32 := fSum [a.val, b.val]

/-- a − b. -/
def fSub (a b : F32) : F32 := if a.val = .nan ∨ b.val = .nan then fNaN else fSum [a.val, (fNeg b).val]

/-- a × b. -/
def fMul (a b : F32) : F32 :=
  match a.val, b.val with
  | .nan, _ => fNaN
  | _, .nan => fNaN
  | .inf s, .inf t => fInf (s != t)
  | .inf s, .fin t m _ => if m = 0 then fNaN else fInf (s != t)
  | .fin s m _, .inf t => if m = 0 then fNaN else fInf (s != t)
  | .fin s m e, .fin t n f => round32 (s != t) (m * n) (e + f)

/-- a < b of two values that are numbers. -/
def FVal.lt : FVal → FVal → Bool
  | .nan, _ => false
  | _, .nan => false
  | .inf s, .inf t => s && !t
  | .inf s, .fin _ _ _ => s
  | .fin _ _ _, .inf t => !t
  | .fin s m e, .fin t n f =>
    let g := min e f
    decide (sumAt g [(s, m, e)] < sumAt g [(t, n, f)])

/-- a < b. -/
def fLt (a b : F32) : Bool := a.val.lt b.val

/-- MAX (true) or MIN; what the comparison does not order is a free value. -/
def fMinMax (mx : Bool) (a b : F32) : F32 :=
  if fLt a b then (if mx then b else a) else if fLt b a then (if mx then a else b)
  else if a = b then a else Config.minMax mx a b

/-- An FP32 value to an integer, ties to even; 0 for NaN, none for an infinity's or any overflow by its sign. -/
def toInt (lo hi : Int) (x : F32) : Int × Bool :=
  match x.val with
  | .nan => (0, false)
  | .inf s => (if s then lo else hi, true)
  | .fin s m e =>
    let q := if e < 0 then rne m (-e).toNat else m * 2 ^ e.toNat
    let v : Int := if s then -(q : Int) else q
    if v < lo then (lo, true) else if hi < v then (hi, true) else (v, false)

/-- Formats of Table 18.2. -/
inductive Fmt where
  | i8 | i32 | bf16 | f32
deriving DecidableEq, Repr

/-- A format code. -/
def fmtOf (c : Nat) : Option Fmt :=
  match c with | 0 => some .i8 | 1 => some .i32 | 2 => some .bf16 | 3 => some .f32 | _ => none

/-- Bytes of an element. -/
def Fmt.size : Fmt → Nat
  | .i8 => 1 | .i32 => 4 | .bf16 => 2 | .f32 => 4

/-- An element's integer, for the integer formats. -/
def Fmt.int (f : Fmt) (bs : List Byte) : Int := toSigned (8 * f.size) (leNat bs)

/-- An element read in FP32 (R432). -/
def Fmt.read (f : Fmt) (bs : List Byte) : F32 :=
  match f with
  | .i8 => f32OfInt (f.int bs)
  | .i32 => f32OfInt (f.int bs)
  | .bf16 => BitVec.ofNat 32 (leNat bs * 65536)
  | .f32 => BitVec.ofNat 32 (leNat bs)

/-- A word with subnormals written as zero and the canonical NaN. -/
def F32.canon (x : F32) : F32 :=
  match x.val with
  | .nan => fNaN
  | .inf s => fInf s
  | .fin s m e => round32 s m e

/-- An FP32 value converted to a format and written: its bytes, and whether it saturated in INT8 (R432). -/
def Fmt.write (f : Fmt) (x : F32) : List Byte × Bool :=
  match f with
  | .i8 => let r := toInt (-128) 127 x; (leInt 1 r.1, r.2)
  | .i32 => let r := toInt (-(2 ^ 31)) (2 ^ 31 - 1) x; (leInt 4 r.1, r.2)
  | .bf16 =>
    match x.val with
    | .nan => (leBytes 2 0x7FC0, false)
    | .inf s => (leBytes 2 ((fInf s).toNat / 65536), false)
    | .fin s m e => (leBytes 2 ((roundTo 8 s m e).toNat / 65536), false)
  | .f32 => (leBytes 4 x.canon.toNat, false)

/-! ### Special functions (R443) -/

/-- The magnitude as a comparison against an integer bound: −1, 0 or 1 for |x| below, at or above. -/
def absCmp (v : FVal) (bound : Nat) : Ordering :=
  match v with
  | .nan => .lt
  | .inf _ => .gt
  | .fin _ m e =>
    let a := if e < 0 then m else m * 2 ^ e.toNat
    let b := if e < 0 then bound * 2 ^ (-e).toNat else bound
    compare a b

/-- A special function's result in its domain, as a result is written. -/
def inDomain (f : Config.Sfu) (x : F32) : F32 := F32.canon (Config.sfu f x)

/-- A special function (R443, Table 18.6). -/
def sfu (f : Config.Sfu) (x : F32) : F32 :=
  let v := x.val
  match v with
  | .nan => fNaN
  | .inf s =>
    match f with
    | .exp2 => if s then fZero false else fInf false
    | .log2 => if s then fNaN else fInf false
    | .recip => fZero s
    | .rsqrt => if s then fNaN else fZero false
    | .sin => fNaN
    | .cos => fNaN
    | .tanh => if s then 0xBF800000 else 0x3F800000
    | .gelu => if s then fZero false else fInf false
    | .silu => if s then fZero true else fInf false
  | .fin s m _ =>
    match f with
    | .exp2 =>
      if s && absCmp v 126 == .gt then fZero false
      else if !s && absCmp v 128 != .lt then fInf false else inDomain f x
    | .log2 => if m = 0 then fInf true else if s then fNaN else inDomain f x
    | .recip => if m = 0 then fInf s else if absCmp v (2 ^ 126) == .gt then fZero s else inDomain f x
    | .rsqrt => if m = 0 && !s then fInf false else if s && m != 0 then fNaN else inDomain f x
    | .sin => inDomain f x
    | .cos => inDomain f x
    | .tanh => if absCmp v 9 == .lt then inDomain f x else if s then 0xBF800000 else 0x3F800000
    | .gelu => if absCmp v 8 != .gt then inDomain f x else if s then fZero false else x
    | .silu => inDomain f x

/-- exp(x) as exp2(x × 1.442695) (R443). -/
def fExp (x : F32) : F32 := sfu .exp2 (fMul x 0x3FB8AA3B)

/-- Activations of Table 18.4. -/
def activate (act : Nat) (x : F32) : F32 :=
  match act with
  | 0 => x
  | 1 => if fLt 0 x then x else 0
  | 2 => sfu .gelu x
  | 3 => sfu .silu x
  | _ => sfu .tanh x

end Sys2Proof.Machine
end

