-- ==== Sys2Proof/Machine/FirnOps.lean ====
section
/-!
DEFINITION. Firn programs (R438 to R447, Tables 18.4, 18.5 and 18.8): descriptors, their checks, their
cycle estimates, and what each operation writes.
-/

namespace Sys2Proof.Machine

/-- A descriptor's 64 bytes (Table 18.4). -/
abbrev Desc := List Byte

/-! ### Fields -/

def Desc.op (d : Desc) : Nat := byteAt d 0
def Desc.epi (d : Desc) : Bool := bit (byteAt d 1) 0
def Desc.layerEnd (d : Desc) : Bool := bit (byteAt d 1) 1
def Desc.aFmt (d : Desc) : Fmt := (fmtOf (byteAt d 2)).getD .f32
def Desc.yFmt (d : Desc) : Fmt := (fmtOf (byteAt d 3)).getD .f32
def Desc.a (d : Desc) : Nat := leAt d 4 4
def Desc.b (d : Desc) : Nat := leAt d 8 4
def Desc.c (d : Desc) : Nat := leAt d 12 4
def Desc.y (d : Desc) : Nat := leAt d 16 4
def Desc.m (d : Desc) : Nat := leAt d 20 4
def Desc.n (d : Desc) : Nat := leAt d 24 4
def Desc.k (d : Desc) : Nat := leAt d 28 4
def Desc.p0 (d : Desc) : Nat := leAt d 32 4
def Desc.p1 (d : Desc) : Nat := leAt d 36 4
def Desc.p2 (d : Desc) : F32 := BitVec.ofNat 32 (leAt d 40 4)
def Desc.scaleOut (d : Desc) : F32 := BitVec.ofNat 32 (leAt d 44 4)
def Desc.act (d : Desc) : Nat := byteAt d 48

/-- Kernel width, stride, dilation and left padding of CONV1D. -/
def Desc.kw (d : Desc) : Nat := bits d.p0 0 8
def Desc.stride (d : Desc) : Nat := bits d.p0 8 8
def Desc.dil (d : Desc) : Nat := bits d.p0 16 8
def Desc.pad (d : Desc) : Nat := bits d.p0 24 8

/-- The inner length: K, or the taps' channels for CONV1D. -/
def Desc.inner (d : Desc) : Nat := if d.op = 2 then d.kw * d.k else d.k

/-- The sub-operation of ELEMWISE. -/
def Desc.sub (d : Desc) : Nat := bits d.p0 0 8

/-- Whether GEMM or CONV1D. -/
def Desc.array (d : Desc) : Bool := d.op == 1 || d.op == 2

/-- The program's descriptors. -/
def descsOf (ops : List Byte) : Nat → List Desc
  | 0 => []
  | n + 1 => ops.take 64 :: descsOf (ops.drop 64) n

/-- The program cut into layers (R438). -/
def layersOf : List Desc → List Desc → List (List Desc)
  | [], cur => if cur = [] then [] else [cur]
  | d :: ds, cur => if d.layerEnd then (cur ++ [d]) :: layersOf ds [] else layersOf ds (cur ++ [d])

/-! ### Estimates (Table 18.8) -/

/-- Division rounded up. -/
def cdiv (a b : Nat) : Nat := (a + b - 1) / b

/-- Cycles of a descriptor. -/
def Desc.cycles (d : Desc) : Nat :=
  let m := d.m
  let n := d.n
  match d.op with
  | 1 => cdiv m 64 * cdiv n 32 * ((if d.aFmt = .i8 then d.inner else 4 * d.inner) + 24) + 40
  | 2 => cdiv m 64 * cdiv n 32 * ((if d.aFmt = .i8 then d.inner else 4 * d.inner) + 24) + 40
  | 3 => (if d.sub = 5 ∧ 2 ≤ d.act then cdiv (m * n) 16 else cdiv (m * n) 32) + 30
  | 4 => m * (cdiv n 32 + 12) + 30
  | 5 => m * (2 * cdiv n 32 + 16) + 30
  | 6 => m * (2 * cdiv n 16 + 20) + 30
  | 7 => cdiv (m * n) 16 + 40
  | _ => m * (cdiv (n * d.aFmt.size) 64 + 4) + 30

/-- The estimate of a layer. -/
def layerCycles (l : List Desc) : Nat := l.foldl (fun a d => a + d.cycles) 0

/-! ### Checks (R440) -/

/-- Addresses and lengths a descriptor reads. -/
def Desc.reads (d : Desc) : List (Nat × Nat) :=
  let sz := d.aFmt.size
  let m := d.m
  let n := d.n
  match d.op with
  | 1 => [(d.a, m * d.k * sz), (d.b, n * d.k * sz)] ++ if d.epi then [(d.c, 8 * n)] else []
  | 2 => [(d.a, d.p1 * d.k * sz), (d.b, n * d.inner * sz)] ++ if d.epi then [(d.c, 8 * n)] else []
  | 3 => [(d.a, m * n * sz)] ++ if d.sub = 5 ∨ d.sub = 6 then [] else [(d.b, (if bit d.p0 8 then n else m * n) * sz)]
  | 4 => [(d.a, m * n * sz)]
  | 5 => [(d.a, m * n * sz), (d.c, (if d.p0 = 0 then 8 else 4) * n)]
  | 6 => [(d.a, m * n * sz)] ++ if bit d.p0 1 then [(d.c, 4 * m * n)] else []
  | 7 => [(d.c, 4 * n)] ++ if bit d.p0 0 then [(d.a, m * n * sz)] else []
  | _ => [(d.c, 4 * m), (d.a, d.p1 * n * sz)]

/-- Bytes a descriptor writes at Y. -/
def Desc.wrote (d : Desc) : Nat :=
  match d.op with
  | 4 => d.m * (if d.p0 = 0 then 2 else 1) * d.yFmt.size
  | 8 => d.m * d.n * d.aFmt.size
  | _ => d.m * d.n * d.yFmt.size

/-- An address of R438's form with a range inside its area. -/
def rangeOk (constBytes workBytes : Nat) (r : Nat × Nat) : Bool :=
  let off := r.1 % 2 ^ 21
  r.1 / 2 ^ 21 % 2 ^ 10 == 0 && off % 32 == 0 && off + r.2 ≤ if bit r.1 31 then constBytes else workBytes

/-- Whether a parameter field lies in a range. -/
def inRange (lo hi v : Nat) : Bool := lo ≤ v && v ≤ hi

/-- The formats and parameters of an operation lie within Tables 18.4 and 18.5. -/
def Desc.paramsOk (d : Desc) : Bool :=
  let fmts := (fmtOf (byteAt d 2)).isSome && (fmtOf (byteAt d 3)).isSome
  let arr := (d.aFmt == .i8 || d.aFmt == .bf16) &&
    (d.epi || d.yFmt == (if d.aFmt = .i8 then Fmt.i32 else Fmt.f32))
  fmts && inRange 1 65536 d.m && inRange 1 65536 d.n && inRange 1 65536 d.k && d.act ≤ 4 && (d.array || !d.epi) &&
  match d.op with
  | 1 => arr
  | 2 => arr && inRange 1 15 d.kw && inRange 1 8 d.stride && inRange 1 8 d.dil && d.pad ≤ 112
  | 3 => d.sub ≤ 6 && d.p0 < 512
  | 4 => d.p0 ≤ 1 && d.yFmt == .f32
  | 5 => d.p0 ≤ 1
  | 6 => d.p0 ≤ 3 && d.n ≤ 4096 && (d.aFmt == .f32 || d.aFmt == .bf16)
  | 7 => d.p0 ≤ 1 && d.n % 2 == 0 && inRange 2 4096 d.n
  | 8 => d.yFmt == d.aFmt
  | _ => false

/-- A generated ladder's place: inside the constant segment, zero in the package (R440). -/
def Desc.ladderOk (d : Desc) (const : List Byte) : Bool :=
  d.op != 7 || d.p2.toNat == 0 ||
  (bit d.c 31 && d.c % 2 ^ 21 + 4 * d.n ≤ const.length && (field const (d.c % 2 ^ 21) (4 * d.n)).all (· == 0))

/-- A descriptor valid but for its layer's estimate (R440). -/
def Desc.ok (d : Desc) (const : List Byte) (constBytes workBytes : Nat) : Bool :=
  (field d 49 15).all (· == 0) && byteAt d 1 < 4 && d.paramsOk &&
  d.reads.all (rangeOk constBytes workBytes) && rangeOk constBytes workBytes (d.y, d.wrote) && !bit d.y 31 &&
  d.ladderOk const

/-- The index of the first failing descriptor: its own checks, or its layer's estimate above 1,000,000. -/
def firstBad (const : List Byte) (cb wb : Nat) : List Desc → Nat → Nat → Option Nat
  | [], _, _ => none
  | d :: ds, i, acc =>
    if !d.ok const cb wb then some i
    else if 1000000 < acc + d.cycles then some i
    else firstBad const cb wb ds (i + 1) (if d.layerEnd then 0 else acc + d.cycles)

/-- The constant segment with the ladders of a program generated (R446). -/
def withLadders (const : List Byte) (ds : List Desc) : List Byte :=
  ds.foldl (fun c d =>
    if d.op = 7 ∧ d.p2.toNat ≠ 0 then
      let at_ := d.c % 2 ^ 21
      let l := (List.range (d.n / 2)).flatMap fun k => leBytes 8 (Config.ladder d.p2 d.n k).toNat
      c.take at_ ++ l ++ c.drop (at_ + l.length)
    else c) const

/-! ### Execution -/

/-- What a layer works on: the constants, the position base, the work area and the job's counts. -/
structure Work where
  const : List Byte
  pos : Nat
  mem : Memory
  sat : Nat
  smEmpty : Nat
  oor : Nat

/-- Bytes at an address of either area. -/
def Work.bytes (w : Work) (addr off n : Nat) : List Byte :=
  let o := addr % 2 ^ 21 + off
  if bit addr 31 then field w.const o n else w.mem.getN o n

/-- An element of a tensor, in FP32. -/
def Work.elem (w : Work) (f : Fmt) (addr i : Nat) : F32 := f.read (w.bytes addr (i * f.size) f.size)

/-- An FP32 element. -/
def Work.f32 (w : Work) (addr i : Nat) : F32 := w.elem .f32 addr i

/-- Values written at Y in row-major order, with the saturations counted. -/
def Work.write (w : Work) (f : Fmt) (y : Nat) (vs : List F32) : Work :=
  let rs := vs.map f.write
  { w with mem := w.mem.putN (y % 2 ^ 21) (rs.flatMap (·.1)), sat := w.sat + (rs.filter (·.2)).length }

/-- Raw bytes written at Y. -/
def Work.raw (w : Work) (y : Nat) (bs : List Byte) : Work := { w with mem := w.mem.putN (y % 2 ^ 21) bs }

/-- The output stage (R439). -/
def Desc.stage (d : Desc) (r : F32) : F32 :=
  if d.act = 0 ∧ d.scaleOut = 0x3F800000 then r else fMul (activate d.act r) d.scaleOut

/-- Row-major indices of an M × N result. -/
def grid (m n : Nat) : List (Nat × Nat) := (List.range m).flatMap fun i => (List.range n).map fun j => (i, j)

/-- The index into A of an element of GEMM's left matrix; none for CONV1D's padding (R441). -/
def Desc.aIndex (d : Desc) (i k : Nat) : Option Nat :=
  if d.op = 1 then some (i * d.k + k) else
  let p := i * d.stride + (k / d.k) * d.dil
  if p < d.pad ∨ d.p1 ≤ p - d.pad then none else some ((p - d.pad) * d.k + k % d.k)

/-- An INT8 sum as INT32. -/
def Work.accInt (w : Work) (d : Desc) (i j : Nat) : BitVec 32 :=
  let at_ (addr idx : Nat) : Int := Fmt.int .i8 (w.bytes addr idx 1)
  let v := (List.range d.inner).foldl (fun (a : Int) k => match d.aIndex i k with
    | some x => a + at_ d.a x * at_ d.b (j * d.inner + k)
    | none => a) 0
  if -(2 ^ 31) ≤ v ∧ v < 2 ^ 31 then BitVec.ofInt 32 v else Config.overAcc v

/-- The products of one array cycle: four in k order (R441). -/
def Work.products (w : Work) (d : Desc) (i j g : Nat) : List F32 :=
  ((List.range 4).filter fun x => 4 * g + x < d.inner).map fun x =>
    let k := 4 * g + x
    fMul (match d.aIndex i k with | some ix => w.elem .bf16 d.a ix | none => 0) (w.elem .bf16 d.b (j * d.inner + k))

/-- A BF16 sum in FP32. -/
def Work.accFp (w : Work) (d : Desc) (i j : Nat) : F32 :=
  (List.range (cdiv d.inner 4)).foldl (fun a g => fSum (a.val :: (w.products d i j g).map F32.val)) 0

/-- GEMM and CONV1D (R441, R442). -/
def Work.array (w : Work) (d : Desc) : Work :=
  let acc (i j : Nat) : BitVec 32 := if d.aFmt = .i8 then w.accInt d i j else w.accFp d i j
  if d.epi then
    w.write d.yFmt d.y <| (grid d.m d.n).map fun p =>
      let x := if d.aFmt = .i8 then f32OfInt (acc p.1 p.2).toInt else acc p.1 p.2
      fMul (activate d.act (fAdd (fMul x (w.f32 d.c p.2)) (w.f32 d.c (d.n + p.2)))) d.scaleOut
  else w.raw d.y ((grid d.m d.n).flatMap fun p => leBytes 4 (acc p.1 p.2).toNat)

/-- ELEMWISE. -/
def Work.elemwise (w : Work) (d : Desc) : Work :=
  w.write d.yFmt d.y <| (grid d.m d.n).map fun p =>
    let a := w.elem d.aFmt d.a (p.1 * d.n + p.2)
    let b := w.elem d.aFmt d.b (if bit d.p0 8 then p.2 else p.1 * d.n + p.2)
    d.stage <| match d.sub with
      | 0 => fAdd a b
      | 1 => fSub a b
      | 2 => fMul a b
      | 3 => fMinMax true a b
      | 4 => fMinMax false a b
      | 5 => a
      | _ => fAdd (fMul a d.p2) (BitVec.ofNat 32 d.p1)

/-- What a lane has gathered of a row (R444). -/
structure Stat where
  n : Nat := 0
  mu : F32 := 0
  m2 : F32 := 0
  q : F32 := 0

/-- One more element in a lane. -/
def Stat.add (s : Stat) (x : F32) : Stat :=
  let n := s.n + 1
  let dl := fSub x s.mu
  let mu := fAdd s.mu (fMul dl (sfu .recip (f32OfInt n)))
  { n := n, mu := mu, m2 := fAdd s.m2 (fMul dl (fSub x mu)), q := fAdd s.q (fMul x x) }

/-- A lane merged into lane 0. -/
def Stat.merge (s l : Stat) : Stat :=
  if l.n = 0 then s else
  let dl := fSub l.mu s.mu
  let t := s.n + l.n
  let r := sfu .recip (f32OfInt t)
  let ln := f32OfInt l.n
  { n := t, mu := fAdd s.mu (fMul (fMul dl ln) r)
    m2 := fAdd (fAdd s.m2 l.m2) (fMul (fMul (fMul (fMul dl dl) (f32OfInt s.n)) ln) r)
    q := fAdd s.q l.q }

/-- The elements of lane l of a row. -/
def laneOfRow (row : List F32) (l : Nat) : List F32 :=
  (row.zipIdx.filter fun p => p.2 % 32 == l).map (·.1)

/-- A row's statistics. -/
def statOf (row : List F32) : Stat :=
  let lane (l : Nat) : Stat := (laneOfRow row l).foldl Stat.add {}
  (List.range 31).foldl (fun s l => s.merge (lane (l + 1))) (lane 0)

/-- Mean, variance and mean square of a row. -/
def Stat.finish (s : Stat) : F32 × F32 × F32 :=
  let r := sfu .recip (f32OfInt s.n)
  (s.mu, fMul s.m2 r, fMul s.q r)

/-- A row of A. -/
def Work.row (w : Work) (d : Desc) (i : Nat) : List F32 := (List.range d.n).map fun j => w.elem d.aFmt d.a (i * d.n + j)

/-- ROWSTAT. -/
def Work.rowstat (w : Work) (d : Desc) : Work :=
  w.write d.yFmt d.y <| (List.range d.m).flatMap fun i =>
    let (mean, var, ms) := (statOf (w.row d i)).finish
    if d.p0 = 0 then [d.stage mean, d.stage var] else [d.stage (fMul (sfu .rsqrt ms) ms)]

/-- NORM. -/
def Work.norm (w : Work) (d : Desc) : Work :=
  w.write d.yFmt d.y <| (List.range d.m).flatMap fun i =>
    let row := w.row d i
    let (mean, var, ms) := (statOf row).finish
    row.zipIdx.map fun p =>
      d.stage <| if d.p0 = 0 then
        fAdd (fMul (fMul (fSub p.1 mean) (sfu .rsqrt (fAdd var d.p2))) (w.f32 d.c p.2)) (w.f32 d.c (d.n + p.2))
      else fMul (fMul p.1 (sfu .rsqrt (fAdd ms d.p2))) (w.f32 d.c p.2)

/-- A lane of SOFTMAX: maximum (none for −∞ so far) and sum (R445). -/
abbrev SmLane := Option (F32 × F32)

/-- One more element; an element at −∞ adds nothing. -/
def smAdd (s : SmLane) (x : F32) : SmLane :=
  if x.val = .inf true then s else
  match s with
  | none => some (x, fAdd (fMul 0 (fExp (fInf true))) 0x3F800000)
  | some (m, t) =>
    if fLt m x then some (x, fAdd (fMul t (fExp (fSub m x))) 0x3F800000)
    else some (m, fAdd t (fExp (fSub x m)))

/-- A lane merged. -/
def smMerge (s l : SmLane) : SmLane :=
  match s, l with
  | s, none => s
  | none, l => l
  | some (m, t), some (ml, tl) =>
    if fLt m ml then some (ml, fAdd (fMul t (fExp (fSub m ml))) tl)
    else some (m, fAdd t (fMul tl (fExp (fSub ml m))))

/-- SOFTMAX of a row: its results, and whether it was empty. -/
def softmaxRow (row : List F32) : List F32 × Bool :=
  if row.any fun x => x.val == .nan then (row.map fun _ => fNaN, false) else
  let lane (l : Nat) : SmLane := (laneOfRow row l).foldl smAdd none
  match (List.range 31).foldl (fun s l => smMerge s (lane (l + 1))) (lane 0) with
  | none => (row.map fun _ => 0, true)
  | some (m, t) => (row.map fun x => fMul (fExp (fSub x m)) (sfu .recip t), false)

/-- The x' of R445. -/
def Work.smInput (w : Work) (d : Desc) (i : Nat) : List F32 :=
  (w.row d i).zipIdx.map fun p =>
    let x := fMul p.1 d.p2
    let x := if bit d.p0 1 then fAdd x (w.f32 d.c (i * d.n + p.2)) else x
    if bit d.p0 0 && decide ((i : Int) + toSigned 32 d.p1 < p.2) then fInf true else x

/-- SOFTMAX; an empty row is written as zeros and counted. -/
def Work.softmax (w : Work) (d : Desc) : Work :=
  let rows := (List.range d.m).map fun i => softmaxRow (w.smInput d i)
  let w1 := w.write d.yFmt d.y (rows.flatMap fun r => if r.2 then r.1 else r.1.map d.stage)
  { w1 with smEmpty := w1.smEmpty + (rows.filter (·.2)).length }

/-- POSCODE (R446). -/
def Work.poscode (w : Work) (d : Desc) : Work :=
  w.write d.yFmt d.y <| (grid d.m d.n).map fun p =>
    let f := leNat (w.bytes d.c (8 * (p.2 / 2)) 8) % 2 ^ 48
    let turns := round32 false (((w.pos + d.p1 + p.1) * f) % 2 ^ 48) (-48)
    let code := sfu (if p.2 % 2 = 0 then .sin else .cos) turns
    d.stage (if bit d.p0 0 then fAdd (w.elem d.aFmt d.a (p.1 * d.n + p.2)) code else code)

/-- GATHER (R447). -/
def Work.gather (w : Work) (d : Desc) : Work :=
  let len := d.n * d.aFmt.size
  let idx (i : Nat) : Int := Fmt.int .i32 (w.bytes d.c (4 * i) 4)
  let ok (i : Nat) : Bool := decide (0 ≤ idx i ∧ idx i < d.p1)
  let w1 := w.raw d.y ((List.range d.m).flatMap fun i =>
    if ok i then w.bytes d.a ((idx i).toNat * len) len else List.replicate len 0)
  { w1 with oor := w1.oor + ((List.range d.m).filter fun i => !ok i).length }

/-- One descriptor executed. -/
def Work.exec (w : Work) (d : Desc) : Work :=
  match d.op with
  | 1 => w.array d
  | 2 => w.array d
  | 3 => w.elemwise d
  | 4 => w.rowstat d
  | 5 => w.norm d
  | 6 => w.softmax d
  | 7 => w.poscode d
  | _ => w.gather d

/-- A layer executed. -/
def Work.layer (w : Work) (l : List Desc) : Work := l.foldl Work.exec w

end Sys2Proof.Machine
end

