-- ==== Sys2Proof/Machine/FirnUnit.lean ====
section
/-!
DEFINITION. The Firn engine as other units use it (R433, R434, R448 to R458): banks, eligibility and the
scheduler, and the end of a job.
-/

namespace Sys2Proof.Machine

/-! ### Models (R433, R434, R437) -/

/-- Fields of a package header (Table 18.3). -/
def FModel.nOps (x : FModel) : Nat := leAt x.hdr 6 2
def FModel.constBanks (x : FModel) : Nat := byteAt x.hdr 0x20
def FModel.workBanks (x : FModel) : Nat := byteAt x.hdr 0x21
def FModel.inLen (x : FModel) : Nat := leAt x.hdr 0x24 4
def FModel.inOff (x : FModel) : Nat := leAt x.hdr 0x28 4
def FModel.outLen (x : FModel) : Nat := leAt x.hdr 0x2C 4
def FModel.outOff (x : FModel) : Nat := leAt x.hdr 0x30 4

/-- The layers of a model. -/
def FModel.layers (x : FModel) : List (List Desc) := layersOf (descsOf x.ops x.nOps) []

/-- The model of a handle. -/
def State.fmodel (s : State) (h : Fin 8) : Option FModel := s.firn.models[h]

/-- Constant banks in use. -/
def Firn.constUsed (x : Firn) : Nat :=
  x.models.toList.foldl (fun a m => a + match m with | some y => y.constBanks | none => 0) 0

/-- A job's work banks. -/
def State.banksOf (s : State) (j : FJob) : Nat := ((s.fmodel j.handle).map FModel.workBanks).getD 0

/-- Free local banks. -/
def State.freeBanks (s : State) : Nat :=
  48 - s.firn.constUsed - (s.firn.jobs.filter (·.resident)).foldl (fun a j => a + s.banksOf j) 0

/-- A job by its number. -/
def State.fjob (s : State) (num : Nat) : Option FJob := s.firn.jobs.find? fun j => j.num == num

/-- A job changed. -/
def State.modJob (s : State) (num : Nat) (f : FJob → FJob) : State :=
  { s with firn.jobs := s.firn.jobs.map fun j => if j.num == num then f j else j }

/-! ### Scheduling (R450, R451) -/

/-- The unit of the virtual times: the least common multiple of the weights. -/
def vUnit : Nat := (List.range 255).foldl (fun a i => Nat.lcm a (i + 1)) 1

/-- A job's next layer. -/
def State.nextLayer (s : State) (j : FJob) : List Desc :=
  ((s.fmodel j.handle).map fun m => m.layers.getD j.layer []).getD []

/-- The finish tag of a job's next layer. -/
def State.tag (s : State) (j : FJob) : Nat :=
  s.firn.vt[j.ten] + layerCycles (s.nextLayer j) * 256 * vUnit / (s.ten j.ten).cfg.firnWeight

/-- The oldest job of a tenant, the only eligible one. -/
def State.oldestJob (s : State) (t : Ten) : Option FJob := s.firn.jobs.find? fun j => j.ten == t

/-- A tenant gains an eligible job. -/
def State.gainJob (s : State) (t : Ten) : State :=
  { s with firn.vt := s.firn.vt.set t (max s.firn.vt[t] s.firn.v) }

/-- The job with the smallest tag of a list, the earlier one among equals. -/
def State.smallestTag (s : State) (js : List FJob) : Option FJob :=
  js.foldl (fun (best : Option FJob) j => match best with
    | none => some j
    | some b => if s.tag j < s.tag b ∨ (s.tag j = s.tag b ∧ j.num < b.num) then some j else some b) none

/-- Jobs that may start a layer: eligible, resident, with ready constants, and of the holder of `FIRN_EXCL`
while there is one. -/
def State.runnable (s : State) : List FJob :=
  (allTen.filterMap s.oldestJob).filter fun j => j.resident && ((s.fmodel j.handle).any (·.ready)) &&
    (match s.holder 6 with | some u => u == j.ten | none => true)

/-- The voltage lets a layer start (R79, R524): at the boost point, or in NOON unless the voltage is on its way to the DUSK
point, or still on its way to NOON after a chip reset. In DUSK jobs wait for the settled write. -/
def State.firnVolt (s : State) : Bool :=
  s.power.pstate == .boost || (s.power.pstate == .noon &&
    !(s.power.pmic.any fun op => op.why == .toDusk || op.why == .boot))

/-- Whether the engine may start a layer now (R79, R456, R457); while a `FIRN.ENGINE` out waits, only the last
job run goes on. -/
def State.firnMay (s : State) (j : FJob) : Bool :=
  s.domOn dINF && s.firnVolt && !s.firn.thermal && (s.firn.inService || s.firn.lastRun == some j.num && s.firn.outBy.isSome)

/-- Constants copied from staging before the next job of a model starts (R434, R455). -/
def State.readyConstants (s : State) : State :=
  if s.domOn dINF then
    { s with firn.models := s.firn.models.map fun m => m.map fun x => { x with ready := true } }
  else s

/-- The engine starts the layer the scheduler chooses, when none runs and no output is being copied. -/
def State.firnNext (s : State) : State :=
  if s.firn.run.isSome || s.firn.copying.isSome then s else
  let s1 := s.readyConstants
  match s1.smallestTag (s1.runnable.filter s1.firnMay) with
  | none => s1
  | some j =>
    let pre := j.layer != 0 && s1.firn.lastRun != some j.num
    let s2 := s1.modJob j.num fun x => { x with
      firstAt := some (x.firstAt.getD s.now), preempt := x.preempt + b2n pre }
    { s2 with firn := { s2.firn with
        run := some (j.num, s.now), runTag := s1.tag j, runFull := s2.power.firnFull, lastRun := some j.num, v := s2.firn.vt[j.ten]
        preempts := satTo (2 ^ 32 - 1) (s2.firn.preempts + b2n pre) } }

/-- Nanoseconds of a number of Firn cycles at the clock of the running layer (R24, R452). -/
def State.firnNs (s : State) (cycles : Nat) : Nat := if s.firn.runFull then cycles * 32 / 25 else cycles * 64 / 25

/-! ### The end of a job -/

/-- The 28 bytes of a `FIRN.RUN` result (Table 18.11). -/
def FJob.result (j : FJob) (now reason : Nat) : List Byte :=
  let wide (v : Nat) : List Byte := leBytes 4 (satTo (2 ^ 32 - 1) v)
  leBytes 1 j.num ++ leBytes 1 reason ++ [0, 0] ++ wide ((j.firstAt.getD now - j.acceptedAt) / 1000)
    ++ wide (j.runNs / 1000) ++ wide j.preempt ++ wide j.sat ++ leBytes 2 (satTo 65535 j.smEmpty)
    ++ leBytes 2 (satTo 65535 j.oor) ++ leBytes 4 j.layer

/-- A job taken off the engine: its banks are free, and its tenant's next job becomes eligible. -/
def State.dropJob (s : State) (j : FJob) : State :=
  let s1 : State := { s with firn := { s.firn with
    jobs := s.firn.jobs.filter fun x => x.num != j.num
    run := match s.firn.run with | some r => if r.1 = j.num then none else some r | none => none
    copying := if s.firn.copying = some j.num then none else s.firn.copying } }
  if (s1.oldestJob j.ten).isSome ∧ ((s.oldestJob j.ten).map FJob.num) = some j.num then s1.gainJob j.ten else s1

/-- The idle timers of R55 run from the last job's end. -/
def State.firnTouch (s : State) : State :=
  if s.firn.jobs = [] then
    { s with power.idle.inf := s.now, power.idle.boost := s.now, power.idle.dusk := s.now } else s

/-- A `FIRN.ENGINE` out whose last job has ended posts (R457). -/
def State.engineLeft (s : State) : State :=
  match s.firn.outBy with
  | some by_ =>
    if s.firn.run.isSome || s.firn.copying.isSome || (s.firn.lastRun.any fun j => (s.fjob j).any fun x => x.layer != 0) then s
    else
      let s1 : State := { s with firn.outBy := none }
      match by_ with
      | some (t, n) => s1.answer t n [0]
      | none => s1
  | none => s

/-- Whether a job is asked to stop at its next safe point (R452): a reason of Table 18.11. -/
def State.jobStop (s : State) (j : FJob) : Option Nat :=
  match j.stop with
  | some r => some r
  | none =>
    if j.orphan then none else
    match (s.slot j.ten j.slot).stop with
    | some .lease => some 5
    | some _ => some 1
    | none => none

/-- The revocation of `FIRN_EXCL` is complete when no job is to stop any more (R154). -/
def State.firnSettled (s : State) : State :=
  if s.firn.jobs.any fun j => (s.jobStop j).isSome then s
  else s.revocationOver 6

/-- A job ends with `ABORTED` and a reason (R452 to R458); source 0x91 reports it. `FAULT_TENANT` is
posted for a stop by FAULTED. -/
def State.abortJob (s : State) (j : FJob) (reason : Nat) : State :=
  let s1 := s.dropJob j
  let st := if (s.slot j.ten j.slot).stop == some .faulted then Status.faultTenant else Status.aborted
  let s2 := if j.orphan then s1 else s1.post j.ten j.slot st (j.result s.now reason)
  let s3 : State := { s2 with firn.aborted := satTo (2 ^ 32 - 1) (s2.firn.aborted + 1) }
  (s3.raise 0x91 (BitVec.ofNat 32 j.num)).firnTouch.engineLeft.firnSettled

/-- A job whose wake of PD_INF failed ends with `ERR_STATE` (R75), and source 0x91 reports it (R453). -/
def State.refuseJob (s : State) (j : FJob) : State :=
  let s1 := s.dropJob j
  let s2 := if j.orphan then s1 else s1.done j.ten j.slot Status.state
  let s3 : State := { s2 with firn.aborted := satTo (2 ^ 32 - 1) (s2.firn.aborted + 1) }
  (s3.raise 0x91 (BitVec.ofNat 32 j.num)).firnTouch.engineLeft.firnSettled

/-- Whether a job is at a safe point: it runs no layer and copies no output (R452). -/
def State.jobIdle (s : State) (j : FJob) : Bool :=
  (match s.firn.run with | some r => r.1 != j.num | none => true) && s.firn.copying != some j.num

/-- Every job at a safe point that has been asked to stop ends (R452). -/
def State.firnSweep (s : State) : State :=
  s.firn.jobs.foldl (fun s j => match s.jobStop j with
    | some r => if s.jobIdle j then s.abortJob j r else s
    | none => s) s

/-- Jobs of one tenant, or of all with none. -/
def State.jobsOf (s : State) (t : Option Ten) : List FJob :=
  s.firn.jobs.filter fun j => match t with | some u => j.ten == u | none => true

/-- Jobs asked to stop at their next layer boundary; those between layers end at once. -/
def State.stopJobs (s : State) (t : Option Ten) (reason : Nat) : State :=
  let s1 := (s.jobsOf t).foldl (fun s j => s.modJob j.num fun x => { x with stop := some (x.stop.getD reason) }) s
  s1.firnSweep

/-- PD_INF loses power or is reset with jobs present (R458). -/
def State.firnOff (s : State) : State :=
  let s1 := s.firn.jobs.foldl (fun s j => s.abortJob j 4) s
  { s1 with firn := { s1.firn with
      run := none, copying := none, models := s1.firn.models.map fun m => m.map fun x => { x with ready := false } } }

/-- PD_MEM loses its contents: every model is unloaded (R434). -/
def State.firnUnload (s : State) : State := { s with firn.models := Vector.replicate 8 none }

/-- The thermal pause of R456. -/
def State.firnThermal (s : State) : State :=
  if 460 < s.power.tj ∧ !s.firn.thermal then
    { s with firn := { s.firn with thermal := true, thermPause := satInc 65535 s.firn.thermPause } }
  else if s.power.tj ≤ 420 ∧ s.firn.thermal then ({ s with firn.thermal := false } : State).firnNext
  else s

end Sys2Proof.Machine
end

