-- ==== Sys2Proof/Machine/Operands.lean ====
section
/-!
DEFINITION. The operands of mailbox commands: the descriptor a doorbell copied (Table 5.5), inline
parameters and bulk references (R120, R121), and the frame every command's meaning stands in.
-/

namespace Sys2Proof.Machine

/-- The descriptor's bytes. -/
def Slot.descBytes (x : Slot) : List Byte := x.desc.toList

/-- `OPCODE`. -/
def Slot.opcode (x : Slot) : Nat := leAt x.descBytes 0 2

/-- `SEQ`. -/
def Slot.seq (x : Slot) : Nat := leAt x.descBytes 2 2

/-- `TIMEOUT`. -/
def Slot.timeout (x : Slot) : Nat := leAt x.descBytes 6 2

/-- `INLINE_LEN`. -/
def Slot.inlineLen (x : Slot) : Nat := byteAt x.descBytes 5

/-- `FENCE`. -/
def Slot.fence (x : Slot) : Bool := bit (byteAt x.descBytes 4) 1

/-- `BULK`. -/
def Slot.bulk (x : Slot) : Bool := bit (byteAt x.descBytes 4) 0

/-- `B_OFF` (Table 5.6). -/
def Slot.bOff (x : Slot) : Nat := leAt x.descBytes 8 4

/-- `B_LEN` (Table 5.6). -/
def Slot.bLen (x : Slot) : Nat := leAt x.descBytes 12 4

/-- Whether the descriptor stands (R120, R121): reserved bits of word 1, `INLINE_LEN`, the bulk range. -/
def State.descOk (s : State) (t : Ten) (x : Slot) : Bool :=
  byteAt x.descBytes 4 < 4 && x.inlineLen ≤ 56 &&
  (!x.bulk || (x.inlineLen == 8 && x.bOff % 4 == 0 && 1 ≤ x.bLen && x.bLen ≤ 65536 && s.inPart t x.bOff x.bLen))

/-- The parameters of a command; bytes beyond them read zero. -/
def State.paramsOf (s : State) (t : Ten) (x : Slot) : List Byte :=
  if x.bulk then s.partRead t x.bOff x.bLen else (x.descBytes.drop 8).take x.inlineLen

/-- The parameters of a slot's command. -/
def State.params (s : State) (t : Ten) (n : SlotIx) : List Byte := s.paramsOf t (s.slot t n)

/-- The length of the parameters given. -/
def State.paramLen (s : State) (t : Ten) (n : SlotIx) : Nat := (s.params t n).length

/-- A parameter field, least significant byte first. -/
def State.prm (s : State) (t : Ten) (n : SlotIx) (off len : Nat) : Nat := leAt (s.params t n) off len

/-- One parameter byte. -/
def State.prm1 (s : State) (t : Ten) (n : SlotIx) (off : Nat) : Nat := byteAt (s.params t n) off

/-- What a tenant holds now (R146, R160). -/
def State.rightsOf (s : State) (t : Ten) : Rights :=
  { auth := s.authOf t, leases := s.leaseMask t, part := (s.ten t).cfg.part }

/-- The command of a slot stood under owner authority at its start (R146, R147). -/
def State.ownerAt (s : State) (t : Ten) (n : SlotIx) : Bool := (s.slot t n).rights.auth.getLsbD 15

/-- The command of a slot stood under an authority at its start (R146). -/
def State.holdsAt (s : State) (t : Ten) (n : SlotIx) (b : Nat) : Bool := (s.slot t n).rights.auth.getLsbD b

/-- The command of a slot stood under a lease at its start (R153, R525). -/
def State.leasedAt (s : State) (t : Ten) (n : SlotIx) (id : Nat) : Bool := (s.slot t n).rights.leases.testBit id

/-- Whether a bulk range a command names lies inside the partition as it stood at its start (R121, R160). -/
def State.rangeOk (s : State) (t : Ten) (n : SlotIx) (off len : Nat) : Bool :=
  off % 4 == 0 && off + len ≤ (s.slot t n).rights.part * 65536

/-- The core that serves a slot's command is up (R25, R131). -/
def State.coreUp (s : State) (t : Ten) (n : SlotIx) : Bool :=
  if n = 7 ∧ !(s.slot t n).core0 then s.boot.core1Up else s.boot.core0Up

/-- The command of a slot has done its part and waits: for a unit, for accesses in flight, or for the command a
`SYS.ABORT` names. -/
def State.awaited (s : State) (t : Ten) (n : SlotIx) : Bool :=
  let me : Option (Ten × SlotIx) := some (t, n)
  s.mbx.drains.any (fun d => d.ten == t && d.slot == n)
    || (List.finRange 8).any (fun m => (s.slot t m).aborters.contains n)
    || s.cip.jobs.any (fun j => !j.orphan && j.ten == t && j.slot == n)
    || s.cip.coreBy.toList.contains me || s.cip.destroys.any (fun d => d.by_ == me)
    || s.firn.jobs.any (fun j => !j.orphan && j.ten == t && j.slot == n)
    || s.firn.testBy == me || s.firn.outBy == some me
    || s.nvm.upd.any (fun u => (!u.orphan && u.ten == t && u.slot == n) || u.aborter == me)
    || s.clk.relock.any (fun r => r.by_ == me)
    || s.reg.wait.any (fun w => !w.orphan && w.ten == t && w.slot == n)
    || s.pars.laneOut.toList.contains (some me) || s.pars.laneIn.toList.contains (some me)
    || s.pars.pause.any (fun p => !p.orphan && p.ten == t && p.slot == n)
    || s.sec.thawing.any (fun w => w.ten == t && w.slot == some n)
    || s.tm.inject.any (fun x => x.1 == t && x.2.1 == n)
    || s.lanes.phy.toList.any (fun p => p.slip.any fun x => x.1 == t && x.2.1 == n)

/-- Slot n of tenant t holds a running command of an opcode, on a core that is up. -/
def State.inHand (s : State) (t : Ten) (n : SlotIx) (op : Nat) : Bool :=
  (s.slot t n).phase == .running && (s.slot t n).opcode == op && s.coreUp t n

/-- Whether slot n of tenant t runs the command of an opcode: it has started, and has not yet done its part. -/
def State.runs (s : State) (t : Ten) (n : SlotIx) (op : Nat) : Bool := s.inHand t n op && !s.awaited t n

/-- A parameter byte outside the ones a command's table gives it is not zero (R8, R120): `used` lists
those as (offset, length). -/
def State.stray (s : State) (t : Ten) (n : SlotIx) (used : List (Nat × Nat)) : Bool :=
  (s.params t n).zipIdx.any fun p => p.1 != 0 && !used.any fun u => u.1 ≤ p.2 && p.2 < u.1 + u.2

/-- A unit's record of the command it works for, unless the commands hit are no longer to be answered. -/
def keepBy (hit : Ten → SlotIx → Bool) (b : Option (Ten × SlotIx)) : Option (Ten × SlotIx) :=
  match b with | some p => if hit p.1 p.2 then none else b | none => none

/-- A lane's boundary after the slip that was taking effect (R192): lock is judged afresh there. -/
def Phy.slipped (p : Phy) : Phy :=
  match p.slip with
  | some x => { p with slips := (p.slips + x.2.2) % 10, lock := false, qualBy := none, slip := none }
  | none => p

/-- Work of commands whose slots are emptied goes on, or ends, without a result (R128, R162); a cipher job keeps its
command, whose ranges it still reads and writes. -/
def State.orphanWork (s : State) (hit : Ten → SlotIx → Bool) : State :=
  let s1 : State := { s with
    firn := { s.firn with
      jobs := s.firn.jobs.map fun j => { j with orphan := j.orphan || hit j.ten j.slot }
      testBy := keepBy hit s.firn.testBy, loading := keepBy hit s.firn.loading, outBy := s.firn.outBy.map (keepBy hit) }
    nvm.upd := s.nvm.upd.map fun u => { u with
      orphan := u.orphan || hit u.ten u.slot, aborter := keepBy hit u.aborter }
    cip := { s.cip with
      jobs := s.cip.jobs.map fun j =>
        if hit j.ten j.slot && !j.orphan then { j with orphan := true, cmd := s.slot j.ten j.slot } else j
      coreBy := s.cip.coreBy.map (keepBy hit)
      destroys := s.cip.destroys.map fun d => { d with by_ := keepBy hit d.by_ } }
    clk.relock := s.clk.relock.map fun r => { r with by_ := keepBy hit r.by_ }
    reg.wait := s.reg.wait.map fun w => { w with orphan := w.orphan || hit w.ten w.slot } }
  { s1 with
    pars := { s1.pars with
      laneOut := s1.pars.laneOut.map fun o => o.map (keepBy hit)
      laneIn := s1.pars.laneIn.map fun o => o.map (keepBy hit)
      pause := s1.pars.pause.map fun p => { p with orphan := p.orphan || hit p.ten p.slot } }
    sec.thawing := s1.sec.thawing.map fun w => if w.slot.any (hit w.ten) then { w with slot := none } else w
    tm.inject := s1.tm.inject.filter fun x => !hit x.1 x.2.1
    lanes.phy := s1.lanes.phy.map fun p => if p.slip.any fun x => hit x.1 x.2.1 then p.slipped else p
    mbx.drains := s1.mbx.drains.filter fun d => !hit d.ten d.slot }

/-- A command of an emptied slot runs to completion in its former slot, which then holds what it held before; work it
leaves to a unit ends without a result (R128). -/
def State.runGhost (s : State) (g : Ghost) (body : State → State) : State :=
  let own := s.slot g.ten g.slot
  let s1 := ({ s with mbx.ghosts := s.mbx.ghosts.erase g } : State).setSlot g.ten g.slot { g.cmd with ghost := true }
  let s2 := body s1
  (s2.orphanWork fun t n => t == g.ten && n == g.slot).setSlot g.ten g.slot own

/-- A model load is under way (R436), the one of an emptied slot included. -/
def State.modelLoading (s : State) : Bool := s.firn.loading.isSome || s.mbx.ghosts.any fun g => g.cmd.opcode == 0x0F02

/-- The command of an emptied slot that still has to complete. -/
def State.ghostOf (s : State) (t : Ten) (n : SlotIx) (op : Nat) : Option Ghost :=
  if s.boot.core0Up then s.mbx.ghosts.find? fun g => g.ten == t && g.slot == n && g.cmd.opcode == op else none

/-- The frame of a mailbox command whose meaning judges an authority or a lease by its parameters: it
acts in a slot that runs it (log entry 8), or completes the command of an emptied slot (R128). -/
def commandBy (op : Nat) (t : Ten) (n : SlotIx) (s : State) (body : State → State) : Out :=
  .next (if s.runs t n op then body s else
    match s.ghostOf t n op with
    | some g => s.runGhost g body
    | none => s)

/-- The frame of a mailbox command: it acts only in a slot that runs it (log entry 8), and reserved
parameter bytes must be zero (R8, R525). -/
def command (op : Nat) (used : List (Nat × Nat)) (t : Ten) (n : SlotIx) (s : State) (body : State → State) : Out :=
  commandBy op t n s fun s => if s.stray t n used then s.done t n Status.param else body s

/-- The checks of a command in the order they are given (R525): the first that fails posts its
status and nothing else changes. -/
def State.guard (s : State) (t : Ten) (n : SlotIx) (checks : List (Bool × Half)) (k : State → State) : State :=
  match checks.find? fun c => c.1 with
  | some c => s.done t n c.2
  | none => k s

end Sys2Proof.Machine
end

