-- ==== Sys2Proof/Machine/CipherUnit.lean ====
section
/-!
DEFINITION. The session bank, the key contexts, nonces and the cipher engine's work as other units use
them (R374 to R400).
-/

namespace Sys2Proof.Machine

/-! ### Session bank (R388) -/

/-- A session entry. -/
def State.entry (s : State) (e : Fin 32) : Option BankKey := s.cip.bank[e]

/-- A session entry set; E0 to E7 go into their contexts KC0 to KC7 (Table 16.2). -/
def State.setEntry (s : State) (e : Fin 32) (k : Option BankKey) : State :=
  let s1 := { s with cip.bank := s.cip.bank.set e k }
  if e.val < 8 then
    let c : Option Ctx := k.map fun b => { src := .entry e, key := b.key }
    { s1 with cip.ctx := s1.cip.ctx.set (Fin.ofNat 16 e.val) c }
  else { s1 with cip.ctx := s1.cip.ctx.map fun c => if (c.map Ctx.src) == some (.entry e) then none else c }

/-- Several entries destroyed. -/
def State.dropEntries (s : State) (es : List (Fin 32)) : State := es.foldl (fun s e => s.setEntry e none) s

/-- The traffic-key entry of a role (0 unicast, 1 broadcast, 2 upstream) and generation (Table 16.2). -/
def trafficEntry (role : Fin 3) (gen : Bool) : Fin 32 := Fin.ofNat 32 (2 * role.val + b2n gen)

/-- The traffic key of a role and generation. -/
def State.trafficKey (s : State) (role : Fin 3) (gen : Bool) : Option BankKey := s.entry (trafficEntry role gen)

/-- Every role's key of a generation is held (R228). -/
def State.rolesHeld (s : State) (gen : Bool) : Bool := (List.finRange 3).all fun r => (s.trafficKey r gen).isSome

abbrev eKmac : Fin 32 := 6
abbrev eOwn : Fin 32 := 7
abbrev eAuth : Fin 32 := 8
abbrev eWrap : Fin 32 := 9

/-- The traffic and registration keys (E0 to E9) destroyed (R245, Table 16.7). -/
def State.dropLineKeys (s : State) : State :=
  { s.dropEntries [0, 1, 2, 3, 4, 5, 6, 7, 8, 9] with reg.ivHigh := Vector.replicate 4 0 }

/-- The entries of tenant handles. -/
def handleEntries : List (Fin 32) := (List.range 15).map fun i => Fin.ofNat 32 (17 + i)

/-- The entries of a tenant's handles (R389). -/
def State.handlesOf (s : State) (t : Ten) : List (Fin 32) :=
  handleEntries.filter fun e => (s.entry e).any fun k => k.owner == some t

/-- Every key context cleared (Table 16.7, PD_CIP off). -/
def State.dropContexts (s : State) : State := { s with cip.ctx := Vector.replicate 16 none, cip.kbus := [] }

/-- KC0 to KC7 loaded again from the bank at a power-up of PD_CIP (R381). -/
def State.reloadKeys (s : State) : State :=
  if !s.domOn dCIP then s else
  (List.finRange 8).foldl (fun s e =>
    s.setEntry (Fin.ofNat 32 e.val) (s.entry (Fin.ofNat 32 e.val))) s

/-- The whole bank and every context destroyed (Table 16.7). -/
def State.zeroiseAll (s : State) : State :=
  { s.dropContexts with cip.bank := Vector.replicate 32 none }

/-! ### Updates that Nergor writes (R405, R406) -/

/-- Source 0x85 at the end of an update (R406). -/
def State.updateEnded (s : State) (r : Nat) (st : Half) : State :=
  s.raise 0x85 (BitVec.ofNat 32 (r + 65536 * st.toNat))

/-- A record of region 5 written whole in its step: a key record, a ceiling or the image control block (log entry 20). -/
def State.recordWritten (s : State) : State := s.updateEnded 5 Status.ok

/-! ### Nonces (R390 to R396) -/

/-- The last value of a counter, never issued (R391). -/
def lastCtr : Nat := 2 ^ 64 - 1

/-- An `IV_CTR` drawn from a session entry: none when its counter is exhausted (R396). -/
def State.drawEntry (s : State) (e : Fin 32) : Option (Nat × State) :=
  match s.entry e with
  | none => none
  | some k =>
    if k.decOnly then none else
    let last := k.ctr + 1 = lastCtr
    let s1 := { s with cip.bank := s.cip.bank.set e (some { k with ctr := k.ctr + 1, decOnly := last }) }
    some (k.ctr, if last then s1.raise 0x82 (BitVec.ofNat 32 (0x80 + e.val)) else s1)

/-- A key slot changed. -/
def State.modSlotKey (s : State) (i : Fin 64) (f : KeySlot → KeySlot) : State :=
  { s with keys.slots := s.keys.slots.set i (f s.keys.slots[i]) }

/-- The outcome of drawing from a slot. -/
inductive Drawn where
  | got (ctr : Nat) (s : State) | paused | spent

/-- An invocation value drawn from a slot (R391, R393, R395, R396). -/
def State.drawSlot (s : State) (i : Fin 64) : Drawn :=
  let k := s.keys.slots[i]
  if k.ctr = lastCtr then .spent
  else if k.ceil ≤ k.ctr then .paused
  else
    let last := k.ctr + 1 = lastCtr
    let s1 := s.modSlotKey i fun x => { x with
      ctr := x.ctr + 1, state := if last then 2 else x.state,
      pend := if x.ceil ≤ x.ctr + 16384 ∧ x.pend = none then some (x.ceil + 65536) else x.pend }
    .got k.ctr (if last then (s1.raise 0x82 (BitVec.ofNat 32 i.val)).recordWritten else s1)

/-- Step 13 of Table 4.5 (R394): each counter resumes at its ceiling, and the next ceiling is to be
written before the first seal. -/
def State.bootNonces (s : State) : State :=
  { s with keys.slots := s.keys.slots.map fun k =>
      if k.state = 0 then { k with pend := none, failed := false }
      else { k with ctr := k.ceil, pend := some (k.ceil + 65536), failed := false } }

/-- A slot emptied as `KEYS.DESTROY` does (R399): `CTR`, `CEIL` and `ISEQ` are kept. -/
def KeySlot.emptied (k : KeySlot) : KeySlot :=
  { ctr := k.ctr, ceil := k.ceil, iseq := k.iseq, pend := k.pend, failed := k.failed }

/-- A ceiling write is pending (R395). -/
def State.ceilPending (s : State) : Bool := s.keys.slots.toList.any fun k => k.pend.isSome

/-! ### Contexts (R377, R378) -/

/-- The key of a source. -/
def State.srcKey (s : State) : KeySrc → Option (List Byte)
  | .entry e => (s.entry e).map (·.key)
  | .slot i => if s.keys.slots[i].state = 0 then none else some s.keys.slots[i].key

/-- The pool context that holds a key for a tenant. -/
def State.ctxOf (s : State) (src : KeySrc) (t : Ten) : Option (Fin 16) :=
  poolCtx.find? fun c => (s.cip.ctx[c]).any fun x => x.src == src && x.ten == some t

/-- The KBUS arbiter loads from a slot (R379, R415, Table 17.2): none under the key-lock flag, none from 1 on
in RETIRED, no factory slot above FROZEN. -/
def State.slotLoads (s : State) (i : Fin 64) : Bool :=
  !s.ao.keyLock && !(s.fuses.life == .retired && 1 ≤ i.val)
    && !(s.ao.dbg.level != 0 && 1 ≤ i.val && i.val < 8)

/-- A source can be loaded: it holds a key and the arbiter does not refuse it (R379). -/
def State.loadable (s : State) (src : KeySrc) : Bool :=
  (s.srcKey src).isSome && (match src with | .slot i => s.slotLoads i | .entry _ => true)

/-- A context loaded for a tenant over KBUS (R378, R379): the operation waits for its end in `kbus`. -/
def State.loadCtx (s : State) (c : Fin 16) (src : KeySrc) (t : Ten) : State :=
  { s with cip := { s.cip with
      kbus := s.cip.kbus ++ [.load c src (some t)], uses := s.cip.uses + 1
      ctx := s.cip.ctx.set c (some { src := src, key := [], ten := some t, used := s.cip.uses + 1 }) } }

/-- The first KBUS operation completes (R379). -/
def State.kbusDone (s : State) : State :=
  match s.cip.kbus with
  | [] => s
  | .load c src t :: rest =>
    { s with cip := { s.cip with
        kbus := rest, ctx := s.cip.ctx.set c ((s.srcKey src).map fun k => { src := src, key := k, ten := t, used := s.cip.uses }) } }
  | .zero c :: rest => { s with cip := { s.cip with kbus := rest, ctx := s.cip.ctx.set c none } }

/-- Contexts holding a key zeroed over KBUS. -/
def State.zeroCtxOf (s : State) (src : KeySrc) : State :=
  let cs := (List.finRange 16).filter fun c => (s.cip.ctx[c]).any fun x => x.src == src
  { s with cip := { s.cip with
      kbus := s.cip.kbus.filter (fun o => match o with | .load c _ _ => !cs.contains c | .zero _ => true)
      ctx := cs.foldl (fun v (c : Fin 16) => v.set c none) s.cip.ctx } }

/-! ### The engine (R375, R382 to R384) -/

/-- Cores in service, as many as take work; none while PD_CIP is off (R13, R74). -/
def State.coresIn (s : State) : Nat := if s.cip.fenced || !s.domOn dCIP then 0 else (s.cip.core.toList.filter id).length

/-- A core takes work. -/
def State.coreIn (s : State) (c : Fin 2) : Bool := !s.cip.fenced && s.domOn dCIP && s.cip.core[c]

/-- What the cores work on, core 0 first. -/
def State.works (s : State) : List CoreWork := s.cip.run.toList.filterMap id

/-- A core works on a piece now. -/
def State.runsOn (s : State) (w : CoreWork) : Bool := s.works.contains w

/-- A sealing job that a core runs now. -/
def State.sealRuns (s : State) (ki : Bool) (iv : Nat) : Bool :=
  s.works.any fun w => match w with
    | .seal _ k v => k == ki && v == iv
    | _ => false

/-- A core set to a piece of work. -/
def State.setRun (s : State) (c : Fin 2) (w : Option CoreWork) : State := { s with cip.run := s.cip.run.set c w }

/-- Pieces of work leave their cores. -/
def State.freeCores (s : State) (gone : CoreWork → Bool) : State :=
  { s with cip.run := s.cip.run.map fun x => if x.any gone then none else x }

/-- A tenant job. -/
def CoreWork.isJob : CoreWork → Bool | .job _ => true | _ => false

/-- A sealing job. -/
def CoreWork.isSeal : CoreWork → Bool | .seal _ _ _ => true | _ => false

/-- The first piece that waits in ranks 1 and 2 of R21. -/
def State.urgent (s : State) : Option CoreWork :=
  (s.cip.sealq.map (fun p => CoreWork.seal p.1 p.2.1 p.2.2) ++ s.cip.decq.map CoreWork.dec).find? fun w => !s.runsOn w

/-- A core that works on nothing. -/
def State.idleCore (s : State) : Option (Fin 2) :=
  (List.finRange 2).find? fun c => s.coreIn c && (s.cip.run[c]).isNone

/-- A core that a piece of rank 1 or 2 takes: an idle one, else one whose tenant job yields at its next chunk boundary
(R375). -/
def State.yieldCore (s : State) : Option (Fin 2) :=
  match s.idleCore with
  | some c => some c
  | none => (List.finRange 2).find? fun c => s.coreIn c && (s.cip.run[c]).any CoreWork.isJob

/-- Waiting pieces of ranks 1 and 2 go to cores, which keep them to their end; the number bounds them. -/
def State.assign : Nat → State → State
  | 0, s => s
  | n + 1, s => match s.urgent, s.yieldCore with
    | some w, some c => (s.setRun c (some w)).assign n
    | _, _ => s

/-! ### Tenant jobs (R21, R375 to R378, R399) -/

/-- A context that no KBUS operation concerns (R379). -/
def State.ctxReady (s : State) (c : Fin 16) : Bool :=
  !s.cip.kbus.any fun o => match o with | .load d _ _ => d == c | .zero d => d == c

/-- A job changed. -/
def State.modCJob (s : State) (j : Job) (f : Job → Job) : State :=
  { s with cip.jobs := s.cip.jobs.map fun x => if x.num == j.num then f x else x }

/-- A job taken off the list and off its core. -/
def State.dropCJob (s : State) (j : Job) : State :=
  ({ s with cip.jobs := s.cip.jobs.filter fun x => x.num != j.num } : State).freeCores (· == .job j.num)

/-- A job ends with a status and nothing else. -/
def State.failJob (s : State) (j : Job) (st : Half) : State :=
  let s1 := s.dropCJob j
  if j.orphan then s1 else s1.done j.ten j.slot st

/-- A key can still encrypt, or its counter has just been used up. -/
def State.encrypts (s : State) : KeySrc → Bool
  | .slot i => s.keys.slots[i].state == 1 || s.keys.slots[i].ctr == lastCtr
  | .entry e => (s.entry e).any fun k => !k.decOnly || k.ctr == lastCtr

/-- A job that starts now has its key (R399). -/
def State.mayStart (s : State) (j : Job) : Bool := s.loadable j.src && (j.iv == [] || s.encrypts j.src)

/-- Tenant jobs go to idle cores in arrival order (R21), one that yielded goes on: a job whose key has gone completes
with `ERR_STATE` (R399), one whose context is not loaded has it loaded (R378) by CC0, which alone issues KBUS operations
(R379). -/
def State.pump : Nat → State → State
  | 0, s => s
  | fuel + 1, s =>
    match s.idleCore, s.cip.jobs.find? fun j => !s.runsOn (.job j.num) && (j.started || s.sec.thawing.isNone) with
    | some core, some j =>
      if j.started then (s.setRun core (some (.job j.num))).pump fuel
      else if !s.mayStart j then (s.failJob j Status.state).pump fuel else
      match s.ctxOf j.src j.ten with
      | some c =>
        if !s.ctxReady c then s else
        let key := (s.srcKey j.src).getD []
        let s1 := (s.modCJob j fun x => { x with started := true, ctx := some c, key := key }).setRun core (some (.job j.num))
        let n := s1.cip.uses + 1
        let touched : Option Ctx := (s1.cip.ctx[c]).map fun x => { x with used := n }
        ({ s1 with cip := { s1.cip with uses := n, ctx := s1.cip.ctx.set c touched } } : State).pump fuel
      | none => match s.ctxFree with
        | some c => if s.boot.core0Up then s.loadCtx c j.src j.ten else s
        | none => s
    | _, _ => s

/-- Waiting work starts as far as it can, by the ranks of R21. -/
def State.startJobs (s : State) : State := (s.assign 2).pump (s.cip.jobs.length + 1)

/-- Whether upstream packets can be sealed under an index (R259): a key held and not exhausted, the
engine in service. -/
def State.canSeal (s : State) (ki : Bool) : Bool :=
  0 < s.coresIn && (s.trafficKey 2 ki).any fun k => !k.decOnly

end Sys2Proof.Machine
end

