-- ==== Sys2Proof/Machine/TrafficUnit.lean ====
section
/-!
DEFINITION. The traffic manager as other units use it (R350 to R372): cells and depth, credit,
policers, admission, sojourns, holds and flushes.
-/

namespace Sys2Proof.Machine

/-! ### Cells and depth (R350 to R352) -/

/-- A queue. -/
def State.q (s : State) (i : Fin 184) : Queue := s.tm.queues[i]

/-- A queue changed. -/
def State.modQ (s : State) (i : Fin 184) (f : Queue → Queue) : State :=
  { s with tm.queues := s.tm.queues.set i (f (s.q i)) }

/-- The QID of an upstream queue. -/
def upQid (q : Fin 64) : Fin 184 := Fin.ofNat 184 q.val

/-- The QID of an egress queue of a local lane. -/
def egressQid (l : Fin 2) (q : Fin 32) : Fin 184 := Fin.ofNat 184 (64 + 32 * l.val + q.val)

/-- The QID of a tenant port's queue; a tenant T0 has none, and its index is never used. -/
def portQid (t : Ten) (q : Fin 8) : Fin 184 := Fin.ofNat 184 (128 + 8 * (t.val - 1) + q.val)

/-- Cells a frame occupies (R351). -/
def Frame.cells (f : Frame) : Nat := (f.bytes.length + 255) / 256

/-- Cells of several frames. -/
def cellsOf (fs : List Frame) : Nat := fs.foldl (fun a f => a + f.cells) 0

/-- The takes of a burst, its slot's first. -/
def Burst.allTakes (b : Burst) : List Take := b.slotTake.toList ++ b.takes

/-- The takes of a grant stream in take order, those being undone first. -/
def Stream.allTakes (x : Stream) : List Take := x.undo ++ x.bursts.flatMap Burst.allTakes

/-- Every take. -/
def State.takes (s : State) : List Take := s.us.gs.toList.flatMap Stream.allTakes

/-- Frames taken from an upstream queue and not yet committed. -/
def State.takenOf (s : State) (q : Fin 64) : List Frame :=
  (s.us.gs[(s.tm.map[q]).gs].allTakes.filter fun t => t.q == q).map (·.frame)

/-- Every frame a queue's depth counts (R352). -/
def State.held (s : State) (i : Fin 184) : List Frame :=
  (s.q i).frames ++ if h : i.val < 64 then s.takenOf ⟨i.val, h⟩ else []

/-- The cells a local MAC's frame still holds, and the queue it came from: until its last byte has left (R351). -/
def State.onMac (s : State) : List (Nat × Nat) :=
  (s.lanes.locals.toList.filter fun x => s.now < x.busyTo && x.txCells != 0).map fun x => (x.txQid, x.txCells)

/-- Cells a queue has on a local MAC. -/
def State.macCells (s : State) (i : Fin 184) : Nat :=
  (s.onMac.filter fun x => x.1 == i.val).foldl (fun a x => a + x.2) 0

/-- The depth of a queue in cells (R352). -/
def State.depth (s : State) (i : Fin 184) : Nat := cellsOf (s.held i) + s.macCells i

/-- Cells in use in the upstream pool. -/
def State.upUsed (s : State) : Nat :=
  cellsOf ((s.tm.queues.toList.take 64).flatMap (·.frames)) + cellsOf (s.takes.map (·.frame))

/-- Cells in use in the downstream pool. -/
def State.dnUsed (s : State) : Nat :=
  s.onMac.foldl (fun a x => a + x.2) (cellsOf ((s.tm.queues.toList.drop 64).flatMap (·.frames)))

/-- Frames buffered. -/
def State.buffered (s : State) : Nat :=
  s.tm.queues.toList.foldl (fun a x => a + x.frames.length) (s.takes.length + s.onMac.length)

/-! ### Credit (R357) -/

/-- A credit within its bounds. -/
def QueueCfg.clamp (c : QueueCfg) (v : Int) : Int := max (256 * c.lo) (min (256 * (c.hi : Int)) v)

/-- What the idle slope adds in a time, in 1/256 byte. -/
def QueueCfg.idle (c : QueueCfg) (ns : Nat) : Int := (c.kbps * 4 * ns / 125000 : Nat)

/-- The credit counted up to an instant. -/
def Queue.tick (x : Queue) (now : Nat) : Queue :=
  if !x.cfg.shape then { x with creditAt := now } else
  let c := x.credit + x.cfg.idle (now - x.creditAt)
  let c := if x.frames != [] then c else if x.credit < 0 then min c 0 else x.credit
  { x with credit := x.cfg.clamp c, creditAt := now }

/-- A take of a segment of `n` bytes at a port rate in kbit/s, the frame already off the queue. -/
def Queue.charge (x : Queue) (n rate : Nat) : Queue :=
  if !x.cfg.shape then x else
  let c := x.credit + ((x.cfg.kbps : Int) - rate) * n * 256 / rate
  { x with credit := x.cfg.clamp (if x.frames == [] && 0 < c then 0 else c) }

/-- Eligible under R355 as far as credit goes. -/
def Queue.eligible (x : Queue) : Bool := !x.cfg.shape || 0 ≤ x.credit

/-! ### Policers (R362) -/

/-- The buckets refilled up to an instant. -/
def Policer.fill (p : Policer) (now : Nat) : Policer :=
  { p with tc := min (p.cfg.cbs * 8000000) (p.tc + (now - p.at_) * p.cfg.cir)
           tp := min (p.cfg.pbs * 8000000) (p.tp + (now - p.at_) * p.cfg.pir), at_ := now }

/-- The two-rate three-colour marker over refilled buckets. -/
def Policer.mark (p : Policer) (len : Nat) (c : Colour) : Policer × Colour :=
  let n := len * 8000000
  let aware := p.cfg.aware
  if (aware && c == .red) || p.tp < n then ({ p with red := satInc (2 ^ 32 - 1) p.red }, .red)
  else if (aware && c == .yellow) || p.tc < n then
    ({ p with tp := p.tp - n, yellow := satInc (2 ^ 32 - 1) p.yellow }, .yellow)
  else ({ p with tc := p.tc - n, tp := p.tp - n, green := satInc (2 ^ 32 - 1) p.green }, .green)

/-- A frame coloured by a policer; an inactive one keeps its colour. -/
def State.police (s : State) (i : Fin 128) (f : Frame) : State × Frame :=
  let p := s.tm.policers[i]
  if !p.cfg.en then (s, f) else
  let (p1, c) := (p.fill s.now).mark f.bytes.length f.colour
  ({ s with tm.policers := s.tm.policers.set i p1 }, { f with colour := c })

/-- A policer's parameters written: both buckets are full (R363). -/
def Policer.write (p : Policer) (c : PolicerCfg) (now : Nat) : Policer :=
  { p with cfg := c, tc := c.cbs * 8000000, tp := c.pbs * 8000000, at_ := now }

/-! ### Admission (R353, R354, R360) -/

/-- Saturating count of 32 bits. -/
def inc32 (v : Nat) : Nat := satInc (2 ^ 32 - 1) v

/-- What Table 15.2 does with a frame. -/
inductive Admission where
  | red | yellow | tail | pool | enqueue
deriving DecidableEq, Repr

/-- The first row of Table 15.2 that applies. -/
def State.admission (s : State) (i : Fin 184) (f : Frame) : Admission :=
  let x := s.q i
  let d := s.depth i + f.cells
  let free := if i.val < 64 then s.tm.buf.upCells - s.upUsed else 8192 - s.tm.buf.upCells - s.dnUsed
  if f.colour = .red then .red
  else if f.colour = .yellow ∧ x.cfg.ymax < d then .yellow
  else if x.cfg.qmax < d then .tail
  else if free < f.cells ∨ 16384 ≤ s.buffered then .pool
  else .enqueue

/-- A drop of an upstream queue is remembered for its grant stream's next report (Table 11.4). -/
def State.noteDrop (s : State) (i : Fin 184) : State :=
  if h : i.val < 64 then { s with tm.dropped := s.tm.dropped.set (s.tm.map[(⟨i.val, h⟩ : Fin 64)]).gs true } else s

/-- Cells in use watched (R354): raised above 7,373, armed again below 6,554. -/
def State.watchFill (s : State) : State :=
  let u := s.upUsed + s.dnUsed
  let s1 := { s with tm.hwmCells := max s.tm.hwmCells u }
  if u < 6554 then { s1 with tm.fillArmed := true }
  else if 7373 < u && s.tm.fillArmed then
    ({ s1 with tm.fillArmed := false } : State).raise 0x78 (BitVec.ofNat 32 (u / 4))
  else s1

/-- Frames that wait in a tenant port. -/
def State.portWaiting (s : State) (t : Ten) : Nat :=
  (List.finRange 8).foldl (fun a q => a + (s.q (portQid t q)).frames.length) 0

/-- `PORT_RX` (R360). -/
def State.tellPort (s : State) (t : Ten) : State :=
  if t ≠ 0 ∧ (s.ten t).st = .attached ∧ 0 < s.portWaiting t ∧ !s.tm.rxTold[t] then
    ({ s with tm.rxTold := s.tm.rxTold.set t true } : State).direct Code.portRx [t] (satTo 0xFFFF (s.portWaiting t))
  else s

/-- A frame is enqueued at the tail with its admission time. -/
def State.enqueue (s : State) (i : Fin 184) (f : Frame) : State :=
  let s1 := s.modQ i fun x => { x.tick s.now with
    frames := x.frames ++ [{ f with at_ := s.now }], enq := inc32 x.enq }
  let s2 := s1.modQ i fun x => { x with hwmDepth := max x.hwmDepth (s1.depth i) }
  s2.watchFill

/-- A frame admitted to or dropped from a queue (R353). -/
def State.admitFrame (s : State) (i : Fin 184) (f : Frame) : State :=
  match s.admission i f with
  | .enqueue => s.enqueue i f
  | .red => (s.modQ i fun x => { x with redDrop := inc32 x.redDrop }).noteDrop i
  | .yellow => (s.modQ i fun x => { x with yDrop := inc32 x.yDrop }).noteDrop i
  | .tail => (s.modQ i fun x => { x with tailDrop := inc32 x.tailDrop }).noteDrop i
  | .pool => ({ s with tm.poolDrop := inc32 s.tm.poolDrop } : State).noteDrop i

/-! ### Sojourns (R368, R369) -/

/-- A frame leaves its queue: the sent count, the delay mark, and source 0x70 + g for an upstream
queue. -/
def State.leave (s : State) (i : Fin 184) (f : Frame) : State :=
  let ns := s.now - f.at_
  let x := s.q i
  let s1 := s.modQ i fun x => { x with sent := inc32 x.sent, hwmDelay := max x.hwmDelay ns }
  if h : i.val < 64 then
    if x.cfg.latTh ≠ 0 ∧ 1000 * x.cfg.latTh < ns ∧ x.hwmDelay < ns then
      s1.raise (Fin.ofNat 256 (0x70 + (s.tm.map[(⟨i.val, h⟩ : Fin 64)]).gs.val)) (BitVec.ofNat 32 i.val)
    else s1
  else s1

/-! ### Holds (R364 to R366) -/

/-- Whether a hold runs at an instant. -/
def Hold.runs (h : Option Hold) (now : Nat) : Bool :=
  match h with
  | some x => match x.until_ with | some t => now < t | none => true
  | none => false

/-- A grant stream is held by either kind (R364). -/
def State.gsHeld (s : State) (g : Fin 8) : Bool :=
  Hold.runs s.tm.holdHe[g] s.now || Hold.runs s.tm.holdOwn[g] s.now

/-- The protection slot of a grant stream is held too (R365). -/
def State.slotHeld (s : State) (g : Fin 8) : Bool :=
  [s.tm.holdHe[g], s.tm.holdOwn[g]].any fun h => Hold.runs h s.now && (h.map Hold.incProt).getD false

/-- A hold of a duration in ms from now: 0 releases, 0xFFFF has no end. -/
def holdOf (now ms : Nat) (incProt : Bool) : Option Hold :=
  if ms = 0 then none
  else some { until_ := if ms = 0xFFFF then none else some (now + ms * 1000000), incProt := incProt }

/-! ### Flushes -/

/-- A queue emptied; its frames are counted in `FLUSH`. -/
def State.flushQ (s : State) (i : Fin 184) : State :=
  s.modQ i fun x => { x.tick s.now with
    frames := [], flush := satTo (2 ^ 32 - 1) (x.flush + x.frames.length) }

/-- The port queues of a tenant flushed (R359). -/
def State.flushPort (s : State) (t : Ten) : State :=
  if t = 0 then s else
  let s1 := (List.finRange 8).foldl (fun s q => s.flushQ (portQid t q)) s
  { s1 with tm.rxTold := s1.tm.rxTold.set t false }

/-- Frames waiting in a local lane's egress queues. -/
def State.egressWaiting (s : State) (l : Fin 2) : Nat :=
  (List.finRange 32).foldl (fun a q => a + (s.q (egressQid l q)).frames.length) 0

/-- A local lane's egress queues flushed (R201). -/
def State.flushEgress (s : State) (l : Fin 2) : State :=
  let n := s.egressWaiting l
  let s1 := (List.finRange 32).foldl (fun s q => s.flushQ (egressQid l q)) s
  ({ s1 with tm.linkFlush := satTo (2 ^ 32 - 1) (s1.tm.linkFlush + n) } : State).raise 0x79
    (BitVec.ofNat 32 (2 ^ l.val))

/-- Every queue flushed as PD_PKT goes off (R372): credits 0, buckets full, holds ended, the sampler
stopped. -/
def State.powerFlush (s : State) : State :=
  let n := s.tm.queues.toList.foldl (fun a x => a + x.frames.length) 0
  { s with tm := { s.tm with
      queues := s.tm.queues.map fun x => { x with frames := [], credit := 0, creditAt := s.now }
      policers := s.tm.policers.map fun p => p.write p.cfg s.now
      holdHe := Vector.replicate 8 none, holdOwn := Vector.replicate 8 none, holdPort := Vector.replicate 2 none
      pwrFlush := satTo (2 ^ 32 - 1) (s.tm.pwrFlush + n)
      sampler := { s.tm.sampler with running := false }
      rxTold := Vector.replicate 8 false } }

end Sys2Proof.Machine
end

