-- ==== Sys2Proof/Machine/BurstUnit.lean ====
section
/-!
DEFINITION. The burst engine as other units use it (R233, R249 to R267): upstream frame times, the
builder, freeze points' contents, withdrawals and undo.
-/

namespace Sys2Proof.Machine

/-! ### Times (R233) -/

/-- A framer channel. -/
def State.chan (s : State) (l : Fin 2) : Chan := s.fr.ch[l]

/-- A framer channel changed. -/
def State.modChan (s : State) (l : Fin 2) (f : Chan → Chan) : State :=
  { s with fr.ch := s.fr.ch.set l (f (s.chan l)) }

/-- The channel of the active lane. -/
def State.act (s : State) : Chan := s.chan s.lanes.prot.active

/-- The frame start of a downstream frame of a lane, carried from the last one, in ns. -/
def Chan.startOf (c : Chan) (k : Nat) : Nat :=
  if c.k ≤ k then c.start + (k - c.k) * 250000 else c.start - (c.k - k) * 250000

/-- EqD × 16 + φ of a lane for an upstream frame (R243). -/
def Reg.eqdFor (r : Reg) (l : Fin 2) (frame : Nat) : Nat :=
  match r.eqdNext[l] with
  | some n => if n.frame ≤ frame then n.value else r.eqd[l]
  | none => r.eqd[l]

/-- The instant of a byte tick of an upstream frame at a lane (R233), in half-nanoseconds: `T_RESP` is
30 µs, a tick 8 ns, and EqD × 16 + φ counts half-nanoseconds. -/
def State.tick2 (s : State) (l : Fin 2) (frame bt : Nat) : Nat :=
  2 * (s.chan l).startOf frame + b2n (s.chan l).half + 60000 + s.reg.eqdFor l frame + 16 * bt

/-- The instant of a byte tick, in ns. -/
def State.tickAt (s : State) (l : Fin 2) (frame bt : Nat) : Nat := s.tick2 l frame bt / 2

/-- The upstream frame the active lane is in. -/
def State.upFrame (s : State) : Nat :=
  let c := s.act
  let u := s.tickAt s.lanes.prot.active c.k 0
  if u ≤ s.now then c.k + (s.now - u) / 250000 else c.k - (u - s.now + 249999) / 250000

/-! ### Lengths (R249) -/

/-- The fixed length of a burst. -/
def fixedLen (long slot report : Bool) : Nat :=
  (if long then 32 else 12) + 18 + (if slot then 64 else 0) + if report then 12 else 0

/-- A burst's fixed length. -/
def Burst.fixed (b : Burst) : Nat := fixedLen b.long b.slot b.report

/-- Bytes its packet segments occupy. -/
def Burst.placed (b : Burst) : Nat := b.takes.foldl (fun a t => a + t.frame.bytes.length + 28) 0

/-- A burst's length. -/
def Burst.length (b : Burst) : Nat := b.fixed + b.placed + if b.lmm.isSome then 52 else 0

/-- The instant of a burst's start on the active lane. -/
def State.burstAt (s : State) (b : Burst) : Nat := s.tickAt s.lanes.prot.active b.frame b.start

/-- The key index of bursts for entries received in a downstream frame (R227, R228): the new one from the
boundary on, armed or just passed. -/
def State.kiFor (s : State) (rxFrame : Nat) : Bool :=
  match s.fr.arm, s.fr.retire with
  | some b, _ => if b ≤ rxFrame && s.rolesHeld (!s.fr.kiUp) then !s.fr.kiUp else s.fr.kiUp
  | none, some (old, r) => if rxFrame + 8 < r then old else s.fr.kiUp
  | none, none => s.fr.kiUp

/-! ### Grant streams -/

/-- A grant stream. -/
def State.gs (s : State) (g : Fin 8) : Stream := s.us.gs[g]

/-- A grant stream changed. -/
def State.modGs (s : State) (g : Fin 8) (f : Stream → Stream) : State :=
  { s with us.gs := s.us.gs.set g (f (s.gs g)) }

/-- Whether one start comes before another. -/
def Burst.before (a b : Burst) : Bool := a.frame < b.frame || (a.frame == b.frame && a.start < b.start)

/-- A burst put in start order. -/
def insertBurst (b : Burst) : List Burst → List Burst
  | [] => [b]
  | x :: xs => if b.before x then b :: x :: xs else x :: insertBurst b xs

/-- The first burst that meets a condition changed. -/
def updateFirst (p : Burst → Bool) (f : Burst → Burst) : List Burst → List Burst
  | [] => []
  | b :: bs => if p b then f b :: bs else b :: updateFirst p f bs

/-! ### Undo (R265, R266) -/

/-- A take that is being undone. -/
def Stream.undoes (x : Stream) (ki : Bool) (iv : Nat) : Bool := x.undo.any fun t => t.iv == iv && t.ki == ki

/-- Sealing jobs that have not started are dropped for takes being undone (R266). -/
def State.dropSeals (s : State) : State :=
  { s with cip.sealq := s.cip.sealq.filter fun j => s.sealRuns j.2.1 j.2.2 || !(s.gs j.1).undoes j.2.1 j.2.2 }

/-- A bound burst without its takes: its entry still stands, so it is filled again as far as its freeze points
allow (R257, R263). -/
def Burst.shell (b : Burst) (ki : Bool) : Burst :=
  { b with takes := [], slotTake := none, slotIv := none, lmm := if b.frozen then b.lmm else none, ki := ki }

/-- Bursts withdrawn: their takes wait to be undone and their LMMs are pending again; with `keep`, bound ones
stay in place without their takes. -/
def State.dropBursts (s : State) (g : Fin 8) (gone : List Burst) (keep : Bool) : State :=
  let stays (b : Burst) : Bool := keep && b.bound.isSome
  let ivs := (gone.filter fun b => b.slotIv.isSome && b.slotTake.isNone).length
  let lmms := (gone.filter fun b => !(stays b && b.frozen)).filterMap (·.lmm)
  let left := (gone.filter stays).map fun b => b.shell (s.kiFor b.rx)
  let s1 := lmms.foldl State.requeueLmm s
  (s1.modGs g fun x => { x with
    bursts := x.bursts ++ left, undo := gone.flatMap Burst.allTakes ++ x.undo, undoIvs := x.undoIvs + ivs }).dropSeals

/-- A withdrawal from the start of the first burst that meets a condition (R265). -/
def State.withdrawFrom (s : State) (g : Fin 8) (p : Burst → Bool) (keep : Bool) : State :=
  let bs := (s.gs g).bursts
  let kept := bs.takeWhile fun b => !p b
  let s1 := s.modGs g fun x => { x with bursts := kept }
  s1.dropBursts g (bs.drop kept.length) keep

/-- A withdrawal of every prepared burst of a grant stream; its pattern is cleared (Table 11.7). -/
def State.withdrawGs (s : State) (g : Fin 8) : State :=
  (s.withdrawFrom g (fun _ => true) false).modGs g fun x => { x with pat := {} }

/-- Every prepared burst withdrawn and every pattern cleared (Table 11.7). -/
def State.withdrawAll (s : State) : State := (List.finRange 8).foldl (fun s g => s.withdrawGs g) s

/-- The takes from a number on of the first burst that meets a condition, and every later burst of the grant
stream, withdrawn. -/
def State.withdrawTakes (s : State) (g : Fin 8) (p : Burst → Bool) (keep : Nat) : State :=
  let bs := (s.gs g).bursts
  let head := bs.takeWhile fun b => !p b
  match bs.drop head.length with
  | [] => s
  | b :: later =>
    let s1 := s.modGs g fun x => { x with bursts := head ++ [{ b with takes := b.takes.take keep }] }
    (s1.dropBursts g later true).modGs g fun x => { x with undo := b.takes.drop keep ++ x.undo }

/-- A queue's withdrawn frames go back to its head in take order, and its credit with them. -/
def State.returnTo (s : State) (ts : List Take) (q : Fin 64) : State :=
  match ts.filter fun t => t.q == q with
  | [] => s
  | t :: rest =>
    s.modQ (upQid q) fun x =>
      let c := if x.cfg.shape then min (256 * (x.cfg.hi : Int)) (t.c0 + x.cfg.idle (s.now - t.t0)) else x.credit
      { x with frames := (t :: rest).map (·.frame) ++ x.frames, credit := c, creditAt := s.now }

/-- The undo of R266, once no sealing job of it runs: packets back at their queue heads, credit as if
they had never been taken, their IVs retired. -/
def State.undo (s : State) (g : Fin 8) : State :=
  let x := s.gs g
  if x.undo.any fun t => s.sealRuns t.ki t.iv then s else
  let s1 := (s.modGs g fun y => { y with
    undo := [], undoIvs := 0, wdPkts := satTo (2 ^ 32 - 1) (y.wdPkts + x.undo.length),
    retired := satTo (2 ^ 32 - 1) (y.retired + x.undo.length + x.undoIvs) })
  let s2 := (List.finRange 64).foldl (fun s q => s.returnTo x.undo q) s1
  { s2 with cip.sealq := s2.cip.sealq.filter fun j => !(j.1 == g && x.undoes j.2.1 j.2.2) }

/-- The grant table emptied. -/
def State.emptyTable (s : State) : State := { s with us.table := [], us.standby := [], reg.rangeShot := Vector.replicate 2 [] }

/-! ### The builder (R252, R257, R355, R356) -/

/-- Whether bursts may carry packets now (R257): IN_SERVICE, and not in NIGHT (R71). -/
def State.packetsOk (s : State) : Bool := s.reg.st == .inService && s.power.pstate != .night

/-- Bytes of a tenant's injected frames in a burst. -/
def Burst.injected (b : Burst) (t : Ten) : Nat :=
  (b.takes.filter fun x => x.frame.src == 3 && x.frame.ten == t).foldl (fun a x => a + x.frame.bytes.length) 0

/-- A head frame within its tenant's cap for a burst (R356). -/
def State.capOk (s : State) (b : Burst) (f : Frame) : Bool :=
  if f.src = 3 then
    let cap := (s.ten f.ten).cfg.gsCap[b.gs]
    cap == 0 || (b.injected f.ten + f.bytes.length) * 256 ≤ cap * b.area
  else true

/-- Whether a queue is in the set C of R355 for a burst and a space. -/
def State.inC (s : State) (b : Burst) (band : Fin 4) (space : Nat) (q : Fin 64) : Bool :=
  let m := s.tm.map[q]
  m.gs == b.gs && m.band == band &&
  (let x := (s.q (upQid q)).tick s.now
   match x.frames with
   | [] => false
   | f :: _ => x.eligible && f.bytes.length + 28 ≤ space
      && !(m.prot && 0 < (s.gs b.gs).pat.n && (s.gs b.gs).pat.slot) && s.capOk b f)

/-- The first of a set after a pointer in number order, wrapping. -/
def afterPtr (ptr : Option Nat) (c : List (Fin 64)) : Option (Fin 64) :=
  match ptr with
  | none => c.head?
  | some p => match c.find? fun q => p < q.val with
    | some q => some q
    | none => c.head?

/-- The queue chosen in one band, in number order after the band's pointer. -/
def State.chooseIn (s : State) (b : Burst) (space : Nat) (band : Fin 4) : Option (Fin 64) :=
  afterPtr s.tm.rr[(Fin.ofNat 40 (4 * b.gs.val + band.val))] ((List.finRange 64).filter (s.inC b band space))

/-- `select` of R355: the first band with a queue, and the queue. -/
def State.select_ (s : State) (b : Burst) (space : Nat) : Option (Fin 4 × Fin 64) :=
  (List.finRange 4).findSome? fun band => (s.chooseIn b space band).map fun q => (band, q)

/-- Pre-allocated slot IVs of later bursts give way to a packet of an earlier one, so that `IV_CTR` values rise in
transmission order (R267): the packet takes the lowest of them, each slot the next, the last one the value just
drawn. -/
def shiftIvs : List Burst → Nat → Nat × List Burst
  | [], v => (v, [])
  | b :: bs, v =>
    let r := shiftIvs bs v
    match b.slotIv with
    | some w => (w, { b with slotIv := some r.1 } :: r.2)
    | none => (r.1, b :: r.2)

/-- A packet taken into a burst (R257, R267), ahead of later ones: its `IV_CTR` is drawn, its sealing job queued
and its queue charged. -/
def State.takeInto (s : State) (b : Burst) (later : List Burst) (band : Fin 4) (q : Fin 64) :
    Option (State × Burst × List Burst) :=
  let x := (s.q (upQid q)).tick s.now
  match x.frames, s.drawEntry (trafficEntry 2 b.ki) with
  | f :: rest, some (drawn, s1) =>
    let r := shiftIvs later drawn
    let s2 := s1.modQ (upQid q) fun _ => ({ x with frames := rest } : Queue).charge (f.bytes.length + 28) 1000000
    let s3 := { s2 with
      tm.rr := s2.tm.rr.set (Fin.ofNat 40 (4 * b.gs.val + band.val)) (some q.val)
      cip.sealq := s2.cip.sealq ++ [(b.gs, b.ki, r.1)] }
    let k : Take := { q := q, frame := f, iv := r.1, ki := b.ki, c0 := x.credit, t0 := s.now }
    some (s3, { b with takes := b.takes ++ [k] }, r.2)
  | _, _ => none

/-- A burst will reserve an LMM at its freeze point if one is pending then (Table 11.6). -/
def Burst.wantsLmm (b : Burst) : Bool := if b.forecast then true else (b.bound.map (·.2)).getD false

/-- Room kept free of packets for the LMM a burst will reserve: R262 removes packets before an LMM. -/
def State.lmmRoom (s : State) (b : Burst) : Nat :=
  if b.lmm.isNone && !b.frozen && b.wantsLmm && s.us.lmmq != [] then 52 else 0

/-- A burst filled while a head packet fits; the number bounds the takes. -/
def State.fillBurst (s : State) (b : Burst) (later : List Burst) : Nat → State × Burst × List Burst
  | 0 => (s, b, later)
  | n + 1 =>
    match s.select_ b (b.len - b.length - s.lmmRoom b) with
    | none => (s, b, later)
    | some (band, q) => match s.takeInto b later band q with
      | none => (s, b, later)
      | some (s1, b1, l1) => s1.fillBurst b1 l1 n

/-- The queue whose head the protection slot takes (R355): the first `PROT` queue with a frame, in band
order, by the band's pointer within a band. -/
def State.slotQueue (s : State) (g : Fin 8) : Option (Fin 4 × Fin 64) :=
  (List.finRange 4).findSome? fun band =>
    (afterPtr s.tm.rr[(Fin.ofNat 40 (4 * g.val + band.val))] ((List.finRange 64).filter fun q =>
      let m := s.tm.map[q]
      m.gs == g && m.band == band && m.prot && (s.q (upQid q)).frames != [])).map fun q => (band, q)

/-- An open protection slot takes a frame (R252): sealed under its pre-allocated `IV_CTR`, without charge. -/
def State.fillSlot (s : State) (b : Burst) : State × Burst :=
  match b.slotIv, s.slotQueue b.gs with
  | some iv, some (band, q) =>
    if b.slotTake.isSome || b.slotClosed || s.slotHeld b.gs || !s.canSeal b.ki then (s, b) else
    let x := (s.q (upQid q)).tick s.now
    match x.frames with
    | [] => (s, b)
    | f :: rest =>
      let s1 := s.modQ (upQid q) fun _ => { x with frames := rest }
      let s2 := { s1 with
        tm.rr := s1.tm.rr.set (Fin.ofNat 40 (4 * b.gs.val + band.val)) (some q.val)
        cip.sealq := s1.cip.sealq ++ [(b.gs, b.ki, iv)] }
      (s2, { b with slotTake := some { q := q, frame := f, iv := iv, ki := b.ki, c0 := x.credit, t0 := s.now } })
  | _, _ => (s, b)

/-- The slot's IV drawn when a burst is assembled, ahead of its packets (R261, R267). -/
def State.allotSlot (s : State) (b : Burst) : State × Burst :=
  if b.slot && b.slotIv.isNone && b.takes == [] && s.packetsOk && s.canSeal b.ki then
    match s.drawEntry (trafficEntry 2 b.ki) with
    | some (iv, s1) => (s1, { b with slotIv := some iv })
    | none => (s, b)
  else (s, b)

/-- One burst brought up to date ahead of later ones: its slot, then its packets, which no later burst of the
grant stream may hold already (R257). -/
def State.work (s : State) (b : Burst) (later : List Burst) : State × Burst × List Burst :=
  let (s1, b1) := s.allotSlot b
  let (s2, b2) := if s1.packetsOk then s1.fillSlot b1 else (s1, b1)
  let laterHas := later.any fun x => x.takes != [] || x.slotTake.isSome
  if b2.frozen || laterHas || !s2.packetsOk || s2.gsHeld b2.gs || !s2.canSeal b2.ki then (s2, b2, later)
  else s2.fillBurst b2 later ((s2.q 0).frames.length + s2.buffered)

/-- The bursts of a grant stream brought up to date in start order; the number bounds them. -/
def State.workAll (s : State) : Nat → List Burst → State × List Burst
  | 0, bs => (s, bs)
  | _, [] => (s, [])
  | n + 1, b :: bs =>
    let (s1, b1, l1) := s.work b bs
    let (s2, bs2) := s1.workAll n l1
    (s2, b1 :: bs2)

/-- The builder runs on a grant stream unless a withdrawal of it waits (R257, R266). -/
def State.build (s : State) (g : Fin 8) : State :=
  let x := s.gs g
  if x.undo != [] || x.undoIvs != 0 || !s.boot.core1Up then s else
  let (s1, bs) := s.workAll x.bursts.length x.bursts
  (s1.modGs g fun y => { y with bursts := bs }).startJobs

/-- The builder runs on every grant stream. -/
def State.buildAll (s : State) : State := (List.finRange 8).foldl (·.build ·) s

/-- A burst assembled for a key and put in start order. -/
def State.assemble (s : State) (b : Burst) : State :=
  let b1 := { b with area := b.len - b.fixed, ki := s.kiFor b.rx }
  s.modGs b.gs fun x => { x with bursts := insertBurst b1 x.bursts }

/-- The map of a downstream frame of the active lane has ended: a later frame has begun, or the frame's header
failed, or its entries or what follows them have come. -/
def State.mapEnded (s : State) (k : Nat) : Bool :=
  let c := s.act
  k < c.k || (k == c.k && c.rx.judged
    && (!c.rx.hdrOk || c.rx.gmapLen ≤ c.rx.entries || c.rx.tribSeen != 0 || c.rx.pktSeen != 0))

/-- The packet freeze point of Table 11.6 has passed for a start on the active lane. -/
def State.pastFreeze (s : State) (frame start : Nat) : Bool := s.tickAt s.lanes.prot.active frame start < s.now + 90000

/-- The forecast bursts of a learned pattern (R261): for each predicted frame without one whose maps have not
ended and whose freeze point lies ahead. -/
def State.forecast (s : State) (g : Fin 8) : State :=
  let x := s.gs g
  let p := x.pat
  if p.n < 4 ∨ s.reg.st ≠ .inService ∨ x.undo != [] ∨ x.undoIvs ≠ 0 then s else
  (List.range x.depth).foldl (fun s i =>
    let f := p.last + (i + 1) * p.period
    if (s.gs g).bursts.any (fun b => b.frame == f) || s.mapEnded f || s.pastFreeze f p.start then s
    else s.assemble { gs := g, frame := f, start := p.start, len := p.len, long := p.long, report := p.report,
                      slot := p.slot, forecast := true, rx := f - 1 }) s

/-- A grant stream whose takes are undone is built again where its pattern stands (R265). -/
def State.rebuild (s : State) (g : Fin 8) : State :=
  if (s.gs g).undo != [] || (s.gs g).undoIvs != 0 then s else (s.forecast g).build g

/-- The withdrawal of a grant stream completed (R266). -/
def State.completeUndo (s : State) (g : Fin 8) : State := (s.undo g).rebuild g

/-- A withdrawal that keeps the pattern (Table 11.7), from the start of the first burst that meets a condition. -/
def State.withdrawKept (s : State) (g : Fin 8) (p : Burst → Bool) : State := (s.withdrawFrom g p true).rebuild g

/-- A change to the armed boundary (Table 11.7): bursts sealed under an index that is wrong for their frames are
withdrawn, the others take the right one. -/
def State.checkKi (s : State) : State :=
  (List.finRange 8).foldl (fun s g =>
    let wrong (b : Burst) : Bool := (b.takes != [] || b.slotIv.isSome) && b.ki != s.kiFor b.rx
    let s1 := if (s.gs g).bursts.any wrong then s.withdrawKept g wrong else s
    s1.modGs g fun x => { x with bursts := x.bursts.map fun b =>
      if b.takes == [] && b.slotIv.isNone then { b with ki := s1.kiFor b.rx } else b }) s

/-- Forecast bursts of a grant stream whose maps have ended without a match (R263): a miss when both maps were
valid and no watched entry came, else unused. -/
def State.resolveGs (s : State) (g : Fin 8) : State :=
  let x := s.gs g
  let open_ (b : Burst) : Bool := b.bound.isNone && s.mapEnded b.frame
  match x.bursts.find? open_ with
  | none => s
  | some b =>
    let valid := s.us.maps.contains (b.frame - 1, true) && s.us.maps.contains (b.frame, true)
    let s1 := s.modGs g fun x => { x with misses := inc32 x.misses }
    if valid && !x.watched.contains b.frame then
      ((s1.withdrawFrom g open_ true).modGs g fun x => { x with pat := {} }).rebuild g
    else s1.withdrawKept g open_

/-- Every grant stream's forecasts judged by the maps that have ended. -/
def State.resolveAll (s : State) : State := (List.finRange 8).foldl (fun s g => s.resolveGs g) s

/-! ### Segments and bursts as bytes (R250 to R255) -/

/-- CRC-8 of R215. -/
def crc8 (bs : List Byte) : Nat := bs.foldl (crcByte 8 0x07) 0

/-- The initial counter block of GCM data under a 96-bit IV. -/
def gcmBlock (iv : List Byte) : List Byte := iv ++ [0, 0, 0, 2]

/-- AES-GCM sealing (SP 800-38D): cipher text and 16-byte tag. -/
def gcmSeal (key iv aad plain : List Byte) : List Byte × List Byte :=
  let c := ctrCrypt key (gcmBlock iv) plain
  (c, beBytes 16 (Config.gcmTag key iv aad c).toNat)

/-- The segment header (Table 11.3). -/
def segHeader (stype queue plen slen : Nat) : List Byte :=
  beBytes 4 (stype * 2 ^ 28 + queue * 2 ^ 22 + plen * 2 ^ 14 + slen)

/-- The body sealed under the upstream key (R251): `IV_CTR`, cipher text, tag. -/
def sealBody (k : BankKey) (rh iv : Nat) (hdr plain : List Byte) : List Byte :=
  let (c, tag) := gcmSeal k.key (k.salt ++ beBytes 8 iv) (beBytes 2 rh ++ hdr) plain
  beBytes 8 iv ++ c ++ tag

/-- A packet segment. -/
def packetSegment (k : BankKey) (rh : Nat) (t : Take) : List Byte :=
  let h := segHeader 1 t.q.val 0 (t.frame.bytes.length + 24)
  h ++ sealBody k rh t.iv h t.frame.bytes

/-- The protection form of a frame (R252). -/
def protForm (plen : Nat) (f : Frame) : List Byte := field (f.bytes.take (14 + plen)) 12 36

/-- The protection slot's 64 bytes: a protection segment, or a pad segment in the clear (R252). -/
def slotSegment (k : Option BankKey) (rh plen : Nat) (t : Option Take) : List Byte :=
  match k, t with
  | some k, some t =>
    let h := segHeader 4 t.q.val plen 60
    h ++ sealBody k rh t.iv h (protForm plen t.frame)
  | _, _ => segHeader 15 0 0 60 ++ List.replicate 60 0

/-- An upstream LMM's 48 bytes (Table 9.3). -/
def lmmBytes (rh : Nat) (x : LmmOut) : List Byte :=
  let body := beBytes 2 (rh * 16) ++ [x.type] ++ leBytes 1 x.body.length ++ field x.body 0 40 ++ [0, 0]
  body ++ beBytes 2 (crc16 body)

/-- The burst header (Table 11.2). -/
def burstHeader (rh : Nat) (rdi rdiB ki report lmm slot : Bool) (gs bseq payLen : Nat) : List Byte :=
  let h := beBytes 7 (rh * 2 ^ 44 + b2n rdi * 2 ^ 43 + b2n rdiB * 2 ^ 42 + b2n ki * 2 ^ 41 + b2n report * 2 ^ 40
    + b2n lmm * 2 ^ 39 + b2n slot * 2 ^ 38 + gs * 2 ^ 35 + bseq * 2 ^ 24 + payLen * 2 ^ 8)
  h ++ leBytes 1 (crc8 h)

/-- The queue report body (Table 11.4) of a burst. -/
def State.reportBody (s : State) (b : Burst) : List Byte :=
  let qs := (List.finRange 64).filter fun q => (s.tm.map[q]).gs == b.gs
  let later := ((s.gs b.gs).bursts.filter fun x => b.before x).flatMap Burst.allTakes ++ (s.gs b.gs).undo
  let bytes (q : Fin 64) : Nat := ((s.q (upQid q)).frames ++ (later.filter fun t => t.q == q).map (·.frame)).foldl
    (fun a f => a + f.bytes.length + 28) 0
  let total (l : List (Fin 64)) : Nat := satTo 0xFFFFFF ((l.foldl (fun a q => a + bytes q) 0 + 255) / 256)
  let prot := qs.any fun q => (s.tm.map[q]).prot && (s.q (upQid q)).frames != []
  leBytes 1 b.gs.val ++ leBytes 1 (b2n prot + 2 * b2n s.tm.dropped[b.gs]) ++ beBytes 3 (total qs)
    ++ beBytes 3 (total (qs.filter fun q => (s.tm.map[q]).band == 0))

end Sys2Proof.Machine
end

