-- ==== Sys2Proof/Machine/AudUnit.lean ====
section
/-!
DEFINITION. Audio and teleprotection as other units use them (R461 to R483): the slip buffers, the
zero-crossing gate, the ports' starts, stops and closings, the TPS mapper and destuffer, and the
upstream tributary frame.
-/

namespace Sys2Proof.Machine

/-! ### Rates -/

/-- Sampling frequencies by fs code, in Hz (Table 19.5). -/
def fsHz (code : Nat) : Nat := [32000, 44100, 48000, 88200, 96000].getD code 48000

/-- The audio output divider of an fs code (R323, Table 13.3): the 6.25 GHz of the DCO over 256 × fs, in units of
2^-24. -/
def audioDivisor (code : Nat) : Nat := (6250000000 * 2 ^ 24 + 128 * fsHz code) / (256 * fsHz code)

/-- B(fs): samples of a monitor block (R469). -/
def blockLen (code : Nat) : Nat := [8, 11, 12, 22, 24].getD code 12

/-- R: samples of a ramp (R473). -/
def rampLen (code : Nat) : Nat := [64, 88, 96, 176, 192].getD code 96

/-- N: nominal bits of a TPS container (R477). -/
def bitsOfRate (rate : Nat) : Nat := max 1 ((rate * 100 + 2000) / 4000)

/-- A sample of 24 bits as a number. -/
def sampleOf (bs : List Byte) (off : Nat) : Int := toSigned 24 (beAt bs off 3)

/-- A sample's three bytes. -/
def sampleBytes (v : Int) : List Byte := beBytes 3 (v % 2 ^ 24).toNat

/-! ### Ports -/

/-- An audio port. -/
def State.port (s : State) (p : Fin 3) : APort := s.aud.ports[p]

/-- An audio port changed. -/
def State.modPort (s : State) (p : Fin 3) (f : APort → APort) : State :=
  { s with aud.ports := s.aud.ports.set p (f (s.port p)) }

/-- A TPS port. -/
def State.tpsPort (s : State) (n : Fin 2) : Tps := s.aud.tps[n]

/-- A TPS port changed. -/
def State.modTps (s : State) (n : Fin 2) (f : Tps → Tps) : State :=
  { s with aud.tps := s.aud.tps.set n (f (s.tpsPort n)) }

/-- The tributary of a TPS port. -/
def tribOf (n : Fin 2) : Fin 3 := Fin.ofNat 3 (n.val + 1)

/-- The index of a port's source as event data. -/
def portData (p : Fin 3) : Word := BitVec.ofNat 32 p.val

/-! ### Slip buffers (R469) -/

/-- What a write into a buffer does: the buffer, and whether a block was discarded. -/
def SlipBuf.write (b : SlipBuf) (blk : List Pair) : SlipBuf × Bool :=
  let full := 3 ≤ b.blocks.length
  let bs := (if full then b.blocks.drop 1 else b.blocks) ++ [blk]
  ({ b with blocks := bs, last := some blk, filling := b.filling && bs.length < 2 }, full)

/-- What a read at a block boundary does: the buffer, and whether the last block is played again. -/
def SlipBuf.read (b : SlipBuf) : SlipBuf × Bool :=
  if b.filling then ({ b with play := none }, false) else
  match b.blocks with
  | x :: rest => ({ b with blocks := rest, play := some x }, false)
  | [] => (b, b.play.isSome)

/-- A buffer emptied. -/
def SlipBuf.empty : SlipBuf := {}

/-- An announcement block written; a discarded block is a slip (R469). -/
def State.slipWrite (s : State) (blk : List Pair) : State :=
  let (b, drop) := s.aud.slip.write blk
  let s1 : State := { s with aud.slip := b }
  if drop then ({ s1 with aud.slipDrop := inc32 s1.aud.slipDrop } : State).raise 0xA0 1 else s1

/-- A monitor block written. -/
def State.monWrite (s : State) (blk : List Pair) : State :=
  let (b, drop) := s.aud.mon.write blk
  { s with aud.mon := b, aud.monSlip := if drop then satInc 65535 s.aud.monSlip else s.aud.monSlip }

/-! ### The gate (R473) -/

/-- A channel crosses at a sample. -/
def crosses (prev x : Int) : Bool := x == 0 || decide ((x < 0) ≠ (prev < 0))

/-- One sample through a channel's gate with a ramp of `r` samples: what leaves, and the next gate. -/
def Gate.step (g : Gate) (r : Nat) (prev x : Int) : Int × Gate :=
  match g with
  | .shut => (0, .shut)
  | .pass => (x, .pass)
  | .waitOpen => if crosses prev x then (x, .pass) else (0, .waitOpen)
  | .waitClose => if crosses prev x then (0, .shut) else (x, .waitClose)
  | .rampOpen k => (x * k / r, if r ≤ k then .pass else .rampOpen (k + 1))
  | .rampClose k => (x * ((r : Int) - k) / r, if r ≤ k then .shut else .rampClose (k + 1))

/-- A gate's answer to a stop: what is open waits for its crossing, a rising ramp turns, what waits to open
stays shut. -/
def Gate.toClose (g : Gate) (r : Nat) : Gate :=
  match g with
  | .pass => .waitClose
  | .waitOpen => .shut
  | .rampOpen k => .rampClose (r - k)
  | g => g

/-- A gate's answer to a forced closing (R475): what is open ramps down at once. -/
def Gate.toRamp (g : Gate) (r : Nat) : Gate :=
  match g with
  | .pass => .rampClose 1
  | .waitClose => .rampClose 1
  | .waitOpen => .shut
  | .rampOpen k => .rampClose (r - k)
  | g => g

/-- Instants of the gate timeout. -/
def APort.timeout (x : APort) (now : Nat) : Option Nat := some (now + x.cfg.gateMs * 1000000)

/-- Opening starts (R473). -/
def State.openGate (s : State) (p : Fin 3) : State :=
  s.modPort p fun x => { x with
    st := .opening, gates := Vector.replicate 2 .waitOpen, gateBy := x.timeout s.now, ramped := false, startDue := false }

/-- Closing starts (R473). -/
def State.closeGate (s : State) (p : Fin 3) : State :=
  s.modPort p fun x => { x with
    st := .closing, gates := x.gates.map fun g => g.toClose (rampLen s.aud.fs), gateBy := x.timeout s.now, ramped := false }

/-- The gate of a port is done (R473): PLAYING with source 0xA1, or MUTED or CLOSED with source 0xA2; a
start that came while CLOSING then opens (Table 19.6). -/
def State.gateDone (s : State) (p : Fin 3) : State :=
  let x := s.port p
  if x.st = .opening ∧ x.gates.toList.all (· == .pass) then
    (s.modPort p fun y => { y with st := .playing, gateBy := none }).raise 0xA1 (portData p)
  else if x.st = .closing ∧ x.gates.toList.all (· == .shut) then
    let s1 := s.modPort p fun y => { y with
      st := if y.shutting then .closed else .muted, shutting := false, forced := false, gateBy := none }
    let s2 := if x.forced then s1 else s1.raise 0xA2 (portData p)
    if x.startDue && !x.shutting then s2.openGate p else s2
  else s

/-- The gate timeout (R473): channels that have not switched ramp, and source 0xA4 is raised once. -/
def State.gateTimeout (s : State) (p : Fin 3) : State :=
  let x := s.port p
  let waits := x.gates.toList.any fun g => g == .waitOpen || g == .waitClose
  let s1 := s.modPort p fun y => { y with
    gateBy := none, ramped := y.ramped || waits
    gates := y.gates.map fun g => match g with
      | .waitOpen => .rampOpen 1
      | .waitClose => .rampClose 1
      | g => g }
  if waits && !x.ramped then
    ({ s1 with aud.ramps := satInc 65535 s1.aud.ramps } : State).raise 0xA4 (portData p)
  else s1

/-- An armed start is reached (R474, Table 19.6): while CLOSING it waits for the end of closing. -/
def State.startPort (s : State) (p : Fin 3) (late : Bool) : State :=
  let s1 := s.modPort p fun x => { x with start := none, late := if late then satInc 65535 x.late else x.late }
  match (s1.port p).st with
  | .muted => s1.openGate p
  | .closing => s1.modPort p fun x => { x with startDue := !x.shutting }
  | _ => s1

/-- An armed stop is reached. -/
def State.stopPort (s : State) (p : Fin 3) : State :=
  let s1 := s.modPort p fun x => { x with stop := none }
  match (s1.port p).st with
  | .opening => s1.closeGate p
  | .playing => s1.closeGate p
  | .closing => s1.modPort p fun x => { x with startDue := false }
  | _ => s1

/-- The end of use of the audio unit: `T_AUD` runs from here (R55). -/
def State.audTouch (s : State) : State := { s with power.idle.aud := s.now }

/-- `AUDIO.OPEN` close (R475): schedules are discarded, and closing acts as a stop now. -/
def State.closePort (s : State) (p : Fin 3) : State :=
  let s1 := s.modPort p fun x => { x with start := none, stop := none, startDue := false }
  (match (s1.port p).st with
    | .closed => s1
    | .muted => s1.modPort p fun x => { x with st := .closed }
    | .closing => s1.modPort p fun x => { x with shutting := true }
    | _ => (s1.closeGate p).modPort p fun x => { x with shutting := true }).audTouch

/-- A port taken back (R475): schedules are discarded and every open channel ramps down at once. -/
def State.rampPort (s : State) (p : Fin 3) : State :=
  let s1 := s.modPort p fun x => { x with start := none, stop := none, startDue := false }
  (match (s1.port p).st with
    | .closed => s1
    | .muted => s1.modPort p fun x => { x with st := .closed }
    | _ => (s1.modPort p fun x => { x with
        st := .closing, shutting := true, forced := true, gateBy := none
        gates := x.gates.map fun (g : Gate) => g.toRamp (rampLen s.aud.fs) }).gateDone p).audTouch

/-- A port closed at once, without gate or ramp (R89). -/
def State.cutPort (s : State) (p : Fin 3) : State :=
  s.modPort p fun x => { ({} : APort) with cfg := x.cfg }

/-! ### Sample boundaries (R474) -/

/-- The first sample boundary at or after a TT in ns, as its number. -/
def boundaryNo (fs phase tt : Nat) : Nat := ((tt - phase) * fsHz fs + 999999999) / 10 ^ 9

/-- The TT of a sample boundary, in ns. -/
def boundaryTt (fs phase n : Nat) : Nat := phase + n * 10 ^ 9 / fsHz fs

/-- The TT at which a port acts on a scheduled time. -/
def State.portTt (s : State) (p : Fin 3) (tt : Nat) : Nat :=
  let x := s.port p
  boundaryTt s.aud.fs x.phase (boundaryNo s.aud.fs x.phase tt)

/-! ### TPS (R476 to R482) -/

/-- The nominal bits per frame of a port, by the configuration the upstream side applies. -/
def State.tpsN (s : State) (n : Fin 2) : Nat :=
  match s.aud.up[tribOf n] with
  | some t => bitsOfRate t.rate
  | none => match s.aud.cfg[tribOf n] with | some t => bitsOfRate t.rate | none => 0

/-- The nominal bits per frame by the configuration the downstream side applies. -/
def State.tpsNDown (s : State) (n : Fin 2) : Nat :=
  match s.aud.down[tribOf n] with | some t => bitsOfRate t.rate | none => s.tpsN n

/-- The destuffer flushed, its output at mark. -/
def Tps.flush (x : Tps) : Tps := { x with tx := [], txGo := false }

/-- A re-centre of the destuffer (R480). -/
def Tps.recentre (x : Tps) : Tps := { x.flush with slip := inc32 x.slip }

/-- Bits written into the destuffer. -/
def Tps.push (x : Tps) (n : Nat) (bs : List Bool) : Tps :=
  if 4 * n + 64 < x.tx.length + bs.length then x.recentre
  else { x with tx := x.tx ++ bs, txGo := x.txGo || 2 * n + 8 ≤ x.tx.length + bs.length }

/-- A TPS port closed. -/
def State.closeTps (s : State) (n : Fin 2) : State :=
  (s.modTps n fun x => { x.flush with open_ := false, openAt := none, closeAt := none, rx := [], rxGo := false }).audTouch

/-- A TPS port opened. -/
def State.openTps (s : State) (n : Fin 2) (late : Bool) : State :=
  s.modTps n fun x => { x.flush with
    open_ := true, openAt := none, rx := [], rxGo := false, late := if late then satInc 65535 x.late else x.late }

/-- The tributary defect raised or cleared (R481); sources 0xA8 and 0xA9 report it. -/
def State.tpsDefect (s : State) (n : Fin 2) (on : Bool) : State :=
  if (s.tpsPort n).defect = on then s else
  let s1 := s.modTps n fun x => { (if on then x.flush else x) with defect := on }
  s1.raise (Fin.ofNat 256 (0xA8 + n.val)) (BitVec.ofNat 32 (b2n on))

/-- LOF raises the defect of every configured TPS tributary (R481). -/
def State.tpsLof (s : State) : State :=
  (List.finRange 2).foldl (fun s n => if s.aud.down[tribOf n].isSome then
    (s.modTps n fun x => { x with good := 0 }).tpsDefect n true else s) s

/-- The end of a downstream frame for a TPS tributary (R481): no valid container is a miss. -/
def State.tpsFrame (s : State) (n : Fin 2) : State :=
  if (s.aud.down[tribOf n]).isNone then s.modTps n fun x => { x with got := false } else
  if (s.tpsPort n).got then s.modTps n fun x => { x with got := false } else
  let s1 := s.modTps n fun x => { x with misses := x.misses + 1, good := 0 }
  if 3 ≤ (s1.tpsPort n).misses then s1.tpsDefect n true else s1

/-- The configuration received applies downstream from the next frame (R461). A changed rate re-centres the
destuffer of an open port. -/
def State.tribFrame (s : State) : State :=
  let s1 := (List.finRange 2).foldl (fun s n => s.tpsFrame n) s
  let old := s1.aud.down
  let s2 : State := { s1 with aud.down := s1.aud.cfg }
  (List.finRange 2).foldl (fun s n =>
    if (old[tribOf n].map Trib.rate) != (s.aud.cfg[tribOf n].map Trib.rate) && (s.tpsPort n).open_ then
      s.modTps n Tps.recentre
    else s) s2

/-- A TPS port closed because its tributary is gone (R482). -/
def State.removeTps (s : State) (n : Fin 2) : State :=
  let x := s.tpsPort n
  if x.open_ || x.openAt.isSome || x.closeAt.isSome then s.closeTps n else s

/-- The configuration cleared at a local deregistration (R461): TPS ports close. -/
def State.tribClear (s : State) : State :=
  let none3 : TribCfg := Vector.replicate 3 none
  let s1 : State := { s with aud := { s.aud with cfg := none3, down := none3, up := none3, seq := none } }
  (List.finRange 2).foldl (fun s n => s.removeTps n) s1

/-! ### The unit as a whole (R483) -/

/-- Whether an audio or TPS port is open. -/
def State.audOpen (s : State) : Bool :=
  s.aud.ports.toList.any (fun x => x.st != .closed) || s.aud.tps.toList.any (·.open_)

/-- No audio port and no TPS port open, and no schedule armed (Table 3.2). -/
def State.audIdle (s : State) : Bool :=
  !s.audOpen && s.aud.tps.toList.all fun x => x.openAt.isNone && x.closeAt.isNone

/-- The ports of a lease closed: 1 to 3 audio, 4 and 5 TPS (Table 6.6, R475, R482). -/
def State.closeLease (s : State) (id : Nat) : State :=
  if 1 ≤ id ∧ id ≤ 3 then s.rampPort (Fin.ofNat 3 (id - 1))
  else if id = 4 ∨ id = 5 then s.closeTps (Fin.ofNat 2 (id - 4)) else s

/-- PD_AUD goes off or is reset (R89, R483): ports close at once; buffers, FIFOs and sequences are empty. -/
def State.audOff (s : State) : State :=
  let s1 := (List.finRange 3).foldl (fun s p => s.cutPort p) s
  let s2 := (List.finRange 2).foldl (fun s n => s.closeTps n) s1
  { s2 with aud := { s2.aud with
      slip := {}, mon := {}, monIn := [], seq := none, lock := false, nonPcm := false, cs := List.replicate 5 0
      fifo := [], vfill := false, seqOut := 0
      tps := s2.aud.tps.map fun x => { x with seqIn := none, seqOut := 0 } } }

/-- A TT step moves the sample boundaries of an open port against TT: their phase is a free value anew. -/
def State.rephase (s : State) (p : Fin 3) : State :=
  if (s.port p).st = .closed then s else
  s.freed.modPort p fun x => { x with phase := s.freeVal % (10 ^ 9 / fsHz s.aud.fs) }

/-- The schedules of a port judged by a new TT (R475). -/
def State.recheckPort (s : State) (p : Fin 3) : State :=
  let x := s.port p
  let past (t : Option Nat) : Bool := match t with | some v => s.portTt p v ≤ s.ttNs | none => false
  if past x.start then
    if past x.stop then
      { (s.modPort p fun y => { y with start := none, stop := none }) with
          aud.schedLost := satInc 65535 s.aud.schedLost }
    else s.startPort p true
  else if x.start.isNone && past x.stop then s.stopPort p
  else s

/-- The schedules of a TPS port judged by a new TT (R475, R482). -/
def State.recheckTps (s : State) (n : Fin 2) : State :=
  let x := s.tpsPort n
  let past (t : Option Nat) : Bool := match t with | some v => v ≤ s.ttNs | none => false
  if past x.openAt then
    if past x.closeAt then
      { (s.modTps n fun y => { y with openAt := none, closeAt := none }) with
          aud.schedLost := satInc 65535 s.aud.schedLost }
    else s.openTps n true
  else if x.openAt.isNone && past x.closeAt then s.closeTps n
  else s

/-- Every schedule judged at a TT step (R475). -/
def State.audStep (s : State) : State :=
  let s1 := (List.finRange 3).foldl (fun s p => s.rephase p) s
  let s2 := (List.finRange 3).foldl (fun s p => s.recheckPort p) s1
  (List.finRange 2).foldl (fun s n => s.recheckTps n) s2

/-! ### The upstream tributary frame (R462) -/

/-- A container header (Table 9.6). -/
def contHeader (rh nibble len : Nat) : List Byte :=
  let h := beBytes 4 (rh * 2 ^ 20 + nibble * 2 ^ 16 + len)
  h ++ beBytes 2 (crc16 h)

/-- The upstream tributary frame of a body without its `TCRC`. -/
def tribFrameBytes (rh ttype : Nat) (body : List Byte) : List Byte :=
  let h := contHeader rh ttype (body.length + 4)
  let f := List.replicate 12 0 ++ [0x88, 0xB5] ++ h ++ body ++ fcsBytes (h ++ body)
  f ++ List.replicate (60 - f.length) 0

/-- A closed container placed in its tributary queue, admitted as green with no policer. -/
def State.mapTrib (s : State) (q : Fin 64) (ttype : Nat) (body : List Byte) : State :=
  let s1 := s.admitFrame (upQid q) { bytes := tribFrameBytes s.reg.rh ttype body }
  s1.build (s1.tm.map[q]).gs

/-- A tributary queue: a queue named by an `UP` record (R462). -/
def State.tribQueue (s : State) (q : Fin 64) : Bool :=
  s.aud.cfg.toList.any fun t => t.any fun x => x.up && x.queue == q

end Sys2Proof.Machine
end

