-- ==== Sys2Proof/Machine/EnsUnit.lean ====
section
/-!
DEFINITION. The non-volatile store as other units use it (R401 to R411): regions, lines and tags, wear
and remap, and the end of an update.
-/

namespace Sys2Proof.Machine

/-! ### Regions and lines (R401, R402) -/

/-- Base and size of a region (Table 16.8); none for a number no command may name. -/
def ensRegion (r : Nat) : Option (Nat × Nat) :=
  match r with
  | 0 => some (0x000000, 0x180000) | 1 => some (0x180000, 0x180000) | 2 => some (0x300000, 0x300000)
  | 3 => some (0x600000, 0x40000) | 4 => some (0x6C0000, 0x80000)
  | _ => if 8 ≤ r ∧ r ≤ 15 then some (0x640000 + 0x10000 * (r - 8), 0x10000) else none

/-- The region an address lies in, regions 5 and 6 included. -/
def regionOf (a : Nat) : Nat :=
  if a < 0x180000 then 0 else if a < 0x300000 then 1 else if a < 0x600000 then 2 else if a < 0x640000 then 3
  else if a < 0x6C0000 then 8 + (a - 0x640000) / 0x10000 else if a < 0x740000 then 4
  else if a < 0x750000 then 5 else 6

/-- The lease a write to a region needs (Table 16.8). -/
def regionLease (r : Nat) : Nat := if r < 8 then 0x10 + r else 0x18 + (r - 8)

/-- The region a lease resource names. -/
def leaseRegion (id : Nat) : Nat := if id < 0x18 then id - 0x10 else 8 + (id - 0x18)

/-- The physical line that holds a logical line. -/
def Ens.phys (x : Ens) (line : Nat) : Nat := ((x.map.find? fun p => p.1 == line).map (·.2)).getD line

/-- A key's value in a list of pairs; 0 when it is not listed. -/
def lookupNat (l : List (Nat × Nat)) (k : Nat) : Nat := ((l.find? fun p => p.1 == k).map (·.2)).getD 0

/-- A key's value set. -/
def setNat (l : List (Nat × Nat)) (k v : Nat) : List (Nat × Nat) := (k, v) :: l.filter fun p => p.1 != k

/-- The wear count of a logical line. -/
def Ens.wearOf (x : Ens) (line : Nat) : Nat := lookupNat x.wear (x.phys line)

/-- The wear limit (R408). -/
def wearLimit : Nat := 400000000

/-- A line's tag fails, or it is marked suspect (R403, R407). -/
def Ens.bad (x : Ens) (line : Nat) : Bool := x.badTag.contains line || x.suspect.contains line

/-- A line is marked suspect; source 0x86 reports it (R403). -/
def State.markSuspect (s : State) (line : Nat) : State :=
  if s.nvm.suspect.contains line then s
  else ({ s with nvm.suspect := line :: s.nvm.suspect } : State).raise 0x86 (BitVec.ofNat 32 line)

/-- The first address at or above one, below an end, whose line cannot be read (R403). -/
def Ens.stopsAt (x : Ens) (a end_ : Nat) : Nat :=
  let lines := (List.range (if a < end_ then (end_ - 1) / 64 - a / 64 + 1 else 0)).map fun i => a / 64 + i
  match lines.find? x.bad with
  | some l => max a (64 * l)
  | none => end_

/-! ### Wear and remap (R408 to R410) -/

/-- The bank of a logical line. -/
def bankOf (line : Nat) : Fin 4 := Fin.ofNat 4 (line / 32768)

/-- The journal line the ROM acts on (R104): the valid one of higher sequence number; none if neither verifies. -/
def Ens.journalAt (x : Ens) : Option (Fin 2) :=
  match x.journal[0].valid, x.journal[1].valid with
  | true, true => some (if x.journal[0].seq < x.journal[1].seq then 1 else 0)
  | true, false => some 0
  | false, true => some 1
  | false, false => none

/-- What that line records. -/
def Ens.journalNow (x : Ens) : Option JLine := x.journalAt.map fun i => x.journal[i]

/-- The next journal record (R104, R409): the other line is written, with the next sequence number. -/
def Ens.journalWrite (x : Ens) (st : JState) (line spare : Nat) : Ens :=
  let i : Fin 2 := match x.journalAt with | some 0 => 1 | some _ => 0 | none => 0
  let seq := (x.journalNow.map (·.seq)).getD 0 + 1
  { x with journal := x.journal.set i { seq := seq, st := st, line := line, spare := spare } }

/-- A journal line whose write was cut: its tag fails (R404). -/
def Ens.journalTorn (x : Ens) : Ens :=
  match x.journalAt with
  | some i => { x with journal := x.journal.set i { x.journal[i] with valid := false } }
  | none => x

/-- The spare a bank gives next. -/
def Ens.nextSpare (x : Ens) (b : Fin 4) : Nat := 131072 + 512 * b.val + x.used[b]

/-- The bank's map entry of a line written. -/
def Ens.mapTo (x : Ens) (line spare : Nat) : Ens :=
  { x with map := setNat x.map line spare, remaps := satInc (2 ^ 32 - 1) x.remaps }

/-- The steps of a remap in order (R409): COPYING with the spare taken, the copy, COPIED, the map entry, MAPPED, IDLE. -/
def remapSteps (line spare : Nat) (b : Fin 4) : List (Ens → Ens) :=
  [fun x => { x.journalWrite .copying line spare with used := x.used.set b (x.used[b] + 1) },
   fun x => { x with wear := setNat x.wear spare (lookupNat x.wear spare + 1) },
   fun x => x.journalWrite .copied line spare, fun x => x.mapTo line spare,
   fun x => x.journalWrite .mapped line spare, fun x => x.journalWrite .idle line spare]

/-- The first steps of a remap. -/
def Ens.remapped (x : Ens) (line steps : Nat) : Ens :=
  ((remapSteps line (x.nextSpare (bankOf line)) (bankOf line)).take steps).foldl (fun y f => f y) x

/-- Source 0x83 once a bank has used 461 of its spares (R410). -/
def State.spareWatch (s : State) (b : Fin 4) : State :=
  if 461 ≤ s.nvm.used[b] ∧ !s.nvm.warned[b] then
    ({ s with nvm.warned := s.nvm.warned.set b true } : State).raise 0x83 (BitVec.ofNat 32 b.val)
  else s

/-- A line remapped to a free spare of its bank (R408, R409); with no spare the line stays and its region
becomes DEGRADED (R410). -/
def State.remap (s : State) (line : Nat) : State :=
  let b := bankOf line
  if s.nvm.used[b] < 512 then ({ s with nvm := s.nvm.remapped line 6 } : State).spareWatch b
  else
    let r := regionOf (64 * line)
    if s.nvm.degraded.getLsbD r then s else
    ({ s with nvm.degraded := s.nvm.degraded ||| (1#16 <<< r) } : State).raise 0x84 (BitVec.ofNat 32 r)

/-- A whole line written and verified (R404): its data, its tag, its wear; a line at its limit is then
remapped (R408). -/
def State.writeLine (s : State) (line : Nat) (bs : List Byte) : State :=
  let p := s.nvm.phys line
  let w := satTo wearLimit (lookupNat s.nvm.wear p + 1)
  let s1 := { s with
    ens := s.ens.putN (64 * line) bs
    nvm := { s.nvm with
      wear := setNat s.nvm.wear p w, suspect := s.nvm.suspect.filter (· != line)
      badTag := s.nvm.badTag.filter (· != line) } }
  if w = wearLimit then s1.remap line else s1

/-- Lines written whole from one on, in increasing order; the number bounds them (R405). -/
def State.writeLines (s : State) : Nat → Nat → List Byte → State
  | 0, _, _ => s
  | n + 1, line, bs => if bs = [] then s else (s.writeLine line (bs.take 64)).writeLines n (line + 1) (bs.drop 64)

/-! ### Updates (R405, R406) -/

/-- The update that runs on a region. -/
def State.updateOf (s : State) (r : Nat) : Option EnsUpd := s.nvm.upd.find? fun u => u.region == r

/-- A config region update runs: configuration commands with `PERSIST` find it busy (R405). -/
def State.configBusy (s : State) : Bool := (s.updateOf 3).isSome

/-- A Nergor write of the config region, whole in its command's step (log entry 20). -/
def State.persisted (s : State) : State := s.updateEnded 3 Status.ok

/-- An update ends with a status: its command posts, with `FAULT_TENANT` when FAULTED stopped it (R156), an `ENS.ABORT` that
waited answers, and source 0x85 is raised (R406). -/
def State.endUpdate (s : State) (u : EnsUpd) (st : Half) : State :=
  let s1 := ({ s with nvm.upd := s.nvm.upd.filter fun x => x.region != u.region } : State).revocationOver (regionLease u.region)
  let data := leBytes 4 u.written ++ leBytes 4 u.remapped
  let faulted := !u.orphan && st == Status.aborted && (s.slot u.ten u.slot).stop == some .faulted
  let final := if faulted then Status.faultTenant else st
  let s2 := if u.orphan then s1 else s1.post u.ten u.slot final data
  let s3 := match u.aborter with
    | some (t, n) => if st = Status.aborted then s2.answer t n (leBytes 4 u.written) else s2.done t n Status.state
    | none => s2
  s3.updateEnded u.region final

/-- An update is asked to stop at its next line boundary. -/
def State.stopUpdate (s : State) (r : Nat) : State :=
  { s with nvm.upd := s.nvm.upd.map fun u => if u.region == r then { u with stop := true } else u }

/-- Whether an update is to stop at its next line boundary (R406). -/
def State.updStops (s : State) (u : EnsUpd) : Bool :=
  u.stop || (!u.orphan && (s.slot u.ten u.slot).stop.isSome)

/-- A power loss or a reset while lines are written (R404): the line holds its old contents, its new
contents, or contents whose tag fails, and a remap that was due may stand after any of its steps, with a journal line
torn or both lines failing (free values); the update is gone. -/
def State.cutUpdates (s : State) : State :=
  let s1 := s.nvm.upd.foldl (fun s u =>
    let line := u.addr / 64
    let n := min u.data.length (64 * (line + 1) - u.addr)
    let due := u.again || s.nvm.wearOf line + 1 == wearLimit
    let s0 := s.freed
    let s1 : State := if due ∧ s0.nvm.used[bankOf line] < 512 then
        { s0 with nvm := cutAt (s.freeVal / 3) (s0.nvm.remapped line (s.freeVal / 12 % 7)) } else s0
    match s.freeVal % 3 with
    | 0 => s1
    | 1 => { s1 with ens := s1.ens.putN u.addr (u.data.take n) }
    | _ => { s1 with nvm.badTag := line :: s1.nvm.badTag }) s
  { s1 with nvm.upd := [] }
where
  /-- The journal as a cut leaves it: whole, its last line torn, or both lines failing. -/
  cutAt (v : Nat) (x : Ens) : Ens :=
    match v % 4 with
    | 0 => x.journalTorn
    | 1 => x.journalTorn.journalTorn
    | _ => x

/-- Step 6 of Table 4.5 (R104): the journal is completed or rolled back, and `BOOT_FLAGS` says which. -/
def State.journalBoot (s : State) : State :=
  let close (x : Ens) (flag : Byte) : State :=
    { s with nvm := x.journalWrite .idle 0 0, ao.rst.flags := s.ao.rst.flags ||| flag }
  match s.nvm.journalNow with
  | none => close s.nvm 16
  | some j => match j.st with
    | .idle => s
    | .copying =>
      let b := bankOf j.line
      close { s.nvm with used := s.nvm.used.set b (s.nvm.used[b] - 1) } 4
    | .copied => (close ((s.nvm.mapTo j.line j.spare).journalWrite .mapped j.line j.spare) 8).spareWatch (bankOf j.line)
    | .mapped => close s.nvm 0

end Sys2Proof.Machine
end

