-- ==== Sys2Proof/Machine/ParserUnit.lean ====
section
/-!
DEFINITION. The parser, the rule table and its versions (R325 to R348): profiles and keys, lookups,
actions and destinations, the ingress FIFOs, and the roles of the tags.
-/

namespace Sys2Proof.Machine

/-! ### Profiles and keys (R327 to R329) -/

/-- A profile's minimum length (R327). -/
def Profile.minLen (p : Profile) : Nat :=
  let f := p.fields.foldl (fun a x => max a (x.1 % 512 + x.2.1)) 0
  if p.kind = 1 then max f (p.l3 + 20) else if p.kind = 2 then max f (p.l3 + 40) else f

/-- The profile selected by frame bytes 12 to 13 (R327): its index, 4 for profile 7. -/
def selectProfile (v : Vector Profile 5) (etype : Nat) : Fin 5 :=
  match (List.finRange 4).find? fun i =>
      (let p := v[(Fin.ofNat 5 i.val : Fin 5)]
       p.valid && (etype &&& p.mask) == (p.etype &&& p.mask)) with
  | some i => Fin.ofNat 5 i.val
  | none => 4

/-- What the parser finds of a frame (Table 14.4): dropped, or keyed with these flags. -/
inductive Parsed where
  | oversize | lenErr
  | key (slow : Bool) (prof : Nat) (key : List Byte)
deriving DecidableEq, Repr

/-- The key of Table 14.3. -/
def buildKey (f : Frame) (prof : Nat) (slow frag later opt : Bool) (fields : List Byte) : List Byte :=
  beBytes 4 (beAt f.bytes 12 2 * 65536 + f.src.val * 16384 + prof * 2048 + b2n slow * 1024 + b2n frag * 512
    + b2n later * 256 + b2n opt * 128 + b2n f.bcast * 64 + (if f.src = 3 then f.ten.val else 0) * 8)
    ++ field fields 0 40

/-- A profile's fields of a frame: `L4REL` fields read `shift` bytes later, or as zero (R328, R329). -/
def Profile.extract (p : Profile) (f : Frame) (shift : Nat) (zeroL4 : Bool) : List Byte :=
  p.fields.flatMap fun x =>
    let rel := bit x.1 15
    let bs := field f.bytes (x.1 % 512 + if rel then shift else 0) x.2.1
    List.zipWith (fun b m => if rel && zeroL4 then 0 else b &&& m) bs (field x.2.2 0 x.2.1)

/-- Criterion 3 of Table 14.4. -/
def Profile.lengthBad (p : Profile) (f : Frame) : Bool :=
  let n := f.bytes.length
  let total := beAt f.bytes (p.l3 + 2) 2
  let payload := beAt f.bytes (p.l3 + 4) 2
  let ihl := byteAt f.bytes p.l3 % 16
  n < p.minLen ||
  (p.kind == 1 && (total < 20 || n < p.l3 + total || (p.l3 + total < n && 60 < n) || ihl < 5)) ||
  (p.kind == 2 && (n < p.l3 + 40 + payload || (p.l3 + 40 + payload < n && 60 < n)))

/-- The version nibble is not the one the profile's `KIND` names (criterion 2 of Table 14.4); a frame that
ends before it is left to criterion 3. -/
def Profile.otherVersion (p : Profile) (f : Frame) : Bool :=
  p.l3 < f.bytes.length &&
  ((p.kind == 1 && byteAt f.bytes p.l3 / 16 != 4) || (p.kind == 2 && byteAt f.bytes p.l3 / 16 != 6))

/-- A frame parsed under a version's profiles (R327 to R329). -/
def parse (v : Vector Profile 5) (f : Frame) : Parsed :=
  if f.oversize then .oversize else
  let i := selectProfile v (beAt f.bytes 12 2)
  let p := v[i]
  if i = 4 ∨ p.otherVersion f then .key true 7 (buildKey f 7 true false false false [])
  else if p.lengthBad f then .lenErr else
  let ihl := byteAt f.bytes p.l3 % 16
  let opt := p.kind == 1 && ihl != 5
  let fo := beAt f.bytes (p.l3 + 6) 2
  let v6 := p.kind == 2 && byteAt f.bytes p.nh == 44
  let v6off := beAt f.bytes (p.l3 + 42) 2 / 8
  let frag := (p.kind == 1 && (bit fo 13 || fo % 8192 != 0)) || v6
  let later := (p.kind == 1 && fo % 8192 != 0) || (v6 && v6off != 0)
  let shift := (if opt then (ihl - 5) * 4 else 0) + if v6 then 8 else 0
  .key (opt || frag) i.val (buildKey f i.val (opt || frag) frag later opt (p.extract f shift later))

/-! ### Rules and actions (R332, R333) -/

/-- A key matches an entry on every care bit. -/
def Rule.matches_ (r : Rule) (key : List Byte) : Bool :=
  (List.zipWith (fun (k : Byte) (vc : Byte × Byte) => (k ^^^ vc.1) &&& vc.2) key (r.value.zip r.care)).all (· == 0)

/-- The action of a key under a tag (R332): the matching entry of lowest number, else the default of the
frame's profile. DEDUCED (log entry 1412): a profile 7 that is not valid gives no default, and the frame is dropped. -/
def Parser.lookup (x : Parser) (tag : Fin 4) (prof : Nat) (key : List Byte) : Nat :=
  match x.rules.find? fun r => r.vmask.getLsbD tag.val && r.matches_ key with
  | some r => r.action
  | none =>
    let p := (x.profiles[tag])[(if prof = 7 then 4 else Fin.ofNat 5 prof : Fin 5)]
    if p.valid then p.default_ else 0

/-- Fields of an action (Table 14.5). -/
def aDest (a : Nat) : Nat := bits a 60 4
def aQueue (a : Nat) : Nat := bits a 54 6
def aColour (a : Nat) : Nat := bits a 48 2
def aPolice (a : Nat) : Bool := bit a 47
def aPolicer (a : Nat) : Nat := bits a 40 7
def aCount (a : Nat) : Bool := bit a 39
def aCounter (a : Nat) : Nat := bits a 28 11

/-- Whether an action may be written (R333). -/
def actionOk (a : Nat) : Bool :=
  a < 2 ^ 64 && a % 2 ^ 28 == 0 &&
  match aDest a with
  | 0 => bits a 40 20 == 0
  | 1 => true
  | 2 => aQueue a < 32
  | 3 => aQueue a < 32
  | d => 9 ≤ d && aQueue a < 8

/-- A counter of R334 after a frame: 64-bit counts, wrapping. -/
def countFrame (l : List (Nat × Nat × Nat)) (i len : Nat) : List (Nat × Nat × Nat) :=
  let old := ((l.find? fun c => c.1 == i).map (·.2)).getD (0, 0)
  (i, (old.1 + 1) % 2 ^ 64, (old.2 + len) % 2 ^ 64) :: l.filter fun c => c.1 != i

/-! ### Ingress (R325) -/

/-- Bytes an ingress FIFO holds. -/
def State.fifoFill (s : State) (src : Fin 4) : Nat := s.pars.fifo[src].foldl (fun a f => a + f.bytes.length) 0

/-- Whether a FIFO can hold one more frame. -/
def State.fifoFits (s : State) (src : Fin 4) (len : Nat) : Bool := s.fifoFill src + len ≤ 16384

/-- A frame enters its source's FIFO whole, or is dropped and counted (R325); a parser without power takes
none. -/
def State.ingress (s : State) (f : Frame) : State :=
  if !s.domOn dPKT then s else
  if s.fifoFits f.src f.bytes.length then
    { s with pars.fifo := s.pars.fifo.set f.src (s.pars.fifo[f.src] ++ [f]) }
  else { s with pars.inFull := inc32 s.pars.inFull }

/-! ### Destinations (R334, Table 14.6) -/

/-- The queue an action names for a frame, or the counter that drops it. -/
inductive Dest where
  | queue (i : Fin 184) | rule | dsUp | tribDeny | uqDeny | noDest
deriving DecidableEq, Repr

/-- Table 14.6, under the `UQ_MASK` a frame was classified with (R160). -/
def State.destOf (s : State) (f : Frame) (uq : BitVec 64) (a : Nat) : Dest :=
  let q := aQueue a
  match aDest a with
  | 0 => .rule
  | 1 => if f.src = 0 then .dsUp
    else if s.tribQueue (Fin.ofNat 64 q) then .tribDeny
    else if f.src = 3 ∧ !uq.getLsbD q then .uqDeny
    else .queue (upQid (Fin.ofNat 64 q))
  | 2 => if f.src = 1 then .noDest else .queue (egressQid 0 (Fin.ofNat 32 q))
  | 3 => if f.src = 2 then .noDest else .queue (egressQid 1 (Fin.ofNat 32 q))
  | d => if (spiOf (s.ten (Fin.ofNat 8 (d - 8))).cfg.transport).isSome
    then .queue (portQid (Fin.ofNat 8 (d - 8)) (Fin.ofNat 8 q)) else .noDest

/-- The colour a rule gives a frame (R333). -/
def ruleColour (a : Nat) (c : Colour) : Colour :=
  match aColour a with
  | 0 => c | 1 => .green | 2 => .yellow | _ => .red

/-- After an admission: a tenant port tells its tenant (R360), the builder sees an upstream frame. -/
def State.afterAdmit (s : State) (i : Fin 184) : State :=
  if h : i.val < 64 then s.build (s.tm.map[(⟨i.val, h⟩ : Fin 64)]).gs
  else if 128 ≤ i.val then s.tellPort (Fin.ofNat 8 ((i.val - 128) / 8 + 1)) else s

/-- A frame's action applied as it leaves the reorder buffer (R334). -/
def State.actOn (s : State) (f : Frame) (uq : BitVec 64) (a : Nat) : State :=
  let s1 := if aCount a then
      { s with pars.counters := countFrame s.pars.counters (aCounter a) f.bytes.length } else s
  match s1.destOf f uq a with
  | .rule => s1
  | .dsUp => { s1 with pars.dsUp := inc32 s1.pars.dsUp }
  | .tribDeny => { s1 with aud.tribDeny := satInc 65535 s1.aud.tribDeny }
  | .uqDeny => { s1 with pars.uqDeny := inc32 s1.pars.uqDeny }
  | .noDest => { s1 with pars.noDest := inc32 s1.pars.noDest }
  | .queue i =>
    let g := { f with colour := ruleColour a f.colour }
    let (s2, h) := if aPolice a then s1.police (Fin.ofNat 128 (aPolicer a)) g else (s1, g)
    (s2.admitFrame i h).afterAdmit i

/-! ### Versions (R338 to R343) -/

/-- Every frame in flight. -/
def State.flights (s : State) : List Flight := s.pars.reorder.toList.flatten

/-- Frames of a tenant's injection that stand classified under its present `UQ_MASK`, by number (R160). -/
def State.classified (s : State) (t : Ten) : List Nat :=
  (s.flights.filter fun f => f.frame.src == 3 && f.frame.ten == t
    && (match f.at_ with | .decided _ => true | _ => false)).map (·.n)

/-- A frame tagged with a version is in flight (R326). -/
def State.inFlight (s : State) (tag : Fin 4) : Bool :=
  s.pars.reorder.toList.any fun l => l.any fun f => f.tag == tag

/-- A tag's bit cleared in every entry; entries left with none are free. -/
def Parser.clearTag (x : Parser) (tag : Fin 4) : Parser :=
  { x with rules := (x.rules.map fun r => { r with vmask := r.vmask &&& ~~~(1#4 <<< tag.val) }).filter (·.vmask != 0) }

/-- The latest committed version (R339). -/
def Parser.latest (x : Parser) : Fin 4 := x.queued.getD x.cur

/-- The first tag in no role after the latest committed one (Table 14.11). -/
def Parser.freeTag (x : Parser) : Option (Fin 4) :=
  [x.latest + 1, x.latest + 2, x.latest + 3].find? fun i => i != x.cur && x.drain != some i && x.queued != some i && x.staging != some i

/-- STAGING opened on a free tag as a copy of the latest committed version (R339). -/
def Parser.openStaging (x : Parser) : Parser :=
  match x.staging, x.freeTag with
  | none, some i =>
    { x with
      staging := some i
      rules := x.rules.map fun r => if r.vmask.getLsbD x.latest.val then { r with vmask := r.vmask ||| (1#4 <<< i.val) } else r
      profiles := x.profiles.set i x.profiles[x.latest] }
  | _, _ => x

/-- STAGING discarded (R343). -/
def State.discardStaging (s : State) : State :=
  match s.pars.staging with
  | some i => { s with pars := { s.pars.clearTag i with staging := none } }
  | none => s

/-- A version's contents as persisted (R348). -/
def Parser.version (x : Parser) (tag : Fin 4) : Version :=
  { profiles := x.profiles[tag]
    rules := (x.rules.filter fun r => r.vmask.getLsbD tag.val).map fun r => { r with vmask := 1 } }

/-- A version that has become CURRENT is written to the config region if `PERSIST` was asked (R348). -/
def State.persistVersion (s : State) : State :=
  if s.pars.persist = some s.pars.cur then
    ({ s with store.rules := some (s.pars.version s.pars.cur), pars.persist := none } : State).persisted
  else s

/-- A version becomes CURRENT and the old one DRAINING (R341); source 0x60 reports it. -/
def State.makeCurrent (s : State) (tag : Fin 4) : State :=
  (({ s with pars := { s.pars with cur := tag, drain := some s.pars.cur, drainAt := s.now } } : State).raise 0x60
    (BitVec.ofNat 32 tag.val)).persistVersion

/-- The DRAINING tag freed (R342); a QUEUED version then becomes CURRENT. -/
def State.freeDrained (s : State) (tag : Fin 4) : State :=
  let s1 := { s with pars := { s.pars.clearTag tag with
    drain := none, lastDrainUs := satTo 65535 ((s.now - s.pars.drainAt) / 1000) } }
  let s2 := s1.raise 0x61 (BitVec.ofNat 32 tag.val)
  match s2.pars.queued with
  | some q => ({ s2 with pars.queued := none } : State).makeCurrent q
  | none => s2

/-- The rule table at a chip-scope start (R338): tag 0 from the config region, or no rule at all. -/
def Parser.boot (v : Option Version) (deadline now : Nat) : Parser :=
  match v with
  | some v =>
    { profiles := (Vector.replicate 4 Profile.none_).set 0 v.profiles, rules := v.rules, slowDeadline := deadline
      slowSecondBy := now + 10 ^ 9 }
  | none => { slowDeadline := deadline, slowSecondBy := now + 10 ^ 9 }

/-- PD_PKT goes off (R347): what was in flight is gone, every version has drained or been applied. -/
def State.stopParser (s : State) : State :=
  let s1 := { s with pars := { s.pars with
    fifo := Vector.replicate 4 [], reorder := Vector.replicate 4 [], slow := [], pause := none
    lanesIn := Vector.replicate 4 true, laneErrs := Vector.replicate 4 []
    laneOut := Vector.replicate 4 none, laneIn := Vector.replicate 4 none } }
  let s2 := match s1.pars.drain with | some d => s1.freeDrained d | none => s1
  match s2.pars.drain with | some d => s2.freeDrained d | none => s2

/-- The rule table after a wake that lost the shadow in PD_MEM (R347): from the config region, counters
at zero; with it the settings of queues, policers, pools and thresholds, every bucket full (R372). -/
def State.lostShadow (s : State) : State :=
  let c := s.store
  { s with
    pars := Parser.boot c.rules s.pars.slowDeadline s.now
    tm := { s.tm with
      queues := Vector.ofFn fun q => { s.q q with cfg := c.queues[q].getD (QueueCfg.default q.val) }
      policers := Vector.ofFn fun i => s.tm.policers[i].write (c.policers[i].getD {}) s.now
      buf := c.buf.getD {} } }

end Sys2Proof.Machine
end

