-- ==== Sys2Proof/Machine/TimeUnit.lean ====
section
/-!
DEFINITION. Time sessions and what other units do to terminal time (R274 to R277, R281, R282, R289,
R292): opening and closing, HOLDOVER, FAULT, the timekeeper of GLACIER, the end of a tenant's use.
-/

namespace Sys2Proof.Machine

/-- The next step generation, skipping 0 (R274). -/
def nextGen (g : Half) : Half := if g + 1 = 0 then 1 else g + 1

/-- A session opens (R273, R274); source 0x38 reports it. -/
def State.openTime (s : State) (src : SSource) : State :=
  let x := s.time
  let gen := nextGen x.gen
  let s1 : State := { s with time := { x with
    te := x.te, unset := false, estimated := false, sstate := .unstepped, source := src, gen := gen, spent := false,
    ebar := 0, run := 0, errs := [], bad := 0, lastStamp := s.now, target := none, stamp := none } }
  s1.raise 0x38 (BitVec.ofNat 32 (gen.toNat + 65536))

/-- Source 0x37 reports HOLDOVER left (R281). -/
def State.leftHoldover (s : State) (was : SState) : State := if was = .holdover then s.raise 0x37 0 else s

/-- The open session closes (R274, R286): `RATE` is held; source 0x38 reports it. -/
def State.closeTime (s : State) : State :=
  if s.time.sstate = .none then s else
  let x := s.time
  let s1 : State := { s with time := { x with
    te := x.carryTe s.now, sstate := .none, source := .none, target := none, errs := [], stamp := none } }
  (s1.leftHoldover x.sstate).raise 0x38 (BitVec.ofNat 32 x.gen.toNat)

/-- A HEAD session opens by itself at the end of RANGING (R275). -/
def State.openHead (s : State) : State := (s.closeTime).openTime .head

/-- HOLDOVER is entered (R281): `RATE` is frozen; source 0x37 reports it. -/
def State.enterHoldover (s : State) : State :=
  let x := s.time
  let s1 : State := { s with time := { x with
    te := x.carryTe s.now, sstate := .holdover, errs := [], holdovers := satInc 65535 x.holdovers } }
  s1.raise 0x37 1

/-- A local deregistration clears the timing fields and puts a HEAD session in HOLDOVER (R275, R283). -/
def State.timeDereg (s : State) : State :=
  let s1 := { s with time.timing := none }
  if s.time.source = .head ∧ (s.time.sstate = .locked ∨ s.time.sstate = .unstepped) then s1.enterHoldover else s1

/-- FAULT is entered with an error in units of 2⁻¹⁶ ns (R282); source 0x36 reports it in ns. -/
def State.faultTime (s : State) (e : Int) : State :=
  let x := s.time
  let s1 : State := { s with time := { x with
    te := x.carryTe s.now, sstate := .fault, errs := [], bad := 0, target := none } }
  (s1.leftHoldover x.sstate).raise 0x36 (BitVec.ofNat 32 (satTo (2 ^ 32 - 1) (e.natAbs / 65536)))

/-- The TENANT session of a tenant ends (R276); all tenants' with none. -/
def State.endTenantTime (s : State) (t : Option Ten) : State :=
  match s.time.source with
  | .tenant u => if t = none ∨ t = some u then s.closeTime else s
  | _ => s

/-- A tenant's session ends: its TENANT time session, its comparators, its zone (R276, R292, R296). -/
def State.timeEndOf (s : State) (t : Ten) : State :=
  let s1 := s.endTenantTime (some t)
  { s1 with time := { s1.time with
      cmps := s1.time.cmps.map fun c => if (c.map Cmp.owner) = some t then none else c
      zones := s1.time.zones.set t 0 } }

/-- The outputs return to OFF (R299). -/
def TimeUnit.outputsOff (x : TimeUnit) : TimeUnit :=
  { x with pps := {}, grid := {}, pulses := Vector.replicate 2 {} }

/-- Step 4 of R64 for GLACIER (R277, R289): the timekeeper takes TT at its next tick and the measured
period, a free value; the session closes. -/
def State.timeToGlacier (s : State) : State :=
  let s0 := s.closeTime
  let n := s0.now * 32768 / 10 ^ 9 + 1
  let at_ := (n * 10 ^ 9 + 32767) / 32768
  let x := s0.time
  let te := match x.teEst s0.now with
    | some e => TeBase.glacier e s0.now
    | none => .unknown
  let s1 := s0.freed
  { s1 with time := { x.outputsOff with
      te := te, tk := some { tt := x.tt at_, at_ := at_, period := s0.freeVal }
      caps := x.caps.map fun c => { c with fifo := [], loss := false, lastEdge := none } } }

/-- Step 4 of R64 for PERMAFROST (R277, R290, R298): no time is kept and the alarms are cleared. -/
def State.timeToFrost (s : State) : State :=
  let s0 := s.closeTime
  { s0 with time := { s0.time.outputsOff with alarms := Vector.replicate 4 none } }

/-- After the logic step of PD_PLL at a wake from GLACIER (R289). -/
def State.timeFromGlacier (s : State) : State :=
  match s.time.tk with
  | none => { s with time.epoch := s.now }
  | some k =>
    let next := k.tt + (ticks k.at_ s.now + 1) * k.period
    { s with time := { s.time with
        epoch := s.now, anchor := 0, rate := 0, offset := next, estimated := true, tk := none, lastCorr := s.now } }

/-- A crystal fault while the timekeeper is in use leaves `TE_EST` unknown (R286, R289). -/
def State.timeXtalFault (s : State) : State :=
  if s.time.tk.isSome then { s with time.te := .unknown } else s

/-- After a NIGHT the missed listens count towards HOLDOVER and the sleep does not (R281, R288). -/
def State.timeFromNight (s : State) (missed : Nat) : State :=
  { s with time.lastStamp := s.now - missed * 2000000 }

end Sys2Proof.Machine
end

