-- ==== Sys2Proof/Machine/Release.lean ====
section
/-!
DEFINITION. What the units do when a session ends, a lease is taken back, a rescue runs or CC0 is reset
(R131, R154, R158, R162, Table 4.2, Table 6.7), and what a tenant's binding needs of them (R138, R143).
-/

namespace Sys2Proof.Machine

/-! ### Resources (Table 6.6) -/

/-- The use of a resource stops as its chapter defines (R154). A Firn job stops by the request its command
carries. -/
def State.stopResource (s : State) (id : Nat) : State :=
  if 1 ≤ id ∧ id ≤ 5 then s.closeLease id
  else if id = 7 then s.endTenantTime none
  else if id = 8 then (if s.pars.pause.isSome then s else s.discardStaging)
  else if 0x10 ≤ id then s.stopUpdate (leaseRegion id)
  else s

/-- Whether a revocation of a resource is still completing: a Firn job before its layer boundary, an update
before its line boundary. -/
def State.resourceBusy (s : State) (id : Nat) : Bool :=
  if id = 6 then s.firn.jobs.any fun j => (s.jobStop j).isSome
  else if 0x10 ≤ id then (s.updateOf (leaseRegion id)).isSome
  else false

/-- A part of a rescue that needs CC0 (R162): a resource in use. -/
def State.needsCc0 (s : State) (id : Nat) : Bool :=
  if 1 ≤ id ∧ id ≤ 3 then
    let x := s.port (Fin.ofNat 3 (id - 1))
    x.st != .closed || x.start.isSome || x.stop.isSome
  else if id = 4 ∨ id = 5 then
    let x := s.tpsPort (Fin.ofNat 2 (id - 4))
    x.open_ || x.openAt.isSome || x.closeAt.isSome
  else if id = 8 then s.pars.staging.isSome
  else if 0x10 ≤ id then s.resourceBusy id
  else false

/-- The Firn jobs of a tenant are a part of its rescue (R162), under the resource they use. -/
def State.jobsNeedCc0 (s : State) (u : Ten) : List Nat := if s.jobsOf (some u) = [] then [] else [6]

/-! ### The end of a session (Table 6.7, Table 16.7) -/

/-- The in-band key of a tenant destroyed, with every context that holds it (Table 16.7). -/
def State.destroyIbKey (s : State) (t : Ten) : State := s.setEntry (ibEntry t) none

/-- A tenant's handles destroyed, and its pool contexts zeroed (Table 16.7). -/
def State.endKeysOf (s : State) (t : Ten) : State :=
  let s1 := s.dropEntries (s.handlesOf t)
  { s1 with cip := { s1.cip with
      ctx := s1.cip.ctx.map fun c => if c.any (fun x => x.ten == some t) then none else c
      kbus := s1.cip.kbus.filter fun o => match o with | .load _ _ u => u != some t | .zero _ => true } }

/-- What the units hold for a session ends with it: time, handles, the `PORT_RX` it was told. -/
def State.endUnitsOf (s : State) (t : Ten) : State :=
  let s1 := (s.timeEndOf t).endKeysOf t
  { s1 with tm.rxTold := s1.tm.rxTold.set t false }

/-! ### A reset of CC0, and the end of every session -/

/-- Commands of slots 0 to 6 wait for no unit any more (R131): what had not reached a safe point has not
happened. -/
def State.cutWaits (s : State) : State :=
  { s with
    pars := { s.pars with laneOut := Vector.replicate 4 none, laneIn := Vector.replicate 4 none, pause := none }
    cip := { s.cip with jobs := [], coreBy := Vector.replicate 2 none, destroys := [] }
    clk.relock := s.clk.relock.map fun r => { r with by_ := none }
    reg.wait := none
    sec.thawing := s.sec.thawing.map fun w => { w with slot := none }
    firn := { s.firn with
      testBy := none, outBy := none, loading := none, inService := s.firn.inService || s.firn.outBy.isSome }
    tm.inject := []
    mbx.drains := s.mbx.drains.filter fun d => d.slot == 7
    mbx.ghosts := [] }

/-- A core reset of CC0 (Table 4.2, R131): an update stops at its line boundary and a Firn job at its layer
boundary; the results are those of the restart. -/
def State.cc0Down (s : State) : State :=
  let s1 := s.cutWaits
  { s1 with
    nvm.upd := s1.nvm.upd.map fun u => { u with stop := true, orphan := true, aborter := none }
    firn.jobs := s1.firn.jobs.map fun j => { j with stop := some (j.stop.getD 1), orphan := true } }

/-- Every job and every update ends now with `ABORTED` (R63). -/
def State.cutWork (s : State) : State :=
  let s1 := s.firn.jobs.foldl (fun s j => s.abortJob j 1) s
  let s2 := s1.nvm.upd.foldl (fun s u => s.endUpdate u Status.aborted) s1
  let s3 := s2.cutWaits
  { s3 with firn := { s3.firn with run := none, copying := none } }

/-- A core reset of CC1 (Table 4.2): DPLL-T in holdover; grant handling has stopped with the core. -/
def State.cc1Down (s : State) : State := s.dpllLoss

/-- CC1 runs again: the builder fills what it has. -/
def State.cc1Back (s : State) : State := s.buildAll

/-- Firmware work of a core beside commands (R174), by the duties of Table 1.3: updates, rule drains, the slow path and
what a rescue has queued on CC0; a relock, a time stamp and the entry to a power state on CC1. -/
def State.coreWorks (s : State) (core : Fin 2) : Bool :=
  if core = 0 then s.nvm.upd != [] || s.pars.drain.isSome || s.pars.slow != [] || s.mbx.residue != []
  else s.clk.relock.isSome || s.time.stamp.isSome || s.power.entry.isSome

/-! ### Bindings (R138, R143) -/

/-- IN_SERVICE. -/
def State.inService (s : State) : Bool := s.reg.st == .inService

/-- SILENT. -/
def State.silent (s : State) : Bool := s.reg.st == .silent

/-- A credential slot meets R138. -/
def State.credOk (s : State) (slot : Nat) (t : Ten) : Bool :=
  let k := s.keys.slots[(Fin.ofNat 64 slot : Fin 64)]
  8 ≤ slot && slot < 64 && k.state != 0 && k.flags.getLsbD 2 && k.flags.getLsbD 3 && k.tmask.getLsbD t.val

/-- Whether key slots can be loaded (R88, R386, Table 17.6): not under the key-lock flag, and no slot of the
key store in RETIRED. -/
def State.slotsOpen (s : State) : Bool := !s.ao.keyLock && s.fuses.life != .retired

/-- The key of a credential slot. -/
def State.credKey (s : State) (slot : Nat) : List Byte := s.keys.slots[(Fin.ofNat 64 slot : Fin 64)].key

/-! ### Levels (chapter 17) -/

/-- The level is THAWED. -/
def State.thawed (s : State) : Bool := s.ao.dbg.level == 2

/-- The level as commands report it (Table 17.7). -/
def State.debugCode (s : State) : Nat := s.ao.dbg.level

/-- The lifecycle code (Table 17.1). -/
def Life.code : Life → Nat
  | .factory => 0 | .sealed => 1 | .retired => 2

/-- The lifecycle as commands report it. -/
def State.lifecycleCode (s : State) : Nat := s.fuses.life.code

/-- The lifecycle is FACTORY. -/
def State.inFactory (s : State) : Bool := s.fuses.life == .factory

/-! ### Firn as the idle timers see it (Table 3.2) -/

/-- A layer runs. -/
def State.firnBusy (s : State) : Bool := s.firn.run.isSome

/-- No Firn job is queued or running. -/
def State.firnIdle (s : State) : Bool := s.firn.jobs == []

/-- Bits set in the always-on watch set. -/
def setSizeOf (w : BitVec 32) : Nat := ((List.range 32).filter fun i => w.getLsbD i).length

end Sys2Proof.Machine
end

