-- ==== Sys2Proof/Machine/Sessions.lean ====
section
/-!
DEFINITION. Tenant sessions (R140 to R145), leases and their revocation (R153, R154), the FAULTED
state (R156), delegation (R148), and the stop of commands (R128).
-/

namespace Sys2Proof.Machine

/-- Commands with safe points: `TRAFFIC.INJECT`, `ENS.WRITE`, `FIRN.RUN` (R128, Table 22.2). -/
def hasSafePoint (op : Nat) : Bool := op == 0x0A09 || op == 0x0D02 || op == 0x0F05

/-- The next session number after a base: one more, skipping 0 (R140). -/
def nextSession (base : Word) : Word := if base + 1 = 0 then 1 else base + 1

/-- Slots 0 to 6. -/
def lowSlots : List SlotIx := (List.finRange 8).filter (· < 7)

/-- A tenant's record as a session opens (R141, R145): slots EMPTY, ring empty, window registers at
their reset values, no lease, no floor, in-band `SEQ` zero, the event bucket full. -/
def Tenant.opened (x : Tenant) (session : Word) (leaseMs : Nat) (hbAlways : Bool) (now : Nat) : Tenant :=
  { x with
    st := .attached, session := session, base := session, leaseMs := leaseMs, hbAlways := hbAlways,
    hbFrom := if hbAlways then some now else none, hbLast := now, floor := none, win := {},
    slots := Vector.replicate 8 {}, ring := Vector.replicate 64 {}, evtSeq := 0, loss := false,
    lostBudget := 0, lostRing := 0, evtBucket := { level := 64 * 10 ^ 9, at_ := now },
    statusRead := false, noticeBy := none, ibSeq := 0, ibResp := [] }

/-- Directed events not yet served are no longer for a tenant: pending events go with the ring (R141, Table 6.7). -/
def State.forgetEvents (s : State) (t : Ten) : State :=
  { s with evt.directed := s.evt.directed.map fun d => { d with targets := d.targets &&& ~~~(1#8 <<< t.val) } }

/-- A command accepted or held and not started posts its stop (R128). -/
def State.stopWaiting (s : State) (t : Ten) (n : SlotIx) (why : StopWhy) : State :=
  (s.modSlot t n fun x => { x with stop := some why }).post t n
    (if why = .faulted then Status.faultTenant else Status.aborted) []

/-- A `TRAFFIC.INJECT` that waits for room stands between two records, its safe point: a stop posts at once, with
the frames offered (R361). -/
def State.sweepInject (s : State) (t : Ten) (n : SlotIx) : State :=
  match s.tm.inject.find? fun x => x.1 == t && x.2.1 == n with
  | some (_, _, _, k) =>
    match (s.slot t n).stop with
    | some why =>
      ({ s with tm.inject := s.tm.inject.filter fun x => x.1 != t || x.2.1 != n } : State).post t n
        (if why = .faulted then Status.faultTenant else Status.aborted) (leBytes 2 k)
    | none => s
  | none => s

/-- A command is asked to stop (R128): at once if it has not started or waits at a safe point, at its next safe
point if it runs; a running command with no safe point runs to completion. -/
def State.askStop (s : State) (t : Ten) (n : SlotIx) (why : StopWhy) : State :=
  let x := s.slot t n
  match x.phase with
  | .held | .accepted => s.stopWaiting t n why
  | .running => if x.stop.isSome then s else ((s.modSlot t n fun y => { y with stop := some why }).firnSweep).sweepInject t n
  | _ => s

/-- Every command of slots 0 to 6 but one is asked to stop. -/
def State.askStopAll (s : State) (t : Ten) (self : Option SlotIx) (why : StopWhy) : State :=
  (lowSlots.filter fun n => self != some n).foldl (fun s n => s.askStop t n why) s

/-- A command running with a stop request reaches a safe point and posts its stop. -/
def State.stopAtSafePoint (s : State) (t : Ten) (n : SlotIx) : State :=
  s.post t n (if (s.slot t n).stop == some .faulted then Status.faultTenant else Status.aborted) []

/-- Leases a tenant holds. -/
def State.leasesOf (s : State) (t : Ten) : List Nat :=
  (s.mbx.leases.filter (·.2 == t)).map (·.1)

/-- After a release: the watch ends with the last lease unless `HB_ALWAYS` was given (R155), and
`T_GLACIER` runs from the release of the last lease held (R55). -/
def State.leaseReleased (s : State) (t : Ten) : State :=
  let s1 := if s.leasesOf t = [] then
      s.modTen t fun x => { x with hbFrom := if x.hbAlways then x.hbFrom else none }
    else s
  if s1.mbx.leases = [] then { s1 with power.idle.glacier := s1.now } else s1

/-- The lease table loses a lease, and its holder's watch follows (R55, R155). -/
def State.freeLease (s : State) (id : Nat) : State :=
  match s.holder id with
  | some t => (s.dropLease id).leaseReleased t
  | none => s

/-- A resource is taken back from its holder: its use stops as its chapter defines, and the lease
table loses the lease (R154). -/
def State.revoke (s : State) (id : Nat) : State :=
  let s1 := (s.stopResource id).freeLease id
  let s2 := if s1.resourceBusy id then { s1 with mbx.revoking := s1.mbx.revoking ++ [id] } else s1
  if id = 6 then s2.firnNext else s2

/-- Revocations made before their holder's commands were asked to stop are marked as completing. -/
def State.markRevoking (s : State) (ids : List Nat) : State :=
  { s with mbx.revoking := s.mbx.revoking ++ ids.filter fun id => s.resourceBusy id && !s.mbx.revoking.contains id }

/-- `LEASE_REVOKED` to the former holder (Table 22.4). -/
def State.tellRevoked (s : State) (t : Ten) (id cause : Nat) : State :=
  s.direct Code.leaseRevoked [t] (id + 256 * cause)

/-- Every lease of a tenant revoked. -/
def State.revokeAll (s : State) (t : Ten) : State := (s.leasesOf t).foldl (·.revoke ·) s

/-- A session opens (R140, R141): no lease is held; frames that wait in its port are told at once (R360). -/
def State.openSession (s : State) (t : Ten) (leaseMs : Nat) (hbAlways : Bool) : State :=
  (((s.revokeAll t).forgetEvents t).modTen t fun x => x.opened (nextSession x.base) (if leaseMs = 0 then 1000 else leaseMs) hbAlways s.now).tellPort t

/-- The T0 session the terminal opens itself (R145). -/
def State.openOwner (s : State) : State := s.openSession 0 1000 false

/-- The authority a resource needs (Table 6.6): none for an ID outside the table. -/
inductive LeaseNeed where
  | bit (b : Nat) | owner | tenant (t : Ten) | bad
deriving DecidableEq, Repr

/-- Table 6.6. -/
def leaseNeed (id : Nat) : LeaseNeed :=
  if id = 1 ∨ id = 2 ∨ id = 3 then .bit 4 else if id = 4 ∨ id = 5 then .bit 5
  else if id = 6 then .bit 6 else if id = 7 then .bit 1 else if id = 8 then .bit 2
  else if id = 0x10 ∨ id = 0x11 ∨ id = 0x13 then .owner
  else if id = 0x12 then .bit 6 else if id = 0x14 then .bit 7
  else if 0x18 ≤ id ∧ id ≤ 0x1F then .tenant (Fin.ofNat 8 (id - 0x18)) else .bad

/-- Whether an authority mask lets a tenant hold a resource (Table 6.6). -/
def maskAllows (t : Ten) (auth : Half) (owner : Bool) (id : Nat) : Bool :=
  match leaseNeed id with
  | .bit b => owner || auth.getLsbD b
  | .owner => owner
  | .tenant u => u == t || owner
  | .bad => false

/-- A delegation ends (R148): the former delegate loses the leases its own mask would not allow,
and both are told. -/
def State.endDelegation (s : State) (cause : Nat) : State :=
  match s.delegate with
  | none => s
  | some d =>
    let s1 := { s with mbx.delegate := none }
    let lost := (s1.leasesOf d).filter fun id => !maskAllows d (s1.ten d).cfg.auth false id
    let s2 := lost.foldl (fun s id => (s.revoke id).tellRevoked d id 3) s1
    s2.direct Code.delegateEnd [0, d] (d.val + 256 * cause)

/-- The delegation ends if a tenant holds it. -/
def State.endDelegationOf (s : State) (t : Ten) (cause : Nat) : State :=
  if s.delegate = some t then s.endDelegation cause else s

/-- A tenant's subscriptions are removed (R169). -/
def State.unmapAll (s : State) (t : Ten) : State :=
  let s1 := (List.finRange 64).foldl (fun s v =>
    match (s.ten t).vids[v] with
    | some src => s.modSource src fun x => { x with targets := x.targets &&& ~~~(1#8 <<< t.val) }
    | none => s) s
  s1.modTen t fun x => { x with vids := Vector.replicate 64 none }

/-- What every end of a session does (R158, R169, R142): leases released as on revocation, floor and
delegation cleared, subscriptions removed, in-band key destroyed, the units' session state ended. -/
def State.endSession (s : State) (t : Ten) : State :=
  let s1 := (s.revokeAll t).endDelegationOf t 3
  let s2 := (s1.unmapAll t).destroyIbKey t
  (s2.endUnitsOf t).modTen t fun x =>
    { x with st := .detached, floor := none, hbFrom := none, noticeBy := none }

/-- FAULTED (R156). -/
def State.fault (s : State) (t : Ten) : State :=
  let ids := s.leasesOf t
  let s1 := s.modTen t fun x => { x with st := .faulted, hbFrom := none }
  let s2 := ids.foldl (fun s id => (s.revoke id).tellRevoked t id 1) s1
  let s3 := (s2.askStopAll t none .faulted).markRevoking ids
  let s4 := (s3.modTen t fun x => { x with floor := none }).endDelegationOf t 3
  s4.direct Code.tenantFaulted [0] (t.val + 256 * ids.length)

/-- The window and ring of a tenant reset (Table 6.7). -/
def Tenant.cleared (x : Tenant) : Tenant :=
  { x with win := {}, ring := Vector.replicate 64 {}, evtSeq := 0, loss := false }


/-- Slots 0 to 6 emptied but one; slot 7 keeps what it holds (R159). -/
def Tenant.clearSlots (x : Tenant) (own : Option SlotIx) : Tenant :=
  lowSlots.foldl (fun x n => if own = some n then x else x.setSlot n {}) x

/-- The session of a tenant ended by reset (Table 6.7): slots emptied but the requester's own, ring
and window cleared, port queues flushed, partition cleared unless `KEEP_MEM`, and the R96 notice raised
when the tenant itself did not ask. -/
def State.resetSession (s : State) (u : Ten) (keep : Bool) (own : Option SlotIx) (tell : Bool) : State :=
  let s1 := (s.forgetEvents u).modTen u fun x => (x.cleared).clearSlots own
  let s2 := s1.flushPort u
  let s3 := if keep then s2 else { s2 with sram := s2.sram.clear (s2.partAddr u 0) (s2.partBytes u) }
  let s4 := s3.modTen u fun x => { x with st := .detached }
  if !tell then s4 else
    match spiOf (s4.ten u).cfg.transport with
    | some p => { s4 with mbx.ports := s4.mbx.ports.set p { s4.mbx.ports[p] with notice := true } }
    | none => (s4.modTen u fun x => { x with notice := true }).notify u

/-- Slots 0 to 6 of a tenant but one are about to be emptied (Table 6.7, R162): a running command with no safe point runs
to completion (R128), and work that units have taken goes on, or ends, without a result. -/
def State.letRun (s : State) (t : Ten) (own : Option SlotIx) : State :=
  let live := lowSlots.filter fun n => own != some n && (s.slot t n).phase == .running
    && !hasSafePoint (s.slot t n).opcode && !s.awaited t n
  ({ s with mbx.ghosts := s.mbx.ghosts ++ live.map fun n => ⟨t, n, s.slot t n⟩ } : State).orphanWork
    fun u n => u == t && n != 7 && own != some n

/-- A session ended as `TENANT.RESET` ends it, at once (R144, R161). -/
def State.resetNow (s : State) (t : Ten) (keep : Bool) (own : Option SlotIx) (tell : Bool) : State :=
  (((s.letRun t own).stopJobs (some t) 1).endSession t).resetSession t keep own tell

/-- A lease granted: the heartbeat watch starts with the first one, but not for T0 (R149, R155). -/
def State.grantLease (s : State) (t : Ten) (id : Nat) : State :=
  let s1 := { s with mbx.leases := (s.mbx.leases.filter fun (l : Nat × Ten) => l.1 != id) ++ [(id, t)] }
  s1.modTen t fun x => { x with hbFrom := if t = 0 then none else some (x.hbFrom.getD s.now) }

end Sys2Proof.Machine
end

