-- ==== Sys2Proof/Machine/SecUnit.lean ====
section
/-!
DEFINITION. The end of the entry to THAWED, as the units that it waits for call it (R426).
-/

namespace Sys2Proof.Machine

/-- The session of a lane tenant ends as `TENANT.RESET` with `KEEP_MEM` ends it (R426 step 6); `own` is the slot whose
command asked for the entry. -/
def State.endLane (s : State) (t : Ten) (own : Option SlotIx) : State :=
  s.resetNow t true own own.isNone

/-- Tenants bound to a local lane that hold a session. -/
def State.laneTenants (s : State) : List Ten :=
  allTen.filter fun t => (laneOf (s.ten t).cfg.transport).isSome && (s.ten t).st != .detached

/-- Steps 5 to 7 of R426: contexts and session bank zeroised, the key-lock flag set, lane sessions ended, the result
posted. -/
def State.finishThaw (s : State) (w : Thawing) : State :=
  let s1 := ({ s with sec.thawing := none } : State).zeroiseAll
  let s2 : State := { s1 with ao.keyLock := true }
  let s3 := s2.laneTenants.foldl (fun s t => s.endLane t (if t = w.ten then w.slot else none)) s2
  match w.slot with
  | some n => s3.answer w.ten n [2]
  | none => s3

/-- The entry to THAWED goes on once no cipher job runs (R426 step 4). -/
def State.settleThaw (s : State) : State :=
  match s.sec.thawing with
  | some w => if s.cip.jobs.any (·.started) then s else s.finishThaw w
  | none => s

end Sys2Proof.Machine
end

