-- ==== Sys2Proof/Machine/RegUnit.lean ====
section
/-!
DEFINITION. Activation as other units use it (R230 to R247): changes of state and their timers, the local
deregistration, the notice and the upstream messages of registration.
-/

namespace Sys2Proof.Machine

/-- Activation state codes (Table 10.1). -/
def Act.code : Act → Nat
  | .initial => 0 | .listen => 1 | .discovery => 2 | .auth => 3 | .ranging => 4 | .inService => 5 | .silent => 6
  | .dereg => 7

/-- A registration event dropped and counted (R231). -/
def State.regDrop (s : State) : State := { s with reg.regDrop := satInc 65535 s.reg.regDrop }

/-- A change of activation state (R230): the timers of the state left are gone; source 0x50 reports it. -/
def State.setAct (s : State) (a : Act) : State :=
  if s.reg.st = a then s else
  ({ s with reg := { s.reg with
      st := a, tAssign := none, tAuth := none, tRange := none, silentBy := none, serial := none } } : State
  ).raise 0x50 (BitVec.ofNat 32 a.code)

/-- T0's leases are released when the terminal leaves IN_SERVICE (R149). -/
def State.releaseOwner (s : State) : State := s.revokeAll 0

/-- A return to LISTEN: from DISCOVERY, AUTH or RANGING a number of discovery entries is drawn that will be
skipped (R235). Serial-number attempts count on through a return from DISCOVERY (Table 10.3). -/
def State.toListen (s : State) : State :=
  let back := s.reg.st == .discovery || s.reg.st == .auth || s.reg.st == .ranging
  let s1 := if back then { s.drawn with reg.skip := s.draw % 16 } else { s with reg.skip := 0 }
  (if s1.reg.st = .discovery then s1 else { s1 with reg.attempts := 0 }).setAct .listen

/-- The registration values that a local deregistration clears (R245, steps 2 and 3). -/
def Reg.cleared (r : Reg) : Reg :=
  { r with
    rh := 0xFFF, eqd := Vector.replicate 2 0, eqdNext := Vector.replicate 2 none, ranged := Vector.replicate 2 false
    shotOut := Vector.replicate 2 false, again := Vector.replicate 2 false, rangeTries := Vector.replicate 2 0, serial := none, nHe := [], nT := []
    kseq := Vector.replicate 3 0, inUse := Vector.replicate 3 none, oseq := none, oresp := [] }

/-- A lane's EqD and φ set; source 0x55 reports a change on the active lane (R242). -/
def State.setEqd (s : State) (l : Fin 2) (v : Nat) : State :=
  if s.reg.eqd[l] = v then s else
  let s1 : State := { s with reg.eqd := s.reg.eqd.set l v }
  if l = s.lanes.prot.active then s1.raise 0x55 (BitVec.ofNat 32 v) else s1

/-- A local deregistration with its cause (R245), with what other chapters clear at it: head-end holds
(R364), tributaries (R461), a key switch under way. -/
def State.dereg (s : State) (cause : Nat) : State :=
  let s1 := ((s.emptyTable.withdrawAll).setEqd 0 0).setEqd 1 0
  let s2 : State := { s1 with reg := s1.reg.cleared, lanes.prot := { s1.lanes.prot with fit := Vector.replicate 2 false, wtrBy := none, bothLost := false } }
  let s3 := s2.dropLineKeys.releaseOwner.timeDereg
  let s4 : State := { s3 with
    fr := { s3.fr with arm := none, late := false, retire := none, lastSwitch := none }
    tm.holdHe := Vector.replicate 8 none
    reg := { s3.reg with lastDereg := cause, deregs := satInc 65535 s3.reg.deregs } }
  s4.tribClear

/-- Whether a terminal in a state deregisters locally when it is sent back (Table 10.2). -/
def Act.registered (a : Act) : Bool := a == .auth || a == .ranging || a == .inService || a == .silent

/-- Step 1 of R64: a registered terminal deregisters with cause 0x05 and moves to LISTEN. -/
def State.deregLocal (s : State) : State := if s.reg.st.registered then (s.dereg 5).toListen else s

/-- `LTX.ACTIVATION` stop (Table 10.2); INITIAL does not list it (R231). -/
def State.actStop (s : State) : State :=
  if s.reg.st.registered then (s.dereg 6).setAct .dereg
  else match s.reg.st with
    | .listen | .discovery => s.setAct .dereg
    | .initial => s.regDrop
    | _ => s

/-- `LTX.ACTIVATION` rediscover (R248): a local deregistration, then LISTEN. INITIAL and DEREGISTERED have no
such transition (R231). -/
def State.actRediscover (s : State) : State :=
  match s.reg.st with
  | .initial | .dereg => s.regDrop
  | _ => (s.dereg 6).toListen

/-- A deregistration notice (Table 10.4). -/
def State.sendDeregNotice (s : State) (cause : Nat) : State :=
  s.queueLmm 0x83 (leBytes 1 cause ++ beBytes 8 Config.terminalId.toNat)

/-- IN_SERVICE is entered: `OSEQ` starts anew (R244), `K_AUTH` is destroyed (Table 16.5), and `T_NIGHT`
runs from here (Table 3.2). -/
def State.enterService (s : State) : State :=
  let s1 := (s.setAct .inService).setEntry eAuth none
  ({ s1 with reg := { s1.reg with oseq := none, oresp := [] }, power.idle.night := s1.now } : State).buildAll

/-- `OPT_TXDIS` of a lane released, and its burst on the fibre cut (R196, R264): its packets are lost. -/
def State.cutLane (s : State) (l : Fin 2) : State :=
  let s1 : State := { s with pads.txdisLow := s.pads.txdisLow &&& ~~~(1#2 <<< l.val) }
  match s.us.sending with
  | some b =>
    if b.lane ≠ l then s1
    else ({ s1 with us.sending := none } : State).modGs b.gs fun x => { x with cut := satTo (2 ^ 32 - 1) (x.cut + b.pkts) }
  | none => s1

/-- Both transmitters released, mid-burst if one is in progress (R226). -/
def State.cutBurst (s : State) : State := (s.cutLane 0).cutLane 1

/-- SILENT is entered (R247): no bursts, no entries, `OPT_TXDIS` released; the owner's leases are released (R149). -/
def State.enterSilent (s : State) : State := ((s.emptyTable.withdrawAll).cutBurst.setAct .silent).releaseOwner

/-- AUTH is entered (R236, R240, R264). -/
def State.enterAuth (s : State) : State :=
  let s1 := s.setAct .auth
  { s1 with
    reg := { s1.reg with
      tAuth := some (s1.now + 100000000), authFails := 0
      kseq := Vector.replicate 3 0, inUse := Vector.replicate 3 none }
    us.bseq := 0 }

/-- RANGING is entered (R241). -/
def State.enterRanging (s : State) : State :=
  let s1 := s.setAct .ranging
  { s1 with reg := { s1.reg with tRange := some (s1.now + 100000000), rangeTries := Vector.replicate 2 0 } }

/-- The round trip of a ranged lane in half-nanoseconds (R242). -/
def State.laneRtd (s : State) (l : Fin 2) : Option Nat := if s.reg.ranged[l] then some s.reg.rtd[l] else none

end Sys2Proof.Machine
end

