-- ==== Sys2Proof/Machine/LaneUnit.lean ====
section
/-!
DEFINITION. Lanes and framer channels as other units use them (R188 to R202, R222 to R226): loss,
eligibility, switchover, silencing, the defects of the active lane, local links.
-/

namespace Sys2Proof.Machine

/-! ### Fibre lanes -/

/-- The other fibre lane. -/
def otherLane (l : Fin 2) : Fin 2 := if l = 0 then 1 else 0

/-- A fibre lane's index among the four lanes. -/
def fibreIx (l : Fin 2) : Fin 4 := Fin.ofNat 4 l.val

/-- A lane's receiver. -/
def State.phy (s : State) (i : Fin 4) : Phy := s.lanes.phy[i]

/-- A lane's receiver changed. -/
def State.modPhy (s : State) (i : Fin 4) (f : Phy → Phy) : State :=
  { s with lanes.phy := s.lanes.phy.set i (f (s.phy i)) }

/-- A fibre lane is present (R51). -/
def State.present (s : State) (l : Fin 2) : Bool := s.fitted (fibreIx l)

/-- A fibre lane has failed its pull check (R45). -/
def State.txFault (s : State) (l : Fin 2) : Bool := s.pads.txdisFault.getLsbD l.val

/-- The active lane, none in INITIAL (R193). -/
def State.activeLane (s : State) : Option (Fin 2) :=
  if s.reg.st = .initial then none else some s.lanes.prot.active

/-- The standby lane. -/
def State.standby (s : State) : Fin 2 := otherLane s.lanes.prot.active

/-- A channel is in frame SYNC. -/
def State.inSync (s : State) (l : Fin 2) : Bool := (s.chan l).st == .sync

/-- A channel is in frame SYNC and multiframe alignment. -/
def State.framed (s : State) (l : Fin 2) : Bool := s.inSync l && (s.chan l).aligned

/-- The active lane's channel is in SYNC. -/
def State.activeSync (s : State) : Bool := s.inSync s.lanes.prot.active

/-- A ranging of a lane is in progress: its grant is accepted, its burst awaits the result, or the result was to range
again (R195, R242). -/
def State.rangingRuns (s : State) (l : Fin 2) : Bool := s.reg.shotOut[l] || s.reg.again[l] || s.reg.rangeShot[l] != []

/-- A lane may become active (R195); not while its confirmation ranging runs. -/
def State.laneEligible (s : State) (l : Fin 2) : Bool :=
  s.present l && (s.phy (fibreIx l)).good && s.framed l && !s.txFault l && s.lanes.prot.fit[l] && !s.rangingRuns l

/-- The lane protection prefers (R198). -/
def ProtCfg.preferred (c : ProtCfg) : Fin 2 := if c.preferB then 1 else 0

/-! ### Defects (R224, R225) -/

/-- HDR3 (Table 9.8). -/
def Chan.hdr3 (c : Chan) : Bool := 3 ≤ (c.window.filter id).length

/-- A SYNC preloaded in NIGHT that no header has confirmed (R70). -/
def Chan.unproven (c : Chan) : Bool := c.aligned && c.ref.isNone

/-- LOMF. -/
def Chan.lomf (c : Chan) : Bool := c.st == .sync && !c.aligned

/-- RDI as bursts of the active lane carry it (Table 9.9). -/
def State.rdi (s : State) : Bool := s.act.lomf || s.act.hdr3

/-- RDI-B: a defect of the standby lane (R197). -/
def State.rdiB (s : State) : Bool :=
  let l := s.standby
  s.present l && s.power.pstate != .night &&
    (!(s.phy (fibreIx l)).good || !s.framed l || s.txFault l || (!s.lanes.prot.fit[l] && !s.rangingRuns l))

/-- Sources 0x51 to 0x53 report the changes of the active lane's LOF, LOMF and RDI (R224). -/
def State.tellDefects (s : State) : State :=
  let now : BitVec 3 := BitVec.ofNat 3 (b2n (s.act.st != .sync) + 2 * b2n s.act.lomf + 4 * b2n s.rdi)
  let old := s.fr.told
  [0, 1, 2].foldl (fun s i =>
    if now.getLsbD i = old.getLsbD i then s
    else s.raise (Fin.ofNat 256 (0x51 + i)) (BitVec.ofNat 32 (b2n (now.getLsbD i)))) { s with fr.told := now }

/-- Every present fibre lane is in LOS or LOF (Table 3.2). -/
def State.allDark (s : State) : Bool :=
  (List.finRange 2).all fun l => !s.present l || !(s.phy (fibreIx l)).lock || !s.inSync l

/-- `T_DARK` runs from the moment every lane is dark. -/
def State.markDark (s : State) (was : Bool) : State :=
  if s.allDark && !was then { s with power.idle.dark := s.now } else s

/-- A channel goes to HUNT (Table 9.7): alignment ends, the header window is emptied, LOF is raised. -/
def Chan.hunt (c : Chan) (now : Nat) : Chan :=
  { c with
    st := .hunt, fawRun := 0, aligned := false, ref := none, count := 0, miss := 0, window := [], rx := {}
    lofFrom := if c.st = .sync then some now else some (c.lofFrom.getD now)
    n := { c.n with lofEvents := if c.st = .sync then satInc 65535 c.n.lofEvents else c.n.lofEvents } }

/-- A fibre lane's channel goes to HUNT; LOF on the active lane is a TPS defect (R481). -/
def State.toHunt (s : State) (l : Fin 2) : State :=
  let was := s.inSync l
  let s1 := s.modChan l fun c => c.hunt s.now
  if was && l == s.lanes.prot.active then s1.tpsLof else s1

/-! ### The transmitter (R43, R226) -/

/-- The transmitter is silenced (R226). -/
def State.silence (s : State) : State :=
  ({ (s.emptyTable.withdrawAll).cutBurst with fr.silenced := true } : State)

/-- Entries are taken from the next valid grant map on, and not from one in progress (R226, R247). -/
def State.fromNextMap (s : State) : State :=
  { s with fr.ch := s.fr.ch.map fun c => { c with rx := { c.rx with mapDead := c.rx.mapDead || decide (0 < c.rx.entries) } } }

/-- Silencing ends (R226). -/
def State.endSilence (s : State) : State :=
  if s.fr.silenced && s.framed s.lanes.prot.active && !s.fr.lol then
    ({ s with fr.silenced := false } : State).fromNextMap
  else s

/-- After both lanes were lost the active one resumes once it has re-locked and its channel is in SYNC (R199). -/
def State.resumeActive (s : State) : State :=
  let l := s.lanes.prot.active
  if s.lanes.prot.bothLost && (s.phy (fibreIx l)).good && s.inSync l then { s with lanes.prot.bothLost := false } else s

/-- LOL (Table 9.9). -/
def State.raiseLol (s : State) : State := ({ s with fr := { s.fr with lol := true, lolBy := none } } : State).silence

/-! ### Protection (R196 to R200) -/

/-- The wait to restore starts, goes on or stops (R198). -/
def State.updateWtr (s : State) : State :=
  let c := s.lanes.prot.cfg
  let l := c.preferred
  if c.revertive && s.lanes.prot.active != l && s.laneEligible l then
    { s with lanes.prot.wtrBy := some (s.lanes.prot.wtrBy.getD (s.now + c.wtrS * 1000000000)) }
  else { s with lanes.prot.wtrBy := none }

/-- A frame number of one lane's channel as the other's: the frame of the other channel that starts nearest. -/
def Chan.numberOf (c : Chan) (at_ : Nat) : Nat :=
  if c.start ≤ at_ then c.k + (at_ - c.start + 125000) / 250000 else c.k - (c.start - at_ + 125000) / 250000

/-- The armed boundary and the retirement of a key switch, in the frame numbers of a new active lane. -/
def State.rebaseSwitch (s : State) (l : Fin 2) : State :=
  let conv (f : Nat) : Nat := (s.chan l).numberOf (s.act.startOf f)
  { s with
    fr := { s.fr with
      arm := s.fr.arm.map conv, retire := s.fr.retire.map fun p => (p.1, conv p.2), lastSwitch := s.fr.lastSwitch.map conv }
    us.maps := [] }

/-- Steps 1 and 3 of R196: the lane becomes active, with an empty grant table; the LOF timer restarts from
its state (R225). -/
def State.switchTo (s : State) (l : Fin 2) : State :=
  let s1 := (((s.cutLane s.lanes.prot.active).withdrawAll).emptyTable).rebaseSwitch l
  let s2 : State := { s1 with
    lanes.prot := { s1.lanes.prot with
      active := l, holdBy := none, wtrBy := none, bothLost := false
      switches := s1.lanes.prot.switches.set l (satInc 65535 s1.lanes.prot.switches[l]) }
    time.stamp := none }
  let s3 := s2.modChan l fun c => { c with lofFrom := if c.st = .sync then none else some s.now }
  (s3.raise 0x42 (BitVec.ofNat 32 l.val)).tellDefects.endSilence

/-- The roles exchanged before IN_SERVICE (R232). -/
def State.exchange (s : State) : State :=
  let s1 := if s.reg.st = .auth ∨ s.reg.st = .ranging then s.dereg 9 else s
  let s2 : State := { s1.rebaseSwitch s1.standby with
    lanes.prot := { s1.lanes.prot with active := s1.standby, bothLost := false } }
  (if s2.reg.st = .listen then s2 else s2.toListen).tellDefects.endSilence

/-- The consequences of a loss of the active lane (R196, R199, R232, R320). -/
def State.activeLost (s : State) : State :=
  let s1 := s.withdrawAll.dpllLoss
  let b := s1.standby
  match s1.reg.st with
  | .listen | .discovery | .auth | .ranging =>
    if s1.present b && (s1.phy (fibreIx b)).lock && s1.inSync b && !s1.txFault b then s1.exchange else s1
  | .inService | .silent =>
    if s1.laneEligible b && !s1.lanes.prot.lockout && s1.power.pstate != .night then
      { s1 with lanes.prot.holdBy := some (s1.now + s1.lanes.prot.cfg.holdOffUs * 1000) }
    else s1
  | _ => s1

/-- The other fibre lane has been lost and has not re-locked (R190, R199). -/
def State.otherLost (s : State) (l : Fin 2) : Bool :=
  let p := s.phy (fibreIx (otherLane l))
  p.lost && !p.good

/-- A fibre lane is lost (R188, R195): its burst is cut, its channel goes to HUNT, a ranging of it that was under way is
void, and it needs a new one before it can become active again. -/
def State.loseLane (s : State) (l : Fin 2) : State :=
  let was := s.allDark
  let s1 := (s.cutLane l).modPhy (fibreIx l) fun p => { p with
    lock := false, good := false, lost := true, qualBy := none, losses := satInc 65535 p.losses }
  let s2 := ({ s1 with
    lanes.prot := { s1.lanes.prot with
      fit := s1.lanes.prot.fit.set l false, bothLost := s1.lanes.prot.bothLost || s1.otherLost l }
    reg := { s1.reg with
      shotOut := s1.reg.shotOut.set l false, again := s1.reg.again.set l false, rangeShot := s1.reg.rangeShot.set l [] } } : State
    ).raise (Fin.ofNat 256 (0x40 + l.val)) 0
  let s3 := s2.toHunt l
  let s4 := if l = s3.lanes.prot.active then s3.activeLost else s3
  (s4.updateWtr.tellDefects).markDark was

/-- A fibre lane without lock is lost once. -/
def State.darkLane (s : State) (l : Fin 2) : State := if (s.phy (fibreIx l)).lock then s.loseLane l else s

/-- `TXDIS_FAULT` (R200): on the active lane, a loss of that lane; on the standby lane, a defect. -/
def State.txdisFaulted (s : State) (l : Fin 2) : State :=
  if s.activeLane = some l then s.loseLane l else s.updateWtr

/-! ### Local lanes (R201) -/

/-- A local lane. -/
def State.local_ (s : State) (l : Fin 2) : LocalLane := s.lanes.locals[l]

/-- A local lane changed. -/
def State.modLocal (s : State) (l : Fin 2) (f : LocalLane → LocalLane) : State :=
  { s with lanes.locals := s.lanes.locals.set l (f (s.local_ l)) }

/-- A local lane has a link. -/
def State.anyLink (s : State) : Bool := s.laneLink 0 || s.laneLink 1

/-- A local lane's link goes down (R201): its PAUSE time is cleared, its egress queues are held, and an
attach exchange over it is lost. -/
def State.localDown (s : State) (l : Fin 2) : State :=
  let any := s.anyLink
  let up := (s.phy (localIx l)).good
  let s1 := s.modPhy (localIx l) fun p => { p with
    lock := false, good := false, lost := true, qualBy := none, losses := satInc 65535 p.losses }
  let s2 := s1.modLocal l fun x => { x with
    negotiated := false, pausedBy := none, macq := [], busyTo := s.now, holdBy := some (s.now + x.cfg.holdMs * 1000000) }
  let s3 := allTen.foldl (fun s t =>
    if laneOf (s.ten t).cfg.transport = some l then s.modTen t fun x => { x with att.chalAt := none } else s) s2
  let s4 := if any && !s3.anyLink then { s3 with power.idle.lnl := s3.now } else s3
  if up then s4.raise (Fin.ofNat 256 (0x44 + l.val)) 0 else s4

/-- A local lane is lost if it was up or coming up. -/
def State.dropLocal (s : State) (l : Fin 2) : State :=
  let p := s.phy (localIx l)
  if p.lock || p.good then s.localDown l else s

/-- Every lane loses lock (R316). -/
def State.lanesDark (s : State) : State := (((s.darkLane 0).darkLane 1).dropLocal 0).dropLocal 1

end Sys2Proof.Machine
end

