-- ==== Sys2Proof/Machine/DomUnit.lean ====
section
/-!
DEFINITION. What a power domain's loss and return do to the units in it (Table 3.1, R63, R64, R372), the
blockers of the units (Table 3.3), and the units at a chip-scope start (Table 4.5, R416) and a wake.
-/

namespace Sys2Proof.Machine

/-! ### Work and blockers -/

/-- `T_DUSK` is idle (Table 3.2); a burst that carries no packet, slot frame or LMM but a `SLEEP_REQ` is no work. -/
def State.workIdle (s : State) : Bool :=
  s.buffered == 0 && s.cip.jobs == [] && s.cip.decq == [] && s.cip.sealq == [] && s.firn.jobs == []
    && s.us.gs.toList.all (fun x => x.undo == [] && x.bursts.all fun b => b.takes == [] && b.slotTake.isNone && b.lmm.all (·.type == 0x84))
    && allTen.all fun t => (List.finRange 8).all fun n => (s.slot t n).phase != .running

/-- A Firn job is queued (R80). -/
def State.firnWaiting (s : State) : Bool := s.firn.jobs != []

/-- The blockers of the units (Table 3.3), in the table's order, with their statuses. -/
def State.unitBlockers (s : State) : List (Bool × Half) :=
  [(s.audOpen, Status.state), (s.firn.jobs != [], Status.state), (s.nvm.upd != [], Status.busy),
   (s.pars.staging.isSome || s.pars.pause.isSome, Status.busy), (s.ceilPending, Status.state),
   (s.lanes.prot.holdBy.isSome, Status.busy)]

/-- The first blocker of the units that applies. -/
def State.unitBlocker (s : State) : Option Half := (s.unitBlockers.find? (·.1)).map (·.2)

/-- The first blocker of the units that `FORCE` cannot clear. -/
def State.unitHardBlocker (s : State) : Option Half :=
  if s.ceilPending then some Status.state else if s.lanes.prot.holdBy.isSome then some Status.busy else none

/-- The rule edit session or PAUSE update rolled back (Table 3.3): the commit that waits posts `ABORTED`. -/
def State.rollBackRules (s : State) : State :=
  let s1 := match s.pars.pause with
    | some p => if p.orphan then s else s.done p.ten p.slot Status.aborted
    | none => s
  ({ s1 with pars.pause := none } : State).discardStaging

/-- The forcible actions of Table 3.3: ports ramp and their leases are revoked, jobs and updates stop, the
edit session rolls back. -/
def State.clearForcible (s : State) : State :=
  let ids := [1, 2, 3, 4, 5].filter fun id => (s.holder id).isSome
  let s1 := ids.foldl (fun s id => match s.holder id with
    | some t => (s.revoke id).tellRevoked t id 2
    | none => s) s
  let s2 := [1, 2, 3, 4, 5].foldl (fun s id => s.closeLease id) s1
  let s3 := s2.stopJobs none 1
  let s4 := s3.nvm.upd.foldl (fun s u => s.stopUpdate u.region) s3
  s4.rollBackRules

/-! ### Domains off and on -/

/-- The position a channel keeps as its lane goes off in NIGHT (R69): that of a confirmed SYNC and alignment, else the
one it kept before. -/
def Chan.keep (c : Chan) : Option (Nat × Nat × Nat) :=
  if c.st == .sync && c.aligned && c.ref.isSome then some (c.k, c.start, c.mfi) else c.kept

/-- A fibre lane without power: no lock, no event, and it starts anew from its reset (R184). In NIGHT the position of its
channel is kept and its defects are not evaluated (R69). -/
def State.offLane (s : State) (l : Fin 2) : State :=
  let night := s.power.pstate == .night && l == s.lanes.prot.active
  let s1 := s.modPhy (fibreIx l) fun p => { p with
    lock := false, good := false, lost := false, qualBy := none, seen := false }
  let s2 := s1.modChan l fun c => { c with
    st := .hunt, fawRun := 0, aligned := false, ref := none, count := 0, miss := 0, window := [], rx := {}
    kept := if night then c.keep else none, lofFrom := if night then none else some s.now }
  if night then s2 else { s2 with
    lanes.prot := { s2.lanes.prot with fit := s2.lanes.prot.fit.set l false, bothLost := false }
    reg := { s2.reg with
      shotOut := s2.reg.shotOut.set l false, again := s2.reg.again.set l false, rangeShot := s2.reg.rangeShot.set l [] } }

/-- A local lane without power: its link is lost, and it starts anew from its reset (R184, R190). -/
def State.offLocal (s : State) (l : Fin 2) : State :=
  (s.dropLocal l).modPhy (localIx l) fun p => { p with lock := false, lost := false, seen := false }

/-- A domain loses power or goes into reset, with what its units hold. -/
def State.powerOff (s : State) (d : Dom) : State :=
  let s1 : State :=
    if d = dINF then s.firnOff
    else if d = dAUD then s.audOff
    else if d = dLNL then (s.offLocal 0).offLocal 1
    else if d = dLNA then (s.cutBurst.offLane 0).offLane 1
    else if d = dFRM then
      { s with fr.ch := s.fr.ch.map fun c => { c with hdr := [], hdrCap := 0 } }
    else if d = dPKT then
      let s2 := (s.withdrawAll).cutBurst
      let s3 := ({ s2 with cip.sealq := [] } : State).freeCores CoreWork.isSeal
      (List.finRange 8).foldl (fun s g => s.undo g) s3 |>.stopParser |>.powerFlush
    else if d = dCIP then
      let s2 := s.dropContexts
      { s2 with cip := { s2.cip with
          decq := [], sealq := [], run := Vector.replicate 2 none, jobs := s2.cip.jobs.map fun j => { j with started := false } } }
    else if d = dMEM then ({ s with sram := [] } : State).firnUnload.lostShadow
    else if d = dCTL then
      { s with
        tenants := s.tenants.map fun x => { ({} : Tenant) with cfg := x.cfg, base := x.base }
        mbx := { ({} : Mbx) with nextOrder := s.mbx.nextOrder }
        evt := { srcs := s.evt.srcs.map fun x => { x with latch := none }, directed := [] }
        us := { s.us with lmmq := [] } }
    else s
  s1.setDom d .off

/-- Several domains switched off with their units. -/
def State.powerOffAll (s : State) (ds : List Dom) : State := ds.foldl (·.powerOff ·) s

/-- Domains have come back: key contexts are loaded again (R74), and Firn's constants copied (R434). -/
def State.unitsOn (s : State) (ds : List Dom) : State :=
  let s1 := if ds.contains dCIP then s.reloadKeys else s
  if ds.contains dINF then s1.firnNext else s1

/-! ### GLACIER and PERMAFROST -/

/-- Step 4 of R64 for GLACIER: time goes to the timekeeper, and PLL-A stops (R289, R322). -/
def State.handTime (s : State) : State := s.timeToGlacier.clockToGlacier

/-- The units after the logic step of a wake from GLACIER: the FRC starts anew (R289), activation is in
LISTEN (Table 10.2), and SRAM that a failed memory step lost is clear (R75). -/
def State.resumeGlacier (s : State) : State :=
  let s1 := s.timeFromGlacier
  let s2 : State := if s1.power.memLost then (({ s1 with sram := [], power.memLost := false } : State).firnUnload).lostShadow
    else s1
  { s2 with reg := { s2.reg with st := .listen, skip := 0, attempts := 0 } }

/-! ### The retired terminal (R416, R418) -/

/-- The erase of R418, steps 3 to 5: slots 8 to 63 emptied, the owner key's copies erased, zeros over the
config region and the tenant regions. -/
def State.eraseRetired (s : State) : State :=
  { s with
    keys.slots := Vector.ofFn fun i => if i.val < 8 then s.keys.slots[i] else s.keys.slots[i].emptied
    fsec := { s.fsec with keys := Vector.replicate 2 none, erased := true }
    ens := (s.ens.clear 0x600000 0x40000).clear 0x640000 0x80000
    store := { bands := s.store.bands, absent := s.store.absent, laneMac := s.store.laneMac } }

/-- The retired binding (R416): SPI0 to SPI3 belong to T1 to T4 with DIAG and CLOCK. -/
def retiredCfg (t : Ten) : TenCfg :=
  if 1 ≤ t.val ∧ t.val ≤ 4 then { transport := BitVec.ofNat 8 (0x0F + t.val), auth := 0x180 } else {}

/-- What a RETIRED terminal does at every boot, before `MBX_READY`. -/
def State.bootRetired (s : State) : State :=
  if s.fuses.life ≠ .retired then s else
  let s1 := if s.fsec.erased then s else s.eraseRetired
  { s1 with tenants := Vector.ofFn fun t => { s1.ten t with cfg := retiredCfg t } }

/-! ### A chip-scope start (Table 4.5, steps 11 to 18) -/

/-- The units as Nergor sets them from the config region. -/
def State.bootUnits (s : State) : State :=
  let s1 := s.bootRetired.bootNonces.clockBoot
  let c := s1.store
  let s2 : State := { s1 with
    clk := { s1.clk with lock := true, coast := false, refOk := true }
    time.cfg := c.time.getD {}
    lanes := { s1.lanes with
      prot := { s1.lanes.prot with cfg := c.prot.getD {} }
      locals := c.locals.map fun l => { cfg := l.getD {} } }
    us.gs := c.depth.map fun d => { depth := d.getD 2 }
    tm := { ({} : Traffic) with
      queues := Vector.ofFn fun q => { cfg := c.queues[q].getD (QueueCfg.default q.val), creditAt := s1.now }
      map := Vector.ofFn fun q => c.map[q].getD (QMap.default q)
      policers := c.policers.map fun p => ({} : Policer).write (p.getD {}) s1.now
      buf := c.buf.getD {} } }
  { s2 with
    pars := Parser.boot c.rules (c.slowDeadline.getD 500) s.now
    aud := { s2.aud with fs := c.fs.getD 2, ports := c.audio.map fun a => { cfg := a.getD {} } } }

/-- The domains a terminal powers once it serves commands: never PD_LNA in RETIRED (R415). -/
def State.allowedDoms (s : State) (ds : List Dom) : List Dom :=
  if s.fuses.life = .retired then ds.filter (· != dLNA) else ds

/-! ### Debug attach (R421) -/

/-- An attach at SLUSH opens a trace session while PD_CTL is on. -/
def State.debugAttached (s : State) : State :=
  if s.ao.dbg.level = 1 ∧ s.domOn dCTL then { s with sec.trace := true } else s

/-- `TRST_N` falls: the trace session ends, and the test access port is held in reset (Table 2.8). -/
def State.debugDetached (s : State) : State := { s with sec.trace := false, sec.tap := .idcode }

end Sys2Proof.Machine
end

