-- ==== Sys2Proof/Machine/Wake.lean ====
section
/-!
DEFINITION. Wake sequences (R73 to R77, Table 3.5), the always-on watch (R177 to R179), NIGHT exit
triggers (R72), the voltage changes of R79 and R524, and chip resets (R87, Table 4.1).
-/

namespace Sys2Proof.Machine

/-! ### Voltage, bias and assist (R49, R79, R524) -/

/-- A voltage code goes out on port PM, to the address and the register of the config region (R48, R49). -/
def State.sendPmic (s : State) (code : Nat) : State :=
  { s.emit (.pmic s.store.pmicAddr s.store.pmicReg code) with tw.active := some .pm, tw.since := s.now }

/-- A change of VDD_CORE begins: its first code goes onto the PMIC link. -/
def State.startPmic (s : State) (codes : List Nat) (why : PmicWhy) : State :=
  match codes with
  | [] => s
  | c :: _ => { s.sendPmic c with power.pmic := some { codes := codes, why := why } }

/-- The domains DUSK keeps gated (Table 3.1). -/
def gatedDoms : List Dom := [dCTL, dFRM, dPKT, dCIP, dNVM]

/-- Work arrives (R56): DUSK goes to NOON, where the clocks return and then code 30 is written (R79). While a change to
the DUSK point is under way the work is noted, and NOON follows the change. -/
def State.toNoon (s : State) : State :=
  if s.power.entry.isSome then s else
  match s.power.pmic with
  | none => if s.power.pstate = .dusk then (s.setDoms gatedDoms .on).startPmic [30] .toNoon else s
  | some op =>
    if (op.why = .toDusk ∧ s.power.pstate = .noon) ∨ (op.why = .glacierWake ∧ s.power.pstate = .dusk) then
      { s with power.workDue := true }
    else s

/-- NOON to DUSK (R79): both assists on, then code 16. -/
def State.toDusk (s : State) : State :=
  ({ s with power.rdAssist := true, power.wrAssist := true } : State).startPmic [16] .toDusk

/-- To the boost point (R79, R80): code 50 from NOON, codes 36 and 50 from DUSK. -/
def State.toBoost (s : State) : State :=
  if s.power.pmic.isSome then s else
  if s.power.pstate = .noon then s.startPmic [50] .toBoost
  else if s.power.pstate = .dusk then (s.setDoms gatedDoms .on).startPmic [36, 50] .toBoost
  else s

/-- What the boost point asks for (R78, R80): the policy AUTO, and a junction estimate within the window of forward bias,
with no hold after a departure for heat. -/
def Power.boostOk (p : Power) : Bool := p.boostAuto && !p.thermalHold && p.tj ≤ 380

/-- The boost point is sought while the policy is AUTO and a job is queued, below the limits of R80. -/
def State.seekBoost (s : State) : State :=
  if s.power.boostOk ∧ s.firnWaiting then s.toBoost else s

/-- The departure from the boost point at a layer boundary (R79): Firn clock, then bias, then code 30. -/
def State.fromBoost (s : State) : State :=
  if s.power.pstate = .boost ∧ s.power.pmic = none then
    ({ s with power.firnFull := false, power.fwdBias := false, power.leaveBoost := false } : State
    ).startPmic [30] .fromBoost
  else { s with power.leaveBoost := false }

/-- The boost point is left: at once, or at the layer boundary of the job that runs (R79). -/
def State.leaveBoost (s : State) : State :=
  if s.power.pstate ≠ .boost then s
  else if s.firnBusy then { s with power.leaveBoost := true } else s.fromBoost

/-- DUSK is sought after a cancelled entry (R65): from the boost point by way of NOON, and after a change of point under
way. Work that is present keeps the terminal out of DUSK (R56). -/
def State.seekDusk (s : State) : State :=
  if !s.workIdle ∨ s.power.pstate = .dusk ∧ s.power.pmic = none then s
  else if s.power.pstate = .noon ∧ s.power.pmic = none then s.toDusk
  else ({ s with power.duskDue := true } : State).leaveBoost

/-! ### Wake sequences -/

/-- The domains a wake switches on. -/
def wakeDoms (s : State) (k : WakeKind) : List Dom :=
  s.allowedDoms (wants k)
where
  /-- What the kind of wake asks for. -/
  wants : WakeKind → List Dom
  | .powerOn => [dTKP, dCTL, dMEM, dPLL, dNVM]
  | .rstRelease => [dTKP, dCTL, dMEM, dPLL, dNVM]
  | .permafrost => [dTKP, dCTL, dMEM, dPLL, dNVM]
  | .glacier => [dCTL, dMEM, dPLL, dLNA, dLNL, dFRM, dPKT, dCIP, dNVM, dAUD]
  | .listen => [dLNA, dFRM].filter fun d => !s.domOn d
  | .nightExit => [dMEM, dLNA, dLNL, dFRM, dPKT, dCIP, dNVM, dAUD].filter fun d => !s.domOn d
  | .domains ds => ds

/-- Whether a wake is a chip-scope start (R75). -/
def WakeKind.chip : WakeKind → Bool
  | .powerOn | .rstRelease | .permafrost => true
  | _ => false

/-- The level of `RAIL_OK`. -/
def State.railHigh (s : State) : Bool := s.pads.railOk && s.pads.railLowTo ≤ s.now

/-- The ready signals a step of Table 3.5 waits for; a step skips what is already in condition (R73). Where
`PWR_EN_AUX` is high already, `RAIL_OK` is sampled before `PWR_EN_MAIN` rises (Table 2.5), and a crystal that runs is
not started again. -/
def stepSignals (s : State) (k : WakeKind) (doms : List Dom) : Nat → List ReadySig
  | 1 =>
    let main := (k.chip || k == .glacier) && !s.pads.enMain
    (if main && !(s.pads.enAux && s.railHigh) then [.railAux] else [])
      ++ (if main then [.railMain] else []) ++ doms.map .psw
  | 2 => (if doms.contains dPLL then [.refOk] else []) ++ (if k.chip && !s.pads.xtal then [.xtOk] else [])
  | 3 => if doms.contains dPLL then [.pllaLock] else []
  | 4 => if doms.contains dMEM then [.memOk] else []
  | 5 => doms.map .rstAck
  | _ => []

/-- The enable of a regulator signal that is low rises when the signal comes to be awaited (R35): `PWR_EN_AUX` 1.0 ms
after the start, `PWR_EN_MAIN` 0.5 ms after `RAIL_OK` where the sequence raised `PWR_EN_AUX` (Table 2.5). `PWR_EN_MAIN`
rising brings the regulator up at code 30, and both assists come out of reset on (R524). -/
def State.raiseEnable (s : State) (raised : List ReadySig) : ReadySig → State
  | .railAux =>
    if s.pads.enAux then s else
    let t := s.now + 1000000
    { s with now := t, pads.enAux := true, pads.enRise := t, pads.railOk := false }
  | .railMain =>
    if s.pads.enMain then s else
    let t := s.now + if raised.contains .railAux then 500000 else 0
    { s with now := t, pads.enMain := true, pads.enRise := t, pads.railOk := false, ao.vcode := 30,
             power.rdAssist := true, power.wrAssist := true }
  | _ => s

/-- The enable that a regulator signal raises, where it is low. -/
def State.raises (s : State) (sig : ReadySig) : Bool :=
  (sig == .railAux && !s.pads.enAux) || (sig == .railMain && !s.pads.enMain)

/-- The first step from a number on that has something to wait for; 6 when none has. -/
def firstStep (s : State) (k : WakeKind) (doms : List Dom) : Nat → Nat → Nat × List ReadySig
  | 0, n => (n, [])
  | f + 1, n => if stepSignals s k doms n = [] then firstStep s k doms f (n + 1) else (n, stepSignals s k doms n)

/-- A wake sequence starts (R73). -/
def State.startWake (s : State) (k : WakeKind) (src : PState) (pins : BitVec 4) : State :=
  let doms := wakeDoms s k
  let (n, w) := firstStep s k doms 5 1
  let s0 := if n = 3 ∧ k = .glacier then s.beginWakeSearch else s
  let s1 := match w with
    | sig :: _ => s0.raiseEnable [] sig
    | [] => s0
  let raised := (w.take 1).filter s.raises
  { s1 with power.wake := some (WakeSeq.mk k src n w doms raised s.now pins) }

/-- A chip-scope start begins (R87, R100): the image write-lock is clear. With every enable high no wake sequence runs
(R37): the ROM's domains are on and the ROM runs (R96), and the release of reset is here; `State.markRelease` sets it
again where regulator or oscillator steps come first (log entry 411). -/
def State.startChip (s : State) (k : WakeKind) (pins : BitVec 4) : State :=
  let s1 : State := { s with ao.imageLock := none, boot.releaseAt := s.now }
  if s1.pads.enAux && s1.pads.enMain then
    { s1.setDoms [dTKP, dCTL, dMEM, dPLL, dNVM] .on with boot.phase := .rom, power.pstate := .noon }
  else ({ s1 with boot.phase := .waking } : State).startWake k .permafrost pins

/-- Power-down (R39): `PWR_EN_MAIN` falls first, `PWR_EN_AUX` 2 ms later; the crystal stops. -/
def State.enablesDown (s : State) : State :=
  { s with pads.enMain := false, pads.enAux := false, pads.railOk := false, pads.xtal := false
           now := if s.pads.enAux || s.pads.enMain then s.now + 2000000 else s.now }

/-- Domains that are off are switched on through the internal steps of the wake order (R56), after the
sequence under way if there is one. -/
def State.wakeDomains (s : State) (ds : List Dom) : State :=
  let need := (s.allowedDoms ds).filter fun d => s.dom d == .off
  if need = [] then s else
  match s.power.wake with
  | some w =>
    let more := need.filter fun d => !w.doms.contains d && !s.power.wakeQueue.contains d
    { s with power.wakeQueue := s.power.wakeQueue ++ more }
  | none => s.startWake (.domains need) s.power.pstate 0

/-- `NIGHT_EXIT` is due with a cause (R72): several cause bits join in one message while it waits. -/
def State.tellExit (s : State) (cause : Byte) : State :=
  let bits := s.power.night.exitCause ||| cause
  let body := [bits]
  let s1 : State := { s with power.night.exitCause := bits, power.night.exitPending := true }
  if !s.power.night.exitPending then s1.queueLmm 0x85 body else
  let fix (x : LmmOut) : LmmOut := if x.type = 0x85 then { x with body := body } else x
  { s1 with us := { s1.us with
      lmmq := s1.us.lmmq.map fix
      gs := s1.us.gs.map fun g => { g with bursts := g.bursts.map fun b => { b with lmm := b.lmm.map fix } } } }

/-- A trigger of R72 in NIGHT, or between `SLEEP_GRANT` and the anchor: `NIGHT_EXIT` is due with its
cause bits, once for one exit, and the NIGHT-to-DUSK wake starts unless it already runs. -/
def State.nightTrigger (s : State) (cause : Byte) (pins : BitVec 4 := 0) : State :=
  if s.power.pstate = .night then
    let told := if s.power.night.exiting && !s.power.night.exitPending then s else s.tellExit cause
    let s1 := { told with power.night.granted := false, power.night.exiting := true }
    match s1.power.wake with
    | some w =>
      if w.kind = .nightExit then { s1 with power.wake := some { w with pins := w.pins ||| pins } }
      else s1.startWake .nightExit .night pins
    | none => s1.startWake .nightExit .night pins
  else if s.power.night.granted then
    { s.tellExit (cause ||| 0x08) with power.night.granted := false, power.idle.night := s.now }
  else s

/-- An entry is cancelled by a wake trigger before the commit point (R65): the terminal goes to DUSK, sessions that have
ended stay ended, the T0 session opens again, and `WAKE_SRC` tells the source. -/
def State.cancelEntry (s : State) : State :=
  match s.power.entry with
  | some e =>
    if e.target = .chipReset then s else
    let s1 := ({ s with power.entry := none, power.idle.night := s.now } : State).seekDusk
    let s2 := if e.stage = .notice then s1 else s1.openOwner
    { s2 with power.wakeSrc := s2.ao.pend, ao.pend := 0, ao.stamps := [] }
  | none => s

/-- Whether a wake source counts for a new attempt (R76): a pin that failed a wake has to be inactive
first; every other source asserts anew by a new frame, alarm or edge. -/
def State.freshSource (s : State) (src : Fin 32) : Bool := 4 ≤ src.val || !s.ao.spent.getLsbD src.val

/-- The priority of a cause code (Table 4.4). -/
def causePrio (c : Nat) : Nat :=
  match c with
  | 0x01 => 1 | 0x03 => 2 | 0x02 => 3 | 0x08 => 4 | 0x05 => 5 | 0x06 => 6 | 0x04 => 7 | 0x07 => 8
  | 0x0A => 9 | 0x09 => 10 | _ => 11

/-- The cause of a start under way, the higher priority kept (R92); wake pins of one PERMAFROST wake join (Table 4.3). -/
def mergeCause (old : Option (Nat × Nat)) (c : Nat × Nat) : Nat × Nat :=
  match old with
  | some o =>
    if o.1 = 0x09 ∧ c.1 = 0x09 then (0x09, o.2 ||| c.2) else if causePrio o.1 ≤ causePrio c.1 then o else c
  | none => c

/-- The wake pin of an AO source, as a bit; zero for a source that is no pin. -/
def pinBit (src : Fin 32) : BitVec 4 := if src.val < 4 then 1#4 <<< src.val else 0

/-- A wake pin triggers the wake from PERMAFROST (R35, R76, R91): with `RST_N` low every enable keeps its value, and
nothing starts. -/
def State.frostTrigger (s : State) (src : Fin 32) : State :=
  let s1 : State := { s with boot.cause := some (mergeCause s.boot.cause (0x09, (pinBit src).toNat)) }
  match s.power.wake with
  | some w => if w.kind = .permafrost then { s1 with power.wake := some { w with pins := w.pins ||| pinBit src } } else s
  | none =>
    if s.boot.phase = .held && s.freshSource src then ({ s1 with ao.dbg := {} } : State).startChip .permafrost (pinBit src)
    else s

/-- A source of the AO-watch set acts as a wake trigger (R65, R72, R178), while `RST_N` and VBAT let the terminal out of
reset. -/
def State.wakeTrigger (s : State) (src : Fin 32) : State :=
  if !s.pads.rstN ∨ !s.pads.powered then s
  else if s.power.pstate = .night ∨ s.power.night.granted then
    if s.freshSource src then s.nightTrigger (if src.val = 8 then 0x04 else 0x02) (pinBit src) else s
  else if s.power.entry.isSome then s.cancelEntry
  else match s.power.pstate with
    | .glacier => if s.power.wake.isSome || !s.freshSource src then s else s.startWake .glacier .glacier (pinBit src)
    | .permafrost => if src.val < 4 then s.frostTrigger src else s
    | _ => s

/-- Whether a watched source can assert in the present state (Table 7.4). -/
def State.aoSees (s : State) (src : Fin 32) : Bool :=
  if 9 ≤ src.val ∧ src.val ≤ 12 then s.ballActs (.csN (Fin.ofNat 4 (src.val - 9)))
  else if src.val = 13 ∨ src.val = 14 then s.ballActs (.optics (Fin.ofNat 2 (src.val - 13)))
  else if src.val = 15 then s.ballActs .trstN && (s.power.pstate != .glacier || s.ao.debugOpen)
  else s.power.pstate != .permafrost || src.val < 4

/-- The entry steps of R64 have begun. -/
def State.leaving (s : State) : Bool :=
  match s.power.entry with
  | some e => e.stage != .notice
  | none => false

/-- An assertion kept in `AO_PEND` (R166, R175, R179): its stamp is the timekeeper's, or zero and ESTIMATED in
PERMAFROST; a later one replaces the data. -/
def State.latchAo (s : State) (src : Fin 32) (data : Word) : State :=
  let l : Latch := if s.power.pstate = .permafrost then { tt := 0, est := true, data := data }
    else { tt := s.ttNs, est := s.ttEst, data := data }
  { s with
    ao.pend := s.ao.pend ||| (1#32 <<< src.val)
    ao.stamps := if s.ao.stamps.any (·.1 == src) then
        s.ao.stamps.map fun p => if p.1 == src then (src, { p.2 with data := data }) else p
      else s.ao.stamps ++ [(src, l)] }

/-- An AO-capable source asserts: the router takes it while PD_CTL is on (R166), `AO_PEND` keeps it from the entry
steps on and while PD_CTL is off (R179, chapter 07, "At the edges"), and a member of the AO-watch set is a wake trigger (R178). -/
def State.aoAssert (s : State) (src : Fin 32) (data : Word) : State :=
  let s1 := if s.domOn dCTL then s.raise (Fin.ofNat 256 src.val) data else s
  if s.wakeCfg.set.getLsbD src.val && s.aoSees src then
    let s2 := if s.domOn dCTL && !s.leaving then s1 else s1.latchAo src data
    s2.wakeTrigger src
  else s1

end Sys2Proof.Machine
end

