-- ==== Sys2Proof/Machine/Reset.lean ====
section
/-!
DEFINITION. Chip resets and power-on resets (R87, R88, Table 4.1): what survives, and how a start
begins.
-/

namespace Sys2Proof.Machine

/-- A tenant after a chip-scope start: its binding and shares stand, its session has ended, and the
persisted partition size applies (R137, R151). -/
def Tenant.restarted (x : Tenant) (part : Nat) : Tenant :=
  { ({} : Tenant) with cfg := { x.cfg with part := part }, base := x.base }

/-- Every tenant after a chip-scope start. -/
def State.restartedTenants (s : State) : Vector Tenant 8 :=
  Vector.ofFn fun t => (s.ten t).restarted s.store.parts[t]

/-- Lines, wear and remap through a reset: they are non-volatile, the counts are not (R404, R407). -/
def Ens.restarted (x : Ens) : Ens := { x with eccCorr := 0, remaps := 0 }

/-- The state a chip-scope reset leaves, whatever its source (Table 4.1): ENS contents, key store,
lifecycle, PD_AO and the board survive; every other unit is at its reset value. -/
def State.resetUnits (s0 : State) : State :=
  let s := s0.cutUpdates
  { ({} : State) with
    pending := s.pending, now := s.now, rand := s.rand, free := s.free, out := s.out
    ao := { s.ao with dbg := {} }, icb := s.icb, store := s.store, ens := s.ens
    keys := s.keys, nvm := s.nvm.restarted, fuses := s.fuses, fsec := s.fsec
    tenants := s.restartedTenants
    time := { epoch := s.now }
    clk := { lock := s.clk.lock, refOk := s.clk.refOk }
    pads := { s.pads with txdisLow := 0, txdisFault := 0, gpioIn := 0, strap := s.pads.gpio.getLsbD 0 }
    power := { ({} : Power) with
      dom := (Vector.replicate 13 .held).set 0 .on
      rdAssist := s.ao.vcode ≤ 36, wrAssist := s.ao.vcode ≤ 36
      cfg := s.store.timers.getD {}, wcfg := s.ao.cfg, tj := s.power.tj, faultPend := s.power.faultPend }
    boot := { ({} : Boot) with phase := .held } }

/-- The record a boot writes at a chip-scope start (R91). DESIGN CHOICE (log entry 412): after a power-on reset, which
clears the record, `PREV_CAUSE` is 0x00. -/
def ResetRec.start (r : ResetRec) (cause detail : Nat) (strap : Bool) : ResetRec :=
  { r with
    prev := r.cause, cause := BitVec.ofNat 8 cause, detail := BitVec.ofNat 8 detail, scopeLast := 0,
    core0 := 0, core1 := 0, chipCount := satInc 65535 r.chipCount, skip := 0,
    flags := BitVec.ofNat 8 (b2n strap) }

/-- A start that a reset cuts in the ROM has its record (R91): the next start is one of its own (log entry 413). -/
def State.recordCut (s : State) : State :=
  match s.boot.phase, s.boot.cause with
  | .rom, some c => { s with ao.rst := s.ao.rst.start c.1 c.2 s.pads.strap, boot.cause := none }
  | _, _ => s

/-- A chip reset (Table 4.1): the debug level returns to FROZEN, the image write-lock clears, and the
start follows at once unless `RST_N` holds it. -/
def State.chipReset (s0 : State) (cause detail : Nat) : State :=
  let s := s0.recordCut
  let c := mergeCause s.boot.cause (cause, detail)
  let s1 := s.resetUnits
  let s2 := { s1 with ao.imageLock := none, boot.cause := some c, boot.releaseAt := s.now, boot.wdt0 := s.boot.wdt0 }
  if !s2.pads.rstN || !s2.pads.powered then s2 else s2.startChip .rstRelease 0

/-- A power-on reset (R38, Table 4.1): PD_AO and the backup registers are cleared too, and the wake
sequence of Table 2.5 starts unless `RST_N` holds it. -/
def State.powerOnReset (s : State) (mv : Nat) : State :=
  let s1 := s.resetUnits
  let s2 : State := { s1 with
    ao := {}
    pads := { s1.pads with vbatMv := mv, powered := true, enAux := false, enMain := false, railOk := false, xtal := false }
    power := { s1.power with wcfg := {}, rdAssist := true, wrAssist := true, faultPend := false }
    boot := { s1.boot with cause := some (1, 0), releaseAt := s.now } }
  if s2.pads.rstN then s2.startChip .powerOn 0 else s2

end Sys2Proof.Machine
end

