-- ==== Sys2Proof/Machine/Window.lean ====
section
/-!
DEFINITION. The mailbox window (R107, Table 5.1): what each offset reads, what each write does, the
doorbell and the acknowledgement (R122), the posted writes of an SPI port (R114, R115).
-/

namespace Sys2Proof.Machine

/-- The 64 bytes a result slot reads (Table 5.7, R123). -/
def Slot.resultBytes (x : Slot) : List Byte :=
  match x.phase with
  | .empty => leBytes 4 3 ++ List.replicate 60 0
  | .ready =>
    leBytes 2 x.status.toNat ++ leBytes 2 x.seq ++
    leBytes 4 (x.data.length * 2 ^ 24 + b2n x.bulkOut * 4096 + b2n x.restart * 2048
      + b2n x.timedOut * 1024 + b2n x.late * 512 + b2n (2 ≤ x.readCount) * 256 + x.readCount)
      ++ field x.data 0 56
  | _ => leBytes 2 2 ++ leBytes 2 x.seq ++ List.replicate 60 0

/-- The 16 bytes of an event record (Table 5.8). -/
def EvtRec.bytes (r : EvtRec) : List Byte :=
  leBytes 2 r.code.toNat ++ [r.vid, r.flags] ++ leBytes 4 r.tt ++ leBytes 2 (r.tt / 2 ^ 32)
    ++ leBytes 2 r.data.toNat ++ leBytes 2 (r.data.toNat / 65536) ++ leBytes 2 r.seq.toNat

/-- `MBX_ID` (Table 5.1). -/
def mbxId (s : State) (t : Ten) : Nat :=
  t.val * 2 ^ 28 + 1 * 2 ^ 24 + 4 * 2 ^ 16 + Config.fwMinor.toNat * 256 + (s.ten t).session.toNat % 256

/-- `MBX_ID` of a port or lane bound to no tenant (R107). -/
def mbxIdUnbound : Nat := 15 * 2 ^ 28 + 1 * 2 ^ 24 + 4 * 2 ^ 16 + Config.fwMinor.toNat * 256

/-- The registers of a tenant's window, 0x000 to 0x023. -/
def regBytes (s : State) (t : Ten) : List Byte :=
  let x := s.ten t
  leBytes 4 (mbxId s t) ++ leBytes 4 (mbxStatus s.boot.mbxReady x) ++ leBytes 8 0
    ++ leBytes 4 x.win.cpri.toNat ++ leBytes 4 x.win.head.toNat ++ leBytes 4 x.win.tail.toNat
    ++ leBytes 4 (x.win.bulkBase.toNat * 256) ++ leBytes 4 x.win.beat.toNat

/-- The partition offset an aperture offset maps to (Table 5.1). -/
def Tenant.bulkOff (x : Tenant) (off : Nat) : Nat := x.win.bulkBase.toNat * 256 + (off - 0x900)

/-- Whether a partition offset lies in the output range of a cipher job that has not posted: its contents are then
undefined (R376). -/
def State.inJobOut (s : State) (t : Ten) (a : Nat) : Bool :=
  s.cip.jobs.any fun j =>
    let x := if j.orphan then j.cmd else s.slot t j.slot
    let ps := s.paramsOf t x
    let out := leAt ps 12 4
    j.ten == t && (x.opcode == 0x0B02 || x.opcode == 0x0B03 || x.opcode == 0x0B04) && out ≤ a && a < out + leAt ps 8 4

/-- A byte of a tenant's partition as its aperture reads it. -/
def State.partByte (s : State) (t : Ten) (a : Nat) : Byte :=
  if s.inJobOut t a then Config.pendingByte s.free a else s.sram.get (s.partAddr t a)

/-- A byte of a command slot as it reads: the reserved bits of word 1 read zero (R8, Table 5.5). -/
def Slot.cmdByte (x : Slot) (i : Nat) : Byte :=
  let b := x.cmd.toList.getD i 0
  if i = 4 then b &&& 0x03 else b

/-- What a window offset reads; the aperture reads zero at and beyond the partition's end (R109). -/
def winByte (s : State) (t : Ten) (off : Nat) : Byte :=
  let x := s.ten t
  if off < 0x24 then (regBytes s t).getD off 0
  else if off < 0x100 then 0
  else if off < 0x300 then x.slots[(Fin.ofNat 8 ((off - 0x100) / 64) : Fin 8)].cmdByte ((off - 0x100) % 64)
  else if off < 0x500 then x.slots[(Fin.ofNat 8 ((off - 0x300) / 64) : Fin 8)].resultBytes.getD ((off - 0x300) % 64) 0
  else if off < 0x900 then x.ring[(Fin.ofNat 64 ((off - 0x500) / 16) : Fin 64)].bytes.getD ((off - 0x500) % 16) 0
  else if off < 0x1000 ∧ x.bulkOff off < s.partBytes t then s.partByte t (x.bulkOff off)
  else 0

/-- The window of a port or lane bound to no tenant, and every window before `MBX_READY`, reads only
`MBX_ID` and `MBX_STATUS` (R96, R107). -/
def plainByte (s : State) (t : Option Ten) (off : Nat) : Byte :=
  let id := match t with
    | some u => mbxId s u
    | none => mbxIdUnbound
  (leBytes 4 id ++ leBytes 4 (b2n s.boot.mbxReady * 2 ^ 31)).getD off 0

/-- Slots whose byte 0x00 lies in a range: each counts the read (R123). -/
def readCounts (off len : Nat) : List SlotIx :=
  (List.finRange 8).filter fun n => off ≤ 0x300 + 64 * n.val && 0x300 + 64 * n.val < off + len

/-- A read of a result slot is counted while it is READY (R123). -/
def Slot.counted (x : Slot) : Slot :=
  if x.phase = .ready then { x with readCount := satInc 255 x.readCount } else x

/-- The R96 notice and the repeats of R119 and R176 end at a read of `MBX_STATUS`. -/
def State.statusSeen (s : State) (via : Via) : State :=
  let s1 := match via with
    | .spi p => { s with mbx.ports := s.mbx.ports.set p { s.mbx.ports[p] with notice := false } }
    | _ => s
  match s.tenOf via with
  | some t => s1.modTen t fun x => { x with notice := false, statusRead := true, noticeBy := none }
  | none => s1

/-- The aperture wakes the terminal from NIGHT (R72), and an access that falls at or beyond the
partition's end sets `BULK_ERR` (R109). -/
def State.apertureUse (s : State) (t : Ten) (off len : Nat) : State :=
  let s1 := s.nightTrigger 0x02
  if len = 0 ∨ (s.ten t).bulkOff off + len ≤ s.partBytes t then s1
  else s1.flagTen t (·.bulkErr) fun w => { w with bulkErr := true }

/-- A read of the window: the bytes and the side effects (R109, R119, R123). -/
def readWindow (s : State) (via : Via) (off len : Nat) : List Byte × State :=
  match s.tenOf via with
  | some t =>
    if !s.boot.mbxReady then ((List.range len).map fun i => plainByte s (some t) (off + i), s) else
    let s1 := (readCounts off len).foldl (fun s n => s.modSlot t n Slot.counted) s
    let bs := (List.range len).map fun i => winByte s1 t (off + i)
    let s2 := if off < 8 ∧ 4 < off + len then s1.statusSeen via else s1
    let lo := max off 0x900
    let hi := min (off + len) 0x1000
    (bs, if lo < hi then s2.apertureUse t lo (hi - lo) else s2)
  | none =>
    ((List.range len).map fun i => plainByte s none (off + i),
      if off < 8 ∧ 4 < off + len then s.statusSeen via else s)

/-! ### Writes -/

/-- The core that serves a slot accepts new commands: CC1 slot 7, and CC0 in its place while CC1 is in reset (R25); CC0
accepts none while parts of a rescue wait for it (R162). -/
def State.accepts (s : State) (n : SlotIx) : Bool :=
  (n == 7 && s.boot.core1Up) || (s.boot.core0Up && s.mbx.residue == [])

/-- A doorbell for one slot (R122): an EMPTY slot becomes PENDING with its descriptor copied and its
time-out running from acceptance; a slot in any other state sets `RING_ERR`. -/
def State.ringSlot (s : State) (t : Ten) (n : SlotIx) : State :=
  let x := s.slot t n
  if x.phase = .empty then
    let up := s.accepts n
    let y := { x with desc := x.cmd }
    { s.setSlot t n { y with
        phase := if up then .accepted else .held, order := s.mbx.nextOrder, stop := none, aborters := []
        expired := false, abortAsked := false, core0 := n = 7 ∧ !s.boot.core1Up
        deadline := if up && y.timeout ≠ 0 then some (s.now + y.timeout * 1000000) else none }
      with mbx.nextOrder := s.mbx.nextOrder + 1 }
  else
    s.flagTen t (·.ringErr) fun w => { w with ringErr := true }

/-- A write to `DOORBELL`: its bits lowest slot first (R125); a doorbell ends the idle of `T_NIGHT`
and `T_GLACIER` and is a NIGHT exit trigger (R55, R72). -/
def State.doorbell (s : State) (t : Ten) (v : Nat) : State :=
  let s1 := { s with power.idle.night := s.now, power.idle.glacier := s.now }
  let s2 := s1.nightTrigger 0x02
  ((List.finRange 8).filter fun n => bit v n.val).foldl (fun s n => s.ringSlot t n) s2

/-- A write to `RESULT_ACK`: READY slots become EMPTY (R122). -/
def State.resultAck (s : State) (t : Ten) (v : Nat) : State :=
  ((List.finRange 8).filter fun n => bit v n.val).foldl
    (fun s n => if (s.slot t n).phase = .ready then s.modSlot t n fun x => { x with phase := .empty } else s) s

/-- A write to `MBX_STATUS`: ones clear bits [28:24], the interrupt enables take the value (Table 5.1).
An interrupt condition that this raises is announced. -/
def State.statusWrite (s : State) (t : Ten) (v : Nat) : State :=
  let s1 := s.modTen t fun x => { x with
    win.coreRestart := x.win.coreRestart && !bit v 28, win.evtOvf := x.win.evtOvf && !bit v 27,
    win.bulkErr := x.win.bulkErr && !bit v 26, win.ringErr := x.win.ringErr && !bit v 25,
    win.wbufOvf := x.win.wbufOvf && !bit v 24, win.irqRes := bit v 7, win.irqEvt := bit v 6 }
  if (s.ten t).irq then
    if (s1.ten t).irq then s1 else s1.modTen t fun x => { x with noticeBy := none }
  else s1.notify t

/-- A write to `EVT_TAIL` (R110): it moves forward by at most `HEAD` − `TAIL`, modulo 65,536. -/
def State.evtTail (s : State) (t : Ten) (v : Nat) : State :=
  let w := (s.ten t).win
  let step := BitVec.ofNat 16 v - w.tail
  if step ≤ w.head - w.tail then s.modTen t fun x => { x with win.tail := BitVec.ofNat 16 v } else s

/-- A write to `BULK_BASE` (R109): ignored unless it lies inside the partition. -/
def State.bulkBase (s : State) (t : Ten) (v : Nat) : State :=
  if bits v 8 14 * 256 < s.partBytes t then
    s.modTen t fun x => { x with win.bulkBase := BitVec.ofNat 14 (bits v 8 14) }
  else s

/-- A write to `HEARTBEAT` (R155): the watch restarts unless the tenant is FAULTED (R157). -/
def State.heartbeat (s : State) (t : Ten) (v : Nat) : State :=
  s.modTen t fun x =>
    if x.st = .faulted then { x with win.beat := BitVec.ofNat 32 v }
    else { x with win.beat := BitVec.ofNat 32 v, hbLast := s.now, hbFrom := x.hbFrom.map fun _ => s.now }

/-- A whole-word write to a register at 0x000 to 0x023 (R108). -/
def State.writeReg (s : State) (t : Ten) (r v : Nat) : State :=
  match r with
  | 0x004 => s.statusWrite t v
  | 0x008 => s.doorbell t v
  | 0x00C => s.resultAck t v
  | 0x010 => s.modTen t fun x => { x with win.cpri := BitVec.ofNat 4 v }
  | 0x018 => s.evtTail t v
  | 0x01C => s.bulkBase t v
  | 0x020 => s.heartbeat t v
  | _ => s

/-- A byte written to a command slot, taken only while the slot is EMPTY (R122). -/
def State.writeCmd (s : State) (t : Ten) (off : Nat) (b : Byte) : State :=
  s.modSlot t (Fin.ofNat 8 ((off - 0x100) / 64)) fun x =>
    if x.phase = .empty then { x with cmd := x.cmd.set (Fin.ofNat 64 ((off - 0x100) % 64)) b } else x

/-- A byte written to the bulk aperture (R109). -/
def State.writeBulk (s : State) (t : Ten) (off : Nat) (b : Byte) : State :=
  let a := (s.ten t).bulkOff off
  if a < s.partBytes t then { s with sram := s.sram.put (s.partAddr t a) b }
  else s.flagTen t (·.bulkErr) fun w => { w with bulkErr := true }

/-- One byte of a write below the registers' area or above it. -/
def State.writeByte (s : State) (t : Ten) (off : Nat) (b : Byte) : State :=
  if 0x100 ≤ off ∧ off < 0x300 then s.writeCmd t off b
  else if 0x900 ≤ off ∧ off < 0x1000 then s.writeBulk t off b
  else s

/-- A run of written bytes takes effect in increasing offset order: a register takes the four bytes
that cover it whole and nothing less (R108). -/
def State.writeRun (s : State) (t : Ten) : Nat → Nat → List Byte → State
  | 0, _, _ => s
  | _, _, [] => s
  | f + 1, off, b :: bs =>
    if off < 0x24 then
      if off % 4 = 0 ∧ 3 ≤ bs.length then
        (s.writeReg t off (leNat (b :: bs.take 3))).writeRun t f (off + 4) (bs.drop 3)
      else s.writeRun t f (off + 1) bs
    else (s.writeByte t off b).writeRun t f (off + 1) bs

/-- A write to a tenant's window; before `MBX_READY` it is discarded (R96), and writing the aperture
is a NIGHT exit trigger (R72). -/
def State.writeWindow (s : State) (t : Ten) (off : Nat) (data : List Byte) : State :=
  if !s.boot.mbxReady then s else
  let s1 := if 0x900 < off + data.length ∧ off < 0x1000 then s.nightTrigger 0x02 else s
  s1.writeRun t data.length off data

/-! ### The recovery window (Table 4.7) -/

/-- What an offset of the recovery window reads. -/
def rcvByte (s : State) (off : Nat) : Byte :=
  let r := s.boot.rcv
  (leBytes 4 0x0480B001 ++ leBytes 4 (r.state * 2 ^ 24 + r.err * 2 ^ 16 + r.next) ++ leBytes 4 0
    ++ leBytes 4 r.len ++ leBytes 4 r.chunk ++ leBytes 4 r.crc.toNat ++ leBytes 4 r.target.val).getD off 0

/-- A write to the recovery window's data registers and buffer; `RCV_CMD` has rows of its own. -/
def State.rcvWrite (s : State) : Nat → Nat → List Byte → State
  | 0, _, _ => s
  | _, _, [] => s
  | f + 1, off, b :: bs =>
    if off < 0x20 ∧ off % 4 = 0 ∧ 3 ≤ bs.length then
      let v := leNat (b :: bs.take 3)
      let s1 := match off with
        | 0x00C => { s with boot.rcv.len := v }
        | 0x010 => { s with boot.rcv.chunk := v % 65536 }
        | 0x014 => { s with boot.rcv.crc := BitVec.ofNat 32 v }
        | _ => s
      s1.rcvWrite f (off + 4) (bs.drop 3)
    else if 0x800 ≤ off ∧ off < 0x1000 then
      ({ s with boot.rcv.buf := Memory.put s.boot.rcv.buf (off - 0x800) b } : State).rcvWrite f (off + 1) bs
    else s.rcvWrite f (off + 1) bs

/-! ### Posted writes of an SPI port -/

/-- Bytes an SPI port still holds (R114). -/
def Port.held (p : Port) : Nat := p.buf.foldl (fun a e => a + e.data.length) 0

/-- Writes of an SPI port before `MBX_READY` are discarded (R96), but for the recovery window (R102). -/
def State.takesWrites (s : State) : Bool := s.boot.mbxReady || s.boot.phase == .recovery

/-- A write transaction is posted (R112, R115): bytes beyond 0xFFF are discarded, and a byte that
finds the 4 KiB buffer full is discarded with every later one, which sets `WBUF_OVF`. -/
def State.postWrite (s : State) (p : Fin 4) (off : Nat) (data : List Byte) : State :=
  if !s.takesWrites then s else
  let pt := s.mbx.ports[p]
  let fits := data.take (0x1000 - off)
  let kept := fits.take (4096 - pt.held)
  let s1 := if kept = [] then s else
    { s with mbx.ports := s.mbx.ports.set p { pt with buf := pt.buf ++ [Posted.mk off kept] } }
  if kept.length < fits.length then
    match s.tenOfPort p with
    | some t => s1.flagTen t (·.wbufOvf) fun w => { w with wbufOvf := true }
    | none => s1
  else s1

/-- The oldest posted run of a port takes effect (R114). -/
def State.drainOne (s : State) (p : Fin 4) : State :=
  let pt := s.mbx.ports[p]
  match pt.buf with
  | [] => s
  | e :: rest =>
    let s1 := { s with mbx.ports := s.mbx.ports.set p { pt with buf := rest } }
    if s.boot.phase = .recovery then
      if p = 0 then s1.rcvWrite e.data.length e.off e.data else s1
    else match s.tenOfPort p with
      | some t => s1.writeWindow t e.off e.data
      | none => s1

/-- A range of window offsets reaches into the bulk aperture. -/
def inAperture (off len : Nat) : Bool := 0x900 < off + len && off < 0x1000

/-- The tenant area is served: not while PD_MEM is without its clock or its power, as in NIGHT (R113). -/
def State.memServed (s : State) : Bool := s.domOn dMEM

/-- A posted run that the aperture's wait holds: in NIGHT until the exit, in DUSK for the wait of R113 unless the port is
read (R114, R115). -/
def State.holdsRun (s : State) (e : Posted) (atOnce : Bool) : Bool :=
  inAperture e.off e.data.length && (!s.memServed || (atOnce && s.power.pstate == .dusk))

/-- The posted runs of a port take effect, oldest first, up to one that is held (R114, R115). -/
def State.drainRuns (atOnce : Bool) (p : Fin 4) : Nat → State → State
  | 0, s => s
  | f + 1, s =>
    match s.mbx.ports[p].buf with
    | [] => s
    | e :: _ => if s.holdsRun e atOnce then s else State.drainRuns atOnce p f (s.drainOne p)

/-- What a port has posted takes effect (R114), but for what waits for the exit from NIGHT. -/
def State.drainAll (s : State) (p : Fin 4) : State := State.drainRuns false p s.mbx.ports[p].buf.length s

/-- What has been posted on the access's port before it has taken effect (R114). -/
def State.settle (s : State) : Via → State
  | .spi p => s.drainAll p
  | _ => s

/-- A new transaction on an SPI port: one before it that still waited for its token has ended, without effect (R113). -/
def State.newTxn (s : State) (p : Fin 4) : State :=
  { s with mbx.ports := s.mbx.ports.set p { s.mbx.ports[p] with waiting := none } }

/-- A write on an SPI port: posted, then effective as far as nothing holds it (R114, R115). A write into the aperture is a
NIGHT exit trigger (R72). -/
def State.spiWrite (s : State) (p : Fin 4) (off : Nat) (data : List Byte) : State :=
  let s1 := (s.newTxn p).postWrite p off data
  let s2 := if inAperture off data.length ∧ s1.boot.mbxReady ∧ (s1.tenOfPort p).isSome then s1.nightTrigger 0x02 else s1
  State.drainRuns true p s2.mbx.ports[p].buf.length s2

/-- The bytes of 50 MHz quad transfer in the longest wait of R113 for an access. -/
def State.waitMax (s : State) (off len : Nat) : Nat :=
  if !inAperture off len then 0 else
  match s.power.pstate with
  | .noon | .boost => 25
  | .dusk => 100
  | _ => 6250

/-- The wait bytes after the first one and before the token (R113): how long the wait lasts is open below its bound, a free
value (log entry 537). -/
def State.waitBytes (s : State) (off len : Nat) : Nat := s.freeVal % (s.waitMax off len + 1)

/-- What an SPI port returns in a read: 0xFF, the wait bytes, the token, the data (R113). -/
def spiAnswer (wait : Nat) (data : List Byte) : List Byte := 0xFF :: List.replicate wait 0xFF ++ 0x5C :: data

/-- A read of an SPI port is served, after `wait` wait bytes; in recovery SPI0 reads the window of Table 4.7 (R102). -/
def State.spiServe (s : State) (p : Fin 4) (off len wait : Nat) : State :=
  if s.boot.phase = .recovery then
    s.emit (.read (.spi p) (spiAnswer wait ((List.range len).map fun i => rcvByte s (off + i))))
  else
    let (bs, s1) := readWindow s (.spi p) off len
    s1.emit (.read (.spi p) (spiAnswer wait bs))

/-- A read on an SPI port (R113, R114): it follows what the port has posted; where that, or the aperture itself, waits for
the exit from NIGHT, so does the read. -/
def State.spiRead (s : State) (p : Fin 4) (off len wait : Nat) : State :=
  let s1 := ((s.freed).newTxn p).drainAll p
  let stuck := s1.mbx.ports[p].buf != [] || (inAperture off len && !s1.memServed && (s1.tenOfPort p).isSome)
  if stuck ∧ s1.boot.phase ≠ .recovery then
    ({ s1 with mbx.ports := s1.mbx.ports.set p { s1.mbx.ports[p] with waiting := some (off, len) } } : State).nightTrigger 0x02
  else s1.spiServe p off len wait

/-- What waited on the SPI ports for the exit from NIGHT: posted runs take effect, and reads get their data (R113, R115). -/
def State.servePorts (s : State) : State :=
  (List.finRange 4).foldl (fun s p =>
    let s1 := s.drainAll p
    match s1.mbx.ports[p].waiting with
    | some (off, len) => (s1.newTxn p).spiServe p off len (s1.waitBytes off len)
    | none => s1) s

/-- Whether an SPI port answers at all: PD_CTL's logic step is complete (R96), and in recovery SPI0 alone is served
(R102). -/
def State.spiAlive (s : State) (p : Fin 4) : Bool := s.ballActs .host && (s.boot.phase != .recovery || p == 0)

/-- `TIRQn` is driven low: the interrupt of the port's tenant or the R96 notice (R111); in recovery, `TIRQ0` in
WAIT_START and DONE (R102). -/
def State.tirqLow (s : State) (p : Fin 4) : Bool :=
  if s.boot.phase = .recovery then p == 0 && (s.boot.rcv.state == 1 || s.boot.rcv.state == 5)
  else s.mbx.ports[p].notice || (match s.tenOfPort p with
    | some t => (s.ten t).irq
    | none => false)

end Sys2Proof.Machine
end

