-- ==== Sys2Proof/Machine/Power.lean ====
section
/-!
DEFINITION. Power states and wakes (R53 to R86): idle timers, NIGHT, the entries to GLACIER and
PERMAFROST, the steps of a wake, the PMIC link, light-wake, wake pins and rails.
-/

namespace Sys2Proof.Machine

/-! ### Conditions -/

/-- The effective floor: the shallowest of the floors set (R57). -/
def State.floor (s : State) : Option PState :=
  allTen.foldl (fun m t => match m, (s.ten t).floor with
    | none, f => f
    | some a, some b => if b.code < a.code then some b else some a
    | some a, none => some a) none

/-- Whether the effective floor permits a state (R57). -/
def State.floorAllows (s : State) (p : PState) : Bool :=
  match s.floor with
  | none => true
  | some f => p.code ≤ f.code

/-- A `SLEEP_REQ` waits to be sent (R66): it is in the LMM queue, or reserved in a prepared burst. One that the queue
discarded (R254) waits no more. -/
def State.sleepAsked (s : State) : Bool :=
  s.us.lmmq.any (·.type == 0x84)
    || s.us.gs.toList.any fun g => g.bursts.any fun b => b.lmm.any (·.type == 0x84)

/-- Whether another power transition is in progress (Table 3.3): an entry, a NIGHT negotiation from its request to its
end, an exit of NIGHT, or a wake between power states. DESIGN CHOICE (log entry 330): a change of voltage between NOON,
DUSK and the boost point is not one, nor is the wake of single domains. -/
def State.transition (s : State) : Bool :=
  s.power.entry.isSome || s.sleepAsked || s.power.night.answerBy.isSome || s.power.night.granted
    || s.power.night.exiting
    || (match s.power.wake with
        | some w => (match w.kind with | .domains _ => false | _ => true)
        | none => false)

/-- The status of the first blocker of Table 3.3, in the table's order. -/
def State.blocker (s : State) (night : Bool) : Option Half :=
  if s.thawed && night then some Status.state
  else if s.transition then some Status.busy
  else s.unitBlocker

/-- A blocker that `FORCE` cannot clear (Table 3.3). -/
def State.hardBlocker (s : State) (night : Bool) : Option Half :=
  if s.thawed && night then some Status.state
  else if s.transition then some Status.busy
  else s.unitHardBlocker

/-! ### Entry to GLACIER and PERMAFROST (R63, R64) -/

/-- The code `POWER_LEAVING` names (Table 22.4). -/
def EntryTarget.code : EntryTarget → Nat
  | .glacier => 4 | .permafrost => 5 | .chipReset => 0xFF

/-- An entry is accepted (R63): `POWER_LEAVING` to every attached tenant and the notice period. -/
def State.acceptEntry (s : State) (target : EntryTarget) (retain : Bool) (by_ : Ten) (force : Bool := false) : State :=
  let ms := s.power.cfg.tNotice
  let s1 := s.direct Code.powerLeaving (allTen.filter fun t => (s.ten t).st == .attached)
    (target.code + 256 * satTo 255 (ms / 100))
  { s1 with power.entry := some (Entry.mk target .notice (s.now + ms * 1000000) retain by_ force),
            power.nightWaits := false, power.glacierWaits := false }

/-- Every command still pending posts `ABORTED`, every lease is released and every session ends
(R63); the delegation ends without an event (R148). -/
def State.endAll (s : State) : State :=
  let s1 := allTen.foldl (fun s t => (List.finRange 8).foldl (fun s n =>
    if (s.slot t n).pending then (s.modSlot t n fun x => { x with stop := some .entry }).post t n Status.aborted [] else s) s) s.cutWork.settleThaw
  let s2 := s1.mbx.leases.foldl (fun s l => s.revoke l.1) s1
  let s3 := { s2 with mbx.delegate := none, mbx.drains := [], mbx.residue := [], mbx.revoking := [], evt.directed := [] }
  allTen.foldl (fun s t => s.endSession t) s3

/-- The level-sensed wake pins of the AO-watch set that are active (R86, R178). -/
def State.levelPins (s : State) : List (Fin 4) :=
  (List.finRange 4).filter fun i => s.ao.cfg.set.getLsbD i.val && !s.ao.cfg.pinEdge.getLsbD i.val
    && s.pads.wakePins.getLsbD i.val == s.ao.cfg.pinHigh.getLsbD i.val && !s.ao.spent.getLsbD i.val

/-- PERMAFROST: PD_AO alone is powered, and the wake is a chip-scope start, which finds every other unit at its reset
value (Table 4.1). -/
def State.frozen (s : State) : State :=
  let s1 := s.resetUnits
  { s1 with
    ao := s.ao, pads := s.pads
    power := { s1.power with pstate := .permafrost, dom := (Vector.replicate 13 DomState.off).set 0 .on } }

/-- What a stay in GLACIER or PERMAFROST ends of the power state machine. -/
def Power.asleep (p : Power) (st : PState) (lane : Fin 2) : Power :=
  { p with
    pstate := st, lw := { p.lw with lane := lane }
    entry := none, wake := none, pmic := none, wakeQueue := [], wakeSrc := 0, firnFull := false, fwdBias := false
    leaveBoost := false, workDue := false, duskDue := false, nightWaits := false, glacierWaits := false
    probing := none, probeWake := false
    night := { p.night with
      answerBy := none, granted := false, exiting := false, exitPending := false, exitCause := 0, nextGrant := none } }

/-- Steps 3 to 9 of R64, through the commit point to the enables of Table 2.4 in the order of R39; a level-sensed pin
already active starts the wake at once. -/
def State.enterDeep (s : State) (e : Entry) : State :=
  let frost := e.target = .permafrost
  let lane := s.activeLane.getD 0
  let s1 := s.zeroiseAll
  let s2 := s1.powerOffAll [dINF, dAUD, dLNL, dPKT, dCIP, dFRM, dLNA]
  let s3 := (if frost then s2.timeToFrost else s2.handTime).powerOffAll [dPLL, dNVM]
  let s4 := if e.retain ∧ !frost then s3.setDom dMEM .ret else s3.powerOff dMEM
  let s5 := s4.powerOff dCTL
  let s6 : State := { s5 with
    ao.cfg := s5.power.wcfg, sec.trace := false, pads.txdisLow := 0, tw := {}
    power := s5.power.asleep (if frost then .permafrost else .glacier) lane
    boot := { s5.boot with
      mbxReady := false, core0Up := false, core1Up := false, phase := if frost then .held else s5.boot.phase } }
  let s7 := if frost then ((s6.enablesDown).powerOff dTKP).frozen else { s6 with pads.enMain := false }
  s7.levelPins.foldl (fun s i => s.aoAssert (Fin.ofNat 32 i.val) 1) s7

/-- Step 2 of R64 and what follows it: while a ceiling write is pending, the nonce counters are not persisted yet and the
entry waits for the write (R395). -/
def State.persistEntry (s : State) (e : Entry) : State :=
  if s.ceilPending then { s with power.entry := some { e with stage := .persist } } else s.enterDeep e

/-- What follows the deregistration notice (R64): the local deregistration, then step 2. -/
def State.afterNotice (s : State) (e : Entry) : State := s.deregLocal.persistEntry e

/-- The state an entry leads to; a chip reset is no power state. -/
def EntryTarget.state : EntryTarget → Option PState
  | .glacier => some .glacier | .permafrost => some .permafrost | .chipReset => none

/-- An entry that came without `FORCE` and whose state a floor set since no longer permits (R57). -/
def State.entryFloored (s : State) (e : Entry) : Bool :=
  !e.force && e.target.state.any fun p => !s.floorAllows p

/-- The end of the notice period (R63, R64): an IN_SERVICE terminal first sends its deregistration
notice and waits at most 4 ms for the burst that carries it. An entry that the effective floor forbids by now is dropped
(log entry 331). -/
def State.endNotice (s : State) (e : Entry) : State :=
  if s.entryFloored e then { s with power.entry := none } else
  let s1 := s.endAll
  match e.target with
  | .chipReset => ({ s1 with power.entry := none } : State).chipReset 0x07 e.byTenant.val
  | _ =>
    if s1.inService then
      { s1.sendDeregNotice 5 with power.entry := some { e with stage := .dereg, deadline := s1.now + 4000000 } }
    else s1.afterNotice e

/-- A ceiling write has succeeded: an entry that waits for the last one goes on with the steps of R64 (R395). -/
def State.noncesKept (s : State) : State :=
  match s.power.entry with
  | some e => if e.stage = .persist then s.persistEntry e else s
  | none => s

/-- T_NOTICE_EXPIRY (R63). -/
def execTNoticeExpiry (s : State) : Out :=
  .next <| match s.power.entry with
    | some e => if e.stage = .notice then (s.reach e.deadline).endNotice e else s
    | none => s

/-- Steps 2 to 7 of R418: the fuse, the erase, the result, the chip reset. -/
def State.retire (s : State) (w : ActWait) : State :=
  let s1 := ({ s with fuses.life := .retired, fsec.thaws := 0 } : State).eraseRetired
  (if w.orphan then s1 else s1.answer w.ten w.slot [2]).acceptEntry .chipReset false w.ten

/-- An `LTX.ACTIVATION` or a `SEC.RETIRE` goes on after its notice (R246, R248, R418). -/
def State.finishWait (s : State) (w : ActWait) : State :=
  let s1 : State := { s with reg.wait := none }
  let s2 := if w.rediscover then s1.actRediscover else s1.actStop
  if w.retire then s2.retire w
  else if w.orphan then s2 else s2.answer w.ten w.slot (leBytes 1 s2.reg.st.code)

/-- The deregistration notice has been sent or abandoned (R64, R246). -/
def State.noticeOver (s : State) : State :=
  match s.power.entry with
  | some e => if e.stage = .dereg then s.afterNotice e else
    (match s.reg.wait with | some w => s.finishWait w | none => s)
  | none => match s.reg.wait with
    | some w => s.finishWait w
    | none => s

/-- DEREG_NOTICE_TIMEOUT (R64, R246): 4 ms without the burst, the entry or the command goes on. -/
def execDeregNoticeTimeout (s : State) : Out :=
  .next <| match s.power.entry, s.reg.wait with
    | some e, w => if e.stage = .dereg then (s.reach e.deadline).afterNotice e
      else (match w with | some w => (s.reach w.by_).finishWait w | none => s)
    | none, some w => (s.reach w.by_).finishWait w
    | none, none => s

/-! ### Automatic requests (R58, R59, R61) -/

/-- Firmware runs, and not the ROM or its recovery (R93, R102). -/
def State.serving (s : State) : Bool := s.boot.phase == .running

/-- A `SLEEP_REQ` is due in the next burst that carries an LMM (R66, Table 3.4). -/
def State.requestSleep (s : State) (cause : Byte) (force : Bool := false) : State :=
  ({ s with power.nightWaits := false
            power.night := { s.power.night with reqCause := cause, reqForce := force } } : State
  ).queueLmm 0x84 [BitVec.ofNat 8 s.power.cfg.cMax, cause]

/-- `T_NIGHT` is idle (Table 3.2), is not disabled, and no request or exit of NIGHT runs. -/
def State.nightIdle (s : State) : Bool :=
  s.power.pstate == .dusk && s.power.cfg.tNight != 0 && s.inService && s.dom dLNL == .off && !s.anyLink
    && !s.sleepAsked && s.power.night.answerBy.isNone && !s.power.night.granted && !s.power.night.exiting

/-- The instant from which the NIGHT request may go out: the expiry of `T_NIGHT`, and the wait of a `SLEEP_DENY`. -/
def State.nightDue (s : State) : Nat :=
  max (s.power.idle.night + s.power.cfg.tNight * 1000000000) s.power.night.retryFrom

/-- The automatic NIGHT request (R58, R61): while a floor or a blocker holds it back, it waits. -/
def State.autoNight (s : State) : State :=
  if !s.nightIdle || s.now < s.nightDue then s
  else if s.floorAllows .night && s.blocker true == none then s.requestSleep 0
  else { s with power.nightWaits := true }

/-- A state in which automatic GLACIER can begin. -/
def PState.awake (p : PState) : Bool := p == .noon || p == .boost || p == .dusk

/-- Automatic GLACIER (R59, R61): both timers expired and allowed; while a floor or a blocker holds it back, it waits. -/
def State.autoGlacier (s : State) : State :=
  if !(s.power.pstate.awake && s.mbx.leases == [] && s.allDark) ∨ !s.serving
      ∨ s.now < s.power.idle.glacier + s.power.cfg.tGlacier * 1000000000
      ∨ s.now < s.power.idle.dark + s.power.cfg.tDark * 1000000000 then s
  else if s.power.cfg.glacierAuto ∧ s.floorAllows .glacier ∧ s.blocker true = none then
    s.acceptEntry .glacier s.power.cfg.glacierRetain 0
  else { s with power.glacierWaits := true }

/-- An automatic request that waits is made as soon as nothing holds it back (R61). -/
def State.retryAuto (s : State) : State :=
  let s1 := if s.power.nightWaits then s.autoNight else s
  if s1.power.glacierWaits then s1.autoGlacier else s1

/-! ### Idle timers (R55, Table 3.2) -/

/-- T_DUSK_EXPIRY (R55, R57): a floor at NOON keeps the terminal in NOON. -/
def execTDuskExpiry (s : State) : Out :=
  .next <|
    if s.serving ∧ s.power.pstate = .noon ∧ s.power.pmic = none ∧ s.power.entry = none ∧ s.workIdle
        ∧ s.floorAllows .dusk then
      (s.reach (s.power.idle.dusk + s.power.cfg.tDusk * 1000000)).toDusk
    else s

/-- T_INF_EXPIRY. -/
def execTInfExpiry (s : State) : Out :=
  .next <|
    if s.domOn dINF ∧ s.firnIdle then
      (s.reach (s.power.idle.inf + s.power.cfg.tInf * 1000000)).powerOff dINF
    else s

/-- T_BOOST_EXPIRY (R80). -/
def execTBoostExpiry (s : State) : Out :=
  .next <|
    if s.power.pstate = .boost ∧ s.firnIdle then
      (s.reach (s.power.idle.boost + s.power.cfg.tBoost * 1000000)).leaveBoost
    else s

/-- T_AUD_EXPIRY: in DUSK only. -/
def execTAudExpiry (s : State) : Out :=
  .next <|
    if s.power.pstate = .dusk ∧ s.domOn dAUD ∧ s.audIdle then
      (s.reach (s.power.idle.aud + s.power.cfg.tAud * 1000000)).powerOff dAUD
    else s

/-- T_LNL_EXPIRY: in DUSK only; the probe timer then runs. -/
def execTLnlExpiry (s : State) : Out :=
  .next <|
    if s.power.pstate = .dusk ∧ s.domOn dLNL ∧ !s.anyLink ∧ s.power.probing = none then
      let s1 := (s.reach (s.power.idle.lnl + s.power.cfg.tLnl * 1000000000)).powerOff dLNL
      { s1 with power.idle.probe := s1.now, power.idle.night := s1.now }
    else s

/-- T_LNL_PROBE_EXPIRY: PD_LNL is switched on through the wake order, for 2 ms. DESIGN CHOICE (log entry 332): those 2 ms
do not end the idle condition of `T_NIGHT`. -/
def execTLnlProbeExpiry (s : State) : Out :=
  .next <|
    if s.power.pstate = .dusk ∧ s.dom dLNL = .off ∧ !s.power.probeWake then
      let s1 := s.reach (s.power.idle.probe + s.power.cfg.tLnlProbe * 1000000)
      ({ s1 with power.probeWake := true } : State).wakeDomains [dLNL]
    else s

/-- LNL_PROBE_END (R56): a partner found keeps the domain on. -/
def execLnlProbeEnd (partner : Bool) (s : State) : Out :=
  .next <| match s.power.probing with
    | some d =>
      let s1 := { s.reach d with power.probing := none }
      if partner then ({ s1 with power.idle.lnl := s1.now, power.idle.night := s1.now } : State).unitsOn [dLNL]
      else if s1.power.pstate = .dusk then ({ s1 with power.idle.probe := s1.now } : State).powerOff dLNL
      else s1
    | none => s

/-- T_NIGHT_EXPIRY (R58, R66). -/
def execTNightExpiry (s : State) : Out :=
  .next (if s.nightIdle then (s.reach s.nightDue).autoNight else s)

/-- T_GLACIER_EXPIRY (R59). -/
def execTGlacierExpiry (s : State) : Out :=
  .next <|
    if s.serving ∧ s.mbx.leases = [] ∧ s.power.pstate.awake then
      (s.reach (s.power.idle.glacier + s.power.cfg.tGlacier * 1000000000)).autoGlacier
    else s

/-- T_DARK_EXPIRY (R59). -/
def execTDarkExpiry (s : State) : Out :=
  .next <|
    if s.serving ∧ s.allDark ∧ s.power.pstate.awake then
      (s.reach (s.power.idle.dark + s.power.cfg.tDark * 1000000000)).autoGlacier
    else s

/-- Work for PD_LNL ends a probe of it: the domain stays on. -/
def State.probeOver (s : State) (d : Dom) : State :=
  if d = dLNL ∧ (s.power.probing.isSome ∨ s.power.probeWake) then
    { s with power.probing := none, power.probeWake := false, power.idle.lnl := s.now, power.idle.night := s.now }
  else s

/-- DOMAIN_WORK_ARRIVAL (R56): DUSK returns to NOON, and a domain that is off is switched on. The ROM and its recovery
serve no such work (R93, R102). -/
def execDomainWorkArrival (d : Dom) (s : State) : Out :=
  .next <|
    if s.serving ∧ s.power.pstate.awake then ((s.probeOver d).toNoon).wakeDomains [d] else s

/-! ### NIGHT (R66 to R72) -/

/-- SLEEP_ANSWER_TIMEOUT (R66). -/
def execSleepAnswerTimeout (s : State) : Out :=
  .next <| match s.power.night.answerBy with
    | some d =>
      let s1 := s.reach d
      ({ s1 with power.night.answerBy := none, power.idle.night := s1.now,
                 power.night.attempts := s1.power.night.attempts + 1 } : State).retryAuto
    | none => s

/-- The condition that led to the request has ended (chapter 03, "At the edges"): a unit blocks NIGHT again, THAWED holds, a
floor now forbids NIGHT (R57), or a request of the idle timer finds the terminal at work or linked. -/
def State.sleepOver (s : State) : Bool :=
  s.thawed || s.unitBlocker.isSome || (!s.power.night.reqForce && !s.floorAllows .night)
    || (s.power.night.reqCause == 0 && (s.power.pstate != .dusk || s.anyLink))

/-- NIGHT is entered at the anchor (R53, R54, R69): the first listen multiframe; the standby lane is off. -/
def State.enterNight (s : State) : State :=
  let s1 := s.powerOffAll [dLNL, dPKT, dCIP, dNVM, dINF, dAUD]
  let s2 := ((s1.setDom dCTL .gated).setDom dMEM .ret).setDoms [dPLL, dLNA, dFRM] .on
  let s3 : State := { s2 with power := { s2.power with
    pstate := .night, wake := none, wakeQueue := [], probing := none, probeWake := false
    workDue := false, duskDue := false, nightWaits := false, glacierWaits := false
    night := { s2.power.night with listening := true, missedRun := 0 }
    lw := { s2.power.lw with lane := s.activeLane.getD 0 } } }
  ((s3.offLane s3.standby).modChan s3.lanes.prot.active fun c => { c with kept := c.keep }).raise 0x56 1

/-- Whether the anchor finds the terminal at a point it can leave for NIGHT: in DUSK, or on its way there, or in NOON
after a command. -/
def State.nightReady (s : State) : Bool :=
  !s.sleepOver && (match s.power.pmic with
    | none => s.power.pstate == .dusk || s.power.pstate == .noon
    | some op => op.why == .toDusk)

/-- NIGHT entered from NOON or DUSK, with the voltage of Table 3.8: from NOON the assists, then code 16 (R79). -/
def State.goNight (s : State) : State :=
  (if s.power.pstate = .noon ∧ s.power.pmic = none then s.toDusk else s).enterNight

/-- NIGHT_LISTEN_WAKE (R69): 250 µs before a listen multiframe starts. The first one starts at the anchor, with every
domain still on; a condition that has ended cancels the entry there (R72). -/
def execNightListenWake (s : State) : Out :=
  .next <|
    if s.power.pstate ≠ .night then
      if !s.power.night.granted then s else
      let s1 := s.reachTt s.power.night.nextListen
      if s1.nightReady then s1.goNight else s1.nightTrigger 0
    else if s.power.night.listening ∨ s.power.night.exiting ∨ s.power.wake.isSome then s
    else (s.reachTt (s.power.night.nextListen - 250000)).startWake .listen .night 0

/-- The schedule moves to the next listen; a later grant applies from its anchor on. -/
def Night.advance (x : Night) : Night :=
  let next := x.nextListen + x.cycle * 2000000
  match x.nextGrant with
  | some (c, a) => if a ≤ next then { x with cycle := c, nextListen := a, nextGrant := none } else { x with nextListen := next }
  | none => { x with nextListen := next }

/-- NIGHT_LISTEN_END (R69, R70): the end of the listen multiframe. A listen without SYNC is missed, one whose wake failed
too, and the third in a row leaves NIGHT with the lane on. Once a trigger has come, the domains stay on (R72). -/
def execNightListenEnd (s : State) : Out :=
  .next <|
    if s.power.pstate ≠ .night ∨ s.power.night.exiting then s else
    let s0 := s.reachTt (s.power.night.nextListen + 2000000)
    let met := s0.power.night.listening && s0.activeSync && !s0.act.unproven
    let run := if met then 0 else s0.power.night.missedRun + 1
    let s1 := { s0 with power.night.missedRun := run,
                        power.night.missed := if met then s0.power.night.missed else satInc 65535 s0.power.night.missed }
    if run = 3 then s1.nightTrigger 0x10
    else
      let s2 := (({ s1 with power.wake := none } : State).powerOffAll [dLNA, dFRM]).dpllLoss
      { s2 with power.night := { s2.power.night with listening := false }.advance }

/-! ### Wake triggers and steps (R73 to R77) -/

/-- WAKE_TRIGGER (R65, R73, R178). -/
def execWakeTrigger (src : Fin 32) (data : Word) (s : State) : Out := .next (s.aoAssert src data)

/-- `FAULT_WAKE` data from the wake record (Table 22.4). -/
def WakeRec.data (r : WakeRec) : Nat :=
  r.step.toNat + 256 * r.detail.toNat + 65536 * r.src.toNat + 16777216 * r.dst.toNat

/-- `FAULT_WAKE` to the owner: at once while PD_CTL is on, else at the next successful wake (R75). -/
def State.tellFault (s : State) : State :=
  if s.domOn dCTL && (s.ten 0).st != .detached then
    { s.direct Code.faultWake [0] s.ao.wake.data with power.faultPend := false }
  else { s with power.faultPend := true }

/-- The wake record written (Table 3.7). -/
def State.recordWake (s : State) (src dst step detail startAt : Nat) : State :=
  { s with ao.wake := WakeRec.mk (BitVec.ofNat 8 src) (BitVec.ofNat 8 dst) (BitVec.ofNat 8 step)
             (BitVec.ofNat 8 detail) (satInc 65535 s.ao.wake.fails) (satTo 65535 ((s.now - startAt) / 10000)) }

/-- The power-state code a wake aims for; 0xFF for single domains (Table 3.7). -/
def WakeKind.aim : WakeKind → Nat
  | .powerOn | .rstRelease | .permafrost => 0
  | .glacier | .nightExit => 2
  | .listen => 3
  | .domains _ => 0xFF

/-- `DETAIL` of a missed signal (Table 3.7). -/
def sigDetail (noBand : Bool) : ReadySig → Nat
  | .railAux => 0x80 | .railMain => 0x81 | .psw d => d.val
  | .refOk => 1 | .xtOk => 2 | .pllaLock => if noBand then 2 else 1
  | .memOk => 3 | .rstAck d => d.val

/-- A failed chip-scope start (R75): both enables low in the order of R39, PD_AO alone runs, and the terminal is in
PERMAFROST. The cause of the start is kept for the record of the next one (R91, R92). DESIGN CHOICE (log entry 333): R75
speaks of the regulator and the oscillator step; a PLL, memory or logic step that fails ends the same way. -/
def State.failStart (s0 : State) : State :=
  let s := s0.enablesDown
  { s with power.pstate := .permafrost, power.wake := none,
           power.wakeQueue := [], power.dom := (Vector.replicate 13 DomState.off).set 0 .on,
           boot.phase := .held, power.faultPend := true }

/-- Whether a slot runs a command that waits for PD_AUD: an opening of an audio port, or of a TPS port. -/
def State.waitsAud (s : State) (t : Ten) (n : SlotIx) : Bool :=
  s.dom dAUD == .off && ((s.runs t n 0x1004 && s.prm1 t n 1 == 1) || (s.runs t n 0x1102 && s.prm1 t n 1 ≤ 1))

/-- The commands that needed domains whose wake failed complete with `ERR_STATE` (R75; log entry 319). -/
def State.failNeed (s : State) (ds : List Dom) : State :=
  let s1 := if ds.contains dINF then s.firn.jobs.foldl (fun s j => s.refuseJob j) s else s
  if ds.contains dAUD then
    (List.finRange 8).foldl (fun s t => (List.finRange 8).foldl (fun s n =>
      if s.waitsAud t n then s.done t n Status.state else s) s) s1
  else s1

/-- A wake is aborted (R75): what it had switched on goes off again, the state it was leaving stands,
the wake record is written; the fourth failure in a row out of NIGHT is a chip reset (R76). -/
def State.failWake (s : State) (w : WakeSeq) (step detail : Nat) : State :=
  let s1 := s.recordWake (if w.kind.chip then 5 else w.src.code) w.kind.aim step detail w.startAt
  let s2 := { s1 with ao.spent := s1.ao.spent ||| (s1.ao.pend &&& 15) ||| w.pins.setWidth 32 }
  if w.kind.chip then s2.failStart else
  let s3 := ((match w.kind with | .domains ds => s2.failNeed ds | _ => s2).powerOffAll (w.doms.filter (· != dMEM)))
  let s4 := { s3 with power.wake := none, power.wakeQueue := [], clk.wakeTries := [],
                      pads.enMain := s3.pads.enMain && !w.raised.contains .railMain, power.probeWake := false,
                      power.idle.probe := if s3.power.probeWake then s3.now else s3.power.idle.probe,
                      power.night.exiting := s3.power.night.exiting && decide (w.kind ≠ WakeKind.nightExit),
                      power.memLost := s3.power.memLost || decide (w.kind = WakeKind.glacier ∧ step = 4 ∧ s3.dom dMEM = DomState.ret) }
  let s5 := s4.tellFault
  match w.kind with
  | .domains _ => s5.wakeDomains s3.power.wakeQueue
  | .listen | .nightExit =>
    if s5.power.nightFails = 3 then s5.chipReset 0x04 0 else { s5 with power.nightFails := s5.power.nightFails + 1 }
  | _ => s5

/-- WAKE_STEP_TIMEOUT (R75): a signal awaited in the present step misses its timeout; a lock search
without a band fails at once. -/
def execWakeStepTimeout (sig : ReadySig) (noBand : Bool) (s : State) : Out :=
  .next <| match s.power.wake with
    | some w => if w.waiting.contains sig then s.failWake w w.step (sigDetail (noBand && s.clk.searchList == []) sig) else s
    | none => s

/-- The pull check of R45 as PD_LNA powers up: a released ball that reads low marks the lane. -/
def State.pullCheck (s : State) : State :=
  (List.finRange 2).foldl (fun s l =>
    if !s.present l || s.pads.txdisBoard.getLsbD l.val || s.pads.txdisFault.getLsbD l.val then s else
    let s1 := { s with pads.txdisFault := s.pads.txdisFault ||| (1#2 <<< l.val) }
    (s1.raise 0x43 (s1.pads.txdisFault.setWidth 32)).txdisFaulted l) s

/-- The events of the always-on watch after the firmware resume (R179). -/
def State.pendEvents (s : State) : State :=
  let s1 := s.ao.stamps.foldl (fun s p => s.coreEvent (Fin.ofNat 256 p.1.val) p.2) s
  { s1 with power.wakeSrc := s1.ao.pend, ao.pend := 0, ao.stamps := [] }

/-- The R96 notice on every SPI port; after a wake from GLACIER on the bound ones alone (R180). -/
def State.noticePorts (s : State) (all : Bool) : State :=
  { s with mbx.ports := Vector.ofFn fun p =>
      { s.mbx.ports[p] with notice := all || (s.tenOf (.spi p)).isSome || s.mbx.ports[p].notice } }

/-- The idle timers run from now. -/
def State.restartIdle (s : State) : State :=
  { s with power.idle := IdleFrom.mk s.now s.now s.now s.now s.now s.now s.now s.now s.now }

/-- The attach that woke the terminal from GLACIER opens its trace session (R421). -/
def State.lateAttach (s : State) : State :=
  if s.ao.pend.getLsbD 15 && s.pads.trstN then s.debugAttached else s

/-- The end of a wake from GLACIER (R65, R83, R145, R179, R180, R524). -/
def State.endGlacierWake (s : State) : State :=
  let s1 := { s.setDoms gatedDoms .gated with
    power.pstate := .dusk, boot.mbxReady := true, boot.core0Up := true, boot.core1Up := true,
    power.rdAssist := true, power.wrAssist := true, power.fwdBias := false }
  let s2 := (s1.resumeGlacier.reloadKeys.openOwner.noticePorts false).lateAttach.pendEvents.restartIdle
  s2.startPmic [16] .glacierWake

/-- The end of a NIGHT exit (R70, R72, R74, R288): defects and their timers apply from now, and `T_NIGHT` runs from here
(R55). -/
def State.endNightExit (s : State) : State :=
  let missed := s.power.night.missedRun
  let s1 : State := { s.setDoms gatedDoms .gated with
    power.pstate := .dusk, power.night.listening := false, power.night.exiting := false, power.night.cycle := 0,
    power.night.nextGrant := none, power.night.missedRun := 0, power.nightFails := 0, power.idle.night := s.now
    fr.ch := s.fr.ch.map fun c => if c.st = .sync then c else { c with lofFrom := some (c.lofFrom.getD s.now) } }
  (((((s1.timeFromNight missed).reloadKeys).raise 0x56 0).tellDefects).buildAll).servePorts

/-- PD_LNL comes on for a probe: its 2 ms run. -/
def State.startProbe (s : State) : State :=
  if s.power.probeWake then { s with power.probeWake := false, power.probing := some (s.now + 2000000) } else s

/-- A wake sequence has completed its logic step (R73). -/
def State.finishWake (s : State) (w : WakeSeq) : State :=
  let s1 := { s.setDoms w.doms .on with power.wake := none, ao.wake.fails := 0 }
  let s2 := if w.doms.contains dLNA then s1.pullCheck else s1
  let s3 := match w.kind with
    | .powerOn | .rstRelease | .permafrost =>
      { s2 with boot.phase := .rom, power.pstate := .noon, time.epoch := s2.now }
    | .glacier => s2.endGlacierWake
    | .listen => { s2 with power.night.listening := true, power.nightFails := 0 }
    | .nightExit => s2.endNightExit
    | .domains ds => (if ds.contains dLNL then s2.startProbe else s2).unitsOn ds
  let s4 := if s3.power.faultPend && (s3.ten 0).st != .detached then s3.tellFault else s3
  (({ s4 with power.wakeQueue := [] } : State).wakeDomains s4.power.wakeQueue).retryAuto

/-- What a ready signal tells: `RAIL_OK` counts from 100 µs after the enable's rise on (R36). -/
def State.signalled (s : State) (sig : ReadySig) : State :=
  match sig with
  | .railAux | .railMain => { s.reach (s.pads.enRise + 100000) with pads.railOk := true, pads.railLowTo := 0 }
  | .pllaLock => s.wakeLocked
  | .refOk => { s with clk.refOk := true }
  | .xtOk => { s with pads.xtal := true }
  | _ => s

/-- Reset is released in a chip-scope start once its regulator and oscillator steps are over, so that the PLL step begins
at 0 ms of Table 4.5 (R91, R94). DEDUCED (log entry 411): `READY_TIME` and the limits of R95 count from there. -/
def State.markRelease (s : State) (w : WakeSeq) (n : Nat) : State :=
  if w.kind.chip ∧ w.step ≤ 2 ∧ 3 ≤ n then { s with boot.releaseAt := s.now } else s

/-- A ready signal of the present step arrives; the next step begins after the last one (R73). -/
def State.wakeReady (s : State) (w : WakeSeq) (sig : ReadySig) : State :=
  let rest := w.waiting.filter (· != sig)
  let s1 := s.signalled sig
  match rest with
  | g :: _ =>
    let s2 := s1.raiseEnable w.raised g
    let raised := if s1.raises g then w.raised ++ [g] else w.raised
    { s2 with power.wake := some { w with waiting := rest, raised := raised } }
  | [] =>
    let (n, next) := firstStep s1 w.kind w.doms (5 - w.step) (w.step + 1)
    if next = [] then s1.finishWake w
    else
      let s2 := if n = 3 ∧ w.kind = .glacier then s1.beginWakeSearch else s1.markRelease w n
      { s2 with power.wake := some { w with step := n, waiting := next } }

/-- WAKE_STEP_READY (R73): in the regulator step the signals come in order; a lock search whose entries are used up locks
no more (R312). -/
def execWakeStepReady (sig : ReadySig) (s : State) : Out :=
  .next <| match s.power.wake with
    | some w =>
      if w.waiting.contains sig ∧ (w.step ≠ 1 ∨ w.waiting.head? = some sig)
          ∧ (sig ≠ .pllaLock ∨ w.kind ≠ .glacier ∨ s.clk.wakeTries ≠ []) then s.wakeReady w sig else s
    | none => s

/-! ### Pins, rails and the board -/

/-- A wake pin is judged (R86): a level-sensed pin asserts at its active level, an edge-sensed one at
the edge towards it. -/
def State.judgePin (s : State) (pin : Fin 4) : State :=
  let lvl := s.pads.wakePins.getLsbD pin.val
  if lvl = s.wakeCfg.pinHigh.getLsbD pin.val then s.aoAssert (Fin.ofNat 32 pin.val) (BitVec.ofNat 32 (b2n lvl)) else s

/-- WAKE_PIN_CHANGE (R76, R86, R506): `ns` is how long the new level lasts. Outside PERMAFROST the pin
is judged after its debounce; in PERMAFROST 1 µs always starts the wake, less than 20 ns never, and
what lies between may (a free value). -/
def execWakePinChange (pin : Fin 4) (level : Bool) (ns : Nat) (s : State) : Out :=
  .next <|
    let mask := 1#4 <<< pin.val
    let s1 := { s with pads.wakePins := if level then s.pads.wakePins ||| mask else s.pads.wakePins &&& ~~~mask }
    let s2 := if level = s.wakeCfg.pinHigh.getLsbD pin.val then s1
      else { s1 with ao.spent := s1.ao.spent &&& ~~~(1#32 <<< pin.val) }
    if s2.power.pstate = .permafrost then
      if 1000 ≤ ns then s2.judgePin pin
      else if ns < 20 then s2
      else if bit s2.freeVal 0 then s2.freed.judgePin pin else s2.freed
    else if s2.wakeCfg.debounce = 0 then s2.judgePin pin
    else { s2 with power.debounceBy :=
             s2.power.debounceBy.set pin (some (s2.now + s2.wakeCfg.debounce * 1000000000 / 32768)) }

/-- WAKE_DEBOUNCE_EXPIRY (R506). -/
def execWakeDebounceExpiry (pin : Fin 4) (s : State) : Out :=
  .next <| match s.power.debounceBy[pin] with
    | some d => ({ s.reach d with power.debounceBy := s.power.debounceBy.set pin none } : State).judgePin pin
    | none => s

/-- CS_N_FALL (R30, Table 7.4). -/
def execCsNFall (port : Fin 4) (s : State) : Out :=
  .next <| s.aoAssert (Fin.ofNat 32 (9 + port.val)) (BitVec.ofNat 32 port.val)

/-- DEBUG_ATTACH (R30, R421). -/
def execDebugAttach (s : State) : Out :=
  .next <| (({ s with pads.trstN := true } : State).aoAssert 15 (BitVec.ofNat 32 s.debugCode)).debugAttached

/-- DEBUG_DETACH (R421). -/
def execDebugDetach (s : State) : Out := .next ({ s with pads.trstN := false } : State).debugDetached

/-- VBAT_LOW (R164): below 2.0 V, reported in units of 10 mV. -/
def execVbatLow (mv : Nat) (s : State) : Out :=
  .next <| if mv < 2000 then
      ({ s with pads.vbatMv := mv } : State).aoAssert 16 (BitVec.ofNat 32 (mv / 10))
    else { s with pads.vbatMv := mv }

/-- A regulator step waits for `RAIL_OK`: a low level is then no fall of it. -/
def WakeSeq.awaitsRail (w : WakeSeq) : Bool := w.waiting.head? == some .railAux || w.waiting.head? == some .railMain

/-- RAIL_OK_LOW (R36, R37, R39): a low of `ns`. Ignored within 100 µs of an enable's rise, while both enables are low, and
below 2 µs; during a wake sequence a failed regulator step, else a BROWNOUT while `PWR_EN_MAIN` is high, 2 µs after the
fall. -/
def execRailOkLow (ns : Nat) (s : State) : Out :=
  .next <|
    let seen := max s.now (s.pads.enRise + 100000)
    let s1 := { s with pads.railLowTo := max s.pads.railLowTo (s.now + ns) }
    if (!s.pads.enAux && !s.pads.enMain) || s.now + ns < seen + 2000 then s1 else
    let s2 := s1.reach (seen + 2000)
    match s.power.wake with
    | some w => if w.awaitsRail then s1 else s2.failWake w 1 (if s.pads.enMain then 0x81 else 0x80)
    | none => if s.pads.enMain then s2.chipReset 0x03 0 else s1

/-- VBAT_POWER_ON (R38): VBAT rises past 1.65 V. -/
def execVbatPowerOn (mv : Nat) (s : State) : Out :=
  .next <| if !s.pads.powered && 1650 ≤ mv then s.powerOnReset mv else s

/-- VBAT_FALL (R38): below 1.60 V every domain is in reset and every ball but PG_AO's released; the
board's pull-downs take the enables low. -/
def execVbatFall (mv : Nat) (s : State) : Out :=
  .next <| if mv < 1600 then
      let s1 := s.resetUnits
      { s1 with pads.vbatMv := mv, pads.powered := false, pads.enAux := false, pads.enMain := false,
                pads.railOk := false, pads.xtal := false, power.dom := Vector.replicate 13 .held }
    else s

/-- VDDIO_LEVEL_DETECT (R32): VDDIO_HOST or VDDIO_FIELD; the mode is fixed as the rail rises past
1.2 V and holds until it falls below 0.5 V. -/
def execVddioLevelDetect (field : Bool) (mv : Nat) (s : State) : Out :=
  .next <|
    let old := if field then s.pads.fieldMode else s.pads.hostMode
    let new := if mv < 500 then none else if mv ≤ 1200 then old else some (old.getD (2500 ≤ mv))
    if field then { s with pads.fieldMode := new } else { s with pads.hostMode := new }

/-! ### The PMIC link (R49, R79, R524) -/

/-- The power-state code of the point a code belongs to (chapter 02, "At the edges"). -/
def codePoint (c : Nat) : Nat := if c = 30 then 0 else if c = 16 then 2 else 1

/-- A write failed after its retry: the wake record, `FAULT_WAKE`, and the terminal at the point it was
leaving (chapters 02 and 03, "At the edges"; R524). -/
def State.pmicFail (s : State) (op : PmicOp) : State :=
  let c := op.codes.headD 30
  let s1 := (s.recordWake s.power.pstate.code (codePoint c) 1 0x82 s.now).tellFault
  match op.why with
  | .toDusk => { s1 with power.pmic := none, power.workDue := false, power.rdAssist := false,
                           power.wrAssist := false, power.idle.dusk := s1.now }
  | .toNoon | .boot => { s1 with power.pmic := some { op with retried := true, failed := true, retryAt := some (s1.now + 10000000) } }
  | .toBoost =>
    if s1.power.pstate = .dusk then
      { s1 with power.pmic := some { op with retried := true, failed := true, retryAt := some (s1.now + 10000000) } }
    else { s1 with power.pmic := none }
  | .glacierWake =>
    let s2 : State := { s1 with power.pmic := none, power.workDue := false }
    if s1.power.workDue then s2.toNoon else s2
  | .fromBoost => { s1 with power.pmic := none }

/-- The longest a target may stretch the clock (R48), in ns. -/
def maxStretch : Nat := 10000000

/-- PMIC_WRITE_COMPLETE (R48, R49): the target stretches the clock for `stretch` ns; beyond 10 ms the transfer ends with
`ERR_BUSY` and has failed. An acknowledged code is in force and settles for 50 µs; a write that fails is retried once
after 100 µs. -/
def execPmicWriteComplete (ack : Bool) (stretch : Nat) (s : State) : Out :=
  .next <| match s.power.pmic with
    | some op =>
      if s.tw.active ≠ some .pm then s else
      let long := maxStretch < stretch
      let s0 := s.reach (s.tw.since + min stretch maxStretch)
      let s1 : State := { s0 with tw := { s0.tw with active := none, last := if long then Status.busy else 0 } }
      if ack ∧ !long then
        { s1 with ao.vcode := op.codes.headD 30, power.pmic := some { op with settleBy := some (s1.now + 50000) } }
      else if op.retried then s1.pmicFail op
      else { s1 with power.pmic := some { op with retried := true, retryAt := some (s1.now + 100000) } }
    | none => s

/-- PMIC_RETRY_TIMER (R524): the code is written again, or the work that needed it is gone. -/
def execPmicRetryTimer (s : State) : Out :=
  .next <| match s.power.pmic with
    | some op => match op.retryAt with
      | some d =>
        let s1 := s.reach d
        if s1.power.pstate = .dusk ∧ op.failed ∧ s1.workIdle then
          ({ s1 with power.pmic := none } : State).setDoms gatedDoms .gated
        else if op.why = .toBoost ∧ op.failed ∧ !s1.power.boostOk then s1.startPmic [30] .toNoon
        else ({ s1 with power.pmic := some { op with retryAt := none } } : State).sendPmic (op.codes.headD 30)
      | none => s
    | none => s

/-- The DUSK point that a cancelled entry asks for (R65) is sought again once a change of point is complete. -/
def State.settleDusk (s : State) : State :=
  if s.power.duskDue then ({ s with power.duskDue := false } : State).seekDusk else s

/-- Work that came during a change to the DUSK point leads on to NOON (R56). -/
def State.settleWork (s : State) : State :=
  if s.power.workDue || !s.workIdle then ({ s with power.workDue := false } : State).toNoon else s

/-- A change of point is complete (R79). Forward bias follows only inside its window (R78), and the boost point only
while the policy still asks for it (R80): else the voltage goes back. -/
def State.pmicDone (s : State) (why : PmicWhy) : State :=
  let s1 := { s with power.pmic := none }
  match why with
  | .toNoon =>
    ((({ s1 with power.rdAssist := false, power.wrAssist := false, power.pstate := .noon, power.idle.dusk := s1.now } : State
    ).wakeDomains [dLNL, dAUD]).seekBoost.firnNext).settleDusk
  | .toDusk => if s1.power.pstate = .night then s1 else
    ({ s1.setDoms gatedDoms .gated with power.pstate := .dusk, power.idle.night := s1.now } : State).settleWork
  | .toBoost =>
    if !s1.power.boostOk then s1.startPmic [30] .fromBoost else
    ((({ s1 with
      power.fwdBias := true, power.firnFull := true, power.pstate := .boost, power.idle.boost := s1.now } : State
    ).wakeDomains [dLNL, dAUD]).firnNext).settleDusk
  | .fromBoost =>
    ((({ s1 with power.pstate := .noon, power.idle.dusk := s1.now } : State).wakeDomains [dLNL, dAUD]).firnNext).settleDusk
  | .boot => (({ s1 with power.rdAssist := false, power.wrAssist := false } : State).firnNext).settleDusk
  | .glacierWake => s1.settleWork

/-- PMIC_SETTLE_EXPIRY (R49, R79): the next code is written, with both assists off above code 36, or
the change completes. On the way from DUSK to a boost point that is no longer asked for, code 30 follows. -/
def execPmicSettleExpiry (s : State) : Out :=
  .next <| match s.power.pmic with
    | some op => match op.settleBy with
      | some d =>
        let s1 := s.reach d
        match op.codes.drop 1 with
        | [] => s1.pmicDone op.why
        | c :: cs =>
          let s2 : State := { s1 with power.rdAssist := false, power.wrAssist := false }
          if op.why = .toBoost ∧ !s2.power.boostOk then s2.startPmic [30] .toNoon else s2.startPmic (c :: cs) op.why
      | none => s
    | none => s

/-- TJ_UPDATE (R80, R487): above 95 °C the boost point is left and held off until 90 °C. -/
def execTjUpdate (tj : Int) (s : State) : Out :=
  .next <|
    let s1 := { s with power.tj := tj }
    let s2 : State := if 380 < tj then
        let s3 : State := { s1 with power.thermalHold := true }
        if s3.power.pstate = .boost ∧ !s3.power.leaveBoost then
          (s3.raise 0x93 (BitVec.ofInt 32 tj)).leaveBoost
        else s3
      else if tj ≤ 360 then { s1 with power.thermalHold := false } else s1
    s2.seekBoost.firnThermal

/-! ### Light-wake (R81 to R83) -/

/-- A sample against the reference: above 103 %, below 97 %, or neither. -/
def lwClass (vref uv : Nat) : LwLevel :=
  if vref * 103 < uv * 100 then .high else if uv * 100 < vref * 97 then .low else .none

/-- The tracking reference (R81): one step of 1.17 mV towards the sample every 16 samples, and a jump
after 64 samples in a row more than 25 % away. -/
def LightWake.track (x : LightWake) (uv : Nat) : LightWake :=
  let far := x.vref < 4 * (max uv x.vref - min uv x.vref)
  let run := if far then x.farRun + 1 else 0
  if run = 64 then { x with vref := uv, farRun := 0, sinceStep := 0 } else
  if x.sinceStep = 15 then
    { x with farRun := run, sinceStep := 0,
             vref := if x.vref < uv then x.vref + 1170 else if uv < x.vref then x.vref - 1170 else x.vref }
  else { x with farRun := run, sinceStep := x.sinceStep + 1 }

/-- The Manchester bit of four samples (R82): two agreeing half-bits, LOW then HIGH is 1. -/
def lwBit : List LwLevel → Option Bool
  | [.low, .low, .high, .high] => some true
  | [.high, .high, .low, .low] => some false
  | _ => none

/-- The number of a bit string, first bit most significant. -/
def bitsVal (bs : List Bool) : Nat := bs.foldl (fun a b => 2 * a + b2n b) 0

/-- A decoded bit joins the frame search (R82): at least 4 preamble bits and the sync 0x2D, then 32
bits of group ID and check. -/
def LightWake.addBit (x : LightWake) (b : Bool) : LightWake :=
  match x.body with
  | some got =>
    let got := got ++ [b]
    if got.length = 32 then
      { x with body := none, bits := [],
               frame := some (BitVec.ofNat 16 (bitsVal (got.take 16)), BitVec.ofNat 16 (bitsVal (got.drop 16))) }
    else { x with body := some got }
  | none =>
    let bs := (x.bits ++ [b]).drop ((x.bits.length + 1) - 12)
    if bs.length = 12 ∧ bitsVal bs = 0xA2D then { x with bits := [], body := some [] } else { x with bits := bs }

/-- A classified sample joins the bit under decision; an invalid bit restarts the frame search. -/
def LightWake.addSample (x : LightWake) (l : LwLevel) : LightWake :=
  let w := x.samples ++ [l]
  if w.length < 4 then { x with samples := w } else
  match lwBit w with
  | some b => ({ x with samples := [] } : LightWake).addBit b
  | none => { x with samples := w.drop 1, bits := [], body := none }

/-- LIGHT_WAKE_SAMPLE (R47, R81, R82): the voltages of `OPT_RSSI_A` and `OPT_RSSI_B` in µV. The detector runs while PD_TKP
is on and `LW_EN` is set, samples the ball of the lane that was active at the last entry to NIGHT or GLACIER, saturates
above 1.2 V, and decodes while `VREF` is at least 60 mV. -/
def execLightWakeSample (a b : Nat) (s : State) : Out :=
  .next <|
    if !s.domOn dTKP || !s.wakeCfg.set.getLsbD 8 || !s.ballActs (.optics s.power.lw.lane) then s else
    let uv := min 1200000 (if s.power.lw.lane = 0 then a else b)
    let x := s.power.lw.track uv
    { s with power.lw := if 60000 ≤ x.vref then x.addSample (lwClass s.power.lw.vref uv)
                         else { x with samples := [], bits := [], body := none } }

/-- LIGHT_WAKE_FRAME (R83): the decoded frame's check and group. -/
def execLightWakeFrame (s : State) : Out :=
  .next <| match s.power.lw.frame with
    | none => s
    | some (g, c) =>
      let s1 := { s with power.lw.frame := none }
      if c.toNat ≠ (crc16 (beBytes 2 g.toNat)) ^^^ s.power.lw.site.toNat then
        { s1 with power.lw.badchk := satInc 65535 s1.power.lw.badchk }
      else if (g ≠ 0 ∧ g = s.power.lw.group) ∨ (g = 0xFFFF ∧ s.wakeCfg.bcast) then
        if (s.power.pstate = .night ∨ s.power.pstate = .glacier) ∧ s.power.wake = none then
          ({ s1 with power.lw.hits := satInc 65535 s1.power.lw.hits } : State).aoAssert 8 (g.setWidth 32)
        else
          ({ s1 with power.lw.ignored := satInc 65535 s1.power.lw.ignored } : State).raise 0x08 (g.setWidth 32)
      else s1

/-! ### The POWER commands (R86) -/

/-- The wake record's bytes (Table 3.7). -/
def WakeRec.bytes (r : WakeRec) : List Byte :=
  [r.src, r.dst, r.step, r.detail] ++ leBytes 2 r.fails ++ leBytes 2 r.elapsed

/-- The 24 bytes of `POWER.STATUS` (Table 3.13). -/
def powerStatus (s : State) : List Byte :=
  let p := s.power
  leBytes 1 p.pstate.code ++ leBytes 1 (match s.floor with | some f => f.code | none => 0xFF)
    ++ leBytes 1 (if p.pstate = .night then p.night.cycle else 0)
    ++ leBytes 1 (b2n p.boostAuto + 2 * b2n (p.pstate == .boost) + 4 * b2n p.thermalHold)
    ++ leInt 2 p.tj ++ leBytes 2 p.lw.group.toNat ++ leBytes 2 p.lw.hits ++ leBytes 2 p.lw.ignored
    ++ leBytes 2 p.lw.badchk ++ s.ao.wake.bytes ++ leBytes 2 p.night.missed

/-- POWER_STATUS. -/
def execPowerStatus (t : Ten) (n : SlotIx) (s : State) : Out :=
  command 0x0401 [] t n s fun s => s.answer t n (powerStatus s)

/-- The result of an accepted `POWER.SET_STATE`: the state code. -/
def State.stateAnswer (s : State) (t : Ten) (n : SlotIx) : State :=
  s.answer t n (leBytes 1 s.power.pstate.code)

/-- The state a target byte names. -/
def targetState (b : Nat) : PState :=
  if b = 3 then .night else if b = 4 then .glacier else .permafrost

/-- POWER_SET_STATE (R57, R60, R61, R62, R86). DESIGN CHOICE (log entry 334): NIGHT commanded in an activation state other
than IN_SERVICE is accepted with `OK`, and its `SLEEP_REQ` waits in the LMM queue for a burst that can carry it. -/
def execPowerSetState (t : Ten) (n : SlotIx) (s : State) : Out :=
  commandBy 0x0402 t n s fun s =>
    let b := s.prm1 t n 0
    let f := s.prm1 t n 1
    let force := bit f 0
    let target := targetState b
    let night := b = 3 || b = 4
    s.guard t n [(force && !s.ownerAt t n, Status.authority),
                 (b < 2 || 5 < b || 7 < f || s.stray t n [(0, 2)] || (bit f 1 && bit f 2), Status.param)] fun s =>
      if b = 2 then
        if s.power.pstate = .night ∨ s.power.night.granted then (s.stateAnswer t n).nightTrigger 0x02
        else s.stateAnswer t n
      else if !force && !s.floorAllows target then s.done t n Status.state
      else match (if force then s.hardBlocker night else s.blocker night) with
        | some st => s.done t n st
        | none =>
          let s1 := if force then s.clearForcible else s
          let s2 := s1.stateAnswer t n
          if b = 3 then (s2.requestSleep 1 force).leaveBoost
          else if b = 4 then
            s2.acceptEntry .glacier (if bit f 1 then true else if bit f 2 then false else s.power.cfg.glacierRetain) t force
          else s2.acceptEntry .permafrost false t force

/-- POWER_FLOOR (R57, R86). -/
def execPowerFloor (t : Ten) (n : SlotIx) (s : State) : Out :=
  command 0x0403 [(0, 1)] t n s fun s =>
    let b := s.prm1 t n 0
    s.guard t n [(b != 0 && b != 2 && b != 3 && b != 4 && b != 0xFF, Status.param)] fun s =>
      let f := if b = 0xFF then none else some (if b = 0 then PState.noon else if b = 2 then .dusk else targetState b)
      let s1 := s.modTen t fun x => { x with floor := f }
      (s1.answer t n (leBytes 1 (match s1.floor with | some g => g.code | none => 0xFF))).retryAuto

/-- The values `POWER.TIMERS` gives (Table 3.14). -/
def timerParams (ps : List Byte) : TimerCfg :=
  { tDusk := leAt ps 0 4, tNight := leAt ps 4 4, tGlacier := leAt ps 8 4, tDark := leAt ps 12 4,
    tInf := leAt ps 16 4, tAud := leAt ps 20 4, tLnl := leAt ps 24 4, tLnlProbe := leAt ps 28 4,
    tBoost := leAt ps 32 4, tNotice := leAt ps 36 4, cMax := leAt ps 40 4,
    glacierAuto := bit (leAt ps 44 4) 0, glacierRetain := bit (leAt ps 44 4) 1 }

/-- Whether a value lies in a range. -/
def within (lo hi v : Nat) : Bool := lo ≤ v && v ≤ hi

/-- The ranges of Table 3.2 and Table 3.14. -/
def TimerCfg.ok (c : TimerCfg) : Bool :=
  within 1 60000 c.tDusk && within 0 86400 c.tNight && within 60 604800 c.tGlacier && within 60 86400 c.tDark
    && within 1 60000 c.tInf && within 10 60000 c.tAud && within 1 3600 c.tLnl && within 100 10000 c.tLnlProbe
    && within 1 1000 c.tBoost && within 0 10000 c.tNotice
    && (c.cMax == 4 || c.cMax == 8 || c.cMax == 16 || c.cMax == 32 || c.cMax == 64)

/-- POWER_TIMERS (R55, R86). -/
def execPowerTimers (t : Ten) (n : SlotIx) (s : State) : Out :=
  command 0x0404 [(0, 48)] t n s fun s =>
    let c := timerParams (s.params t n)
    let f := s.prm t n 44 4
    s.guard t n [(7 < f || !c.ok, Status.param), (bit f 2 && s.configBusy, Status.regionBusy)] fun s =>
      let s1 := { s with power.cfg := c }
      ((if bit f 2 then ({ s1 with store.timers := some c } : State).persisted else s1).done t n Status.ok).retryAuto

/-- POWER_WAKE_CFG (R86, R177). -/
def execPowerWakeCfg (t : Ten) (n : SlotIx) (s : State) : Out :=
  command 0x0405 [(0, 6)] t n s fun s =>
    let pin (i : Fin 4) := s.prm1 t n i.val
    let f := s.prm1 t n 5
    let set := (s.power.wcfg.set &&& 0xFFFFFEF0#32) ||| BitVec.ofNat 32 (bitsOf 4 fun i => bit (pin i) 0)
      ||| BitVec.ofNat 32 (256 * b2n (bit f 0))
    s.guard t n [((List.finRange 4).any (fun i => 7 < pin i) || 3 < f || 16 < setSizeOf set, Status.param)] fun s =>
      ({ s with power.wcfg := { set := set, pinHigh := BitVec.ofNat 4 (bitsOf 4 fun i => bit (pin i) 1)
                                pinEdge := BitVec.ofNat 4 (bitsOf 4 fun i => bit (pin i) 2)
                                debounce := s.prm1 t n 4, bcast := bit f 1 } } : State).done t n Status.ok

/-- POWER_BOOST (R80, R86). -/
def execPowerBoost (t : Ten) (n : SlotIx) (s : State) : Out :=
  command 0x0406 [(0, 1)] t n s fun s =>
    let b := s.prm1 t n 0
    s.guard t n [(1 < b, Status.param)] fun s =>
      let s1 := { s with power.boostAuto := b == 1 }
      (if b = 0 then s1.leaveBoost else s1.seekBoost).done t n Status.ok

end Sys2Proof.Machine
end

