-- ==== Sys2Proof/Machine/Lanes.lean ====
section
/-!
DEFINITION. The lanes (R183 to R208): lock and loss, protection timers, local links and their MACs, and the
`LANE` commands.
-/

namespace Sys2Proof.Machine

/-! ### Code-groups (R184, R188, R191) -/

/-- A fibre lane in Lineatex mode. -/
def State.lineatex (s : State) (i : Fin 4) : Bool := decide (i.val < 2) && !(s.phy i).raw

/-- The special code-groups a lane's mode uses (R184, R185): all in raw mode. -/
def State.uses (s : State) (i : Fin 4) (b : Nat) : Bool :=
  if (s.phy i).raw then true else if i.val < 2 then lineatexUses b else clause36Uses b

/-- The fibre lane of a lane index below 2. -/
def fibreOf (i : Fin 4) : Fin 2 := Fin.ofNat 2 i.val

/-- The local lane of a lane index from 2 on. -/
def localOf (i : Fin 4) : Fin 2 := Fin.ofNat 2 (i.val - 2)

/-- The receive pair of a lane is inverted (R203, Table 8.7). -/
def State.inverted (s : State) (i : Fin 4) : Bool :=
  if i.val < 2 then s.lanes.prot.cfg.invert.getLsbD (2 * i.val + 1) else (s.local_ (localOf i)).cfg.invert.getLsbD 1

/-- Code-groups as the lane's receiver sees them. -/
def State.heard (s : State) (i : Fin 4) (gs : List CodeGroup) : List CodeGroup :=
  if s.inverted i then gs.map fun g => ~~~g else gs

/-- Code-groups judged (R184): `rd` is the running disparity the stream has reached, negative at the lane's reset. -/
def State.judged (s : State) (i : Fin 4) (rd : Bool) (gs : List CodeGroup) : List Judged :=
  judgeAll (s.uses i) (s.heard i gs) (rd && (s.phy i).seen)

/-- Judged code-groups marked by the lane's mode (R186). -/
def State.marks (s : State) (i : Fin 4) (js : List Judged) : List Mark :=
  if s.lineatex i then lineMarks js else js.map Judged.mark

/-- Received code-groups kept and counted: the last 24, the invalid ones, and disparity errors. -/
def Phy.take (p : Phy) (gs : List CodeGroup) (js : List Judged) (ms : List Mark) : Phy :=
  let all := p.recent ++ List.zipWith captureWord gs js
  { p with
    recent := all.drop (all.length - 24)
    invalid := satTo (2 ^ 32 - 1) (p.invalid + invalids ms)
    disparity := satTo (2 ^ 32 - 1) (p.disparity + (js.filter (· == .wrongColumn)).length)
    seen := p.seen || gs != [] }

/-- Received code-groups judged and kept. -/
def State.takeGroups (s : State) (i : Fin 4) (rd : Bool) (gs : List CodeGroup) : State :=
  let js := s.judged i rd gs
  s.modPhy i fun p => p.take (s.heard i gs) js (s.marks i js)

/-- The domain of a lane. -/
def laneDom (i : Fin 4) : Dom := if i.val < 2 then dLNA else dLNL

/-- A lane's receiver is on: its domain is, it is fitted, and it is not the standby lane in NIGHT (R54, R183). -/
def State.laneOn (s : State) (i : Fin 4) : Bool := if i.val < 2 then s.fibreOn (fibreOf i) else s.localOn (localOf i)

/-- A lane is judged by Table 8.3: a fibre lane, or any lane in raw mode (R188). -/
def State.byTable (s : State) (i : Fin 4) : Bool := decide (i.val < 2) || (s.phy i).raw

/-- A lane gets no light (Table 8.3); only a fibre lane has `OPT_LOS`. -/
def State.noLight (s : State) (i : Fin 4) : Bool := decide (i.val < 2) && s.pads.los.getLsbD i.val

/-- A fibre lane locks (R188): a lane without a loss since it was powered is good at once, one that returns
has 10 ms to hold (R190). A lock of the active lane within its hold-off is a hit, and no switch follows (R196), unless the
lane was lost by its pull check (R200). -/
def State.fibreLocks (s : State) (l : Fin 2) : State :=
  let s1 := s.modPhy (fibreIx l) fun p => { p with
    lock := true, good := !p.lost, qualBy := if p.lost then some (s.now + 10000000) else none }
  let hit := l == s1.lanes.prot.active && s1.lanes.prot.holdBy.isSome && !s1.txFault l
  let s2 : State := if hit then
      { s1 with lanes.prot := { s1.lanes.prot with
          holdBy := none, hits := s1.lanes.prot.hits.set l (satInc 65535 s1.lanes.prot.hits[l]) } }
    else s1
  (s2.raise (Fin.ofNat 256 (0x40 + l.val)) 1).updateWtr.tellDefects

/-- LANE_LOCK (R188, R190, R192): judged at the present boundary by the criteria of Table 8.3; `cdr` is the CDR's
frequency lock. A local lane in its normal mode synchronises by Clause 36 instead (R189), and a slip is awaited first. -/
def execLaneLock (lane : Fin 4) (rd cdr : Bool) (groups : List CodeGroup) (s : State) : Out :=
  .next <|
    let js := s.judged lane rd groups
    if !s.laneOn lane || (s.phy lane).lock || s.noLight lane || (s.phy lane).slip.isSome then s else
    let s1 := s.takeGroups lane rd groups
    if !cdr || !lockMet js (s.marks lane js) || !s.byTable lane then s1
    else if lane.val < 2 then s1.fibreLocks (fibreOf lane)
    else s1.modPhy lane fun p => { p with lock := true }

/-- LANE_LOSS (R188): 16 invalid code-groups within 64 symbols, or the CDR loses lock (`cdr`). -/
def execLaneLoss (lane : Fin 4) (rd : Bool) (groups : List CodeGroup) (cdr : Bool) (s : State) : Out :=
  .next <|
    if !s.laneOn lane then s else
    let s1 := s.takeGroups lane rd groups
    if !(s.phy lane).lock || !(cdr || lossMet (s.marks lane (s.judged lane rd groups))) || !s.byTable lane then s1
    else if lane.val < 2 then s1.loseLane (fibreOf lane)
    else s1.modPhy lane fun p => { p with lock := false, losses := satInc 65535 p.losses }

/-- OPT_LOS_CHANGE (R188, Table 7.1): the level after its filter; a high level is a loss, and a change asserts source
0x0D or 0x0E. -/
def execOptLosChange (lane : Fin 2) (level : Bool) (s : State) : Out :=
  .next <|
    let mask := 1#2 <<< lane.val
    let s1 : State := { s with pads.los := if level then s.pads.los ||| mask else s.pads.los &&& ~~~mask }
    if !s.ballActs (.optics lane) then s1 else
    let s2 := if s.pads.los.getLsbD lane.val = level then s1
      else s1.aoAssert (Fin.ofNat 32 (0x0D + lane.val)) (BitVec.ofNat 32 (b2n level))
    if level then s2.darkLane lane else s2

/-- A local lane's link is up (R202): held queues drain, its tenants are reachable. -/
def State.linkUp (s : State) (l : Fin 2) : State :=
  ((s.modPhy (localIx l) fun p => { p with good := true, qualBy := none }).modLocal l fun x =>
    { x with holdBy := none }).raise (Fin.ofNat 256 (0x44 + l.val)) 1

/-- LANE_RELOCK_QUALIFIED (R190): 10 ms of lock or link without a loss. -/
def execLaneRelockQualified (lane : Fin 4) (s : State) : Out :=
  .next <| match (s.phy lane).qualBy with
    | some d =>
      let s1 := s.reach d
      if !(s.phy lane).lock then s1
      else if lane.val < 2 then
        (s1.modPhy lane fun p => { p with good := true, qualBy := none }).resumeActive.updateWtr.tellDefects
      else s1.linkUp (localOf lane)
    | none => s

/-! ### Protection timers (R196, R198) -/

/-- HOLD_OFF_EXPIRY (R196, R198): the lost lane has not locked again, so an eligible standby takes over. -/
def execHoldOffExpiry (s : State) : Out :=
  .next <| State.retryAuto <| match s.lanes.prot.holdBy with
    | some d =>
      let s1 : State := { s.reach d with lanes.prot.holdBy := none }
      if s1.laneEligible s1.standby && !s1.lanes.prot.lockout then s1.switchTo s1.standby else s1
    | none => s

/-- WAIT_TO_RESTORE_EXPIRY (R198): the preferred lane has stayed eligible. -/
def execWaitToRestoreExpiry (s : State) : Out :=
  .next <| match s.lanes.prot.wtrBy with
    | some d =>
      let s1 := s.reach d
      let p := s1.lanes.prot
      if p.lockout || !s1.laneEligible p.cfg.preferred || p.active == p.cfg.preferred then s1
      else s1.switchTo p.cfg.preferred
    | none => s

/-! ### Local links (R189, R190, R201 to R203) -/

/-- Pause as IEEE 802.3 Annex 28B resolves it from both sides' `PS1` and `PS2`: reception, transmission. -/
def resolvePause (ps1 ps2 them1 them2 : Bool) : Bool × Bool :=
  if ps1 && them1 then (true, true)
  else if !ps1 && ps2 && them1 && them2 then (false, true)
  else if ps1 && ps2 && !them1 && them2 then (true, false)
  else (false, false)

/-- What a partner's word makes of a local lane (Table 8.5): none while it holds the link down. -/
def LocalLane.negotiate (x : LocalLane) (mode : Byte) (ps1 ps2 : Bool) : Option LocalLane :=
  let c := x.cfg
  let plain := { x with rxPause := c.pauseRx, txPause := c.pauseTx, negotiated := false }
  if c.mode = 1 then
    if mode.getLsbD 2 || mode.toNat % 4 == 3 then none else some { plain with speed := mode.toNat % 4, negotiated := true }
  else if c.mode = 2 ∧ c.an then
    let (rx, tx) := resolvePause c.pauseRx c.pauseTx ps1 ps2
    some { x with speed := 2, negotiated := true, rxPause := rx, txPause := tx }
  else some { plain with speed := if c.mode = 3 then 3 else 2 }

/-- The counts a partner's word brings (Table 8.5): half-duplex words, remote faults. -/
def LocalLane.countWord (x : LocalLane) (mode : Byte) : LocalLane :=
  { x with
    halfDuplex := if x.cfg.mode = 1 ∧ mode.getLsbD 2 then satInc 65535 x.halfDuplex else x.halfDuplex
    remoteFaults := if x.cfg.mode = 2 ∧ x.cfg.an ∧ mode.toNat / 8 % 4 ≠ 0 then satInc 65535 x.remoteFaults
      else x.remoteFaults }

/-- LOCAL_LINK_UP (R189, R190, R202): the lane is synchronised and negotiation, where it runs, is complete.
`mode` is the partner's word: speed, half duplex, remote fault. -/
def execLocalLinkUp (lane : Fin 2) (mode : Byte) (pauseRx : Bool) (pauseTx : Bool) (s : State) : Out :=
  .next <|
    let i := localIx lane
    if !s.localOn lane || (s.phy i).raw || (s.phy i).lock then s else
    let s1 := s.modLocal lane fun x => x.countWord mode
    match (s1.local_ lane).negotiate mode pauseRx pauseTx with
    | none => s1
    | some x =>
      let s2 := s1.modLocal lane fun _ => x
      if (s.phy i).lost then s2.modPhy i fun p => { p with lock := true, qualBy := some (s.now + 10000000) }
      else (s2.modPhy i fun p => { p with lock := true }).linkUp lane

/-- LOCAL_LINK_DOWN (R201). -/
def execLocalLinkDown (lane : Fin 2) (s : State) : Out := .next (s.dropLocal lane)

/-- EGRESS_HOLD_EXPIRY (R201): without link the lane's egress queues are flushed. -/
def execEgressHoldExpiry (lane : Fin 2) (s : State) : Out :=
  .next <| match (s.local_ lane).holdBy with
    | some d =>
      let s1 := (s.reach d).modLocal lane fun x => { x with holdBy := none }
      if s1.laneLink lane then s1 else s1.flushEgress lane
    | none => s

/-! ### The local MACs (R204 to R207, R367) -/

/-- Picoseconds of a bit at a speed code (R205). -/
def bitPs (speed : Nat) : Nat := if speed = 0 then 100000 else if speed = 1 then 10000 else if speed = 2 then 1000 else 400

/-- Nanoseconds of a PAUSE time (R205). -/
def quantaNs (speed quanta : Nat) : Nat := quanta * 512 * bitPs speed / 1000

/-- A PAUSE frame received (R205): counted and reported; honoured when reception is on, after the frame that
is being sent. -/
def State.pauseReceived (s : State) (l : Fin 2) (quanta : Nat) : State :=
  let s1 := s.modLocal l fun x => { x with
    pauseRxN := inc32 x.pauseRxN
    pausedBy := if !x.rxPause then x.pausedBy
      else if quanta = 0 then none else some (max s.now x.busyTo + quantaNs x.speed quanta) }
  let s2 := if (s1.local_ l).pausedBy.isNone then
      (s1.local_ l).macq.foldl (fun s f => s.macSend l f) (s1.modLocal l fun x => { x with macq := [] })
    else s1
  s2.raise (Fin.ofNat 256 (0x46 + l.val)) (BitVec.ofNat 32 quanta)

/-- Whether a MAC control frame is a PAUSE frame for the lane (R205). -/
def State.isPause (s : State) (l : Fin 2) (f : List Byte) : Bool :=
  beAt f 14 2 == 1 && (f.take 6 == [0x01, 0x80, 0xC2, 0x00, 0x00, 0x01] || f.take 6 == s.laneMac l)

/-- A good frame sorted (R204, R207): MAC control, in-band and attach frames are taken by the MAC, the rest
goes to the lane's ingress FIFO, marked `OVERSIZE` beyond 9,216 bytes. -/
def State.macSort (s : State) (l : Fin 2) (f : List Byte) : State :=
  let e := beAt f 12 2
  let s1 := s.modLocal l fun x => { x with rxFrames := inc32 x.rxFrames }
  if e = 0x8808 then
    if s.isPause l f then s1.pauseReceived l (beAt f 16 2)
    else if beAt f 14 2 = 1 then s1
    else s1.modLocal l fun x => { x with ctlDrop := inc32 x.ctlDrop }
  else if e = 0x88B5 ∨ e = 0x88B6 then s1
  else
    let big := 9216 < f.length + 4
    let s2 := if big then s1.modLocal l fun x => { x with oversize := inc32 x.oversize } else s1
    (s2.ingress { bytes := f, src := Fin.ofNat 4 (1 + l.val), oversize := big }).touch.toNoon

/-- MAC_FRAME_RECEIVE (R204): a frame from its destination address to its last payload byte, and whether its
FCS stood; its length counts the FCS. -/
def execMacFrameReceive (lane : Fin 2) (frame : List Byte) (fcsOk : Bool) (s : State) : Out :=
  .next <|
    if !s.laneLink lane then s
    else if !fcsOk ∨ frame.length < 60 ∨ 16379 < frame.length then
      s.modLocal lane fun x => { x with fcsErr := inc32 x.fcsErr }
    else s.macSort lane frame

/-- PAUSE_FRAME_RECEIVED (R205). -/
def execPauseFrameReceived (lane : Fin 2) (quanta : Half) (s : State) : Out :=
  .next <|
    if s.laneLink lane then
      (s.modLocal lane fun x => { x with rxFrames := inc32 x.rxFrames }).pauseReceived lane quanta.toNat
    else s

/-- PAUSE_TIME_END (R205): the port may send again. -/
def execPauseTimeEnd (lane : Fin 2) (s : State) : Out :=
  .next <| match (s.local_ lane).pausedBy with
    | some d =>
      let s1 := (s.reach d).modLocal lane fun x => { x with pausedBy := none, macq := [] }
      (s.local_ lane).macq.foldl (fun s f => s.macSend lane f) s1
    | none => s

/-- A PAUSE frame sent (R206). -/
def State.sendPause (s : State) (l : Fin 2) (quanta : Nat) : State :=
  (s.emit (.pause l (BitVec.ofNat 16 quanta))).modLocal l fun x => { x with
    pauseTxN := inc32 x.pauseTxN, txFrames := inc32 x.txFrames }

/-- The instant at which half of the sent quanta time has passed (R206). -/
def LocalLane.repeatAt (x : LocalLane) (now : Nat) : Nat := now + quantaNs x.speed x.cfg.quanta / 2

/-- XOFF_CROSSING (R206, R367): the ingress FIFO stands at or above `XOFF`. -/
def execXoffCrossing (lane : Fin 2) (s : State) : Out :=
  .next <|
    let x := s.local_ lane
    if x.xoff || s.fifoFill (Fin.ofNat 4 (1 + lane.val)) < 1024 * s.tm.buf.xoff[lane] then s else
    let s1 : State := { s with tm.xoffCnt := s.tm.xoffCnt.set lane (inc32 s.tm.xoffCnt[lane]) }
    let s2 := s1.modLocal lane fun y => { y with
      xoff := true, repeatBy := if y.txPause then some (y.repeatAt s.now) else none }
    if x.txPause && s.laneLink lane then s2.sendPause lane x.cfg.quanta else s2

/-- XON_CROSSING (R206, R367): the ingress FIFO has fallen below `XON`. -/
def execXonCrossing (lane : Fin 2) (s : State) : Out :=
  .next <|
    let x := s.local_ lane
    if !x.xoff || 1024 * s.tm.buf.xon[lane] ≤ s.fifoFill (Fin.ofNat 4 (1 + lane.val)) then s else
    let s1 := s.modLocal lane fun y => { y with xoff := false, repeatBy := none }
    if x.txPause && s.laneLink lane then s1.sendPause lane 0 else s1

/-- PAUSE_REPEAT (R206): the frame again while the ingress stays above `XON`. -/
def execPauseRepeat (lane : Fin 2) (s : State) : Out :=
  .next <| match (s.local_ lane).repeatBy with
    | some d =>
      let s1 := s.reach d
      let x := s1.local_ lane
      if x.xoff && x.txPause then
        (if s1.laneLink lane then s1.sendPause lane x.cfg.quanta else s1).modLocal lane fun y => { y with repeatBy := some (y.repeatAt s1.now) }
      else s1.modLocal lane fun y => { y with repeatBy := none }
    | none => s

/-! ### The LANE commands (R208) -/

/-- `STATE` of Table 8.8. -/
def State.laneState (s : State) (i : Fin 4) : Nat :=
  if !s.fitted i then 1
  else if !s.laneOn i then 0
  else if (s.phy i).raw then 4
  else if (if i.val < 2 then (s.phy i).lock else (s.phy i).good) then 3 else 2

/-- `ROLE` of Table 8.8. -/
def State.laneRole (s : State) (i : Fin 4) : Nat :=
  if 2 ≤ i.val then 3
  else if s.activeLane = some (fibreOf i) then 0
  else if s.laneEligible (fibreOf i) then 1 else 2

/-- The 52 bytes of `LANE.STATUS` (Table 8.8). -/
def laneStatus (s : State) (i : Fin 4) : List Byte :=
  let p := s.phy i
  let f := fibreOf i
  let isLocal := decide (2 ≤ i.val)
  let x : LocalLane := if isLocal then s.local_ (localOf i) else {}
  let prot := s.lanes.prot
  let link := (if isLocal then x.speed + 4 * b2n x.negotiated else 0)
    + (if isLocal then 0 else 8 * b2n prot.lockout + 16 * b2n prot.wtrBy.isSome + 32 * b2n (s.txFault f))
  let pause := b2n (isLocal && x.rxPause) + 2 * b2n (isLocal && x.txPause) + 4 * b2n (isLocal && x.pausedBy.isSome)
  [BitVec.ofNat 8 i.val, BitVec.ofNat 8 (s.laneState i), BitVec.ofNat 8 (s.laneRole i),
   BitVec.ofNat 8 (if p.raw then 4 else if isLocal then x.cfg.mode else 0), BitVec.ofNat 8 link, BitVec.ofNat 8 pause, 0, 0]
    ++ leBytes 4 p.invalid ++ leBytes 4 p.disparity ++ leBytes 2 p.losses
    ++ leBytes 2 (if isLocal then 0 else prot.hits[f]) ++ leBytes 2 (if isLocal then 0 else prot.switches[f]) ++ [0, 0]
    ++ leBytes 4 x.fcsErr ++ leBytes 4 x.pauseRxN ++ leBytes 4 x.pauseTxN ++ leBytes 4 x.ctlDrop ++ leBytes 4 x.oversize
    ++ leBytes 4 x.rxFrames ++ leBytes 4 x.txFrames

/-- A lane's counters at zero. -/
def State.clearLane (s : State) (i : Fin 4) : State :=
  let s1 := s.modPhy i fun p => { p with invalid := 0, disparity := 0, losses := 0 }
  if i.val < 2 then
    { s1 with lanes.prot := { s1.lanes.prot with
        hits := s1.lanes.prot.hits.set (fibreOf i) 0, switches := s1.lanes.prot.switches.set (fibreOf i) 0 } }
  else s1.modLocal (localOf i) fun x => { x with
    fcsErr := 0, pauseRxN := 0, pauseTxN := 0, ctlDrop := 0, oversize := 0, rxFrames := 0, txFrames := 0
    halfDuplex := 0, remoteFaults := 0 }

/-- LANE_STATUS. -/
def execLaneStatus (t : Ten) (n : SlotIx) (s : State) : Out :=
  command 0x0701 [(0, 2)] t n s fun s =>
    let b := s.prm1 t n 0
    let f := s.prm1 t n 1
    let i : Fin 4 := Fin.ofNat 4 b
    s.guard t n [(3 < b || 1 < f, Status.param)] fun s =>
      (if bit f 0 then s.clearLane i else s).answer t n (laneStatus s i)

/-- A configuration of the fibre lanes (R198). -/
def protParams (ps : List Byte) : ProtCfg :=
  { revertive := bit (byteAt ps 1) 0, preferB := bit (byteAt ps 1) 1, holdOffUs := leAt ps 2 2, wtrS := leAt ps 4 2,
    invert := BitVec.ofNat 4 (byteAt ps 6) }

/-- A configuration of a local lane. -/
def localParams (ps : List Byte) : LocalCfg :=
  { mode := byteAt ps 1, an := bit (byteAt ps 2) 0, pauseRx := bit (byteAt ps 2) 1, pauseTx := bit (byteAt ps 2) 2,
    invert := BitVec.ofNat 2 (byteAt ps 3), holdMs := leAt ps 4 2, quanta := leAt ps 6 2 }

/-- A lane named by a command is absent (R208). -/
def State.absentLane (s : State) (b : Nat) : Bool := decide (b < 4) && !s.fitted (Fin.ofNat 4 b)

/-- `LANE.CONFIG` of the fibre lanes. -/
def State.configFibre (s : State) (t : Ten) (n : SlotIx) : State :=
  let ps := s.params t n
  let c := protParams ps
  let f := byteAt ps 7
  s.guard t n [(3 < byteAt ps 1 || 1000 < c.holdOffUs || !within 10 3600 c.wtrS || 15 < byteAt ps 6 || 1 < f
                  || s.stray t n [(0, 8)], Status.param),
               (s.absentLane 0, Status.state), (bit f 0 && s.configBusy, Status.regionBusy)] fun s =>
    let s1 := ({ s with lanes.prot.cfg := c } : State).updateWtr
    (if bit f 0 then ({ s1 with store.prot := some c } : State).persisted else s1).done t n Status.ok

/-- `LANE.CONFIG` of a local lane (R202): its link goes down and returns under R189. -/
def State.configLocal (s : State) (t : Ten) (n : SlotIx) (l : Fin 2) : State :=
  let ps := s.params t n
  let c := localParams ps
  let f := byteAt ps 8
  s.guard t n [(c.mode == 0 || 3 < c.mode || 7 < byteAt ps 2 || (c.mode == 3 && c.an) || 3 < byteAt ps 3 || 10000 < c.holdMs
                  || c.quanta == 0 || 1 < f || s.stray t n [(0, 9)], Status.param),
               (s.absentLane (2 + l.val), Status.state), (bit f 0 && s.configBusy, Status.regionBusy)] fun s =>
    let s1 := (s.dropLocal l).modLocal l fun x => { x with cfg := c }
    (if bit f 0 then ({ s1 with store.locals := s1.store.locals.set l (some c) } : State).persisted else s1).done t n Status.ok

/-- LANE_CONFIG (R198, R202, R208). -/
def execLaneConfig (t : Ten) (n : SlotIx) (s : State) : Out :=
  commandBy 0x0702 t n s fun s =>
    match s.prm1 t n 0 with
    | 0 => s.configFibre t n
    | 2 => s.configLocal t n 0
    | 3 => s.configLocal t n 1
    | _ => s.done t n Status.param

/-- The active lane as `LANE.SWITCH` reports it. -/
def State.activeByte (s : State) : List Byte := [BitVec.ofNat 8 s.lanes.prot.active.val]

/-- LANE_SWITCH (R198). -/
def execLaneSwitch (t : Ten) (n : SlotIx) (s : State) : Out :=
  command 0x0703 [(0, 1)] t n s fun s =>
    let b := s.prm1 t n 0
    s.guard t n [(2 < b, Status.param), (b == 0 && s.lanes.prot.holdBy.isSome, Status.busy),
                 (b == 0 && (s.lanes.prot.lockout || s.activeLane == none || !s.laneEligible s.standby), Status.state)] fun s =>
      let s1 := if b = 0 then s.switchTo s.standby else { s with lanes.prot.lockout := b == 1 }
      s1.answer t n s1.activeByte

/-- The pattern of `LANE.MODE` (Table 8.7). -/
def State.patternOf (s : State) (t : Ten) (n : SlotIx) : List Nat := (List.range 8).map fun i => s.prm t n (2 + 2 * i) 2

/-- A lane enters raw mode or returns from it (R191): either way its lock is judged afresh. -/
def State.setRaw (s : State) (i : Fin 4) (raw : Bool) (pat : List (BitVec 9)) : State :=
  let s1 := if (s.phy i).raw = raw then s
    else if i.val < 2 then s.darkLane (fibreOf i)
    else if raw then s.dropLocal (localOf i) else s
  s1.modPhy i fun p => { p with
    raw := raw, pattern := if raw then pat else [], lock := p.lock && p.raw == raw, good := p.good && p.raw == raw }

/-- LANE_MODE (R191). -/
def execLaneMode (t : Ten) (n : SlotIx) (s : State) : Out :=
  commandBy 0x0704 t n s fun s =>
    let b := s.prm1 t n 0
    let m := s.prm1 t n 1
    let i : Fin 4 := Fin.ofNat 4 b
    let pats := s.patternOf t n
    let withPat := 2 ≤ b && m == 1
    s.guard t n [(3 < b || 1 < m || s.stray t n (if withPat then [(0, 18)] else [(0, 2)])
                    || (withPat && pats.any fun v => !patternOk v), Status.param),
                 (s.absentLane b || (b < 2 && m == 1 && s.reg.st != .initial && s.reg.st != .dereg), Status.state)] fun s =>
      (s.setRaw i (m == 1) (if withPat then pats.map (BitVec.ofNat 9) else [])).done t n Status.ok

/-- A slip that takes effect belongs to the command of a slot. -/
def Phy.slipsFor (p : Phy) (t : Ten) (n : SlotIx) : Bool := p.slip.any fun x => x.1 == t && x.2.1 == n

/-- The slips of a slot's command have taken effect (R192): the boundary is moved, and lock is judged afresh. -/
def State.endSlips (s : State) (t : Ten) (n : SlotIx) : State :=
  { s with lanes.phy := s.lanes.phy.map fun p => if p.slipsFor t n then p.slipped else p }

/-- LANE_SLIP (R192): the first row of a command starts the move, the next one, within 64 symbols, ends it and the
command with it. -/
def execLaneSlip (t : Ten) (n : SlotIx) (s : State) : Out :=
  if s.inHand t n 0x0705 && s.lanes.phy.toList.any (·.slipsFor t n) then .next ((s.endSlips t n).done t n Status.ok) else
  command 0x0705 [(0, 2)] t n s fun s =>
    let b := s.prm1 t n 0
    let k := s.prm1 t n 1
    let i : Fin 4 := Fin.ofNat 4 b
    s.guard t n [(3 < b || !within 1 9 k, Status.param), (s.absentLane b || !(s.phy i).raw, Status.state),
                 ((s.phy i).slip.isSome, Status.busy)] fun s =>
      s.modPhy i fun p => { p with slip := some (t, n, k) }

/-- The 24 words of `LANE.CAPTURE`, oldest first. -/
def Phy.words (p : Phy) : List Half := List.replicate (24 - p.recent.length) 0 ++ p.recent

/-- LANE_CAPTURE (R191). -/
def execLaneCapture (t : Ten) (n : SlotIx) (s : State) : Out :=
  command 0x0706 [(0, 1)] t n s fun s =>
    let b := s.prm1 t n 0
    let p := s.phy (Fin.ofNat 4 b)
    s.guard t n [(3 < b, Status.param), (s.absentLane b, Status.state)] fun s =>
      s.answer t n (leBytes 2 p.slips ++ leBytes 2 24 ++ p.words.flatMap fun w => leBytes 2 w.toNat)

end Sys2Proof.Machine
end

