-- ==== Sys2Proof/Machine/Downstream.lean ====
section
/-!
DEFINITION. The Lineatex downstream (R209 to R229): frame and multiframe alignment, headers, message slots,
packet containers, the timers of LOF, the key switch, and the `LTX.DS` commands.
-/

namespace Sys2Proof.Machine

/-! ### Frame alignment (R209, R222) -/

/-- A frame's length on the lane in ns: 78,125 code-groups (R209). -/
def frameNs : Nat := 250000

/-- The instant in half-nanoseconds of a frame start that is `shift` half-nanoseconds off an instant in ns. -/
def startHalf (at_ : Nat) (half : Bool) (shift : Int) : Nat := (2 * (at_ : Int) + b2n half + shift).toNat

/-- A new frame of a channel: its number and start (in half-nanoseconds), its FAW, its capture with the interpolator's
phase in units of 0.5 ns (R209, R270), its predicted MFI. -/
def Chan.begin (c : Chan) (x : TimeUnit) (n start2 : Nat) (ok : Bool) : Chan :=
  let start := start2 / 2
  let phase := (start - x.epoch) % 8 * 2 + start2 % 2
  { c with
    k := c.k + n, start := start, half := start2 % 2 == 1, fawOk := ok, rx := {}, mfi := (c.mfi + n) % 8
    capture := x.frcAt start + phase * 2 ^ 48, capTt := x.ttAt start + (phase * 32768 : Nat) }

/-- Frames between a frame start and an instant, to the nearest. -/
def framesTo (start at_ : Nat) : Nat := (at_ - start + frameNs / 2) / frameNs

/-- A frame starts on a lane; on the active lane the tributary configuration applies and TPS frames are
judged (R461, R481). -/
def State.beginFrame (s : State) (l : Fin 2) (n start2 : Nat) (ok : Bool) : State :=
  let s0 := s.reach (start2 / 2)
  let s1 := s0.modChan l fun c => c.begin s.time n start2 ok
  if l = s1.lanes.prot.active then s1.tribFrame else s1

/-- A standby lane that reaches SYNC takes over before IN_SERVICE from an active lane without lock, or lost by its pull
check (R200, R232). -/
def State.maybeExchange (s : State) (l : Fin 2) : State :=
  let early := match s.reg.st with | .listen | .discovery | .auth | .ranging => true | _ => false
  let a := s.lanes.prot.active
  if early && l == s.standby && !s.txFault l && (!(s.phy (fibreIx a)).lock || s.txFault a) then s.exchange else s

/-- A lane reaches SYNC (Table 9.7). -/
def State.reachSync (s : State) (l : Fin 2) : State :=
  let s1 := s.modChan l fun c => { c with st := .sync, fawRun := 0, lofFrom := none }
  ((s1.maybeExchange l).resumeActive.updateWtr).tellDefects.endSilence

/-- The frame of a kept position that starts within ±8 bytes (25.6 ns) of an instant in half-nanoseconds (R70): how many
frames on, and its MFI. -/
def Chan.keptNear (c : Chan) (start2 : Nat) : Option (Nat × Nat × Nat) :=
  match c.kept with
  | none => none
  | some (k, start, mfi) =>
    let n := framesTo start (start2 / 2)
    let due2 := 2 * (start + n * frameNs)
    if 0 < n ∧ (due2 - start2) + (start2 - due2) ≤ 51 then some (k, n, (mfi + n) % 8) else none

/-- A FAW at a kept position in NIGHT: SYNC and alignment are preloaded (R70). -/
def State.preload (s : State) (l : Fin 2) (k n mfi start2 : Nat) : State :=
  let s1 := s.modChan l fun c => { c with
    k := k, mfi := (mfi + 8 - n % 8) % 8, aligned := true, ref := none, count := 0, miss := 0 }
  (s1.beginFrame l n start2 true).reachSync l

/-- A FAW found in HUNT (R222): PRESYNC, with the prediction set from it. -/
def State.huntFaw (s : State) (l : Fin 2) (start2 : Nat) : State :=
  (s.beginFrame l (max 1 (framesTo (s.chan l).start (start2 / 2))) start2 true).modChan l fun c => { c with
    st := .presync, aligned := false, ref := none, count := 0, miss := 0 }

/-- The FAW at the predicted position in PRESYNC (R222). -/
def State.presyncFaw (s : State) (l : Fin 2) (start2 : Nat) (ok : Bool) : State :=
  if ok then (s.beginFrame l 1 start2 true).reachSync l
  else
    let was := s.allDark
    (((s.reach (start2 / 2)).toHunt l).tellDefects).markDark was

/-- The FAW at the predicted position in SYNC: the fourth errored one in a row leads to HUNT, and any other
frame is processed (R222). -/
def State.syncFaw (s : State) (l : Fin 2) (start2 : Nat) (ok : Bool) : State :=
  if ok then (s.beginFrame l 1 start2 true).modChan l fun c => { c with fawRun := 0 }
  else
    let s1 := (s.reach (start2 / 2)).modChan l fun c => { c with fawRun := c.fawRun + 1, n.fawErr := inc32 c.n.fawErr }
    if (s.chan l).fawRun = 3 then
      let was := s1.allDark
      ((s1.toHunt l).updateWtr.tellDefects).markDark was
    else s1.beginFrame l 1 start2 false

/-- The instant of a FAW in half-nanoseconds: in HUNT it comes now, else its code-groups are counted from the last frame
start; `shift` is what the interpolator finds beside that. A correct FAW sets the capture; an errored one leaves the
predicted instant (R222). -/
def State.fawAt (s : State) (l : Fin 2) (pos : Nat) (ok : Bool) (shift : Int) : Nat :=
  let c := s.chan l
  if c.st = .hunt then startHalf s.now false shift
  else startHalf (c.start + pos * 16 / 5) c.half (if ok then shift else 0)

/-- FAW_DETECTED (R70, R209, R222): the four code-groups at a position counted from the last frame start, and the arrival
of their first bit beside the instant of that position, in half-nanoseconds. -/
def execFawDetected (lane : Fin 2) (pos : Nat) (rd : Bool) (groups : List CodeGroup) (shift : Int) (s : State) : Out :=
  .next <|
    let c := s.chan lane
    let ok := fawCorrect (s.judged (fibreIx lane) rd groups)
    let start2 := s.fawAt lane pos ok shift
    if !s.fibreOn lane || !s.domOn dFRM || !(s.phy (fibreIx lane)).lock then s else
    match c.st with
    | .sync => if pos ≠ 78125 then s else s.syncFaw lane start2 ok
    | _ =>
      match if s.power.pstate = .night ∧ ok then c.keptNear start2 else none with
      | some (k, n, mfi) => s.preload lane k n mfi start2
      | none =>
        if c.st = .hunt then (if ok then s.huntFaw lane start2 else s)
        else if pos ≠ 78125 then s else s.presyncFaw lane start2 ok

/-! ### Frame headers (R211, R212) -/

/-- Fields of Table 9.2. -/
def hMfi (h : List Byte) : Nat := bits (byteAt h 0) 5 3
def hKi (h : List Byte) : Bool := bit (byteAt h 0) 4
def hKsCd (h : List Byte) : Nat := bits (byteAt h 0) 2 2
def hTs (h : List Byte) : Nat := beAt h 2 10
def hGmap (h : List Byte) : Nat := beAt h 12 2 % 1024
def hLmm (h : List Byte) : Nat := byteAt h 14 % 8
def hTribCnt (h : List Byte) : Nat := byteAt h 16
def hTribLen (h : List Byte) : Nat := beAt h 17 3
def hPkts (h : List Byte) : Nat := beAt h 20 2

/-- A valid header (R212). -/
def headerValid (h : List Byte) : Bool :=
  beAt h 38 2 == crc16 (h.take 38) && byteAt h 1 / 16 == 1 && hGmap h ≤ 512 && hPkts h ≤ 2048
    && 184 + 8 * hGmap h + hTribLen h ≤ 77509

/-- The header window of HDR3 (Table 9.8). -/
def Chan.judgedHdr (c : Chan) (failed : Bool) : Chan := { c with window := (failed :: c.window).take 8 }

/-- A header-check failure (R212): the LMM slots are still taken, everything after them is discarded. -/
def Chan.badHeader (c : Chan) : Chan :=
  { c.judgedHdr true with
    rx := { c.rx with judged := true, hdrOk := false, lmm := 7, tribDead := true, pktDead := true }
    n := { c.n with hdrFail := inc32 c.n.hdrFail } }

/-- What a valid header says of its frame. A tributary area of bytes without containers, or of containers
without bytes, is discarded (R220). -/
def Chan.goodHeader (c : Chan) (h : List Byte) : Chan :=
  let cut := (hTribCnt h == 0) != (hTribLen h == 0)
  { c.judgedHdr false with
    hdr := h, hdrCap := c.capture
    rx := { c.rx with
      judged := true, hdrOk := true, gmapLen := hGmap h
      lmm := BitVec.ofNat 3 (hLmm h)
      tribCnt := hTribCnt h, tribLen := hTribLen h, tribDead := cut
      pktCnt := hPkts h, pos := 184 + 8 * hGmap h + hTribLen h }
    n := { c.n with
      frames := inc32 c.n.frames, overrun := if cut then inc32 c.n.overrun else c.n.overrun } }

/-- Multiframe alignment judged by a valid header (R223): out of alignment against the previous valid header,
in alignment against the predicted MFI; three misses in a row end it. -/
def Chan.align (c : Chan) (m : Nat) : Chan :=
  let fresh : Chan := { c with ref := some (m, c.k), count := 0, mfi := m }
  if c.aligned then
    if c.mfi = m then { c with ref := some (m, c.k), miss := 0 }
    else if c.miss = 2 then { fresh with aligned := false, miss := 0 }
    else { c with miss := c.miss + 1 }
  else match c.ref with
    | none => fresh
    | some (m0, k0) =>
      if (m0 + (c.k - k0)) % 8 = m then
        { fresh with count := c.count + 1, aligned := c.count == 2, miss := 0 }
      else fresh

/-- Alignment judged by a header, and the preloaded SYNC with it (R70): a first header with another MFI than the predicted
one leaves the FAW as one found anywhere, so the full alignment runs. -/
def Chan.alignPreloaded (c : Chan) (m : Nat) : Chan :=
  if c.unproven && c.mfi != m then { c with st := .presync, aligned := false, count := 0, miss := 0 } else c.align m

/-! ### The key switch (R227, R228) -/

/-- The frame number of the multiframe boundary a number of multiframes after the one of a frame. -/
def Chan.boundary (c : Chan) (m cd : Nat) : Nat := c.k - (if c.aligned then c.mfi else m) + 8 * cd

/-- The terminal holds traffic keys and switches them (R227, R240). -/
def State.keyed (s : State) : Bool :=
  s.reg.st == .ranging || s.reg.st == .inService || s.reg.st == .silent
    || (s.reg.st == .auth && (List.finRange 3).any fun r => (s.trafficKey r false).isSome || (s.trafficKey r true).isSome)

/-- An announcement that comes within 4 multiframes after a boundary breaks the guarantee of R227. -/
def State.tooSoon (s : State) (c : Chan) : Bool := s.fr.lastSwitch.any fun b => decide (c.k < b + 32)

/-- An event without a key is counted on the active channel. -/
def State.countNoKey (s : State) : State :=
  s.modChan s.lanes.prot.active fun c => { c with n.noKey := inc32 c.n.noKey }

/-- A valid header of the active lane meets the key switch (R227, R228). Before registration both indices
follow `KI`; a new `KI` that nothing announced changes the upstream index at the next boundary. -/
def State.headerKeys (s : State) (h : List Byte) : State :=
  let c := s.act
  let ki := hKi h
  if !s.keyed then { s with fr := { s.fr with kiDown := ki, kiUp := ki, arm := none, late := false, retire := none } }
  else
    let s1 : State := match hKsCd h with
      | 1 | 2 =>
        if s.fr.arm.isNone && s.tooSoon c then { s with fr.breach := s.fr.breach + 1 }
        else { s with fr := { s.fr with arm := some (c.boundary (hMfi h) (hKsCd h)), late := false } }
      | 0 => match s.fr.arm with
        | some b => if c.k < b && !s.fr.late then { s with fr.arm := none } else s
        | none => s
      | _ => s
    if s1.fr.arm.isNone && s1.fr.kiDown != ki then
      let s2 : State := { s1 with fr.kiDown := ki }
      if s1.fr.late || s1.fr.kiUp == ki then s2
      else ({ s2 with fr := { s2.fr with arm := some (c.boundary (hMfi h) 1), late := true } } : State).countNoKey
    else s1

/-- KEY_SWITCH_BOUNDARY (R227, R228): both indices become the new one if every role's key is held; the old
generation is retired a multiframe later. -/
def execKeySwitchBoundary (s : State) : Out :=
  .next <| match s.fr.arm with
    | none => s
    | some b =>
      let s1 := s.reach (s.act.startOf b)
      let old := s.fr.kiUp
      if s1.rolesHeld !old then
        ({ s1 with fr := { s1.fr with
            kiUp := !old, kiDown := !old, arm := none, late := false, retire := some (old, b + 8), lastSwitch := some b } } : State
        ).raise 0x54 (BitVec.ofNat 32 (b2n !old))
      else
        let s2 : State := { s1 with fr := { s1.fr with arm := none, late := true } }
        if s1.fr.late then s2 else s2.countNoKey

/-- KEY_RETIRE (R228): the old generation's keys are zeroised and its `IV_CTR` values cleared. -/
def execKeyRetire (s : State) : Out :=
  .next <| match s.fr.retire with
    | none => s
    | some (g, b) =>
      let s1 := s.reach (s.act.startOf b)
      let s2 := s1.dropEntries ((List.finRange 3).map fun r => trafficEntry r g)
      let hi := s2.reg.ivHigh
      { s2 with
        fr.retire := none
        reg.ivHigh := (hi.set (b2n g) 0 (by cases g <;> decide)).set (2 + b2n g) 0 (by cases g <;> decide) }

/-! ### The header's effects -/

/-- A valid header of the active lane: its stamp goes to the time unit and DPLL-T (R278, R317), its map is
remembered, its key fields are used. -/
def State.activeHeader (s : State) (l : Fin 2) (h : List Byte) : State :=
  let c := s.chan l
  let s1 : State := if c.fawOk then
      ({ s with time.stamp := some { lane := l, capture := c.capTt, rtd := s.laneRtd l, timing := s.time.timing,
                                     heTs := hTs h } } : State).dpllSample
    else s
  ((({ s1 with us.maps := ((c.k, true) :: s1.us.maps).take 4 } : State).headerKeys h).checkKi).resolveAll

/-- A valid header that leaves its channel in SYNC is used (R212). -/
def State.useHeader (s : State) (l : Fin 2) (bytes : List Byte) : State :=
  if !s.inSync l ∨ l ≠ s.lanes.prot.active then s else s.activeHeader l bytes

/-- FRAME_HEADER (R211, R212, R223). -/
def execFrameHeader (lane : Fin 2) (bytes : List Byte) (s : State) : Out :=
  .next <|
    let c := s.chan lane
    if c.st ≠ .sync ∨ c.rx.judged ∨ bytes.length ≠ 40 ∨ !s.domOn dFRM then s else
    let onActive := lane == s.lanes.prot.active
    if headerValid bytes then
      let s1 := s.modChan lane fun c => (c.goodHeader bytes).alignPreloaded (hMfi bytes)
      ((s1.useHeader lane bytes).updateWtr).tellDefects.endSilence
    else
      let s1 := s.modChan lane Chan.badHeader
      (if onActive then ({ s1 with us.maps := ((c.k, false) :: s1.us.maps).take 4 } : State).resolveAll else s1).tellDefects

/-! ### Message slots (R213, R214) -/

/-- The downstream types of Table 9.4. -/
def lmmKnown (t : Nat) : Bool := 1 ≤ t && t ≤ 0x0C

/-- The body of a message (Table 9.3). -/
def lmmBody (b : List Byte) : List Byte := (b.drop 4).take 40

/-- A message dropped and counted. -/
def State.dropLmm (s : State) (l : Fin 2) : State := s.modChan l fun c => { c with n.lmmDrop := inc32 c.n.lmmDrop }

/-- A message addressed to this terminal (R213). An `ASSIGN_RH` that names it while it holds an RH is seen
only to be counted (chapter 10, "At the edges"). -/
def State.lmmMine (s : State) (bytes : List Byte) : Bool :=
  let rh := beAt bytes 0 2 / 16
  rh == s.reg.rh || rh == 0
    || (rh == 0xFFF && byteAt bytes 2 == 0x01 && beAt bytes 4 8 == Config.terminalId.toNat)

/-- A message slot has come (R213). -/
def State.seeSlot (s : State) (l : Fin 2) (slot : Fin 3) : State :=
  s.modChan l fun c => { c with rx := { c.rx with lmm := c.rx.lmm &&& ~~~(1#3 <<< slot.val) } }

/-- The meaning of a row that stands for a downstream message: a slot that `LMM_USED` marks is checked under R213 and
R214, and a message of the row's type whose `BLEN` its chapter allows is taken by CC1, its `LRH` with it. Messages count
from the active lane alone. A message of another known type belongs to another row. -/
def lmmRow (type : Nat) (lens : Nat → Bool) (lane : Fin 2) (slot : Fin 3) (bytes : List Byte) (s : State)
    (body : State → Nat → List Byte → State) : Out :=
  .next <|
    let c := s.chan lane
    let t := byteAt bytes 2
    if bytes.length ≠ 48 ∨ lane ≠ s.lanes.prot.active ∨ c.st ≠ .sync ∨ !c.rx.judged ∨ !c.rx.lmm.getLsbD slot.val ∨ !s.domOn dFRM then s else
    let s1 := s.seeSlot lane slot
    if beAt bytes 46 2 ≠ crc16 (bytes.take 46) then s1.dropLmm lane
    else if t = 0 then s1
    else if !lmmKnown t then s1.dropLmm lane
    else if t ≠ type then s
    else if !s1.lmmMine bytes then s1
    else if !lens (byteAt bytes 3) then s1.dropLmm lane
    else if !s1.boot.core1Up then s1
    else body s1 (beAt bytes 0 2 / 16) (lmmBody bytes)

/-! ### Packet containers (R14, R218 to R220) -/

/-- Fields of a container header (Table 9.6). -/
def kRh (b : List Byte) : Nat := beAt b 0 2 / 16
def kKi (b : List Byte) : Bool := bit (byteAt b 1) 3
def kType (b : List Byte) : Nat := byteAt b 1 % 16
def kLen (b : List Byte) : Nat := beAt b 2 2
def kHecOk (b : List Byte) : Bool := beAt b 4 2 == crc16 (b.take 4)

/-- How delineation takes a container (R220). -/
inductive Delin where
  | none | hec | overrun | whole
deriving DecidableEq, Repr

/-- A packet container judged at its place in the packet area; a header that the frame cuts short runs past its last data
byte. -/
def Chan.delinPkt (c : Chan) (b : List Byte) : Delin :=
  if c.st ≠ .sync ∨ !c.rx.hdrOk ∨ c.rx.pktDead ∨ c.rx.pktCnt ≤ c.rx.pktSeen then .none
  else if 77509 < c.rx.pos + 6 ∨ b.length < 6 then .overrun
  else if !kHecOk b || kLen b < 38 || 9236 < kLen b then .hec
  else if 77509 < c.rx.pos + 6 + kLen b || b.length < 6 + kLen b then .overrun
  else .whole

/-- The packet area after a container. -/
def Chan.afterPkt (c : Chan) (b : List Byte) : Delin → Chan
  | .none => c
  | .hec => { c with rx := { c.rx with pktDead := true }, n := { c.n with hecErr := inc32 c.n.hecErr } }
  | .overrun => { c with rx := { c.rx with pktDead := true }, n := { c.n with overrun := inc32 c.n.overrun } }
  | .whole => { c with rx := { c.rx with pktSeen := c.rx.pktSeen + 1, pos := c.rx.pos + 6 + kLen b } }

/-- The downstream role a container's RH names: broadcast for 0x000, unicast for the terminal's own RH; a
terminal without an RH takes broadcast alone (R14). -/
def State.roleOf (s : State) (rh : Nat) : Option (Fin 2) :=
  if rh = 0 then some 1 else if rh = s.reg.rh ∧ rh ≠ 0xFFF then some 0 else none

/-- The index of a role and generation in `ivHigh`. -/
def ivIx (role : Fin 2) (gen : Bool) : Fin 4 := Fin.ofNat 4 (2 * role.val + b2n gen)

/-- A container's key of a downstream role. -/
def State.downKey (s : State) (role : Fin 2) (gen : Bool) : Option BankKey := s.trafficKey (Fin.ofNat 3 role.val) gen

/-- A container's `IV_CTR`. -/
def kIv (b : List Byte) : Nat := beAt b 6 8

/-- A counter of the downstream counts. -/
def State.countDs (s : State) (l : Fin 2) (f : ChanCounts → ChanCounts) : State := s.modChan l fun c => { c with n := f c.n }

/-- A container that R14 accepts (R219, R383): fenced, without a key, stale, or queued for its tag check. -/
def State.takeContainer (s : State) (l : Fin 2) (role : Fin 2) (b : List Byte) : State :=
  let g := kKi b
  if s.power.pstate = .night then (if role = 0 then s.nightTrigger 0x01 else s)
  else if !s.domOn dPKT ∨ !s.domOn dCIP then s
  else if s.cip.fenced then { s with cip.fenceDrop := inc32 s.cip.fenceDrop }
  else if (s.downKey role g).isNone then s.countDs l fun n => { n with noKey := inc32 n.noKey }
  else if kIv b < s.reg.ivHigh[ivIx role g] then s.countDs l fun n => { n with replay := inc32 n.replay }
  else ({ s with cip.decq := s.cip.decq ++ [{ lane := l, bytes := b, role := role, gen := g }] } : State).startJobs.toNoon

/-- PACKET_CONTAINER (R14, R218 to R220): packets come from the active lane alone. -/
def execPacketContainer (lane : Fin 2) (bytes : List Byte) (s : State) : Out :=
  .next <|
    let d := (s.chan lane).delinPkt bytes
    if lane ≠ s.lanes.prot.active ∨ !s.domOn dFRM then s else
    let s1 := s.modChan lane fun c => c.afterPkt bytes d
    if d ≠ .whole then s1 else
    match s1.roleOf (kRh bytes) with
    | some role => s1.takeContainer lane role (bytes.take (6 + kLen bytes))
    | none => s1

/-- The oldest container's checks once its tag is known (R219). -/
def State.finishDec (s : State) (d : Dec) : State :=
  match s.downKey d.role d.gen with
  | none => s.countDs d.lane fun n => { n with noKey := inc32 n.noKey }
  | some k =>
    let n := d.bytes.length
    let c := (d.bytes.drop 14).take (n - 30)
    let iv := k.salt ++ (d.bytes.drop 6).take 8
    let i := ivIx d.role d.gen
    if kIv d.bytes < s.reg.ivHigh[i] then s.countDs d.lane fun n => { n with replay := inc32 n.replay }
    else if d.bytes.drop (n - 16) ≠ beBytes 16 (Config.gcmTag k.key iv (d.bytes.take 6) c).toNat then
      s.countDs d.lane fun n => { n with authFail := inc32 n.authFail }
    else
      let f : Frame := { bytes := ctrCrypt k.key (gcmBlock iv) c, src := 0, bcast := d.role == 1, at_ := s.now }
      { s.ingress f with reg.ivHigh := s.reg.ivHigh.set i (kIv d.bytes + 1) }

/-- PACKET_DECRYPT_DONE (R21, R219): the tag check of the oldest container that a core works on ends. -/
def execPacketDecryptDone (s : State) : Out :=
  .next <|
    let s1 := s.startJobs
    match s1.cip.decq.find? fun d => s1.runsOn (.dec d) with
    | some d =>
      let s2 := ({ s1 with cip.decq := s1.cip.decq.erase d } : State).freeCores (· == .dec d)
      (s2.finishDec d).touch.startJobs
    | none => s1

/-! ### Tributary containers (R220, R221) -/

/-- A tributary container judged at its place in the tributary area. -/
def Chan.delinTrib (c : Chan) (b : List Byte) : Delin :=
  if c.st ≠ .sync ∨ !c.rx.hdrOk ∨ c.rx.tribDead ∨ c.rx.tribCnt ≤ c.rx.tribSeen then .none
  else if c.rx.tribLen < c.rx.tribBytes + 6 ∨ b.length < 6 then .overrun
  else if !kHecOk b || kLen b < 5 || 4096 < kLen b then .hec
  else if c.rx.tribLen < c.rx.tribBytes + 6 + kLen b || b.length < 6 + kLen b then .overrun
  else .whole

/-- The tributary area after a container: a failure discards the packet area too, and a container count and a
length that do not end together leave the rest discarded and counted. -/
def Chan.afterTrib (c : Chan) (b : List Byte) : Delin → Chan
  | .none => c
  | .hec => { c with rx := { c.rx with tribDead := true, pktDead := true }, n := { c.n with hecErr := inc32 c.n.hecErr } }
  | .overrun => { c with rx := { c.rx with tribDead := true, pktDead := true }, n := { c.n with overrun := inc32 c.n.overrun } }
  | .whole =>
    let seen := c.rx.tribSeen + 1
    let used := c.rx.tribBytes + 6 + kLen b
    let cut := (seen == c.rx.tribCnt) != (used == c.rx.tribLen)
    { c with
      rx := { c.rx with tribSeen := seen, tribBytes := used, tribDead := c.rx.tribDead || cut }
      n := { c.n with overrun := if cut then inc32 c.n.overrun else c.n.overrun } }

/-- A tributary container's frame check sequence (R221). -/
def tcrcOk (b : List Byte) : Bool :=
  let n := 6 + kLen b
  (b.take n).drop (n - 4) == fcsBytes (b.take (n - 4))

/-- The meaning of a row that stands for a tributary container: delineated on the active lane, checked, and
its content given to its tributary when that is configured downstream. -/
def tribRow (lane : Fin 2) (bytes : List Byte) (s : State) (mine : Nat → Bool) (body : State → Nat → List Byte → State) : Out :=
  .next <|
    let d := (s.chan lane).delinTrib bytes
    if lane ≠ s.lanes.prot.active ∨ !s.domOn dFRM then s else
    let s1 := s.modChan lane fun c => c.afterTrib bytes d
    let tt := kType bytes
    let known := 1 ≤ tt && tt ≤ 3 && (s1.aud.down[(Fin.ofNat 3 (tt - 1))]).any (·.down)
    if d ≠ .whole ∨ (s1.roleOf (kRh bytes)).isNone ∨ !known ∨ !mine tt then s1
    else if !tcrcOk bytes then s1.countDs lane fun n => { n with tribCrc := inc32 n.tribCrc }
    else body s1 tt ((bytes.drop 6).take (kLen bytes - 4))

/-! ### LOF and LOL (R225, R226) -/

/-- LOF_8MS_EXPIRY (R225): LOF on the active lane above 8 ms silences the transmitter; NIGHT sleep does not
count. -/
def execLof8msExpiry (s : State) : Out :=
  .next <| match s.act.lofFrom with
    | some f => if s.domOn dFRM ∧ s.power.pstate ≠ .night ∧ !s.fr.silenced then (s.reach (f + 8000000)).silence else s
    | none => s

/-- LOF_2S_EXPIRY (R225): a registered terminal deregisters locally and returns to LISTEN (Table 10.2). -/
def execLof2sExpiry (s : State) : Out :=
  .next <| match s.act.lofFrom with
    | some f =>
      if s.domOn dFRM ∧ s.power.pstate ≠ .night ∧ s.reg.st.registered then
        ((s.reach (f + 2000000000)).dereg 2).toListen
      else s
    | none => s

/-- LOL_CLEAR (Table 9.8): `PLLA_LOCK` has been held for 1 ms. LOL is one defect of both lanes. -/
def execLolClear (_lane : Fin 2) (s : State) : Out :=
  .next <| match s.fr.lolBy with
    | some d =>
      let s1 := s.reach d
      ({ s1 with fr := { s1.fr with lol := false, lolBy := none } } : State).endSilence
    | none => s

/-! ### Commands (R229) -/

/-- Alignment state codes (Table 9.11). -/
def FState.code : FState → Nat
  | .hunt => 0 | .presync => 1 | .sync => 2

/-- Multiframes to the armed boundary (Table 9.11). -/
def State.toBoundary (s : State) : Nat :=
  match s.fr.arm with
  | some b => satTo 3 ((b - s.act.k + 7) / 8)
  | none => 0

/-- `DEFECTS` of a lane (Table 9.11). -/
def State.defects (s : State) (l : Fin 2) : Nat :=
  let c := s.chan l
  b2n (!(s.phy (fibreIx l)).lock) + 2 * b2n s.fr.lol + 4 * b2n (c.st != .sync) + 8 * b2n c.lomf + 16 * b2n c.hdr3
    + 32 * b2n s.rdi + 64 * b2n s.fr.silenced + 128 * b2n s.fr.arm.isSome

/-- The result of `LTX.DS_STATUS` (Table 9.11). -/
def State.dsStatus (s : State) (l : Fin 2) : List Byte :=
  let c := s.chan l
  let n := c.n
  let lof := match c.lofFrom with
    | some f => if c.st = .sync then 0 else satTo 65535 ((s.now - f) / 1000000)
    | none => 0
  [BitVec.ofNat 8 l.val, BitVec.ofNat 8 c.st.code, BitVec.ofNat 8 (s.defects l),
   BitVec.ofNat 8 (b2n s.fr.kiDown + 2 * b2n s.fr.kiUp + 4 * s.toBoundary)]
    ++ leBytes 2 lof ++ leBytes 2 n.lofEvents
    ++ [n.frames, n.hdrFail, n.fawErr, n.lmmDrop, n.grantDrop, n.hecErr, n.authFail, n.replay, n.noKey, n.tribCrc,
        n.overrun].flatMap (leBytes 4)

/-- LTX_DS_STATUS (R229). -/
def execLtxDsStatus (t : Ten) (n : SlotIx) (s : State) : Out :=
  command 0x0801 [(0, 2)] t n s fun s =>
    let b := s.prm1 t n 0
    let f := s.prm1 t n 1
    let l : Fin 2 := Fin.ofNat 2 b
    s.guard t n [(1 < b || 1 < f, Status.param), (s.absentLane b, Status.state)] fun s =>
      let r := s.dsStatus l
      (if bit f 0 then s.modChan l fun c => { c with n := {} } else s).answer t n r

/-- LTX_DS_SNAPSHOT (R229). -/
def execLtxDsSnapshot (t : Ten) (n : SlotIx) (s : State) : Out :=
  command 0x0802 [(0, 1)] t n s fun s =>
    let b := s.prm1 t n 0
    let c := s.chan (Fin.ofNat 2 b)
    s.guard t n [(1 < b, Status.param), (s.absentLane b, Status.state)] fun s =>
      s.answer t n (field c.hdr 0 40 ++ leBytes 8 c.hdrCap)

end Sys2Proof.Machine
end

