-- ==== Sys2Proof/Machine/Registration.lean ====
section
/-!
DEFINITION. Discovery, registration and ranging (R230 to R248): the transitions of Table 10.2, their messages
and timers, serial-number and ranging bursts, the owner mailbox, and the `LTX` commands of chapter 10.
-/

namespace Sys2Proof.Machine

/-! ### Transitions without a message -/

/-- The lane that is active at activation from INITIAL (R193). -/
def State.firstLane (s : State) : Fin 2 := if (s.lanes.prot.cfg.preferB && s.present 1) || !s.present 0 then 1 else 0

/-- ACTIVATION_LISTEN (Table 10.2): PD_LNA on, a present fibre lane with its pull check passed, none raw. A lane that
failed its pull check is lost as it becomes active (R200). -/
def execActivationListen (s : State) : Out :=
  .next <|
    let usable := (List.finRange 2).any fun l => s.present l && !s.txFault l
    let raw := (List.finRange 2).any fun l => (s.phy (fibreIx l)).raw
    if s.reg.st = .initial ∧ s.domOn dLNA ∧ usable ∧ !raw ∧ s.boot.core1Up then
      let s1 := (({ s with lanes.prot.active := s.firstLane } : State).toListen).tellDefects
      if s1.txFault s1.lanes.prot.active then s1.loseLane s1.lanes.prot.active else s1
    else s

/-- An expiry of a registration timer is counted. -/
def State.countTimeout (s : State) : State := { s with reg.timeouts := satInc 65535 s.reg.timeouts }

/-- T_ASSIGN_EXPIRY (Table 10.2). -/
def execTAssignExpiry (s : State) : Out :=
  .next <| match s.reg.tAssign with
    | some d => if s.reg.st = .discovery then ((s.reach d).countTimeout).toListen else s
    | none => s

/-- T_AUTH_EXPIRY (Table 10.2). -/
def execTAuthExpiry (s : State) : Out :=
  .next <| match s.reg.tAuth with
    | some d => if s.reg.st = .auth then (((s.reach d).countTimeout).dereg 3).toListen else s
    | none => s

/-- T_RANGE_EXPIRY (Table 10.2). -/
def execTRangeExpiry (s : State) : Out :=
  .next <| match s.reg.tRange with
    | some d => if s.reg.st = .ranging then (((s.reach d).countTimeout).dereg 3).toListen else s
    | none => s

/-- SILENT_DURATION_EXPIRY (R247). -/
def execSilentDurationExpiry (s : State) : Out :=
  .next <| match s.reg.silentBy with
    | some d => if s.reg.st = .silent then (s.reach d).enterService.fromNextMap else s
    | none => s

/-- EQD_CHANGE_APPLY (R243): the upstream frame of the change begins. -/
def execEqdChangeApply (lane : Fin 2) (s : State) : Out :=
  .next <| match s.reg.eqdNext[lane] with
    | some n =>
      let s1 := s.reach (s.tickAt lane n.frame 0)
      ({ s1 with reg.eqdNext := s1.reg.eqdNext.set lane none } : State).setEqd lane n.value
    | none => s

/-! ### Transmission (R43, R187, R193) -/

/-- A lane may light its optics as far as its own condition goes (R43, R193, R199, R226, R321). -/
def State.mayTransmit (s : State) (l : Fin 2) : Bool :=
  s.fibreOn l && (s.phy (fibreIx l)).lock && !s.txFault l && !s.thawed && !s.fr.silenced && !s.dpllSilent
    && !(s.lanes.prot.bothLost && l == s.lanes.prot.active)

/-- The transmit pair of a fibre lane is inverted (R203, Table 8.7). -/
def State.txGroups (s : State) (l : Fin 2) (gs : List CodeGroup) : List CodeGroup :=
  if s.lanes.prot.cfg.invert.getLsbD (2 * l.val) then gs.map fun g => ~~~g else gs

/-- A burst leaves (R187): `OPT_TXDIS` of its lane is low from 2 bt before the start until 2 bt after the end. `bytes` run
from the burst header to the trailer. -/
def State.launch (s : State) (l : Fin 2) (startBt at_ : Nat) (long : Bool) (b : Sending) (bytes : List Byte) : State :=
  ({ s with pads.txdisLow := s.pads.txdisLow ||| 1#2 <<< l.val, us.sending := some b } : State).emit
    (.burst l startBt (at_ - 16) bytes (s.txGroups l (encodeBurst long bytes)))

/-- A burst is still on the fibre at an instant. -/
def State.onFibre (s : State) (at_ : Nat) : Bool := s.us.sending.any fun b => at_ < b.end_

/-- Header, record and trailer of a serial-number or ranging burst (Table 10.3). -/
def recordBurst (header record : List Byte) : List Byte := header ++ record ++ fcsBytes (header ++ record)

/-- The record of a serial-number burst (Table 10.3). -/
def State.serialRecord (s : State) (x : Shot) : List Byte :=
  beBytes 8 Config.terminalId.toNat ++ [BitVec.ofNat 8 x.backoff, BitVec.ofNat 8 (satTo 255 s.reg.attempts)]
    ++ beBytes 2 (0xB000 + 2 * b2n Config.gradeE + b2n (s.present 1)) ++ leBytes 4 0

/-- SERIAL_NUMBER_BURST (R235): the burst of the used discovery entry, at its tick; `T_ASSIGN` runs from it. A
silenced transmitter sends nothing. -/
def execSerialNumberBurst (s : State) : Out :=
  .next <| match s.reg.serial with
    | none => s
    | some x =>
      let l := s.lanes.prot.active
      let at_ := s.tickAt l x.frame x.start
      let s1 := s.reach at_
      let s2 : State := { s1 with reg := { s1.reg with serial := none, tAssign := some (at_ + 16000000) } }
      if s2.reg.st ≠ .discovery then { s1 with reg.serial := none }
      else if !s2.mayTransmit l then s2
      else
        let h := burstHeader 0xFFF s2.rdi s2.rdiB false false false false 0 0 16
        ({ s2 with reg.snSent := satInc 65535 s2.reg.snSent } : State).launch l x.start at_ true
          { lane := l, end_ := at_ + 528, gs := 0, pkts := 0 } (recordBurst h (s2.serialRecord x))

/-- The start of a burst under a new EqD that lies less than 4 bt after the lane's last burst under the old
one (R243). -/
def State.eqdOverlap (s : State) (l : Fin 2) (at_ : Nat) : Bool := at_ < s.reg.lastEnd[l] + 32

/-- The end of a burst sent under values that are about to change (R243). -/
def State.noteEnd (s : State) (l : Fin 2) (frame end_ : Nat) : State :=
  match s.reg.eqdNext[l] with
  | some n => if frame < n.frame then { s with reg.lastEnd := s.reg.lastEnd.set l end_ } else s
  | none => s

/-- Two spans in ns meet, their guards of R187 included. -/
def spansMeet (a b c d : Nat) : Bool := decide (c < b + 32) && decide (a < d + 32)

/-- A burst of the active lane would overlap a span, the guards of R187 included (R194): one prepared for an entry, one
on the fibre, or a ranging burst that waits for its start. -/
def State.activeBusy (s : State) (from_ to_ : Nat) : Bool :=
  let a := s.lanes.prot.active
  s.us.gs.toList.any (fun g => g.bursts.any fun b =>
      b.bound.isSome && spansMeet from_ to_ (s.burstAt b) (s.burstAt b + 8 * b.length))
    || s.us.sending.any (fun b => decide (from_ < b.end_ + 32))
    || (s.reg.rangeShot[a]).any fun x =>
      spansMeet from_ to_ (s.tickAt a x.frame x.start) (s.tickAt a x.frame x.start + 528)

/-- The record of a ranging burst (Table 10.3). -/
def State.rangeRecord (s : State) (l : Fin 2) (frame : Nat) : List Byte :=
  beBytes 8 Config.terminalId.toNat ++ [BitVec.ofNat 8 l.val, BitVec.ofNat 8 (satTo 255 s.reg.rangeTries[l])]
    ++ beBytes 3 (s.reg.eqdFor l frame % 2 ^ 21) ++ leBytes 3 0

/-- RANGING_BURST (R194, R241, R243): the lane's next accepted ranging grant, at its start; on the standby
lane it is skipped when it would overlap a burst of the active lane. -/
def execRangingBurst (lane : Fin 2) (s : State) : Out :=
  .next <| match s.reg.rangeShot[lane] with
    | [] => s
    | x :: rest =>
      let at_ := s.tickAt lane x.frame x.start
      let s1 := s.reach at_
      let s2 : State := { s1 with reg.rangeShot := s1.reg.rangeShot.set lane rest }
      let onActive := lane == s2.lanes.prot.active
      if !s2.mayTransmit lane || s2.onFibre at_ || (!onActive && s2.activeBusy at_ (at_ + 528)) then s2.updateWtr
      else if s2.eqdOverlap lane at_ then s2.regDrop.updateWtr
      else
        let tries := satInc 255 s2.reg.rangeTries[lane]
        let seq := s2.us.bseq + 1
        let s3 : State := { s2 with
          us.bseq := seq
          reg := { s2.reg with
            rangeTries := s2.reg.rangeTries.set lane tries, shotOut := s2.reg.shotOut.set lane true } }
        let h := burstHeader s3.reg.rh s3.rdi s3.rdiB (s3.kiFor x.rx) false false false 0 seq.toNat 16
        (s3.noteEnd lane x.frame (at_ + 528)).launch lane x.start at_ true
          { lane := lane, end_ := at_ + 528, gs := 0, pkts := 0 } (recordBurst h (s3.rangeRecord lane x.frame))

/-! ### Discovery (R234, R235) -/

/-- Factory key slots 1 and 2 are unusable (R235). -/
def State.slotsUnusable (s : State) : Bool := !s.slotLoads 1 || !s.slotLoads 2

/-- Fields of Table 9.5. -/
def gRh (b : List Byte) : Nat := beAt b 0 2 / 16
def gStart (b : List Byte) : Nat := bits (beAt b 0 8) 34 15
def gOk (b : List Byte) : Bool := byteAt b 7 == crc8 (b.take 7)

/-- A grant entry stands in a valid map of its channel: one more of its entries has come. -/
def State.mapEntry (s : State) (l : Fin 2) (b : List Byte) : Bool :=
  let c := s.chan l
  b.length == 8 && s.domOn dFRM && c.st == .sync && c.rx.hdrOk && c.rx.entries < c.rx.gmapLen

/-- Entries of the map a channel receives are taken: silencing, or a silence, has not ended inside it (R226, R247). -/
def State.mapOpen (s : State) (l : Fin 2) : Bool := !(s.chan l).rx.mapDead

/-- An entry counted as received. -/
def State.countEntry (s : State) (l : Fin 2) : State :=
  s.modChan l fun c => { c with rx := { c.rx with entries := c.rx.entries + 1 } }

/-- An entry discarded and counted (R216). -/
def State.dropEntry (s : State) (l : Fin 2) : State := s.countDs l fun n => { n with grantDrop := inc32 n.grantDrop }

/-- A discovery entry used (R235): the backoff is drawn and the burst waits for its tick. -/
def State.useDiscovery (s : State) (b : List Byte) : State :=
  let n := s.draw % 64
  let s1 := s.drawn.setAct .discovery
  { s1 with reg := { s1.reg with
      serial := some { frame := s1.act.k + 1, start := gStart b + 500 * n, backoff := n, rx := s1.act.k }
      attempts := satInc 255 s1.reg.attempts } }

/-- DISCOVERY_ENTRY (R234, R235, R321): used in LISTEN unless it is skipped. -/
def execDiscoveryEntry (lane : Fin 2) (bytes : List Byte) (s : State) : Out :=
  .next <|
    if !s.mapEntry lane bytes then s else
    let s1 := s.countEntry lane
    if !gOk bytes then s1.dropEntry lane
    else if gRh bytes ≠ 0xFFF ∨ lane ≠ s1.lanes.prot.active ∨ s1.reg.st ≠ .listen ∨ !s1.framed lane then s1
    else if s1.dpllSilent || s1.slotsUnusable then s1.regDrop
    else if s1.fr.silenced ∨ !s1.mapOpen lane ∨ !s1.boot.core1Up then s1
    else if 0 < s1.reg.skip then { s1 with reg.skip := s1.reg.skip - 1 }
    else s1.useDiscovery bytes

/-! ### Registration messages (R236 to R243, R247) -/

/-- An RH as the two bytes of a tag's or a context's input (R237, R239). -/
def rh2 (rh : Nat) : List Byte := beBytes 2 rh

/-- ASSIGN_RH (R236): in DISCOVERY alone; one that comes later is counted. -/
def execAssignRh (lane : Fin 2) (slot : Fin 3) (bytes : List Byte) (s : State) : Out :=
  lmmRow 0x01 (· == 13) lane slot bytes s fun s _ b =>
    let rh := beAt b 8 2 % 4096
    if beAt b 0 8 ≠ Config.terminalId.toNat then s
    else if s.reg.st ≠ .discovery ∨ rh = 0 ∨ 0x7FF < rh then s.regDrop
    else (({ s with reg.rh := rh } : State).setEqd s.lanes.prot.active (beAt b 10 3 % 2 ^ 21)).enterAuth

/-- The context of R237. -/
def Reg.context (r : Reg) : List Byte := beBytes 8 Config.terminalId.toNat ++ rh2 r.rh ++ r.nHe ++ r.nT

/-- A key derived under R237. -/
def deriveKey (slot context : List Byte) (label : List Byte) : BankKey := { key := kdf 1 slot label context }

/-- The four letters of a label. -/
def label (a b c d : Nat) : List Byte := [a, b, c, d].map (BitVec.ofNat 8)

/-- AUTH_CHAL (R237, R238): new nonces and derived keys; keys held for the session are destroyed, and
`AUTH_RESP` is queued. It needs the factory slots 1 and 2. -/
def execAuthChal (lane : Fin 2) (slot : Fin 3) (bytes : List Byte) (s : State) : Out :=
  lmmRow 0x02 (· == 16) lane slot bytes s fun s _ b =>
    if s.reg.st ≠ .auth ∨ s.slotsUnusable then s.regDrop else
    let nT := beBytes 8 s.draw ++ beBytes 8 s.drawn.draw
    let s1 := s.drawn.drawn.dropLineKeys
    let s2 : State := { s1 with reg := { s1.reg with
      nHe := b.take 16, nT := nT, kseq := Vector.replicate 3 0, inUse := Vector.replicate 3 none } }
    let c := s2.reg.context
    let auth := deriveKey s2.keys.device c (label 0x5A 0x50 0x41 0x54)
    let s3 := ((s2.setEntry eAuth (some auth)).setEntry eWrap (some (deriveKey s2.keys.kek c (label 0x5A 0x50 0x4B 0x57)))
      ).setEntry eKmac (some (deriveKey s2.keys.kek c (label 0x5A 0x50 0x4B 0x4D)))
    let s4 := s3.setEntry eOwn (some (deriveKey s2.keys.kek c (label 0x5A 0x50 0x4F 0x57)))
    s4.queueLmm 0x81 (nT ++ beBytes 16 (Config.cmac auth.key (label 0x5A 0x50 0x41 0x52 ++ c)).toNat)

/-- A tag of R239 and R244: the first 64 bits of the CMAC over `LRH`, `TYPE` and body bytes. -/
def lmmTag (k : BankKey) (rh : Nat) (type : Byte) (body : List Byte) : List Byte :=
  top64 (Config.cmac k.key (rh2 rh ++ [type] ++ body))

/-- The index in current use by a role (R240): in AUTH the first generation delivered, later the downstream or
the upstream index. -/
def State.indexInUse (s : State) (role : Fin 3) : Option Bool :=
  if s.reg.st = .auth then s.reg.inUse[role] else some (if role = 2 then s.fr.kiUp else s.fr.kiDown)

/-- A `KEY_ACK` with its status (R240). -/
def State.keyAck (s : State) (b : List Byte) (status : Nat) : State :=
  match s.entry eKmac with
  | some k =>
    let body := b.take 4 ++ [BitVec.ofNat 8 status, 0, 0, 0]
    s.queueLmm 0x82 (body ++ lmmTag k s.reg.rh 0x82 body)
  | none => s

/-- A key installed (R239, R240), with its salt. A switch that waited for it is armed at the next multiframe
boundary (R228). -/
def State.installKey (s : State) (role : Fin 3) (ki : Bool) (kseq : Nat) (b : List Byte) : State :=
  match s.entry eWrap with
  | none => s
  | some w =>
    let key := ctrCrypt w.key (b.take 4 ++ List.replicate 12 0) (field b 8 16)
    let s1 := s.setEntry (trafficEntry role ki) (some { key := key, salt := field b 4 4 })
    let s2 : State := { s1 with reg := { s1.reg with
      kseq := s1.reg.kseq.set role kseq
      inUse := if s1.reg.st = .auth ∧ (s1.reg.inUse[role]).isNone then s1.reg.inUse.set role (some ki) else s1.reg.inUse } }
    if s2.fr.late && s2.fr.arm.isNone && s2.rolesHeld !s2.fr.kiUp then
      ({ s2 with fr.arm := some (s2.act.boundary s2.act.mfi 1) } : State).checkKi
    else s2

/-- A `KEY_DELIVER` whose tag has passed (R240). A `KSEQ` of 0xFFFF breaks the guarantee that a registration ends before
one: the message is discarded and counted (R3). -/
def State.takeKey (s : State) (role : Fin 3) (ki : Bool) (b : List Byte) : State :=
  let kseq := beAt b 2 2
  let have_ := s.reg.kseq[role]
  if kseq < have_ || kseq == 0xFFFF then s.regDrop
  else if kseq = have_ then s.keyAck b 1
  else if s.indexInUse role = some ki then s.keyAck b 2
  else (s.installKey role ki kseq b).keyAck b 0

/-- KEY_DELIVER (R239, R240): in AUTH, IN_SERVICE or SILENT; three wrong tags in AUTH deregister. -/
def execKeyDeliver (lane : Fin 2) (slot : Fin 3) (bytes : List Byte) (s : State) : Out :=
  lmmRow 0x03 (· == 32) lane slot bytes s fun s lrh b =>
    let ok := match s.entry eKmac with
      | some k => field b 24 8 == lmmTag k lrh 0x03 (b.take 24)
      | none => false
    if s.reg.st ≠ .auth ∧ s.reg.st ≠ .inService ∧ s.reg.st ≠ .silent then s.regDrop
    else if ok && (2 < byteAt b 0 || 1 < byteAt b 1) then s.regDrop
    else if ok then s.takeKey (Fin.ofNat 3 (byteAt b 0)) (byteAt b 1 == 1) b
    else
      let s1 : State := { s with reg.keyFail := satInc 65535 s.reg.keyFail }
      if s1.reg.st ≠ .auth then s1
      else if s1.reg.authFails = 2 then (s1.dereg 4).toListen
      else { s1 with reg.authFails := s1.reg.authFails + 1 }

/-- A lane's result OK (R242, R243): in service the active lane's new value waits for the first frame with
MFI 0 at least two frames on; anywhere else it applies at once. -/
def State.lanesRanged (s : State) (l : Fin 2) (eqd rtd : Nat) : State :=
  let s1 : State := { s with
    reg := { s.reg with
      rtd := s.reg.rtd.set l rtd, ranged := s.reg.ranged.set l true, rangeTries := s.reg.rangeTries.set l 0
      again := s.reg.again.set l false }
    lanes.prot.fit := s.lanes.prot.fit.set l true }
  let c := s1.chan l
  let later : EqdNext := { value := eqd, frame := c.k + 2 + (8 - (c.mfi + 2) % 8) % 8 }
  let s2 := if s1.reg.st = .inService ∧ l = s1.lanes.prot.active then
      { s1 with reg.eqdNext := s1.reg.eqdNext.set l (some later) }
    else ({ s1 with reg.eqdNext := s1.reg.eqdNext.set l none } : State).setEqd l eqd
  if s2.reg.st = .ranging ∧ l = s2.lanes.prot.active then (s2.enterService).openHead else s2.updateWtr

/-- RANGE_RESULT (R242): for a lane with a ranging burst outstanding. -/
def execRangeResult (lane : Fin 2) (slot : Fin 3) (bytes : List Byte) (s : State) : Out :=
  lmmRow 0x04 (· == 9) lane slot bytes s fun s _ b =>
    let l : Fin 2 := Fin.ofNat 2 (byteAt b 0)
    if 1 < byteAt b 0 ∨ 1 < byteAt b 1 ∨ !s.reg.shotOut[l] then s.regDrop else
    let s1 : State := { s with reg.shotOut := s.reg.shotOut.set l false }
    if byteAt b 1 = 1 then ({ s1 with reg.again := s1.reg.again.set l true } : State).updateWtr else s1.lanesRanged l (beAt b 2 3 % 2 ^ 21) (beAt b 5 4)

/-- `DEREGISTER` rediscover or disable of a registered terminal (Table 10.2). -/
def State.deregBy (s : State) (a : Act) : State :=
  if a = .listen then (s.dereg 1).toListen else (s.dereg 1).setAct a

/-- The action of a `DEREGISTER` that names this terminal (Table 10.2): none when the state does not list it.
A terminal without an RH is reached by its ID alone, under `LRH` 0xFFF. -/
def State.deregAction (s : State) (action lrh duration : Nat) : Option State :=
  let timer (s : State) : State :=
    { s with reg.silentBy := if duration = 0 then none else some (s.now + duration * 1000000000) }
  match action, s.reg.st with
  | 0, .auth | 0, .ranging | 0, .inService | 0, .silent => some (s.deregBy .listen)
  | 1, .inService => some (timer s.enterSilent)
  | 1, .silent => some (timer s)
  | 2, .silent => some s.enterService
  | 3, .auth | 3, .ranging | 3, .inService | 3, .silent => some (s.deregBy .dereg)
  | 3, .listen | 3, .discovery => if lrh = 0xFFF then some (s.setAct .dereg) else none
  | _, _ => none

/-- DEREGISTER (R231, R236, R247). -/
def execDeregister (lane : Fin 2) (slot : Fin 3) (bytes : List Byte) (s : State) : Out :=
  lmmRow 0x05 (· == 12) lane slot bytes s fun s lrh b =>
    let id := beAt b 4 8
    if id ≠ Config.terminalId.toNat ∧ id ≠ 2 ^ 64 - 1 then s else
    match s.deregAction (byteAt b 0) lrh (beAt b 2 2) with
    | some s1 => { s1 with reg.lastReason := byteAt b 1 }
    | none => s.regDrop

/-! ### Owner mailbox (R244) -/

/-- The response body of an owner access, and its effect: none for an `OP` outside Table 10.5. -/
def State.ownerServe (s : State) (b : List Byte) : Option (List Byte × State) :=
  let op := byteAt b 0
  let addr := beAt b 4 2
  let len := byteAt b 6
  let resp (stat : Nat) (data : List Byte) : List Byte :=
    [BitVec.ofNat 8 (op + 0x80), BitVec.ofNat 8 stat] ++ field b 2 5 ++ [0] ++ field data 0 24
  let out := 24 < len || 0xFFF < addr || 0x1000 < addr + len
  match op with
  | 0x01 => if out then some (resp 1 [], s) else
    let (data, s1) := readWindow s .owner addr len
    some (resp 0 data, s1)
  | 0x02 => some (if out then (resp 1 [], s) else (resp 0 [], s.writeWindow 0 addr (field b 8 len)))
  | 0x05 => some (if len = 5 then (resp 0 (s.noticeBody 0), s.statusSeen .owner) else (resp 1 [], s))
  | _ => none

/-- A response queued with its tag and kept for a repeat (R118, R244). -/
def State.ownerAnswer (s : State) (k : BankKey) (oseq : Nat) (resp : List Byte) : State :=
  let body := resp ++ lmmTag k s.reg.rh 0x87 resp
  ({ s with reg := { s.reg with oseq := some oseq, oresp := body } } : State).queueLmm 0x87 body

/-- OWNER_MBX (R244): in IN_SERVICE, with a right tag, in `OSEQ` order. -/
def execOwnerMbx (lane : Fin 2) (slot : Fin 3) (bytes : List Byte) (s : State) : Out :=
  lmmRow 0x0B (· == 40) lane slot bytes s fun s lrh b =>
    match s.entry eOwn with
    | none => s.regDrop
    | some k =>
      if s.reg.st ≠ .inService ∨ field b 32 8 ≠ lmmTag k lrh 0x0B (b.take 32) then s.regDrop else
      let oseq := beAt b 2 2
      let ahead := (oseq + 65536 - s.reg.oseq.getD 0) % 65536
      if ahead = 0 then (if s.reg.oresp = [] then s.regDrop else s.queueLmm 0x87 s.reg.oresp)
      else if 32767 < ahead then s.regDrop
      else match s.ownerServe b with
        | some (resp, s1) => s1.ownerAnswer k oseq resp
        | none => s.regDrop

/-! ### Commands (R248) -/

/-- The result of `LTX.REG_STATUS` (Table 10.8). -/
def State.regStatus (s : State) : List Byte :=
  let r := s.reg
  [BitVec.ofNat 8 r.st.code, BitVec.ofNat 8 s.lanes.prot.active.val] ++ leBytes 2 r.rh
    ++ leBytes 8 Config.terminalId.toNat ++ leBytes 3 r.eqd[0] ++ leBytes 3 r.eqd[1]
    ++ [BitVec.ofNat 8 (b2n r.ranged[0] + 2 * b2n r.ranged[1] + 4 * b2n s.slotsUnusable), BitVec.ofNat 8 r.lastDereg]
    ++ leBytes 4 r.rtd[0] ++ leBytes 4 r.rtd[1] ++ leBytes 2 r.snSent ++ leBytes 2 r.timeouts ++ leBytes 2 r.keyFail
    ++ leBytes 2 r.regDrop ++ leBytes 2 r.deregs ++ [BitVec.ofNat 8 r.lastReason, 0]

/-- LTX_REG_STATUS (R248). -/
def execLtxRegStatus (t : Ten) (n : SlotIx) (s : State) : Out :=
  command 0x0803 [(0, 1)] t n s fun s =>
    let f := s.prm1 t n 0
    s.guard t n [(1 < f, Status.param)] fun s =>
      let r := s.regStatus
      (if bit f 0 then
        { s with reg := { s.reg with snSent := 0, timeouts := 0, keyFail := 0, regDrop := 0, deregs := 0 } }
      else s).answer t n r

/-- The command of this slot is the one that waits for the notice. -/
def State.waitsFor (s : State) (t : Ten) (n : SlotIx) : Bool := s.reg.wait.any fun w => w.ten == t && w.slot == n

/-- A stop or a rediscovery: the notice first, from IN_SERVICE (R246). -/
def State.startWait (s : State) (w : ActWait) : State :=
  if s.inService then { s.sendDeregNotice 6 with reg.wait := some w } else s.finishWait w

/-- LTX_ACTIVATION (R246, R248). -/
def execLtxActivation (t : Ten) (n : SlotIx) (s : State) : Out :=
  command 0x0804 [(0, 1)] t n s fun s =>
    let op := s.prm1 t n 0
    if s.waitsFor t n then s else
    s.guard t n [(2 < op, Status.param), (op != 1 && s.reg.wait.isSome, Status.busy)] fun s =>
      if op = 1 then
        let s1 := if s.reg.st = .dereg then s.setAct .initial else s
        s1.answer t n (leBytes 1 s1.reg.st.code)
      else s.startWait { ten := t, slot := n, rediscover := op == 2, by_ := s.now + 4000000 }

end Sys2Proof.Machine
end

