-- ==== Sys2Proof/Machine/Upstream.lean ====
section
/-!
DEFINITION. Upstream bursts (R216, R217, R249 to R269): grant entries, the forecaster, freeze points, commit,
withdrawal, and the `LTX` commands of chapter 11.
-/

namespace Sys2Proof.Machine

/-! ### Grant entries (R215 to R217) -/

/-- Fields of Table 9.5. -/
def gStream (b : List Byte) : Fin 8 := Fin.ofNat 8 (bits (beAt b 0 8) 49 3)
def gLen (b : List Byte) : Nat := bits (beAt b 0 8) 19 15
def gBit (b : List Byte) (i : Nat) : Bool := bit (beAt b 0 8) i

/-- An entry as the table holds it: it applies to the next upstream frame, or with `SHORT_LEAD` to the present
one (R217). -/
def grantOf (k : Nat) (b : List Byte) : Grant :=
  { frame := if gBit b 13 then k else k + 1, rxFrame := k, gs := gStream b, start := gStart b, len := gLen b,
    long := gBit b 18, report := gBit b 17, lmm := gBit b 16, ranging := gBit b 15, slot := gBit b 14, short := gBit b 13 }

/-- Two spans meet, the first one widened by 2 bt on each side (R216). -/
def Grant.meets (e x : Grant) : Bool := e.start < x.start + x.len + 2 && x.start < e.start + e.len + 2

/-- An entry stands beside those held for its frame (R216). -/
def Grant.fits (e : Grant) (table : List Grant) : Bool :=
  let same := table.filter fun x => x.frame == e.frame
  1 ≤ e.len && e.start + e.len ≤ 31250 && !same.any e.meets && same.length < 16

/-- The terminal takes the grant entries of a lane (R199, R226, R247, R321). -/
def State.takesEntries (s : State) (l : Fin 2) : Bool :=
  !s.fr.silenced && s.mapOpen l && !s.dpllSilent && !(s.lanes.prot.bothLost && l == s.lanes.prot.active)
    && (s.reg.st == .auth || s.reg.st == .ranging || s.reg.st == .inService)

/-- An accepted ranging entry (R241): its burst waits for its start, and the lane is not eligible meanwhile (R195). -/
def State.acceptShot (s : State) (l : Fin 2) (e : Grant) : State :=
  let x : Shot := { frame := e.frame, start := e.start, rx := e.rxFrame }
  ({ s with reg.rangeShot := s.reg.rangeShot.set l (s.reg.rangeShot[l] ++ [x]) } : State).updateWtr

/-- A `RANGING` entry of the active lane (R241): in AUTH it needs all three roles and makes the transition. -/
def State.rangingActive (s : State) (l : Fin 2) (e : Grant) : State :=
  let held : State := { s with us.table := s.us.table ++ [e] }
  if e.len < 66 then s.regDrop
  else match s.reg.st with
    | .auth => if s.rolesHeld s.fr.kiDown then held.enterRanging.acceptShot l e else s.regDrop
    | .ranging | .inService => held.acceptShot l e
    | _ => s.regDrop

/-- An entry of the standby lane (R194, R217, R241): `RANGING` alone, in IN_SERVICE. -/
def State.rangingStandby (s : State) (l : Fin 2) (e : Grant) : State :=
  if !e.ranging then s
  else if !e.fits s.us.standby then s.dropEntry l
  else if e.len < 66 ∨ s.reg.st ≠ .inService then s.regDrop
  else ({ s with us.standby := s.us.standby ++ [e] } : State).acceptShot l e

/-! ### The forecaster (R260) -/

/-- An entry's key is the pattern's. -/
def Grant.keyIs (e : Grant) (p : Pattern) : Bool :=
  e.start == p.start && e.len == p.len && e.long == p.long && e.report == p.report && e.slot == p.slot

/-- A pattern started by an entry. -/
def Grant.first (e : Grant) : Pattern :=
  { n := 1, start := e.start, len := e.len, long := e.long, report := e.report, slot := e.slot, last := e.frame, period := 0 }

/-- The pattern after a watched entry. -/
def Pattern.learn (p : Pattern) (e : Grant) : Pattern :=
  let d : Int := (e.frame : Int) - p.last
  if p.n = 0 ∨ !e.keyIs p then e.first
  else if p.n = 1 ∧ 1 ≤ d ∧ d ≤ 8 then { p with period := d.toNat, n := 2, last := e.frame }
  else if p.n ≠ 1 ∧ d = p.period then { p with n := min (p.n + 1) 4, last := e.frame }
  else e.first

/-- An entry is watched: the first one accepted for its grant stream and upstream frame, with run-ahead on. -/
def State.watches (s : State) (e : Grant) : Bool :=
  let x := s.gs e.gs
  0 < x.depth && s.reg.st == .inService && !x.watched.contains e.frame

/-- A watched entry learned; a forecasting pattern forecasts. -/
def State.learn (s : State) (e : Grant) : State :=
  let s1 := s.modGs e.gs fun x => { x with pat := x.pat.learn e, watched := (e.frame :: x.watched).take 4 }
  s1.forecast e.gs

/-! ### Matching and fitting (R262, R263) -/

/-- An entry matches an unbound forecast burst. -/
def Grant.matches_ (e : Grant) (b : Burst) : Bool :=
  b.bound.isNone && b.frame == e.frame && b.start == e.start && b.long == e.long && b.report == e.report
    && b.slot == e.slot && b.fixed ≤ e.len

/-- Packets of a burst that fit a length beside its fixed parts and its LMM. -/
def Burst.fitting (b : Burst) (len : Nat) : Nat :=
  ((List.range (b.takes.length + 1)).filter fun n => ({ b with takes := b.takes.take n } : Burst).length ≤ len).foldl max 0

/-- Whether a burst is the one an entry is for. -/
def Grant.names (e : Grant) (b : Burst) : Bool := b.frame == e.frame && b.start == e.start

/-- `fit` of R262: an LMM the entry does not send is removed, packets are withdrawn from the last on, then the
LMM. -/
def State.fit (s : State) (e : Grant) : State :=
  let g := e.gs
  match (s.gs g).bursts.find? e.names with
  | none => s
  | some b =>
    let unreserve (s : State) : State :=
      (match b.lmm with | some x => s.requeueLmm x | none => s).modGs g fun x => { x with
        bursts := updateFirst e.names (fun b => { b with lmm := none }) x.bursts }
    let s1 := if !e.lmm && b.lmm.isSome then unreserve s else s
    let b1 := if !e.lmm then { b with lmm := none } else b
    let n := b1.fitting e.len
    let bare := ({ b1 with takes := [] } : Burst).length ≤ e.len
    let s2 := if n < b1.takes.length then
        (s1.withdrawTakes g e.names n).modGs g fun x => { x with trunc := inc32 x.trunc }
      else s1
    if bare then s2 else unreserve s2

/-- A forecast burst bound to its entry: a hit. -/
def State.bind (s : State) (e : Grant) : State :=
  let s1 := s.modGs e.gs fun x => { x with
    hits := inc32 x.hits
    bursts := updateFirst e.matches_ (fun b => { b with bound := some (e.len, e.lmm), len := e.len }) x.bursts }
  s1.fit e

/-- An entry counted as unused (R257, R258). -/
def State.lateGrant (s : State) (g : Fin 8) : State := s.modGs g fun x => { x with late := inc32 x.late }

/-- A regular burst for an entry (R258, R263): prepared bursts that start after it are withdrawn and built again. -/
def State.regular (s : State) (e : Grant) : State :=
  let b : Burst := { gs := e.gs, frame := e.frame, start := e.start, len := e.len, long := e.long, report := e.report,
                     slot := e.slot, forecast := false, rx := e.rxFrame, bound := some (e.len, e.lmm) }
  if e.short || s.pastFreeze e.frame e.start || e.len < b.fixed then s.lateGrant e.gs
  else if (s.gs e.gs).bursts.any b.before then
    ((s.withdrawFrom e.gs b.before true).assemble b).rebuild e.gs
  else s.assemble b

/-- A grant that needs a burst with something in it ends DUSK (R56). DEDUCED (log entry 335): a `SLEEP_REQ` that waits is no
such need, or the request of R58 would end the idle condition it rests on. -/
def State.grantWork (s : State) (e : Grant) : State :=
  let waits := (List.finRange 64).any fun q => (s.tm.map[q]).gs == e.gs && (s.q (upQid q)).frames != []
  if waits || (e.lmm && s.us.lmmq.any (·.type != 0x84)) then s.touch.toNoon else s

/-- An accepted entry of the active lane without `RANGING` (R257 to R263). -/
def State.serveGrant (s : State) (e : Grant) : State :=
  let watched := s.watches e
  let tooLate := s.tickAt s.lanes.prot.active e.frame e.start < s.now + 4000
  let named := (s.gs e.gs).bursts.any e.matches_
  let hit := !tooLate && named
  let open_ (b : Burst) : Bool := b.bound.isNone && b.frame == e.frame
  let s1 := if hit then s.bind e
    else
      let s2 := if watched && !named && (s.gs e.gs).bursts.any open_ then
          (s.modGs e.gs fun x => { x with misses := inc32 x.misses }).withdrawFrom e.gs open_ true
        else s
      if tooLate then s2.lateGrant e.gs else s2.regular e
  let s3 := if watched then s1.learn e else s1
  (s3.rebuild e.gs).grantWork e

/-- GRANT_ENTRY (R215 to R217): an entry of a valid map; entries of other RHs are skipped. While CC1 is in reset no new
entry is taken (R25, Table 4.2). -/
def execGrantEntry (lane : Fin 2) (bytes : List Byte) (s : State) : Out :=
  .next <|
    if !s.mapEntry lane bytes ∨ !s.boot.core1Up then s else
    let s1 := s.countEntry lane
    let e := grantOf (s1.chan lane).k bytes
    if !gOk bytes then s1.dropEntry lane
    else if gRh bytes ≠ s1.reg.rh ∨ gRh bytes = 0 ∨ gRh bytes = 0xFFF then s1
    else if !s1.takesEntries lane then (if e.ranging then s1.regDrop else s1)
    else if lane ≠ s1.lanes.prot.active then s1.rangingStandby lane e
    else if !e.fits s1.us.table then s1.dropEntry lane
    else if e.ranging then (s1.rangingActive lane e).resolveAll
    else (({ s1 with us.table := s1.us.table ++ [e] } : State).serveGrant e).resolveAll

/-- The entries of the standby lane's table whose upstream frames have ended are removed, and their ranging bursts with
them (R216, R217). -/
def State.endStandby (s : State) : State :=
  let b := s.standby
  let open_ (frame : Nat) : Bool := decide (s.now < s.tickAt b (frame + 1) 0)
  ({ s with
    us.standby := s.us.standby.filter fun e => open_ e.frame
    reg.rangeShot := s.reg.rangeShot.set b ((s.reg.rangeShot[b]).filter fun x => open_ x.frame) } : State).updateWtr

/-- GRANT_TABLE_FRAME_END (R216, R217): the oldest upstream frame of the active lane's table ends, and its entries with it;
with none there, the oldest of the standby lane's table. -/
def execGrantTableFrameEnd (s : State) : Out :=
  .next <|
    let l := s.lanes.prot.active
    match (s.us.table.map (·.frame)).min? with
    | some f =>
      let s1 := (s.reach (s.tickAt l (f + 1) 0)).resolveAll
      let s2 : State := { s1 with
        us.table := s1.us.table.filter fun e => f < e.frame
        reg.rangeShot := s1.reg.rangeShot.set l ((s1.reg.rangeShot[l]).filter fun x => f < x.frame) }
      s2.endStandby
    | none =>
      match (s.us.standby.map (·.frame)).min? with
      | some f => (s.reach (s.tickAt s.standby (f + 1) 0)).endStandby
      | none => s

/-! ### Freeze points (R258, R259) -/

/-- Takes sealed before the first one that is not. -/
def Burst.sealedRun (b : Burst) : Nat := (b.takes.takeWhile (·.sealed)).length

/-- A slot frame that is not sealed at its freeze point goes back to its queue's head and its IV is retired; the
slot is closed (R258, R259). -/
def State.closeSlot (s : State) (g : Fin 8) (p : Burst → Bool) : State :=
  match (s.gs g).bursts.find? p with
  | none => s
  | some b =>
    match b.slotTake with
    | some t =>
      if t.sealed then s.modGs g fun x => { x with bursts := updateFirst p (fun b => { b with slotClosed := true }) x.bursts }
      else s.modGs g fun x => { x with
        undo := t :: x.undo
        bursts := updateFirst p (fun b => { b with slotClosed := true, slotTake := none, slotIv := none }) x.bursts }
    | none => s.modGs g fun x => { x with bursts := updateFirst p (fun b => { b with slotClosed := true }) x.bursts }

/-- Packets that are not sealed leave the burst (R259), and everything taken after them. -/
def State.dropUnsealed (s : State) (g : Fin 8) (p : Burst → Bool) : State :=
  match (s.gs g).bursts.find? p with
  | some b => if b.sealedRun < b.takes.length then s.withdrawTakes g p b.sealedRun else s
  | none => s

/-- The report and the LMM reservation of a burst (Table 11.6). -/
def State.freezeParts (s : State) (g : Fin 8) (p : Burst → Bool) : State :=
  match (s.gs g).bursts.find? p with
  | none => s
  | some b =>
    let rep := if b.report then s.reportBody b else []
    let room := b.length + 52 ≤ b.len
    let m := if b.lmm.isNone && b.wantsLmm && room then nextLmm s.us.lmmq else none
    let fix (x : Burst) : Burst := { x with frozen := true, rep := rep, lmm := if m.isSome then m else x.lmm }
    let s1 := s.modGs g fun x => { x with bursts := updateFirst p fix x.bursts }
    let s2 : State := match m with
      | some v => { s1 with us.lmmq := s1.us.lmmq.filter fun x => x.n != v.n }
      | none => s1
    if b.report then { s2 with tm.dropped := s2.tm.dropped.set g false } else s2

/-- A burst's packet freeze point: unsealed packets leave, report and LMM are fixed, a regular burst's slot
closes. -/
def State.freezeBurst (s : State) (g : Fin 8) (p : Burst → Bool) : State :=
  let forecast := ((s.gs g).bursts.find? p).any (·.forecast)
  let s1 := (s.dropUnsealed g p).freezeParts g p
  if forecast then s1 else s1.closeSlot g p

/-- BURST_FREEZE (R258): 90 µs before the start of the grant stream's first burst that is not frozen. -/
def execBurstFreeze (gs : Fin 8) (s : State) : Out :=
  .next <|
    let s0 := s.resolveGs gs
    match (s0.gs gs).bursts.find? fun b => !b.frozen with
    | none => s0
    | some b =>
      let s1 := s0.reach (s0.burstAt b - 90000)
      (s1.freezeBurst gs fun x => !x.frozen).rebuild gs

/-- PROTECTION_SLOT_CLOSE (R258): 12 µs before the start of the first forecast burst with an open slot. -/
def execProtectionSlotClose (gs : Fin 8) (s : State) : Out :=
  .next <|
    let p (b : Burst) : Bool := b.slot && b.forecast && !b.slotClosed
    match (s.gs gs).bursts.find? p with
    | none => s
    | some b => ((s.reach (s.burstAt b - 12000)).closeSlot gs p).rebuild gs

/-- PACKET_SEAL_DONE (R21, R257): the oldest sealing job that a core works on ends; a take being undone needs no more
(R266). -/
def execPacketSealDone (s : State) : Out :=
  .next <|
    let s1 := s.startJobs
    match s1.cip.sealq.find? fun p => s1.runsOn (.seal p.1 p.2.1 p.2.2) with
    | some (g, ki, iv) =>
      let mark (t : Take) : Take := if t.iv = iv ∧ t.ki = ki then { t with sealed := true } else t
      let s2 := ({ s1 with cip.sealq := s1.cip.sealq.erase (g, ki, iv) } : State).freeCores (· == .seal g ki iv)
      (s2.modGs g fun x => { x with bursts := x.bursts.map fun b => { b with
        takes := b.takes.map mark, slotTake := b.slotTake.map mark } }).startJobs
    | none => s1

/-- WITHDRAWAL (R266): the undo of a grant stream, once no sealing job of it runs. -/
def execWithdrawal (gs : Fin 8) (s : State) : Out :=
  .next (if (s.gs gs).undo == [] && (s.gs gs).undoIvs == 0 then s else s.completeUndo gs)

/-! ### Commit (R250, R264) -/

/-- What lies between a burst's header and its trailer. -/
def State.burstPayload (s : State) (b : Burst) : List Byte :=
  let k := s.trafficKey 2 b.ki
  let slot := if b.slot then
      slotSegment k s.reg.rh ((b.slotTake.map fun t => (s.tm.map[t.q]).plen).getD 0) b.slotTake
    else []
  let packets := match k with
    | some k => b.takes.flatMap (packetSegment k s.reg.rh)
    | none => []
  let report := if b.report then segHeader 2 0 0 8 ++ b.rep else []
  let lmm := match b.lmm with
    | some x => segHeader 3 0 0 48 ++ lmmBytes s.reg.rh x
    | none => []
  slot ++ packets ++ report ++ lmm

/-- What a message that leaves in a burst starts or ends: the answer time of `SLEEP_REQ` (R66), the exit of
NIGHT told (R72), the notice of a deregistration (R246). -/
def State.lmmSent (s : State) (x : LmmOut) : State :=
  match x.type.toNat with
  | 0x84 => { s with power.night.answerBy := some (s.now + 32000000) }
  | 0x85 => { s with power.night.exitPending := false, power.night.exitCause := 0 }
  | 0x83 => s.noticeOver
  | _ => s

/-- The counters and samples of a committed burst (R264, R368). -/
def State.commitCounts (s : State) (b : Burst) : State :=
  let s1 := b.allTakes.foldl (fun s t => s.leave (upQid t.q) t.frame) s
  s1.modGs b.gs fun x => { x with
    nBursts := inc32 x.nBursts
    slotUsed := if b.slotTake.isSome then inc32 x.slotUsed else x.slotUsed
    retired := if b.slotIv.isSome && b.slotTake.isNone then inc32 x.retired else x.retired }

/-- A burst leaves (R264). -/
def State.commit (s : State) (b : Burst) : State :=
  let l := s.lanes.prot.active
  let at_ := s.burstAt b
  let end_ := at_ + 8 * b.length
  let seq := s.us.bseq + 1
  let pay := s.burstPayload b
  let h := burstHeader s.reg.rh s.rdi s.rdiB b.ki b.report b.lmm.isSome b.slot b.gs.val seq.toNat pay.length
  let bytes := h ++ pay
  let s1 := ((s.commitCounts b).noteEnd l b.frame end_).launch l b.start at_ b.long
    { lane := l, end_ := end_, gs := b.gs, pkts := b.allTakes.length } (bytes ++ fcsBytes bytes)
  let s2 : State := { s1 with us.bseq := seq }
  let s3 := if b.allTakes = [] ∧ b.lmm.all (·.type == 0x84) then s2 else s2.touch
  match b.lmm with
  | some x => s3.lmmSent x
  | none => s3

/-- An entry for a burst is held for its frame (R16). -/
def State.granted (s : State) (b : Burst) : Bool :=
  s.us.table.any fun e => e.frame == b.frame && e.gs == b.gs && e.start == b.start && !e.ranging

/-- BURST_COMMIT (R16, R243, R264): the grant stream's first bound burst, at its start. Without its entry, a
transmit permission or the distance R243 asks for it is withdrawn, and later ones are built again. -/
def execBurstCommit (gs : Fin 8) (s : State) : Out :=
  .next <|
    match (s.gs gs).bursts.find? fun b => b.bound.isSome with
    | none => s
    | some b0 =>
      let l := s.lanes.prot.active
      let at_ := s.burstAt b0
      let mine (b : Burst) : Bool := b.frame == b0.frame && b.start == b0.start
      let s1 := s.reach at_
      let overlap := s1.eqdOverlap l at_
      if !s1.granted b0 || !s1.mayTransmit l || overlap || s1.onFibre at_ then
        let s2 := s1.modGs gs fun x => { x with bursts := updateFirst mine (fun b => { b with bound := none }) x.bursts }
        let s3 := s2.withdrawKept gs mine
        if overlap then s3.regDrop else s3
      else
        let s2 := if b0.frozen then s1 else s1.freezeBurst gs mine
        let s3 := if b0.slotClosed then s2 else s2.closeSlot gs mine
        match (s3.gs gs).bursts.find? mine with
        | none => s3
        | some b =>
          let s4 := s3.modGs gs fun x => { x with bursts := x.bursts.filter fun y => !mine y }
          ((s4.commit b).rebuild gs).watchFill

/-- BURST_END (R187): 2 bt after the last end-of-burst code-group the lane's `OPT_TXDIS` is released. -/
def execBurstEnd (s : State) : Out :=
  .next <| match s.us.sending with
    | some b =>
      let s1 := s.reach (b.end_ + 16)
      { s1 with pads.txdisLow := s1.pads.txdisLow &&& ~~~(1#2 <<< b.lane.val), us.sending := none }
    | none => s

/-! ### Commands (R269) -/

/-- The result of `LTX.US_STATUS` (Table 11.9). -/
def State.usStatus (s : State) (g : Fin 8) : List Byte :=
  let x := s.gs g
  let p := x.pat
  [BitVec.ofNat 8 g.val, BitVec.ofNat 8 (if p.n = 0 then 0 else if p.n < 4 then 1 else 2), BitVec.ofNat 8 p.n,
   BitVec.ofNat 8 p.period] ++ leBytes 2 p.start ++ leBytes 2 p.len
    ++ [BitVec.ofNat 8 (b2n p.long + 2 * b2n p.report + 4 * b2n p.slot), BitVec.ofNat 8 x.depth,
        BitVec.ofNat 8 x.bursts.length, BitVec.ofNat 8 s.us.lmmOvf]
    ++ [x.nBursts, x.hits, x.misses, x.trunc, x.wdPkts, x.retired, x.late, x.slotUsed, x.cut].flatMap (leBytes 4)

/-- A grant stream's counters at zero. -/
def Stream.cleared (x : Stream) : Stream :=
  { x with nBursts := 0, hits := 0, misses := 0, trunc := 0, wdPkts := 0, retired := 0, late := 0, slotUsed := 0, cut := 0 }

/-- LTX_US_STATUS (R269). -/
def execLtxUsStatus (t : Ten) (n : SlotIx) (s : State) : Out :=
  command 0x0805 [(0, 2)] t n s fun s =>
    let b := s.prm1 t n 0
    let f := s.prm1 t n 1
    let g : Fin 8 := Fin.ofNat 8 b
    s.guard t n [(7 < b || 1 < f, Status.param)] fun s =>
      let r := s.usStatus g
      (if bit f 0 then { s.modGs g Stream.cleared with us.lmmOvf := 0 } else s).answer t n r

/-- LTX_US_CONFIG (R269, Table 11.7): a changed depth withdraws the grant stream's bursts. -/
def execLtxUsConfig (t : Ten) (n : SlotIx) (s : State) : Out :=
  command 0x0806 [(0, 3)] t n s fun s =>
    let b := s.prm1 t n 0
    let d := s.prm1 t n 1
    let f := s.prm1 t n 2
    let g : Fin 8 := Fin.ofNat 8 b
    s.guard t n [(7 < b || 2 < d || 1 < f, Status.param), (bit f 0 && s.configBusy, Status.regionBusy)] fun s =>
      let s1 := if (s.gs g).depth = d then s else (s.withdrawGs g).modGs g fun x => { x with depth := d }
      let s2 := if bit f 0 then ({ s1 with store.depth := s1.store.depth.set g (some d) } : State).persisted else s1
      s2.done t n Status.ok

/-- A mapping in force: the grant streams a queue leaves and joins are withdrawn (Table 11.7). -/
def State.setMap (s : State) (q : Fin 64) (m : QMap) : State :=
  let old := s.tm.map[q]
  if old = m then s else
  let s1 := (s.withdrawGs old.gs).withdrawGs m.gs
  { s1 with tm.map := s1.tm.map.set q m }

/-- LTX_QUEUE_MAP (R256, R269). -/
def execLtxQueueMap (t : Ten) (n : SlotIx) (s : State) : Out :=
  command 0x0807 [(0, 6)] t n s fun s =>
    let ps := s.params t n
    let q : Fin 64 := Fin.ofNat 64 (byteAt ps 0)
    let prot := byteAt ps 3 == 1
    let plen := byteAt ps 4
    let m : QMap := { gs := Fin.ofNat 8 (byteAt ps 1), band := Fin.ofNat 4 (byteAt ps 2), prot := prot, plen := plen }
    let per := byteAt ps 5 == 1
    s.guard t n [(63 < byteAt ps 0 || 7 < byteAt ps 1 || 3 < byteAt ps 2 || 1 < byteAt ps 3 || 1 < byteAt ps 5
                    || (if prot then !within 1 34 plen else plen != 0), Status.param),
                 (s.held (upQid q) != [], Status.state), (per && s.configBusy, Status.regionBusy)] fun s =>
      let s1 := s.setMap q m
      (if per then ({ s1 with store.map := s1.store.map.set q (some m) } : State).persisted else s1).done t n Status.ok

end Sys2Proof.Machine
end

