-- ==== Sys2Proof/Machine/Rules.lean ====
section
/-!
DEFINITION. Parsing and rules (R325 to R349): frames through the FIFOs, the parser, the lanes, the slow path
and the reorder buffers; drains and PAUSE commits; lanes out of service; the `RULES` commands.
-/

namespace Sys2Proof.Machine

/-! ### Into the parser (R325, R326, R329, R330, R335) -/

/-- INGRESS_FRAME (R325). The row names a source and the frame: no carrier addressed it to RH 0x000, and a frame
of source 3 counts as T0's. -/
def execIngressFrame (src : Fin 4) (bytes : List Byte) (oversize : Bool) (s : State) : Out :=
  .next <| if s.domOn dPKT then (s.ingress { bytes := bytes, src := src, oversize := oversize }).touch.toNoon else s

/-- A reorder buffer. -/
def State.reorder (s : State) (src : Fin 4) : List Flight := s.pars.reorder[src]

/-- The source the parser takes from next, in turn: it has a frame and a reorder position (R336), and no PAUSE
commit holds the parser (R344). -/
def State.nextIngress (s : State) : Option (Fin 4) :=
  if s.pars.pause.isSome || !s.domOn dPKT then none else
  ((List.range 4).map fun i => s.pars.nextSrc + Fin.ofNat 4 i).find? fun i =>
    s.pars.fifo[i] != [] && (s.reorder i).length < 256

/-- The lane of the next turn of the round robin (R335). -/
def Parser.nextLane (x : Parser) : Fin 4 :=
  (((List.range 4).map fun i => x.laneRr + Fin.ofNat 4 i).find? fun i => x.lanesIn[i]).getD x.laneRr

/-- A frame in flight joins its source's reorder buffer. -/
def State.putFlight (s : State) (f : Flight) : State :=
  { s with pars.reorder := s.pars.reorder.set f.frame.src (s.reorder f.frame.src ++ [f]) }

/-- Bytes of the slow path's buffer in use. -/
def Parser.slowFill (x : Parser) : Nat := x.slow.foldl (fun a i => a + i.size) 0

/-- The slow path admits a frame or drops it (R330); admitted, it holds its position until its deadline (R331). -/
def State.toSlow (s : State) (f : Flight) : State :=
  let b := s.pars.slowBucket.fill 20000 64 s.now
  let len := f.frame.bytes.length
  if b.any && decide (s.pars.slow.length < 1024) && decide (s.pars.slowFill + len ≤ 131072) then
    let s1 : State := { s with pars := { s.pars with
      slowBucket := b.take
      slow := s.pars.slow ++ [{ src := f.frame.src, n := f.n, size := len }], slowIn := inc32 s.pars.slowIn } }
    s1.putFlight { f with at_ := .slow (s.now + s.pars.slowDeadline * 1000) }
  else
    let s1 : State := { s with pars := { s.pars with
      slowBucket := b, slowDrop := inc32 s.pars.slowDrop, slowSecond := inc32 s.pars.slowSecond } }
    s1.putFlight { f with at_ := .dropped }

/-- A frame in the parser goes where Table 14.4 sends it. -/
def State.dispatch (s : State) (f : Flight) : State :=
  match parse s.pars.profiles[f.tag] f.frame with
  | .oversize => ({ s with pars.oversize := inc32 s.pars.oversize } : State).putFlight { f with at_ := .dropped }
  | .lenErr => ({ s with pars.lenErr := inc32 s.pars.lenErr } : State).putFlight { f with at_ := .dropped }
  | .key slow prof key =>
    if slow then s.toSlow { f with key := key, prof := prof }
    else
      let l := s.pars.nextLane
      ({ s with pars.laneRr := l + 1 } : State).putFlight { f with key := key, prof := prof, at_ := .lane l }

/-- PARSER_TAKE (R326): the next frame, its sequence number and its tag. -/
def execParserTake (s : State) : Out :=
  .next <| match s.nextIngress with
    | none => s
    | some src => match s.pars.fifo[src] with
      | [] => s
      | f :: rest =>
        let p := s.pars
        let s1 : State := { s with pars := { p with
          fifo := p.fifo.set src rest, nextSrc := src + 1, taken := p.taken + 1
          seqs := p.seqs.set src (p.seqs[src] + 1) } }
        s1.dispatch {
          seq := p.seqs[src] + 1, tag := p.cur, frame := { f with src := src }, key := [], prof := 7, n := p.taken
          at_ := .dropped }

/-! ### Lookups (R332, R335, R337) -/

/-- Frames in a lane. -/
def State.inLane (s : State) (l : Fin 4) : List Flight := s.flights.filter fun f => f.at_ == .lane l

/-- The frame that has been longest among those given. -/
def oldestFlight (fs : List Flight) : Option Flight :=
  fs.foldl (fun (best : Option Flight) f => match best with
    | none => some f
    | some b => if f.n < b.n then some f else best) none

/-- Where a frame in flight stands, changed. -/
def State.moveFlight (s : State) (f : Flight) (a : FlightAt) : State :=
  let uq := (s.ten f.frame.ten).cfg.uqMask
  let fs := (s.reorder f.frame.src).map fun (g : Flight) => if g.n == f.n then { g with at_ := a, uq := uq } else g
  { s with pars.reorder := s.pars.reorder.set f.frame.src fs }

/-- Lanes in service. -/
def Parser.lanesUp (x : Parser) : Nat := (x.lanesIn.toList.filter id).length

/-- The mask of lanes in service. -/
def Parser.laneMask (x : Parser) : List Byte := [BitVec.ofNat 8 (bitsOf 4 fun i => x.lanesIn[i])]

/-- A parity error in a lane (R337): three within a second take it out of service, unless it is the last. -/
def State.laneParity (s : State) (l : Fin 4) : State :=
  let recent := s.now :: s.pars.laneErrs[l].filter fun at_ => s.now < at_ + 10 ^ 9
  let out := 3 ≤ recent.length && s.pars.lanesIn[l] && 1 < s.pars.lanesUp
  let p := { s.pars with
    laneErr := satInc 65535 s.pars.laneErr, laneErrs := s.pars.laneErrs.set l (if out then [] else recent) }
  if out then { s with pars := { p with lanesIn := p.lanesIn.set l false, laneOut := p.laneOut.set l (some none) } }
  else { s with pars := p }

/-- LANE_LOOKUP_DONE (R335, R337): the lane's oldest frame; its action is decided, or the lane's parity or the
entry's failed and its position is released as a drop. -/
def execLaneLookupDone (lane : Fin 4) (parity entry : Bool) (s : State) : Out :=
  .next <| match oldestFlight (s.inLane lane) with
    | none => s
    | some f =>
      if parity then (s.moveFlight f .dropped).laneParity lane
      else if entry then
        { s.moveFlight f .dropped with pars.entryErr := satInc 65535 s.pars.entryErr }
      else s.moveFlight f (.decided (s.pars.lookup f.tag f.prof f.key))

/-- ENTRY_SCRUB (R337): the entries that failed are rewritten from the shadow. -/
def execEntryScrub (failed : List Nat) (s : State) : Out :=
  .next { s with pars.entryErr := satTo 65535 (s.pars.entryErr + failed.length) }

/-! ### The slow path (R330, R331) -/

/-- SLOW_PATH_DECIDE (R330): the next admitted frame, looked up under its tag, or discarded if its position has
been released. The slow path is CC0 software, and CC0 in reset decides nothing. -/
def execSlowPathDecide (s : State) : Out :=
  .next <| if !s.boot.core0Up then s else match s.pars.slow with
    | [] => s
    | i :: rest =>
      let s1 : State := { s with pars.slow := rest }
      match (s1.reorder i.src).find? fun f => f.n == i.n with
      | some f => match f.at_ with
        | .slow _ => s1.moveFlight f (.decided (s1.pars.lookup f.tag f.prof f.key))
        | _ => s1
      | none => s1

/-- The deadline of a slow-path frame. -/
def Flight.slowBy (f : Flight) : Option Nat := match f.at_ with | .slow d => some d | _ => none

/-- The slow-path frame whose deadline comes first. -/
def State.nextLate (s : State) : Option (Flight × Nat) :=
  (s.flights.filterMap fun f => f.slowBy.map fun d => (f, d)).foldl
    (fun (best : Option (Flight × Nat)) x => match best with
      | none => some x
      | some b => if x.2 < b.2 || (x.2 == b.2 && x.1.n < b.1.n) then some x else best) none

/-- SLOW_DEADLINE_EXPIRY (R331): the position is released as a drop. -/
def execSlowDeadlineExpiry (s : State) : Out :=
  .next <| match s.nextLate with
    | some (f, d) =>
      let s1 := (s.reach d).moveFlight f .dropped
      { s1 with pars.slowLate := inc32 s1.pars.slowLate }
    | none => s

/-- SLOW_PATH_SECOND (R330): source 0x63 with the drops of the second. -/
def execSlowPathSecond (s : State) : Out :=
  .next <|
    let s1 := s.reach s.pars.slowSecondBy
    let n := s1.pars.slowSecond
    let s2 : State := { s1 with pars.slowSecond := 0, pars.slowSecondBy := s1.pars.slowSecondBy + 10 ^ 9 }
    if n = 0 then s2 else s2.raise 0x63 (BitVec.ofNat 32 n)

/-! ### Out of the reorder buffer, drains (R334, R336, R342) -/

/-- REORDER_RELEASE (R336): the head of a source's buffer, decided or dropped. -/
def execReorderRelease (src : Fin 4) (s : State) : Out :=
  .next <| match s.reorder src with
    | f :: rest =>
      let s1 : State := { s with pars.reorder := s.pars.reorder.set src rest }
      match f.at_ with
      | .decided a => s1.actOn f.frame f.uq a
      | .dropped => s1
      | _ => s
    | [] => s

/-- VERSION_DRAIN (R342). -/
def execVersionDrain (s : State) : Out :=
  .next <| match s.pars.drain with
    | some d => if s.inFlight d then s else s.freeDrained d
    | none => s

/-! ### PAUSE update mode (R344) -/

/-- What a commit answers: the tag, and whether it is CURRENT (0) or QUEUED (1). -/
def tagResult (tag : Fin 4) (queued : Bool) : List Byte := [BitVec.ofNat 8 tag.val, BitVec.ofNat 8 (b2n queued)]

/-- A PAUSE commit posts, unless its session has ended. -/
def State.pausePost (s : State) (p : PauseUpd) (st : Half) (data : List Byte) : State :=
  if p.orphan then s else s.post p.ten p.slot st data

/-- PAUSE_UPDATE_QUIESCED (R344 steps 2 to 4): STAGING becomes CURRENT and the old tag is freed. -/
def execPauseUpdateQuiesced (s : State) : Out :=
  .next <| State.retryAuto <| match s.pars.pause, s.pars.staging with
    | some p, some tag =>
      if s.inFlight s.pars.cur then s else
      let old := s.pars.cur
      let s1 : State := { s with pars := { s.pars with
        cur := tag, staging := none, pause := none, persist := if p.persist then some tag else s.pars.persist } }
      let s2 : State := { s1 with pars := s1.pars.clearTag old }
      let s3 := ((s2.raise 0x60 (BitVec.ofNat 32 tag.val)).raise 0x61 (BitVec.ofNat 32 old.val)).persistVersion
      s3.pausePost p Status.ok (tagResult tag false)
    | _, _ => s

/-- PAUSE_UPDATE_TIMEOUT (R344): rolled back; STAGING whose lease is gone is then discarded (R343). -/
def execPauseUpdateTimeout (s : State) : Out :=
  .next <| State.retryAuto <| match s.pars.pause with
    | some p =>
      let s1 := s.reach p.by_
      let s2 : State := { s1 with pars := { s1.pars with pause := none, pauseTo := satInc 65535 s1.pars.pauseTo } }
      let s3 := if p.orphan || !s2.hasLease p.ten 8 then s2.discardStaging else s2
      s3.pausePost p Status.pauseTimeout []
    | none => s

/-! ### Lanes out of service (R345, R346) -/

/-- A wait for a lane answered. -/
def State.laneAnswer (s : State) (by_ : Option (Ten × SlotIx)) (st : Half) (data : List Byte) : State :=
  match by_ with
  | some (t, n) => s.post t n st data
  | none => s

/-- LANE_OUT_EMPTY (R345). -/
def execLaneOutEmpty (lane : Fin 4) (s : State) : Out :=
  .next <| match s.pars.laneOut[lane] with
    | some by_ =>
      if s.inLane lane != [] then s else
      let s1 : State := { s with pars.laneOut := s.pars.laneOut.set lane none }
      (s1.raise 0x62 (BitVec.ofNat 32 lane.val)).laneAnswer by_ Status.ok s1.pars.laneMask
    | none => s

/-- LANE_MARKER_OUT (R346): the lane's parity passed or failed while the marker went through. -/
def execLaneMarkerOut (lane : Fin 4) (pass : Bool) (s : State) : Out :=
  .next <| match s.pars.laneIn[lane] with
    | some by_ =>
      let s1 : State := { s with pars.laneIn := s.pars.laneIn.set lane none }
      if pass then
        let s2 : State := { s1 with pars.lanesIn := s1.pars.lanesIn.set lane true }
        (s2.raise 0x62 (BitVec.ofNat 32 (256 + lane.val))).laneAnswer by_ Status.ok s2.pars.laneMask
      else s1.laneAnswer by_ Status.state []
    | none => s

/-- RULES_LANE (R345, R346): a lane already out or in stays as it is. -/
def execRulesLane (t : Ten) (n : SlotIx) (s : State) : Out :=
  command 0x0907 [(0, 2)] t n s fun s =>
    let b := s.prm1 t n 0
    let goIn := s.prm1 t n 1 == 1
    let l : Fin 4 := Fin.ofNat 4 b
    let p := s.pars
    let up := p.lanesIn[l]
    s.guard t n [(3 < b || 1 < s.prm1 t n 1, Status.param),
                 (p.pause.isSome || (goIn && p.laneIn[l].isSome) || (!goIn && !up && p.laneOut[l].isSome), Status.busy),
                 (!goIn && up && p.lanesUp == 1, Status.state)] fun s =>
      if goIn == up then s.answer t n p.laneMask
      else if goIn then { s with pars.laneIn := p.laneIn.set l (some (some (t, n))) }
      else { s with pars := { p with
        lanesIn := p.lanesIn.set l false, laneOut := p.laneOut.set l (some (some (t, n))) } }

/-! ### Editing and commits (R327, R333, R339 to R343, R348) -/

/-- A field of a profile record (Table 14.2): none if it is refused. -/
def fieldOk (kind : Nat) (r : List Byte) : Bool :=
  let off := leAt r 0 2
  let len := byteAt r 2
  bits off 9 6 == 0 && !(bit off 15 && kind == 0) && 1 ≤ len && len ≤ 8 && byteAt r 3 == 0
    && (field r (4 + len) (8 - len)).all (· == 0)

/-- Field k of a profile record. -/
def profField (r : List Byte) (k : Nat) : List Byte := field r (24 + 12 * k) 12

/-- The profile a record spells, without regard to its checks. -/
def readProfile (r : List Byte) : Profile :=
  { valid := bit (byteAt r 1) 0, kind := bits (byteAt r 1) 1 2, etype := leAt r 2 2, mask := leAt r 4 2
    l3 := byteAt r 6, nh := byteAt r 7, default_ := leAt r 16 8
    fields := (List.range (byteAt r 8)).map fun k =>
      let f := profField r k
      (leAt f 0 2, byteAt f 2, field f 4 (byteAt f 2)) }

/-- A record of profiles 0 to 3 stands (R327, R333). -/
def plainProfileOk (r : List Byte) : Bool :=
  let p := readProfile r
  let nf := byteAt r 8
  let known := List.range (min nf 16)
  p.kind ≤ 2 && byteAt r 1 < 8 && nf ≤ 16 && (field r 9 7).all (· == 0)
    && (if p.kind = 0 then p.l3 == 0 else 14 ≤ p.l3 && p.l3 ≤ 128)
    && (if p.kind = 2 then p.l3 ≤ p.nh && p.nh ≤ p.l3 + 39 else p.nh == 0)
    && known.all (fun k => fieldOk p.kind (profField r k))
    && (field r (24 + 12 * nf) (12 * (16 - nf))).all (· == 0)
    && (known.foldl (fun a k => a + byteAt (profField r k) 2) 0) ≤ 40 && actionOk p.default_

/-- A record of profile 7 stands: only `PROF`, `VALID` and `DEFAULT` may be other than zero. -/
def noneProfileOk (r : List Byte) : Bool :=
  byteAt r 1 < 2 && (field r 2 14).all (· == 0) && (field r 24 192).all (· == 0) && actionOk (leAt r 16 8)

/-- A profile record as an index and a profile (Table 14.2); none if it is refused. -/
def profileOf (r : List Byte) : Option (Fin 5 × Profile) :=
  let i := byteAt r 0
  if i < 4 then (if plainProfileOk r then some (Fin.ofNat 5 i, readProfile r) else none)
  else if i = 7 then (if noneProfileOk r then some (4, { valid := bit (byteAt r 1) 0, default_ := leAt r 16 8 }) else none)
  else none

/-- An entry put in its place by number. -/
def putRule (l : List Rule) (r : Rule) : List Rule :=
  (l.takeWhile fun x => x.num < r.num) ++ r :: (l.filter fun x => r.num < x.num)

/-- A record applied to STAGING, or the status that refuses it. -/
abbrev Applied := Except Half Parser

/-- A profile record applied to STAGING (R339). -/
def Parser.applyProfile (x : Parser) (r : List Byte) : Applied :=
  match profileOf r with
  | none => .error Status.param
  | some (i, p) =>
    let y := x.openStaging
    match y.staging with
    | some tag => .ok { y with profiles := y.profiles.set tag (y.profiles[tag].set i p) }
    | none => .error Status.state

/-- An entry record applied to STAGING (R339). -/
def Parser.applyRule (x : Parser) (r : List Byte) : Applied :=
  let num := leAt r 0 2
  let act := leAt r 96 8
  if 4096 ≤ num || 1 < byteAt r 2 || (field r 3 5).any (· != 0) then .error Status.param
  else if bit (byteAt r 2) 0 then
    let y := x.openStaging
    match y.staging with
    | some tag => .ok { y with
        rules := (y.rules.map fun e => if e.num == num then { e with vmask := e.vmask &&& ~~~(1#4 <<< tag.val) } else e).filter
          (·.vmask != 0) }
    | none => .error Status.state
  else if !actionOk act then .error Status.param
  else
    let mine (e : Rule) : Bool := match x.staging with | some tag => e.vmask == 1#4 <<< tag.val | none => false
    if x.rules.any fun e => e.num == num && !mine e then .error Status.state
    else
      let y := x.openStaging
      match y.staging with
      | some tag => .ok { y with rules := putRule y.rules {
          num := num, value := field r 8 44, care := field r 52 44, action := act, vmask := 1#4 <<< tag.val } }
      | none => .error Status.state

/-- Records applied in order until one is refused (R339): the parser, how many stand, the status. -/
def applyAll (f : Parser → List Byte → Applied) : Parser → List (List Byte) → Nat → Parser × Nat × Half
  | x, [], k => (x, k, Status.ok)
  | x, r :: rs, k => match f x r with
    | .ok y => applyAll f y rs (k + 1)
    | .error st => (x, k, st)

/-- The records of a bulk range, each of `size` bytes. -/
def recordsOf (size : Nat) (bs : List Byte) : List (List Byte) :=
  (List.range (bs.length / size)).map fun k => field bs (size * k) size

/-- A bulk range holds a whole number of records, 1 to `top` (R349). -/
def State.recordsOk (s : State) (t : Ten) (n : SlotIx) (size top : Nat) : Bool :=
  let x := s.slot t n
  x.bulk && x.bLen % size == 0 && within 1 top (x.bLen / size)

/-- A tag as a status byte; 0xFF for none. -/
def tagByte (o : Option (Fin 4)) : Byte := match o with | some i => BitVec.ofNat 8 i.val | none => 0xFF

/-- RULES_PROFILE (R339): STAGING cannot be edited while a PAUSE commit is ending it. -/
def execRulesProfile (t : Ten) (n : SlotIx) (s : State) : Out :=
  commandBy 0x0902 t n s fun s =>
    s.guard t n [(!s.recordsOk t n 216 5, Status.param), (s.pars.pause.isSome, Status.busy)] fun s =>
      let r := applyAll Parser.applyProfile s.pars (recordsOf 216 (s.params t n)) 0
      ({ s with pars := r.1 } : State).post t n r.2.2 [BitVec.ofNat 8 r.2.1, tagByte r.1.staging]

/-- RULES_WRITE (R339). -/
def execRulesWrite (t : Ten) (n : SlotIx) (s : State) : Out :=
  commandBy 0x0903 t n s fun s =>
    s.guard t n [(!s.recordsOk t n 104 256, Status.param), (s.pars.pause.isSome, Status.busy)] fun s =>
      let r := applyAll Parser.applyRule s.pars (recordsOf 104 (s.params t n)) 0
      ({ s with pars := r.1 } : State).post t n r.2.2 (leBytes 2 r.2.1 ++ [tagByte r.1.staging])

/-- A VERSIONED commit (R341). -/
def State.commitVersion (s : State) (t : Ten) (n : SlotIx) (persist : Bool) : State :=
  match s.pars.staging with
  | none => s.done t n Status.state
  | some tag =>
    let s1 : State := { s with pars := { s.pars with
      staging := none, persist := if persist then some tag else s.pars.persist } }
    match s.pars.drain, s.pars.queued with
    | none, _ => (s1.makeCurrent tag).answer t n (tagResult tag false)
    | some _, none => ({ s1 with pars.queued := some tag } : State).answer t n (tagResult tag true)
    | some _, some _ => s.done t n Status.versionsFull

/-- RULES_COMMIT (R341, R344, R348). -/
def execRulesCommit (t : Ten) (n : SlotIx) (s : State) : Out :=
  command 0x0904 [(0, 2)] t n s fun s => State.retryAuto <|
    let pauseMode := s.prm1 t n 0 == 1
    let persist := bit (s.prm1 t n 1) 0
    let p := s.pars
    s.guard t n [(1 < s.prm1 t n 0 || 1 < s.prm1 t n 1, Status.param),
                 (p.pause.isSome || (pauseMode && (p.drain.isSome || p.queued.isSome)), Status.busy),
                 (p.staging.isNone, Status.state), (persist && s.configBusy, Status.regionBusy)] fun s =>
      if pauseMode then
        { s with pars.pause := some { ten := t, slot := n, by_ := s.now + 50000, persist := persist } }
      else s.commitVersion t n persist

/-- RULES_DISCARD (R343). -/
def execRulesDiscard (t : Ten) (n : SlotIx) (s : State) : Out :=
  command 0x0905 [] t n s fun s => State.retryAuto <|
    s.guard t n [(s.pars.pause.isSome, Status.busy), (s.pars.staging.isNone, Status.state)] fun s =>
      s.discardStaging.done t n Status.ok

/-! ### Reading and configuration (R347, R349) -/

/-- An entry record (Table 14.9); a free entry reads zero. -/
def Parser.entryRecord (x : Parser) (num : Nat) : List Byte :=
  match x.rules.find? fun r => r.num == num with
  | some r => leBytes 2 num ++ List.replicate 6 0 ++ field r.value 0 44 ++ field r.care 0 44 ++ leBytes 8 r.action
  | none => leBytes 2 num ++ List.replicate 102 0

/-- The `VMASK` of an entry. -/
def Parser.vmaskOf (x : Parser) (num : Nat) : Nat :=
  match x.rules.find? fun r => r.num == num with
  | some r => r.vmask.toNat
  | none => 0

/-- RULES_READ (R347): from the shadow. -/
def execRulesRead (t : Ten) (n : SlotIx) (s : State) : Out :=
  command 0x0906 [(0, 2), (4, 4)] t n s fun s =>
    let num := s.prm t n 0 2
    let off := s.prm t n 4 4
    s.guard t n [(4095 < num || !s.rangeOk t n off 104, Status.param)] fun s =>
      (s.partWrite t off (s.pars.entryRecord num)).post t n Status.ok [BitVec.ofNat 8 (s.pars.vmaskOf num)] true

/-- The 56 bytes of `RULES.STATUS` (Table 14.10). -/
def State.rulesStatus (s : State) : List Byte :=
  let p := s.pars
  let ed : Byte := match s.holder 8 with | some t => BitVec.ofNat 8 t.val | none => 0xFF
  [BitVec.ofNat 8 p.cur.val, tagByte p.drain, tagByte p.queued, tagByte p.staging, ed] ++ p.laneMask
    ++ leBytes 2 (4096 - p.rules.length) ++ leBytes 2 p.lastDrainUs ++ [0, 0]
    ++ [p.slowIn, p.slowDrop, p.slowLate, p.lenErr, p.oversize, p.inFull, p.dsUp, p.uqDeny, p.noDest].flatMap (leBytes 4)
    ++ [p.laneErr, p.entryErr, p.pauseTo].flatMap (leBytes 2) ++ [0, 0]

/-- RULES_STATUS. -/
def execRulesStatus (t : Ten) (n : SlotIx) (s : State) : Out :=
  command 0x0901 [(0, 1)] t n s fun s =>
    let f := s.prm1 t n 0
    s.guard t n [(1 < f, Status.param)] fun s =>
      let r := s.rulesStatus
      let p := s.pars
      (if bit f 0 then
        { s with pars := { p with
            slowIn := 0, slowDrop := 0, slowLate := 0, lenErr := 0, oversize := 0, inFull := 0, dsUp := 0, uqDeny := 0
            noDest := 0, laneErr := 0, entryErr := 0, pauseTo := 0 } }
       else s).answer t n r

/-- A counter's two counts as 16 bytes. -/
def Parser.counter (x : Parser) (i : Nat) : List Byte :=
  let c := ((x.counters.find? fun c => c.1 == i).map (·.2)).getD (0, 0)
  leBytes 8 c.1 ++ leBytes 8 c.2

/-- RULES_COUNTERS (R334). -/
def execRulesCounters (t : Ten) (n : SlotIx) (s : State) : Out :=
  command 0x0908 [(0, 4)] t n s fun s =>
    let first := s.prm t n 0 2
    let k := s.prm1 t n 2
    let f := s.prm1 t n 3
    s.guard t n [(2047 < first || !within 1 3 k || 2048 < first + k || 1 < f, Status.param)] fun s =>
      let r := (List.range k).flatMap fun i => s.pars.counter (first + i)
      (if bit f 0 then
        { s with pars.counters := s.pars.counters.filter fun c => c.1 < first || first + k ≤ c.1 }
       else s).answer t n r

/-- RULES_SLOW_CONFIG (R331): for frames admitted from now on. -/
def execRulesSlowConfig (t : Ten) (n : SlotIx) (s : State) : Out :=
  command 0x0909 [(0, 3)] t n s fun s =>
    let d := s.prm t n 0 2
    let f := s.prm1 t n 2
    s.guard t n [(!within 50 2000 d || 1 < f, Status.param), (bit f 0 && s.configBusy, Status.regionBusy)] fun s =>
      let s1 : State := { s with pars.slowDeadline := d }
      (if bit f 0 then ({ s1 with store.slowDeadline := some d } : State).persisted else s1).done t n Status.ok

end Sys2Proof.Machine
end

