-- ==== Sys2Proof/Machine/Traffic.lean ====
section
/-!
DEFINITION. Queues and ports (R350 to R373): local egress, holds, the latency watch, injection and reception, and
the `TRAFFIC` commands.
-/

namespace Sys2Proof.Machine

/-! ### Local egress (R358, R366) -/

/-- The rate of a local port in kbit/s (R358). -/
def LocalLane.rate (x : LocalLane) : Nat :=
  if x.speed = 0 then 10000 else if x.speed = 1 then 100000 else if x.speed = 2 then 1000000 else 2500000

/-- The hold of a local port runs. -/
def State.portHeld (s : State) (l : Fin 2) : Bool := Hold.runs s.tm.holdPort[l] s.now

/-- The inter-packet gap of 12 bytes (R204). -/
def LocalLane.gapNs (x : LocalLane) : Nat := 12 * 8 * bitPs x.speed / 1000

/-- A local port may send a frame (R204, R366): link up, the MAC free and its gap over, no hold of any kind. -/
def State.portMaySend (s : State) (l : Fin 2) : Bool :=
  let x := s.local_ l
  let paused := match x.pausedBy with | some d => decide (s.now < d) | none => false
  s.laneLink l && decide (x.busyTo + x.gapNs ≤ s.now) && !paused && x.holdBy.isNone && !s.portHeld l

/-- Where a port's round-robin pointer of a band stands in `rr`. -/
def portPtr (l : Fin 2) (band : Fin 4) : Fin 40 := Fin.ofNat 40 (32 + 4 * l.val + band.val)

/-- The egress queues of a band that may be served. -/
def State.egressReady (s : State) (l : Fin 2) (band : Fin 4) : List (Fin 64) :=
  (List.finRange 64).filter fun q => q.val < 32 && q.val / 8 == band.val &&
    (let x := (s.q (egressQid l (Fin.ofNat 32 q.val))).tick s.now
     x.frames != [] && x.eligible)

/-- The selection of R355 for a local port: the first band with a queue, and the queue. -/
def State.egressChoice (s : State) (l : Fin 2) : Option (Fin 4 × Fin 64) :=
  (List.finRange 4).findSome? fun band => (afterPtr s.tm.rr[portPtr l band] (s.egressReady l band)).map fun q => (band, q)

/-- The time a frame of `len` bytes takes on a lane with its pad, preamble and FCS, in ns (R203). -/
def LocalLane.frameNs (x : LocalLane) (len : Nat) : Nat := (max len 60 + 12) * 8 * bitPs x.speed / 1000

/-- PORT_EGRESS_SELECT (R358): the MAC starts a frame of its egress queues. -/
def execPortEgressSelect (lane : Fin 2) (s : State) : Out :=
  .next <|
    if !s.portMaySend lane then s else
    match s.egressChoice lane with
    | none => s
    | some (band, q) =>
      let i := egressQid lane (Fin.ofNat 32 q.val)
      let x := (s.q i).tick s.now
      match x.frames with
      | [] => s
      | f :: rest =>
        let rate := (s.local_ lane).rate
        let s1 := s.modQ i fun _ => ({ x with frames := rest } : Queue).charge (f.bytes.length + 24) rate
        let s2 : State := { s1 with tm.rr := s1.tm.rr.set (portPtr lane band) (some q.val) }
        let s3 := ((s2.leave i f).modLocal lane fun y => { y with
          busyTo := s.now + y.frameNs f.bytes.length, txQid := i.val, txCells := f.cells, txFrames := inc32 y.txFrames })
        (s3.emit (.egress lane (padTo 60 f.bytes))).watchFill

/-! ### Holds (R364 to R366) -/

/-- A hold placed on the masked grant streams. -/
def holdMasked (v : Vector (Option Hold) 8) (mask : Nat) (h : Option Hold) : Vector (Option Hold) 8 :=
  Vector.ofFn fun g => if bit mask g.val then h else v[g]

/-- The builder looks at the masked grant streams again. -/
def State.buildMasked (s : State) (mask : Nat) : State :=
  (List.finRange 8).foldl (fun s g => if bit mask g.val then s.build g else s) s

/-- UP_HOLD (R364, R365). -/
def execUpHold (lane : Fin 2) (slot : Fin 3) (bytes : List Byte) (s : State) : Out :=
  lmmRow 0x07 (· == 4) lane slot bytes s fun s _ b =>
    let mask := byteAt b 0
    if s.reg.st ≠ .inService ∧ s.reg.st ≠ .silent then s
    else
      let h := holdOf s.now (beAt b 1 2) (bit (byteAt b 3) 0)
      ({ s with tm.holdHe := holdMasked s.tm.holdHe mask h } : State).buildMasked mask

/-- The end of a hold with a duration. -/
def Hold.ends (h : Option Hold) : Option Nat := h.bind (·.until_)

/-- The earlier of two ends. -/
def earlier (a b : Option Nat) : Option Nat :=
  match a, b with
  | some x, some y => some (min x y)
  | some x, none => some x
  | none, y => y

/-- A hold whose end has come is gone. -/
def Hold.swept (h : Option Hold) (now : Nat) : Option Hold := if Hold.runs h now then h else none

/-- HOLD_EXPIRY (R365, R366): of a grant stream 0 to 7, whichever of its two holds ends first, or of a local port,
8 for L2 and 9 for L3. -/
def execHoldExpiry (id : Fin 10) (s : State) : Out :=
  .next <|
    if h : id.val < 8 then
      let g : Fin 8 := ⟨id.val, h⟩
      match earlier (Hold.ends s.tm.holdHe[g]) (Hold.ends s.tm.holdOwn[g]) with
      | none => s
      | some d =>
        let s1 := s.reach d
        ({ s1 with tm := { s1.tm with
            holdHe := s1.tm.holdHe.set g (Hold.swept s1.tm.holdHe[g] s1.now)
            holdOwn := s1.tm.holdOwn.set g (Hold.swept s1.tm.holdOwn[g] s1.now) } } : State).build g
    else
      let l : Fin 2 := Fin.ofNat 2 (id.val - 8)
      match Hold.ends s.tm.holdPort[l] with
      | none => s
      | some d =>
        let s1 := s.reach d
        { s1 with tm.holdPort := s1.tm.holdPort.set l (Hold.swept s1.tm.holdPort[l] s1.now) }

/-- TRAFFIC_HOLD (R364 to R366). -/
def execTrafficHold (t : Ten) (n : SlotIx) (s : State) : Out :=
  command 0x0A06 [(0, 3), (4, 2)] t n s fun s =>
    let what := s.prm1 t n 0
    let mask := s.prm1 t n 1
    let f := s.prm1 t n 2
    let h := holdOf s.now (s.prm t n 4 2) (bit f 0)
    s.guard t n [((what != 0 && what != 2 && what != 3) || 1 < f, Status.param)] fun s =>
      let s1 : State := if what = 0 then
          ({ s with tm.holdOwn := holdMasked s.tm.holdOwn mask h } : State).buildMasked mask
        else { s with tm.holdPort := s.tm.holdPort.set (Fin.ofNat 2 (what - 2) : Fin 2) h }
      s1.done t n Status.ok

/-! ### The latency watch (R370, R371) -/

/-- Nanoseconds of a sampler period. -/
def Sampler.periodNs (x : Sampler) : Nat := 64000 * 2 ^ x.k

/-- The admission of the oldest frame that waits in a queue. -/
def Queue.oldest (x : Queue) : Option Nat := x.frames.foldl (fun a f => earlier a (some f.at_)) none

/-- A watch entry (Table 15.6). -/
def State.watchEntry (s : State) (period qid : Nat) : BitVec 64 :=
  let i : Fin 184 := Fin.ofNat 184 qid
  let hol := match (s.q i).oldest with
    | some a => satTo (2 ^ 24 - 1) ((s.now - a) / 1000)
    | none => 0
  BitVec.ofNat 64 (qid * 2 ^ 56 + satTo 65535 (s.depth i) * 2 ^ 40 + hol * 2 ^ 16 + period % 65536)

/-- WATCH_PERIOD (R370): one entry for each listed queue, in list order. -/
def execWatchPeriod (s : State) : Out :=
  .next <|
    let x := s.tm.sampler
    if !x.running then s else
    let s1 := s.reach (x.start + (x.period + 1) * x.periodNs)
    let new := (x.qids.map (s1.watchEntry x.period)).reverse
    { s1 with tm.sampler := { x with
        period := x.period + 1, ring := (new ++ x.ring).take 4096, index := (x.index + x.qids.length) % 2 ^ 32 } }

/-- TRAFFIC_WATCH (R370). -/
def execTrafficWatch (t : Ten) (n : SlotIx) (s : State) : Out :=
  command 0x0A07 [(0, 10)] t n s fun s =>
    let op := s.prm1 t n 0
    let k := s.prm1 t n 1
    let qs := ((List.range 8).map fun i => s.prm1 t n (2 + i)).filter (· != 0xFF)
    s.guard t n [(1 < op || 8 < k || qs.any (183 < ·), Status.param)] fun s =>
      let s1 : State := if op = 0 then { s with tm.sampler.running := false }
        else { s with tm.sampler := { running := true, k := k, qids := qs, start := s.now, startTt := s.ttU } }
      s1.done t n Status.ok

/-- The entries of the ring from an index: the first index returned, and the entries, oldest first (R371). An index
not yet written returns none. -/
def Sampler.from (x : Sampler) (first count : Nat) : Nat × List (BitVec 64) :=
  let age := (x.index + 2 ^ 32 - first) % 2 ^ 32
  if 2 ^ 31 ≤ age then (first, []) else
  let held := min age x.ring.length
  ((x.index + 2 ^ 32 - held) % 2 ^ 32, ((x.ring.take held).reverse).take count)

/-- TRAFFIC_WATCH_READ (R371). -/
def execTrafficWatchRead (t : Ten) (n : SlotIx) (s : State) : Out :=
  command 0x0A08 [(0, 6), (8, 4)] t n s fun s =>
    let count := s.prm t n 4 2
    let off := s.prm t n 8 4
    s.guard t n [(!within 1 4096 count || !s.rangeOk t n off (8 * count), Status.param)] fun s =>
      let x := s.tm.sampler
      let r := x.from (s.prm t n 0 4) count
      (s.partWrite t off (r.2.flatMap fun e => leBytes 8 e.toNat)).post t n Status.ok
        (leBytes 4 r.1 ++ leBytes 2 r.2.length ++ leBytes 1 x.k ++ [0] ++ leBytes 4 x.index ++ ttBytes x.startTt) true

/-! ### Injection (R361) -/

/-- Room for a record of `len` bytes in the FIFO of source 3. -/
def State.injectRoom (s : State) (len : Nat) : Bool := s.domOn dPKT && s.fifoFits 3 len

/-- The record at an offset of a range: the frame and the offset of the next record, none if it is malformed. Padding
that the range does not reach is absent. -/
def recordAt (bs : List Byte) (off : Nat) : Option (List Byte × Nat) :=
  let len := leAt bs off 2
  let next := min bs.length (off + 4 + (len + 3) / 4 * 4)
  if 60 ≤ len && len ≤ 9212 && leAt bs (off + 2) 2 == 0 && off + 4 + len ≤ bs.length
      && (field bs (off + 4 + len) (next - (off + 4 + len))).all (· == 0) then
    some (field bs (off + 4) len, next)
  else none

/-- Records offered in order while the FIFO has room, from an offset and a count; a malformed record ends the
command. -/
def State.injectRun (s : State) (t : Ten) (n : SlotIx) (bs : List Byte) : Nat → Nat → Nat → State
  | 0, _, _ => s
  | fuel + 1, off, k =>
    let gone : State := { s with tm.inject := s.tm.inject.filter fun x => x.1 != t || x.2.1 != n }
    if bs.length ≤ off then gone.answer t n (leBytes 2 k) else
    match recordAt bs off with
    | none => gone.post t n Status.param (leBytes 2 k)
    | some (f, next) =>
      if !s.injectRoom f.length then { gone with tm.inject := (t, n, off, k) :: gone.tm.inject }
      else ((s.ingress { bytes := f, src := 3, ten := t }).toNoon).injectRun t n bs fuel next (k + 1)

/-- TRAFFIC_INJECT (R361): a stop that came first finds no record offered. -/
def execTrafficInject (t : Ten) (n : SlotIx) (s : State) : Out :=
  commandBy 0x0A09 t n s fun s =>
    if s.tm.inject.any fun x => x.1 == t && x.2.1 == n then s else
    s.guard t n [(!(s.slot t n).bulk, Status.param)] fun s =>
      if (s.slot t n).stop.isSome then
        ({ s with tm.inject := (t, n, 0, 0) :: s.tm.inject } : State).sweepInject t n
      else s.injectRun t n (s.params t n) 1100 0 0

/-- INJECT_OFFER (R361): a waiting injection goes on. -/
def execInjectOffer (t : Ten) (n : SlotIx) (s : State) : Out :=
  .next <|
    match s.tm.inject.find? fun x => x.1 == t && x.2.1 == n with
    | some (_, _, off, k) => if s.inHand t n 0x0A09 then s.injectRun t n (s.params t n) 1100 off k else s
    | none => s

/-! ### Reception (R359, R360) -/

/-- The first masked queue of a tenant port with a frame. -/
def State.portHead (s : State) (t : Ten) (mask : Nat) : Option (Fin 8 × Frame) :=
  (List.finRange 8).findSome? fun q =>
    if bit mask q.val then ((s.q (portQid t q)).frames.head?).map fun f => (q, f) else none

/-- A record of `TRAFFIC.RECEIVE` (Table 15.7). -/
def portRecord (q : Fin 8) (f : Frame) (now : Nat) : List Byte :=
  let len := f.bytes.length
  leBytes 2 len ++ [BitVec.ofNat 8 q.val, BitVec.ofNat 8 (b2n (f.colour == .yellow))]
    ++ leBytes 4 (satTo (2 ^ 32 - 1) ((now - f.at_) / 1000)) ++ field f.bytes 0 ((len + 3) / 4 * 4)

/-- Frames copied from a tenant port in strict priority until the range, the maximum or the frames are used up:
the state, frames copied, bytes written. -/
def State.copyPort (s : State) (t : Ten) (off room mask most : Nat) : Nat → Nat → Nat → State × Nat × Nat
  | 0, k, w => (s, k, w)
  | fuel + 1, k, w =>
    match s.portHead t mask with
    | none => (s, k, w)
    | some (q, f) =>
      let r := portRecord q f s.now
      if room < w + r.length || (most != 0 && k == most) then (s, k, w) else
      let i := portQid t q
      let s1 := ((s.modQ i fun x => { x with frames := x.frames.tail }).leave i f).watchFill
      (s1.partWrite t (off + w) r).copyPort t off room mask most fuel (k + 1) (w + r.length)

/-- TRAFFIC_RECEIVE (R359, R360): `PORT_RX` again if frames remain. -/
def execTrafficReceive (t : Ten) (n : SlotIx) (s : State) : Out :=
  command 0x0A0A [(0, 10)] t n s fun s =>
    let off := s.prm t n 0 4
    let room := s.prm t n 4 4
    s.guard t n [(room < 64 || !s.rangeOk t n off room, Status.param),
                 (t == 0 || (spiOf (s.ten t).cfg.transport).isNone, Status.state)] fun s =>
      let r := s.copyPort t off room (s.prm1 t n 8) (s.prm1 t n 9) (s.portWaiting t) 0 0
      let left := r.1.portWaiting t
      let s1 := r.1.post t n Status.ok (leBytes 2 r.2.1 ++ leBytes 2 (satTo 65535 left) ++ leBytes 4 r.2.2) true
      ({ s1 with tm.rxTold := s1.tm.rxTold.set t false } : State).tellPort t

/-! ### Status and configuration (R373) -/

/-- A mask of grant streams whose hold runs. -/
def State.holdMask (s : State) (v : Vector (Option Hold) 8) : Nat := bitsOf 8 fun g => Hold.runs v[g] s.now

/-- The 32 bytes of `TRAFFIC.STATUS` (Table 15.8). -/
def State.trafficStatus (s : State) : List Byte :=
  let x := s.tm
  leBytes 2 x.buf.upCells ++ leBytes 2 s.upUsed ++ leBytes 2 s.dnUsed ++ leBytes 2 x.hwmCells
    ++ leBytes 1 (s.holdMask x.holdOwn) ++ leBytes 1 (s.holdMask x.holdHe)
    ++ [BitVec.ofNat 8 (b2n (s.portHeld 0) + 2 * b2n (s.portHeld 1)), 0]
    ++ leBytes 4 x.poolDrop ++ leBytes 4 x.pwrFlush ++ leBytes 4 x.linkFlush
    ++ leBytes 2 (satTo 65535 x.xoffCnt[0]) ++ leBytes 2 (satTo 65535 x.xoffCnt[1]) ++ leBytes 4 s.buffered

/-- TRAFFIC_STATUS: the mark starts again at the cells in use. -/
def execTrafficStatus (t : Ten) (n : SlotIx) (s : State) : Out :=
  command 0x0A01 [(0, 1)] t n s fun s =>
    let f := s.prm1 t n 0
    s.guard t n [(1 < f, Status.param)] fun s =>
      let r := s.trafficStatus
      let s1 : State := { s with tm.hwmCells := s.upUsed + s.dnUsed }
      let s2 : State := if bit f 0 then
          { s1 with tm := { s1.tm with poolDrop := 0, pwrFlush := 0, linkFlush := 0, xoffCnt := Vector.replicate 2 0 } }
        else s1
      s2.answer t n r

/-- A queue's settings as `TRAFFIC.QUEUE_CFG` gives them. -/
def queueParams (ps : List Byte) : QueueCfg :=
  { qmax := leAt ps 2 2, ymax := leAt ps 4 2, shape := bit (byteAt ps 1) 0, kbps := leAt ps 8 4, hi := leAt ps 12 4
    lo := toSigned 32 (leAt ps 16 4), latTh := leAt ps 20 4 }

/-- The settings lie in their ranges (R352, R357, R369); the idle slope matters only with the shaper, which a tenant
port's queue does not have. -/
def QueueCfg.ok (c : QueueCfg) (qid : Nat) : Bool :=
  c.ymax ≤ c.qmax && c.kbps ≤ 1000000 && (!c.shape || (1 ≤ c.kbps && qid < 128)) && c.hi ≤ 1048576
    && decide (-1048576 ≤ c.lo) && decide (c.lo ≤ 0) && c.latTh ≤ 1000000

/-- A queue's settings changed: the shaper turned on starts from 0, otherwise the credit is kept and clamped. -/
def Queue.configure (x : Queue) (c : QueueCfg) (now : Nat) : Queue :=
  let y := x.tick now
  { y with cfg := c, credit := c.clamp (if c.shape && !x.cfg.shape then 0 else y.credit) }

/-- TRAFFIC_QUEUE_CFG (R352, R357, R369). -/
def execTrafficQueueCfg (t : Ten) (n : SlotIx) (s : State) : Out :=
  command 0x0A02 [(0, 6), (8, 16)] t n s fun s =>
    let ps := s.params t n
    let b := byteAt ps 0
    let f := byteAt ps 1
    let c := queueParams ps
    let i : Fin 184 := Fin.ofNat 184 b
    s.guard t n [(183 < b || 3 < f || !c.ok b, Status.param), (bit f 1 && s.configBusy, Status.regionBusy)] fun s =>
      let s1 := s.modQ i fun x => x.configure c s.now
      let s2 := if h : i.val < 64 then s1.build (s1.tm.map[(⟨i.val, h⟩ : Fin 64)]).gs else s1
      (if bit f 1 then ({ s2 with store.queues := s2.store.queues.set i (some c) } : State).persisted else s2).done t n Status.ok

/-- A queue is held: its grant stream or its local port. -/
def State.queueHeld (s : State) (i : Fin 184) : Bool :=
  if h : i.val < 64 then s.gsHeld (s.tm.map[(⟨i.val, h⟩ : Fin 64)]).gs
  else if i.val < 128 then s.portHeld (Fin.ofNat 2 ((i.val - 64) / 32)) else false

/-- A queue is a `PROT` queue. -/
def State.queueProt (s : State) (i : Fin 184) : Bool :=
  if h : i.val < 64 then (s.tm.map[(⟨i.val, h⟩ : Fin 64)]).prot else false

/-- The 40 bytes of `TRAFFIC.QUEUE_STATUS` (Table 15.9), the credit counted up to now. -/
def State.queueStatus (s : State) (i : Fin 184) : List Byte :=
  let x := (s.q i).tick s.now
  leBytes 1 i.val ++ leBytes 1 (b2n x.cfg.shape + 2 * b2n (s.queueHeld i) + 4 * b2n (s.queueProt i))
    ++ leBytes 2 (satTo 65535 (s.depth i)) ++ leBytes 2 (satTo 65535 (s.held i).length)
    ++ leBytes 2 (satTo 65535 x.hwmDepth) ++ leBytes 4 (satTo (2 ^ 32 - 1) (x.hwmDelay / 1000)) ++ leInt 4 x.credit
    ++ [x.enq, x.sent, x.tailDrop, x.yDrop, x.redDrop, x.flush].flatMap (leBytes 4)

/-- TRAFFIC_QUEUE_STATUS (R368): the marks are cleared after reading. -/
def execTrafficQueueStatus (t : Ten) (n : SlotIx) (s : State) : Out :=
  command 0x0A03 [(0, 1)] t n s fun s =>
    let b := s.prm1 t n 0
    let i : Fin 184 := Fin.ofNat 184 b
    s.guard t n [(183 < b, Status.param)] fun s =>
      let r := s.queueStatus i
      (s.modQ i fun x => { x.tick s.now with hwmDepth := 0, hwmDelay := 0 }).answer t n r

/-- A policer's parameters as `TRAFFIC.POLICER` gives them. -/
def policerParams (ps : List Byte) : PolicerCfg :=
  { en := bit (byteAt ps 2) 0, aware := bit (byteAt ps 2) 1, cir := leAt ps 4 4, pir := leAt ps 8 4, cbs := leAt ps 12 4
    pbs := leAt ps 16 4 }

/-- The ranges of Table 15.4. -/
def PolicerCfg.ok (c : PolicerCfg) : Bool :=
  c.cir ≤ c.pir && c.pir ≤ 10000000 && within 64 16777215 c.cbs && within 64 16777215 c.pbs

/-- The 36 bytes of `TRAFFIC.POLICER`: the parameters, the counts, and Tc. -/
def Policer.report (p : Policer) (i op flags : Nat) : List Byte :=
  [BitVec.ofNat 8 i, BitVec.ofNat 8 op, BitVec.ofNat 8 (b2n p.cfg.en + 2 * b2n p.cfg.aware + 4 * (flags / 4)), 0]
    ++ [p.cfg.cir, p.cfg.pir, p.cfg.cbs, p.cfg.pbs, p.green, p.yellow, p.red, p.tc / 8000000].flatMap (leBytes 4)

/-- TRAFFIC_POLICER (R362, R363). -/
def execTrafficPolicer (t : Ten) (n : SlotIx) (s : State) : Out :=
  command 0x0A04 [(0, 3), (4, 16)] t n s fun s =>
    let ps := s.params t n
    let b := byteAt ps 0
    let op := byteAt ps 1
    let f := byteAt ps 2
    let c := policerParams ps
    let i : Fin 128 := Fin.ofNat 128 b
    s.guard t n [(127 < b || 1 < op || 15 < f || (op == 0 && !c.ok), Status.param),
                 (op == 0 && bit f 2 && s.configBusy, Status.regionBusy)] fun s =>
      let old := s.tm.policers[i]
      let p := if op = 0 then old.write c s.now else old.fill s.now
      let kept := if bit f 3 then { p with green := 0, yellow := 0, red := 0 } else p
      let s1 : State := { s with tm.policers := s.tm.policers.set i kept }
      let s2 := if op = 0 && bit f 2 then ({ s1 with store.policers := s1.store.policers.set i (some c) } : State).persisted
        else s1
      s2.answer t n (p.report b op f)

/-- TRAFFIC_BUFFER (R351, R367). -/
def execTrafficBuffer (t : Ten) (n : SlotIx) (s : State) : Out :=
  command 0x0A05 [(0, 7)] t n s fun s =>
    let ps := s.params t n
    let up := leAt ps 0 2
    let f := byteAt ps 6
    let c : BufCfg := { upCells := up, xoff := #v[byteAt ps 2, byteAt ps 4], xon := #v[byteAt ps 3, byteAt ps 5] }
    let ok (l : Fin 2) : Bool := within 2 15 c.xoff[l] && within 1 (c.xoff[l] - 1) c.xon[l]
    s.guard t n [(!within 512 7680 up || !ok 0 || !ok 1 || 1 < f, Status.param),
                 (bit f 0 && s.configBusy, Status.regionBusy)] fun s =>
      let s1 : State := { s with tm.buf := c }
      (if bit f 0 then ({ s1 with store.buf := some c } : State).persisted else s1).done t n Status.ok

end Sys2Proof.Machine
end

