-- ==== Sys2Proof/Machine/Messages.lean ====
section
/-!
DEFINITION. Head-end messages of the power, time and tributary chapters: NIGHT (R66 to R72), `TIME_INFO` (R283,
R284), `TRIB_CFG` (R461).
-/

namespace Sys2Proof.Machine

/-! ### NIGHT (R66, R67, R72) -/

/-- TT in ns of the start of the multiframe a lane receives. -/
def State.multiStart (s : State) (l : Fin 2) : Int :=
  let c := s.chan l
  s.ttNs - (s.now - c.start : Nat) - c.mfi * 125000

/-- A grant that R67 accepts: its cycle, and an anchor 2 to 64 multiframes after the present one, to the nearest
multiframe. -/
def State.grantOk (s : State) (l : Fin 2) (cycle anchor : Nat) : Bool :=
  let m := ((anchor : Int) - s.multiStart l + 1000000) / 2000000
  [4, 8, 16, 32, 64].contains cycle && cycle ≤ s.power.cfg.cMax && decide (2 ≤ m) && decide (m ≤ 64)

/-- What an accepted grant leaves for light-wake (R67). -/
def State.keepSite (s : State) (b : List Byte) : State :=
  { s with power.lw.group := BitVec.ofNat 16 (beAt b 9 2), power.lw.site := BitVec.ofNat 16 (beAt b 11 2) }

/-- A grant accepted: listening starts at its anchor (R69), unless the request's condition has ended. -/
def State.takeGrant (s : State) (cycle anchor : Nat) : State :=
  let ended := s.sleepOver
  let s1 : State := { s with power.night := { s.power.night with
    answerBy := none, granted := true, cycle := cycle, nextListen := anchor } }
  if ended then s1.nightTrigger 0 else s1

/-- SLEEP_GRANT (R67): the answer to a request, or in a listen a new cycle and anchor. -/
def execSleepGrant (lane : Fin 2) (slot : Fin 3) (bytes : List Byte) (s : State) : Out :=
  lmmRow 0x08 (· == 13) lane slot bytes s fun s _ b =>
    let cycle := byteAt b 0
    let anchor := beAt b 1 8
    let x := s.power.night
    let listening := s.power.pstate == .night && x.listening && !x.exiting
    if !x.answerBy.isSome && !listening then s
    else if !s.grantOk lane cycle anchor then
      { s with
        power.night := { x with discards := x.discards + 1, answerBy := none }
        power.idle.night := s.now }
    else
      let s1 := s.keepSite b
      if listening then { s1 with power.night.nextGrant := some (cycle, anchor) } else s1.takeGrant cycle anchor

/-- SLEEP_DENY (R66, Table 3.4). -/
def execSleepDeny (lane : Fin 2) (slot : Fin 3) (bytes : List Byte) (s : State) : Out :=
  lmmRow 0x09 (· == 2) lane slot bytes s fun s _ b =>
    if s.power.night.answerBy = none then s else
    let x := { s.power.night with
      answerBy := none, retryFrom := s.now + beAt b 0 2 * 1000000000 }
    { s with power.night := x, power.idle.night := s.now }

/-- NIGHT_WAKE (R72). -/
def execNightWake (lane : Fin 2) (slot : Fin 3) (bytes : List Byte) (s : State) : Out :=
  lmmRow 0x0A (· == 0) lane slot bytes s fun s _ _ => s.nightTrigger 0x01

/-! ### Time (R283, R284) -/

/-- The offset a body gives once its leap has taken effect. -/
def offAfter (kind : Nat) (off : Int) : Int := if kind = 1 then off + 1 else if kind = 2 then off - 1 else off

/-- A leap that R284 takes: at a UTC midnight, at least 1 s ahead. -/
def State.leapOk (s : State) (kind : Nat) (off : Int) (at_ : Nat) : Bool :=
  kind == 0 || (((at_ : Int) - offAfter kind off) % 86400 == 0 && decide (s.ttNs + 10 ^ 9 ≤ at_ * 10 ^ 9))

/-- TIME_INFO (R283, R284). -/
def execTimeInfo (lane : Fin 2) (slot : Fin 3) (bytes : List Byte) (s : State) : Out :=
  lmmRow 0x06 (· == 24) lane slot bytes s fun s _ b =>
    let off := toSigned 16 (beAt b 0 2)
    let kind := byteAt b 2
    let at_ := beAt b 4 8
    if 2 < kind || !s.leapOk kind off at_ then s.dropLmm lane else
    let old := s.time
    let news := if kind = 0 then decide (old.utcOff ≠ off) else decide (old.leapKind ≠ kind ∨ old.leapAt ≠ at_ ∨ old.utcOff ≠ off)
    let s1 : State := { s with time := { old with
      utcOff := off, leapKind := kind, leapAt := if kind = 0 then 0 else at_, traceable := bit (byteAt b 3) 0
      timing := some (toSigned 32 (beAt b 12 4), toSigned 32 (beAt b 16 4), toSigned 32 (beAt b 20 4)) } }
    if news then s1.raise 0x39 (BitVec.ofInt 32 (offAfter kind off)) else s1

/-! ### Tributaries (R461) -/

/-- A record of Table 19.1 for a tributary. -/
def readTrib (r : List Byte) : Trib :=
  { down := bit (byteAt r 1) 0, up := bit (byteAt r 1) 1, queue := Fin.ofNat 64 (byteAt r 2), rate := beAt r 4 2
    close := beAt r 6 2 }

/-- A record is one that R461 takes. -/
def tribRecordOk (r : List Byte) : Bool :=
  let ty := byteAt r 0
  ty ≤ 3 && (ty == 0 || (byteAt r 2 ≤ 63 && beAt r 6 2 ≤ 31249 &&
    (if ty = 1 then beAt r 4 2 == 0 else within 12 2560 (beAt r 4 2))))

/-- The record of a tributary among the three of a body. -/
def tribRecord (rs : List (List Byte)) (ix : Fin 3) : Option Trib :=
  (rs.find? fun r => byteAt r 0 == ix.val + 1).map readTrib

/-- The configuration of a body; none if it is malformed. -/
def tribConfig (b : List Byte) : Option TribCfg :=
  let rs := [field b 0 8, field b 8 8, field b 16 8]
  let types := (rs.map fun r => byteAt r 0).filter (· != 0)
  let queues := (rs.filter fun r => byteAt r 0 != 0 && bit (byteAt r 1) 1).map fun r => byteAt r 2
  if rs.all tribRecordOk && decide types.Nodup && decide queues.Nodup then
    some (Vector.ofFn fun ix => tribRecord rs ix)
  else none

/-- TRIB_CFG (R461): the downstream side applies it from the next frame, each upstream side from its next close
tick. -/
def execTribCfg (lane : Fin 2) (slot : Fin 3) (bytes : List Byte) (s : State) : Out :=
  lmmRow 0x0C (· == 24) lane slot bytes s fun s _ b =>
    match tribConfig b with
    | some cfg => (List.finRange 2).foldl (fun s n => if (cfg[tribOf n]).isNone then s.removeTps n else s)
        ({ s with aud.cfg := cfg } : State)
    | none => s.dropLmm lane

end Sys2Proof.Machine
end

