-- ==== Sys2Proof/Machine/Cipher.lean ====
section
/-!
DEFINITION. The cipher engine and the key store (R374 to R400, R412): tenant jobs, KBUS, parity faults and
fencing, ceilings, and the `CIPHER` and `KEYS` commands.
-/

namespace Sys2Proof.Machine

/-! ### Key references (R387, R389, R412) -/

/-- What a key reference of a tenant names: its source, and its attributes as a slot has them. -/
structure KeyView where
  src : KeySrc
  attr : KeySlot
deriving DecidableEq, Repr

/-- A key reference: a slot 8 to 63, or a handle 0 to 3. -/
def keyRefOk (r : Nat) : Bool := within 8 63 r || within 0x80 0x83 r

/-- The entry of a tenant's handle. -/
def State.handleEntry (s : State) (t : Ten) (h : Nat) : Option (Fin 32) :=
  (s.handlesOf t).find? fun e => (s.entry e).any fun k => k.handle == h

/-- A handle's attributes: its `TMASK` is its owner alone, and it has no ceiling (R389, R392). -/
def BankKey.attr (k : BankKey) (t : Ten) : KeySlot :=
  { state := if k.decOnly then 2 else 1, key := k.key, big := k.big, flags := k.flags, tmask := 1#8 <<< t.val, salt := k.salt
    ctr := k.ctr, ceil := 0 }

/-- What a reference names; none for a handle the tenant does not hold. -/
def State.keyView (s : State) (t : Ten) (r : Nat) : Option KeyView :=
  if r < 64 then
    let i : Fin 64 := Fin.ofNat 64 r
    some { src := .slot i, attr := s.keys.slots[i] }
  else
    (s.handleEntry t (r - 0x80)).bind fun e => (s.entry e).map fun k => { src := .entry e, attr := k.attr t }

/-- The operations of R387. -/
inductive KeyOp where
  | encrypt | decrypt | macMake | macCheck | derive_ | wrap
deriving DecidableEq, Repr

/-- The bit of `FLAGS` an operation needs. -/
def KeyOp.flag : KeyOp → Nat
  | .encrypt => 0 | .decrypt => 1 | .macMake => 2 | .macCheck => 2 | .derive_ => 3 | .wrap => 4

/-- What a DECRYPT_ONLY key still permits. -/
def KeyOp.late : KeyOp → Bool
  | .decrypt => true | .macCheck => true | _ => false

/-- The status R387, R379 and R396 give a use of a key: none when it may be used. An EMPTY slot and a handle that is
not held have no key to load. -/
def State.keyCheck (s : State) (t : Ten) (v : Option KeyView) (op : KeyOp) : Option Half :=
  match v with
  | none => some Status.state
  | some v =>
    let a := v.attr
    if a.state = 0 then some Status.state
    else if !a.tmask.getLsbD t.val || !a.flags.getLsbD op.flag then some Status.authority
    else if a.state = 2 && !op.late then
      some (if op = .encrypt && a.ctr == lastCtr then Status.nonceExhausted else Status.authority)
    else if !s.loadable v.src then some Status.state
    else none

/-! ### Jobs (R375 to R378, R390, R399) -/

/-- A tenant's job is accepted. -/
def State.queueJob (s : State) (t : Ten) (n : SlotIx) (src : KeySrc) (iv : List Byte) : State :=
  ({ s with
    cip.jobs := s.cip.jobs ++ [{ num := s.cip.nextJob, ten := t, slot := n, src := src, iv := iv }]
    cip.nextJob := s.cip.nextJob + 1 } : State).startJobs

/-- Destroyed keys that no started job uses any more: contexts zeroed and the command posted (R399). -/
def State.settleDestroys (s : State) : State :=
  s.cip.destroys.foldl (fun s d =>
    if s.cip.jobs.any fun j => j.started && j.src == d.src then s else
    let s1 := ({ s with cip.destroys := s.cip.destroys.filter (· != d) } : State).zeroCtxOf d.src
    match d.by_ with
    | some (t, n) => s1.done t n Status.ok
    | none => s1) s

/-- A job whose completion leaves the engine free for others. -/
def State.afterJob (s : State) : State := s.settleDestroys.settleThaw.startJobs

/-- The ranges of a job's parameters: input, length, output, additional data and its length. -/
def State.jobInput (s : State) (t : Ten) (n : SlotIx) : List Byte := s.partRead t (s.prm t n 4 4) (s.prm t n 8 4)
def State.jobAad (s : State) (t : Ten) (n : SlotIx) : List Byte := s.partRead t (s.prm t n 16 4) (s.prm t n 20 2)
def State.jobWrite (s : State) (t : Ten) (n : SlotIx) (bs : List Byte) : State := s.partWrite t (s.prm t n 12 4) bs

/-- A seal ends (R390): IV, tag, bytes written. -/
def State.endSeal (s : State) (j : Job) : State :=
  let (t, n) := (j.ten, j.slot)
  let r := gcmSeal j.key j.iv (s.jobAad t n) (s.jobInput t n)
  (s.jobWrite t n r.1).answer t n (j.iv ++ r.2 ++ leBytes 4 r.1.length)

/-- An open ends (R376): nothing is written when the tag fails. -/
def State.endOpen (s : State) (j : Job) : State :=
  let (t, n) := (j.ten, j.slot)
  let ps := s.params t n
  let iv := field ps 24 12
  let c := s.jobInput t n
  if field ps 36 16 = beBytes 16 (Config.gcmTag j.key iv (s.jobAad t n) c).toNat then
    (s.jobWrite t n (ctrCrypt j.key (gcmBlock iv) c)).answer t n ([0, 0, 0, 0] ++ leBytes 4 c.length)
  else s.answer t n ([1, 0, 0, 0] ++ leBytes 4 0)

/-- A CTR job ends: the counter block used and the bytes written. -/
def State.endCtr (s : State) (j : Job) : State :=
  let (t, n) := (j.ten, j.slot)
  let block := if s.prm1 t n 1 = 1 then field (s.params t n) 16 16 else j.iv ++ [0, 0, 0, 1]
  let c := ctrCrypt j.key block (s.jobInput t n)
  (s.jobWrite t n c).answer t n (block ++ leBytes 4 c.length)

/-- A CMAC job ends: the tag as long as asked, or whether it verifies. -/
def State.endCmac (s : State) (j : Job) : State :=
  let (t, n) := (j.ten, j.slot)
  let len := s.prm1 t n 2
  let tag := (beBytes 16 (Config.cmac j.key (s.jobInput t n)).toNat).take len
  if s.prm1 t n 1 = 1 then s.answer t n [if tag = field (s.params t n) 16 len then 0 else 1]
  else s.answer t n (field tag 0 16)

/-! ### Import and derivation (R397, R398) -/

/-- A record line of region 5 cannot be written: the key-lock flag is set, or the region is DEGRADED (R400, R410). -/
def State.recordCheck (s : State) : Option Half :=
  if s.ao.keyLock || s.fuses.life == .retired then some Status.state
  else if s.nvm.degraded.getLsbD 5 then some Status.worn else none

/-- The import record a command names. -/
def State.importRecord (s : State) (t : Ten) (n : SlotIx) : List Byte := s.partRead t (s.prm t n 8 4) 72

/-- The bits and ranges of an import record (Table 16.6). -/
def importOk (r : List Byte) : Bool :=
  within 8 63 (byteAt r 0) && within 1 31 (byteAt r 1) && byteAt r 2 != 0 && byteAt r 3 ≤ 1

/-- The wrapping key a command may use (R386, R387): slot 2, or an ACTIVE slot with WRAP. -/
def State.wrapCheck (s : State) (t : Ten) (r : Nat) : Option Half :=
  if r = 2 then (if s.slotLoads 2 then none else some Status.state) else s.keyCheck t (s.keyView t r) .wrap

/-- The wrapping key. -/
def State.wrapKey (s : State) (r : Nat) : List Byte := if r = 2 then s.keys.kek else s.keys.slots[(Fin.ofNat 64 r : Fin 64)].key

/-- The bytes of a key of a size. -/
def keyOf (big : Bool) (bs : List Byte) : List Byte := bs.take (if big then 32 else 16)

/-- A key put into a slot (R397, R398): its counters stay, an exhausted one makes it DECRYPT_ONLY, and a ceiling that
is near is raised. -/
def KeySlot.install (k : KeySlot) (key : List Byte) (big : Bool) (flags tmask : Byte) (salt : List Byte) (iseq : Nat) : KeySlot :=
  { k with
    state := if k.ctr = lastCtr then 2 else 1, key := key, big := big, flags := flags, tmask := tmask, salt := salt
    iseq := iseq, pend := if k.ceil ≤ k.ctr + 16384 ∧ k.pend = none then some (k.ceil + 65536) else k.pend }

/-- The import itself (R397), its checks in order. -/
def State.endImport (s : State) (t : Ten) (n : SlotIx) : State :=
  let r := s.importRecord t n
  let wk := s.prm1 t n 0
  let i : Fin 64 := Fin.ofNat 64 (byteAt r 0)
  let k := s.keys.slots[i]
  let kImp := kdf 1 (s.wrapKey wk) [0x5A, 0x50, 0x4B, 0x49]
    (beBytes 8 Config.terminalId.toNat ++ [r.getD 0 0] ++ field r 8 4)
  let iv := field r 12 12
  let c := field r 24 32
  let good := field r 56 16 == beBytes 16 (Config.gcmTag kImp iv (field r 0 12) c).toNat
  match s.wrapCheck t wk, s.recordCheck with
  | some st, _ => s.done t n st
  | none, some st => s.done t n st
  | none, none =>
    s.guard t n [(k.state != 0 || beAt r 8 4 ≤ k.iseq, Status.state), (!good, Status.authority)] fun s =>
      let big := byteAt r 3 == 1
      (s.modSlotKey i fun k => k.install (keyOf big (ctrCrypt kImp (gcmBlock iv) c)) big (r.getD 1 0) (r.getD 2 0)
        (field r 4 4) (beAt r 8 4)).recordWritten.done t n Status.ok

/-- A free entry for a handle. -/
def State.freeHandle (s : State) : Option (Fin 32) := handleEntries.find? fun e => (s.entry e).isNone

/-- Four bytes of a new salt from the random source (R398). -/
def State.saltDraw (s : State) : List Byte := beBytes 4 s.draw

/-- A derived key placed in a handle (R389, R398). -/
def State.placeHandle (s : State) (t : Ten) (n : SlotIx) (target : Nat) (key : List Byte) (big : Bool) (flags : Byte) : State :=
  match s.freeHandle with
  | none => s.done t n Status.busy
  | some e =>
    s.guard t n [(4 ≤ (s.handlesOf t).length || (s.handleEntry t (target - 0x80)).isSome, Status.busy)] fun s =>
      let salt := s.saltDraw
      (s.drawn.setEntry e (some {
        key := key, salt := salt, big := big, flags := flags, owner := some t, handle := target - 0x80 })).answer t n
        ([BitVec.ofNat 8 target, 0, 0, 0] ++ salt)

/-- A derived key placed in a slot (R398). -/
def State.placeSlot (s : State) (t : Ten) (n : SlotIx) (target : Nat) (key : List Byte) (big : Bool) (flags tmask : Byte) : State :=
  let i : Fin 64 := Fin.ofNat 64 target
  let k := s.keys.slots[i]
  match s.recordCheck with
  | some st => s.done t n st
  | none =>
    s.guard t n [(k.state != 0, Status.state)] fun s =>
      let salt := s.saltDraw
      (s.drawn.modSlotKey i fun k => k.install key big flags tmask salt k.iseq).recordWritten.answer t n
        ([BitVec.ofNat 8 target, 0, 0, 0] ++ salt)

/-- The derivation itself (R398): the output keeps its parent's size. -/
def State.endDerive (s : State) (t : Ten) (n : SlotIx) : State :=
  let ps := s.params t n
  let v := s.keyView t (byteAt ps 0)
  match s.keyCheck t v .derive_, v with
  | some st, _ => s.done t n st
  | none, none => s.done t n Status.state
  | none, some v =>
    let target := byteAt ps 1
    let flags : Byte := ps.getD 2 0
    let tmask : Byte := ps.getD 3 0
    let key := kdf (if v.attr.big then 2 else 1) v.attr.key (field ps 8 (byteAt ps 4)) (field ps 24 (byteAt ps 5))
    s.guard t n [(flags &&& ~~~(v.attr.flags &&& 0x07) != 0, Status.authority),
                 (target < 64 && tmask &&& ~~~v.attr.tmask != 0, Status.authority)] fun s =>
      if target < 64 then s.placeSlot t n target key v.attr.big flags tmask
      else s.placeHandle t n target key v.attr.big flags

/-! ### Completion and KBUS (R376, R379, R380) -/

/-- What a job's command does at its end, its bytes counted. -/
def State.jobResult (s : State) (j : Job) : State :=
  let op := (s.slot j.ten j.slot).opcode
  let s1 : State := { s with cip := { s.cip with
    nJobs := inc32 s.cip.nJobs, nBytes := s.cip.nBytes + s.prm j.ten j.slot 8 4 } }
  if op = 0x0B02 then s1.endSeal j
  else if op = 0x0B03 then s1.endOpen j
  else if op = 0x0B04 then s1.endCtr j
  else if op = 0x0B05 then s1.endCmac j
  else s1

/-- The end of a job; one whose slot was emptied writes its output without a result (R128). -/
def State.endJob (s : State) (j : Job) : State :=
  let s1 := s.dropCJob j
  if j.orphan then s1.runGhost { ten := j.ten, slot := j.slot, cmd := j.cmd } (·.jobResult j) else s1.jobResult j

/-- Every KBUS operation issued so far completes; the number bounds them. -/
def State.kbusAll : Nat → State → State
  | 0, s => s
  | n + 1, s => s.kbusDone.kbusAll n

/-- The tenant job on a core that arrived first. -/
def State.runningJob (s : State) : Option Job := s.cip.jobs.find? fun j => s.runsOn (.job j.num)

/-- The cores as a completion finds them: where no tenant job runs, the KBUS operations that keep the first one waiting
have completed. -/
def State.jobsOn (s : State) : State :=
  let s1 := s.startJobs
  if s1.runningJob.isSome then s1 else (s1.kbusAll s1.cip.kbus.length).startJobs

/-- CIPHER_JOB_DONE (R376): the first tenant job that a core runs ends. -/
def execCipherJobDone (s : State) : Out :=
  .next <|
    let s1 := s.jobsOn
    match s1.runningJob with
    | some j => (s1.endJob j).afterJob
    | none => s1

/-- KBUS_OP_DONE (R379, R381). -/
def execKbusOpDone (s : State) : Out := .next s.kbusDone.startJobs

/-- The context a KBUS operation concerns. -/
def KOp.ctx : KOp → Fin 16
  | .load c _ _ => c
  | .zero c => c

/-- KBUS_WATCHDOG (R380): the context is zeroed, and the operation is issued again. -/
def execKbusWatchdog (s : State) : Out :=
  .next <| match s.cip.kbus with
    | [] => s
    | o :: _ =>
      let zeroed : Option Ctx := (s.cip.ctx[o.ctx]).map fun x => { x with key := [] }
      { s with cip := { s.cip with kbusWd := satInc 65535 s.cip.kbusWd, ctx := s.cip.ctx.set o.ctx zeroed } }

/-! ### Parity faults and fencing (R382, R383) -/

/-- A context zeroed and loaded again from its source. -/
def State.reloadCtx (s : State) (c : Fin 16) : State :=
  match s.cip.ctx[c] with
  | none => s
  | some x => { s with cip := { s.cip with
      kbus := s.cip.kbus ++ [.zero c, .load c x.src x.ten], ctx := s.cip.ctx.set c (some { x with key := [] }) } }

/-- The context of a traffic key (Table 16.2). -/
def trafficCtx (role : Fin 3) (gen : Bool) : Fin 16 := Fin.ofNat 16 (trafficEntry role gen).val

/-- A sealing job faulted (Table 16.3): its take and what follows it are withdrawn, its IV retired. -/
def State.faultSeal (s : State) (g : Fin 8) (ki : Bool) (iv : Nat) : State :=
  let s1 := ({ s with cip.sealq := s.cip.sealq.filter fun p => p != (g, ki, iv) } : State).freeCores (· == .seal g ki iv)
  let mine (t : Take) : Bool := t.iv == iv && t.ki == ki
  let inSlot (b : Burst) : Bool := b.slotTake.any mine
  let inPackets (b : Burst) : Bool := b.takes.any mine
  let bs := (s1.gs g).bursts
  if bs.any inSlot then s1.withdrawKept g inSlot
  else match bs.find? inPackets with
    | some b => (s1.withdrawTakes g inPackets (b.takes.takeWhile fun t => !mine t).length).rebuild g
    | none => s1

/-- A piece of work aborted by a fault (Table 16.3). -/
def State.faultWork (s : State) : CoreWork → State
  | .seal g ki iv => (s.faultSeal g ki iv).reloadCtx (trafficCtx 2 ki)
  | .dec d =>
    let s1 : State := { s with cip := { s.cip with decq := s.cip.decq.erase d, dsFault := inc32 s.cip.dsFault } }
    (s1.freeCores (· == .dec d)).reloadCtx (trafficCtx (Fin.ofNat 3 d.role.val) d.gen)
  | .job num => match s.cip.jobs.find? fun j => j.num == num with
    | some j =>
      let s1 := s.failJob j Status.faultCipher
      match j.ctx with | some c => s1.reloadCtx c | none => s1
    | none => s

/-- The context a piece of work uses, as source 0x80 reports it. -/
def State.workCtx (s : State) : CoreWork → Nat
  | .seal _ ki _ => (trafficCtx 2 ki).val
  | .dec d => (trafficCtx (Fin.ofNat 3 d.role.val) d.gen).val
  | .job num => (((s.cip.jobs.find? fun j => j.num == num).bind (·.ctx)).map Fin.val).getD 8

/-- The engine is fenced (R383): what runs is aborted, waiting containers are dropped, every core that has not failed
before is tested. -/
def State.fence (s : State) : State :=
  let s1 := s.works.foldl (fun s w => s.faultWork w) s
  let s2 := (s1.cip.jobs.filter (·.started)).foldl (fun s j => s.failJob j Status.faultCipher) s1
  let n := s2.cip.decq.length
  ({ s2 with cip := { s2.cip with
      fenced := true, fences := satInc 65535 s2.cip.fences, decq := [], fenceDrop := satTo (2 ^ 32 - 1) (s2.cip.fenceDrop + n)
      core := Vector.replicate 2 false, run := Vector.replicate 2 none, testing := s2.cip.broken.map (!·) } } : State).raise 0x81 1

/-- A parity fault counted in the sliding second. -/
def State.countFault (s : State) : State :=
  let recent := s.now :: s.cip.faultsAt.filter fun at_ => s.now < at_ + 10 ^ 9
  { s with cip := { s.cip with faults := inc32 s.cip.faults, faultsAt := recent } }

/-- CIPHER_PARITY_FAULT (R382, R383): a fault in a core under test is counted. -/
def execCipherParityFault (core : Fin 2) (s : State) : Out :=
  .next <| match s.cip.run[core] with
    | none => if s.cip.testing[core] then s.countFault else s
    | some w =>
      let s1 := (s.countFault.faultWork w).raise 0x80 (BitVec.ofNat 32 (s.workCtx w))
      (if 3 ≤ s1.cip.faultsAt.length then s1.fence else s1).afterJob

/-- The cores in service as a command reports them. -/
def State.coreMask (s : State) : List Byte := [BitVec.ofNat 8 (b2n s.cip.core[0] + 2 * b2n s.cip.core[1])]

/-- The `CIPHER.CORE` that waits for a core's test answered. -/
def State.coreAnswer (s : State) (core : Fin 2) (pass : Bool) : State :=
  let s1 : State := { s with cip.coreBy := s.cip.coreBy.set core none }
  match s.cip.coreBy[core] with
  | some (t, n) => if pass then s1.answer t n s1.coreMask else s1.done t n Status.state
  | none => s1

/-- A tested core returns to service; the first one ends the fence. -/
def State.coreReturns (s : State) (core : Fin 2) : State :=
  let s1 : State := { s with cip.core := s.cip.core.set core true }
  let s2 := if s1.cip.fenced then
      ({ s1 with cip := { s1.cip with fenced := false, faultsAt := [] } } : State).raise 0x81 0
    else s1
  s2.buildAll

/-- CIPHER_SELF_TEST_DONE (R383, R384): a core that fails stays out until a chip-scope start. -/
def execCipherSelfTestDone (core : Fin 2) (pass : Bool) (s : State) : Out :=
  .next <|
    if !s.cip.testing[core] then s else
    let s1 : State := { s with cip.testing := s.cip.testing.set core false }
    let s2 := if pass then s1.coreReturns core else { s1 with cip.broken := s1.cip.broken.set core true }
    (s2.coreAnswer core pass).startJobs

/-! ### Ceilings (R393, R395) -/

/-- CEIL_WRITE_DONE: the new ceiling applies, or the write is to be repeated; a DEGRADED region 5 takes none
(R410). -/
def execCeilWriteDone (slot : Nat) (ok : Bool) (s : State) : Out :=
  .next <| State.retryAuto <|
    let i : Fin 64 := Fin.ofNat 64 slot
    let k := s.keys.slots[i]
    if 64 ≤ slot ∨ k.failed then s else
    match k.pend with
    | none => s
    | some c =>
      if ok && !s.nvm.degraded.getLsbD 5 then
        (s.modSlotKey i fun k => { k with ceil := c, pend := none }).recordWritten.noncesKept
      else { s.modSlotKey i fun k => { k with failed := true } with cip.ceilFail := satInc 65535 s.cip.ceilFail }

/-- CEIL_WRITE_RETRY (R395): every failed ceiling write starts again. -/
def execCeilWriteRetry (s : State) : Out :=
  .next { s with keys.slots := s.keys.slots.map fun k => { k with failed := false } }

/-! ### The CIPHER commands (R412) -/

/-- Two ranges of a partition are identical or disjoint. -/
def rangesOk (a la b lb : Nat) : Bool := (a == b && la == lb) || a + la ≤ b || b + lb ≤ a

/-- The input and output ranges of a job. -/
def State.ioOk (s : State) (t : Ten) (n : SlotIx) : Bool :=
  let a := s.prm t n 4 4
  let len := s.prm t n 8 4
  let b := s.prm t n 12 4
  len ≤ 65536 && s.rangeOk t n a len && s.rangeOk t n b len && rangesOk a len b len

/-- The additional data of a GCM job. -/
def State.aadOk (s : State) (t : Ten) (n : SlotIx) : Bool :=
  let a := s.prm t n 16 4
  let len := s.prm t n 20 2
  len ≤ 4096 && s.rangeOk t n a len && rangesOk a len (s.prm t n 12 4) (s.prm t n 8 4)

/-- A tenant job is accepted under a key it may use. -/
def State.acceptJob (s : State) (t : Ten) (n : SlotIx) (op : KeyOp) (iv : List Byte) : State :=
  let v := s.keyView t (s.prm1 t n 0)
  match s.keyCheck t v op, v with
  | some st, _ => s.done t n st
  | none, some v => s.queueJob t n v.src iv
  | none, none => s

/-- A tenant job that encrypts: its invocation value is drawn in arrival order (R390, R391, R395, R396). -/
def State.acceptSeal (s : State) (t : Ten) (n : SlotIx) : State :=
  let v := s.keyView t (s.prm1 t n 0)
  match s.keyCheck t v .encrypt, v with
  | some st, _ => s.done t n st
  | none, none => s
  | none, some v => match v.src with
    | .slot i => match s.drawSlot i with
      | .got ctr s1 => s1.queueJob t n v.src (v.attr.salt ++ beBytes 8 ctr)
      | .paused => s.done t n Status.state
      | .spent => s.done t n Status.nonceExhausted
    | .entry e => match s.drawEntry e with
      | some (ctr, s1) => s1.queueJob t n v.src (v.attr.salt ++ beBytes 8 ctr)
      | none => s.done t n Status.nonceExhausted

/-- A job of this slot is already accepted: its command waits for it. -/
def State.jobWaits (s : State) (t : Ten) (n : SlotIx) : Bool := s.cip.jobs.any fun j => j.ten == t && j.slot == n

/-- CIPHER_GCM_SEAL (R390). -/
def execCipherGcmSeal (t : Ten) (n : SlotIx) (s : State) : Out :=
  commandBy 0x0B02 t n s fun s =>
    if s.jobWaits t n then s else
    s.guard t n [(!keyRefOk (s.prm1 t n 0) || !s.ioOk t n || !s.aadOk t n || s.stray t n [(0, 1), (4, 18)], Status.param)] fun s =>
      s.acceptSeal t n

/-- CIPHER_GCM_OPEN (R376). -/
def execCipherGcmOpen (t : Ten) (n : SlotIx) (s : State) : Out :=
  commandBy 0x0B03 t n s fun s =>
    if s.jobWaits t n then s else
    s.guard t n [(!keyRefOk (s.prm1 t n 0) || !s.ioOk t n || !s.aadOk t n || s.stray t n [(0, 1), (4, 18), (24, 28)],
                  Status.param)] fun s =>
      s.acceptJob t n .decrypt []

/-- CIPHER_CTR (R390). -/
def execCipherCtr (t : Ten) (n : SlotIx) (s : State) : Out :=
  commandBy 0x0B04 t n s fun s =>
    if s.jobWaits t n then s else
    let mode := s.prm1 t n 1
    let used := if mode = 1 then [(0, 2), (4, 28)] else [(0, 2), (4, 12)]
    s.guard t n [(!keyRefOk (s.prm1 t n 0) || 1 < mode || !s.ioOk t n || s.stray t n used, Status.param)] fun s =>
      if mode = 1 then s.acceptJob t n .decrypt [] else s.acceptSeal t n

/-- CIPHER_CMAC (R387). -/
def execCipherCmac (t : Ten) (n : SlotIx) (s : State) : Out :=
  commandBy 0x0B05 t n s fun s =>
    if s.jobWaits t n then s else
    let mode := s.prm1 t n 1
    let used := if mode = 1 then [(0, 3), (4, 8), (16, 16)] else [(0, 3), (4, 8)]
    let len := s.prm t n 8 4
    s.guard t n [(!keyRefOk (s.prm1 t n 0) || 1 < mode || !within 8 16 (s.prm1 t n 2) || 65536 < len
                    || !s.rangeOk t n (s.prm t n 4 4) len || s.stray t n used, Status.param)] fun s =>
      s.acceptJob t n (if mode = 1 then .macCheck else .macMake) []

/-- The 32 bytes of `CIPHER.STATUS` (Table 16.9). -/
def State.cipherStatus (s : State) : List Byte :=
  let x := s.cip
  s.coreMask ++ [BitVec.ofNat 8 (b2n x.fenced), 0, 0] ++ leBytes 4 x.dsFault ++ leBytes 4 x.fenceDrop ++ leBytes 4 x.faults
    ++ leBytes 2 x.fences ++ leBytes 2 x.kbusWd ++ leBytes 2 x.ceilFail ++ [0, 0] ++ leBytes 4 x.nJobs
    ++ leBytes 4 (satTo (2 ^ 32 - 1) (x.nBytes / 1024))

/-- CIPHER_STATUS. -/
def execCipherStatus (t : Ten) (n : SlotIx) (s : State) : Out :=
  command 0x0B01 [] t n s fun s => s.answer t n s.cipherStatus

/-- A core goes out of service: its tenant job yields at its next chunk boundary, other work on it ends there. -/
def State.coreOut (s : State) (c : Fin 2) : State :=
  let s1 : State := { s with cip.core := s.cip.core.set c false }
  (if (s.cip.run[c]).any CoreWork.isJob then s1.setRun c none else s1).startJobs

/-- CIPHER_CORE (R384): out at the next job boundary; in after the self-test. -/
def execCipherCore (t : Ten) (n : SlotIx) (s : State) : Out :=
  command 0x0B06 [(0, 2)] t n s fun s =>
    let b := s.prm1 t n 0
    let goIn := s.prm1 t n 1 == 1
    let c : Fin 2 := Fin.ofNat 2 b
    let up := s.cip.core[c]
    if s.cip.coreBy[c] == some (t, n) then s else
    s.guard t n [(1 < b || 1 < s.prm1 t n 1, Status.param), (goIn && (s.cip.coreBy[c]).isSome, Status.busy),
                 (!goIn && up && s.coresIn == 1, Status.state), (goIn && s.cip.broken[c], Status.state)] fun s =>
      if goIn == up then s.answer t n s.coreMask
      else if goIn then
        { s with cip := { s.cip with testing := s.cip.testing.set c true, coreBy := s.cip.coreBy.set c (some (t, n)) } }
      else
        let s1 := s.coreOut c
        s1.answer t n s1.coreMask

/-! ### The KEYS commands (R397 to R399, R412) -/

/-- The attributes `KEYS.INFO` returns (Table 16.9). -/
def State.keyInfo (s : State) (v : Option KeyView) : List Byte :=
  let isSlot := match v with | some x => (match x.src with | .slot _ => true | .entry _ => false) | none => false
  let a : KeySlot := match v with | some x => x.attr | none => { ctr := 0, ceil := 0 }
  leBytes 1 a.state ++ leBytes 1 (b2n a.big) ++ [a.flags, a.tmask] ++ field a.salt 0 4 ++ leBytes 8 a.ctr ++ leBytes 8 a.ceil
    ++ leBytes 4 a.iseq
    ++ leBytes 1 (b2n (isSlot && a.pend.isSome) + 2 * b2n (isSlot && a.ceil ≤ a.ctr) + 4 * b2n s.ao.keyLock)

/-- KEYS_INFO. -/
def execKeysInfo (t : Ten) (n : SlotIx) (s : State) : Out :=
  command 0x0C01 [(0, 1)] t n s fun s =>
    let r := s.prm1 t n 0
    let v := s.keyView t r
    let mine := v.all fun x => x.attr.tmask.getLsbD t.val
    s.guard t n [(!keyRefOk r, Status.param), (r < 64 && !mine && !s.ownerAt t n, Status.authority)] fun s =>
      s.answer t n (s.keyInfo v)

/-- KEYS_IMPORT (R397): the unwrap waits while no core is in service. -/
def execKeysImport (t : Ten) (n : SlotIx) (s : State) : Out :=
  command 0x0C02 [(0, 1), (8, 8)] t n s fun s =>
    let r := s.prm1 t n 0
    s.guard t n [((r != 2 && !within 8 63 r) || s.prm t n 12 4 != 72 || !s.rangeOk t n (s.prm t n 8 4) 72
                    || !importOk (s.importRecord t n), Status.param)] fun s =>
      if s.coresIn = 0 then s else s.endImport t n

/-- KEYS_DERIVE (R398): the owner alone derives into a slot. -/
def execKeysDerive (t : Ten) (n : SlotIx) (s : State) : Out :=
  commandBy 0x0C03 t n s fun s =>
    let ps := s.params t n
    let target := byteAt ps 1
    s.guard t n [(within 8 63 target && !s.ownerAt t n, Status.authority),
                 (!keyRefOk (byteAt ps 0) || !keyRefOk target || 31 < byteAt ps 2 || !within 1 16 (byteAt ps 4)
                    || 32 < byteAt ps 5 || (64 ≤ target && byteAt ps 3 != 0) || s.stray t n [(0, 6), (8, 48)], Status.param)] fun s =>
      if s.coresIn = 0 then s else s.endDerive t n

/-- A key destroyed or made DECRYPT_ONLY at once (R399). -/
def State.destroyKey (s : State) (src : KeySrc) (keep : Bool) : State :=
  match src with
  | .slot i => (s.modSlotKey i fun k => if keep then { k with state := 2 } else k.emptied).recordWritten
  | .entry e =>
    if keep then { s with cip.bank := s.cip.bank.set e ((s.entry e).map fun k => { k with decOnly := true }) }
    else { s with cip.bank := s.cip.bank.set e none }

/-- KEYS_DESTROY (R399). -/
def execKeysDestroy (t : Ten) (n : SlotIx) (s : State) : Out :=
  commandBy 0x0C04 t n s fun s =>
    let r := s.prm1 t n 0
    let v := s.keyView t r
    let held := v.any fun x => x.attr.state != 0
    let line := if r < 64 then s.recordCheck else none
    if s.cip.destroys.any fun d => d.by_ == some (t, n) then s else
    s.guard t n [(within 8 63 r && !s.ownerAt t n, Status.authority),
                 (!keyRefOk r || 1 < s.prm1 t n 1 || s.stray t n [(0, 2)], Status.param),
                 (line.isSome, line.getD Status.state), (!held, Status.state)] fun s =>
      match v with
      | some x =>
        let s1 := s.destroyKey x.src (s.prm1 t n 1 == 1)
        ({ s1 with cip.destroys := s1.cip.destroys ++ [{ by_ := some (t, n), src := x.src }] } : State).settleDestroys
      | none => s

end Sys2Proof.Machine
end

