-- ==== Sys2Proof/Machine/EnsRows.lean ====
section
/-!
DEFINITION. The non-volatile store's rows (R401 to R412): line writes of an update, and the `ENS` commands.
-/

namespace Sys2Proof.Machine

/-! ### Line writes (R403 to R408) -/

/-- Bytes of an update's data that its next line takes. -/
def EnsUpd.take (u : EnsUpd) : Nat := min u.data.length (64 - u.addr % 64)

/-- The whole line as an update leaves it: its new bytes merged into the old ones (R407). -/
def State.mergedLine (s : State) (u : EnsUpd) : List Byte :=
  let base := u.addr / 64 * 64
  s.ens.getN base (u.addr % 64) ++ u.data.take u.take ++ s.ens.getN (u.addr + u.take) (64 - u.addr % 64 - u.take)

/-- An update changed. -/
def State.modUpd (s : State) (r : Nat) (f : EnsUpd → EnsUpd) : State :=
  { s with nvm.upd := s.nvm.upd.map fun u => if u.region == r then f u else u }

/-- A region is DEGRADED (R410). -/
def State.regionWorn (s : State) (r : Nat) : Bool := s.nvm.degraded.getLsbD r

/-- An update of an image region that completes makes that image NEW (R98, R405). -/
def State.imageWritten (s : State) (r : Nat) : State :=
  if r = 0 then { s with icb.stateA := .fresh } else if r = 1 then { s with icb.stateB := .fresh } else s

/-- The line of an update stands; then its end, its stop, or its next line. -/
def State.lineStands (s : State) (u : EnsUpd) : State :=
  let before := s.nvm.remaps
  let s1 := s.writeLine (u.addr / 64) (s.mergedLine u)
  let v := { u with
    addr := u.addr + u.take, data := u.data.drop u.take, written := u.written + u.take, again := false
    remapped := u.remapped + (s1.nvm.remaps - before) }
  let s2 := s1.modUpd u.region fun _ => v
  if v.data = [] then (s2.imageWritten u.region).endUpdate v Status.ok
  else if s2.updStops v then s2.endUpdate v Status.aborted
  else if s2.regionWorn u.region then s2.endUpdate v Status.worn
  else s2

/-- Bits that ECC corrected in a read are counted (R403). -/
def State.eccFixed (s : State) (n : Nat) : State := { s with nvm.eccCorr := satTo (2 ^ 32 - 1) (s.nvm.eccCorr + n) }

/-- ENS_LINE_WRITE_DONE (R404, R406 to R410): `verify` is the read-back, `ok` the old line's tag, which a partial
write needs, `fixed` the bits ECC corrected. A second failed verify moves the line to a spare. -/
def execEnsLineWriteDone (region : Nat) (verify ok : Bool) (fixed : Nat) (s0 : State) : Out :=
  .next <| if !s0.domOn dNVM then s0 else State.retryAuto <| match s0.updateOf region with
    | none => s0
    | some u =>
      let s := s0.eccFixed fixed
      let line := u.addr / 64
      if u.take < 64 ∧ (!ok ∨ s.nvm.bad line) then (s.markSuspect line).endUpdate u Status.tag
      else if verify then s.lineStands u
      else if !u.again then s.modUpd region fun v => { v with again := true }
      else
        let n := s.nvm.remaps
        let s1 := s.remap line
        if s1.nvm.remaps = n then s1.endUpdate u Status.worn
        else s1.lineStands { u with remapped := u.remapped + 1 }

/-! ### The ENS commands (R405, R406, R412) -/

/-- A region number a command may name (R401). -/
def regionOk (r : Nat) : Bool := (ensRegion r).isSome

/-- Base and size of a region a command may name. -/
def regionBase (r : Nat) : Nat := ((ensRegion r).getD (0, 0)).1
def regionSize (r : Nat) : Nat := ((ensRegion r).getD (0, 0)).2

/-- An offset and a length inside a region. -/
def inRegion (r off len : Nat) : Bool := off + len ≤ regionSize r

/-- Whether the command of a slot may read a region (Table 16.8). -/
def State.mayRead (s : State) (t : Ten) (n : SlotIx) (r : Nat) : Bool :=
  if r = 2 then s.holdsAt t n 6 else if r = 4 then s.holdsAt t n 7
  else if 8 ≤ r ∧ r ≤ 15 then r == 8 + t.val || s.ownerAt t n else s.ownerAt t n

/-- ENS_READ (R403): up to the first line whose tag or ECC fails; that line is then suspect. The row gives the bits ECC
corrected and the lines it finds uncorrectable. -/
def execEnsRead (t : Ten) (n : SlotIx) (fixed : Nat) (bad : List Nat) (s : State) : Out :=
  commandBy 0x0D01 t n s fun s =>
    let ps := s.params t n
    let r := byteAt ps 0
    let off := leAt ps 4 4
    let len := leAt ps 8 4
    let out := leAt ps 12 4
    let bulk := 48 < len
    s.guard t n [(!regionOk r || !s.mayRead t n r, Status.authority),
                 (off % 4 != 0 || !within 1 65536 len || !inRegion r off len || (bulk && !s.rangeOk t n out len)
                    || s.stray t n (if bulk then [(0, 1), (4, 12)] else [(0, 1), (4, 8)]), Status.param)] fun s0 =>
      let s := ({ s0 with nvm.badTag := bad ++ s0.nvm.badTag } : State).eccFixed fixed
      let a := regionBase r + off
      let stop := s.nvm.stopsAt a (a + len)
      let bs := s.ens.getN a (stop - a)
      let whole := stop == a + len
      let s1 := if whole then s else s.markSuspect (stop / 64)
      let s2 := if bulk then s1.partWrite t out bs else s1
      s2.post t n (if whole then Status.ok else Status.tag)
        (leBytes 4 bs.length ++ [0, 0, 0, 0] ++ (if bulk then [] else bs)) bulk

/-- The image region that runs (R100). -/
def State.runsImage (s : State) (r : Nat) : Bool := match s.boot.image with | some i => i.val == r | none => false

/-- An update runs on a region, as a model load counts for region 2 (R405, R436). -/
def State.regionUpdates (s : State) (r : Nat) : Bool := (s.updateOf r).isSome || (r == 2 && s.modelLoading)

/-- ENS_WRITE (R405): the update starts; its lines come with ENS_LINE_WRITE_DONE. -/
def execEnsWrite (t : Ten) (n : SlotIx) (s : State) : Out :=
  commandBy 0x0D02 t n s fun s =>
    let ps := s.params t n
    let r := byteAt ps 0
    let off := leAt ps 4 4
    let len := leAt ps 8 4
    let src := leAt ps 12 4
    s.guard t n [(!regionOk r, Status.authority), (!s.leasedAt t n (regionLease r), Status.lease),
                 (off % 4 != 0 || len % 4 != 0 || !within 4 65536 len || !inRegion r off len || !s.rangeOk t n src len
                    || s.stray t n [(0, 1), (4, 12)], Status.param),
                 (s.runsImage r, Status.state), (s.regionUpdates r, Status.regionBusy), (s.regionWorn r, Status.worn)] fun s =>
      if (s.slot t n).stop.isSome then s.stopAtSafePoint t n else
      { s with nvm.upd := s.nvm.upd ++ [{
          region := r, addr := regionBase r + off, data := s.partRead t src len, ten := t, slot := n }] }

/-- ENS_ABORT (R406): answered at the line boundary where the update stops. -/
def execEnsAbort (t : Ten) (n : SlotIx) (s : State) : Out :=
  commandBy 0x0D03 t n s fun s =>
    let r := s.prm1 t n 0
    let u := s.updateOf r
    let waiting := u.any fun x => x.aborter.isSome
    s.guard t n [(!regionOk r || !(s.leasedAt t n (regionLease r) || s.ownerAt t n), Status.authority),
                 (s.stray t n [(0, 1)], Status.param), (u.isNone, Status.state), (waiting, Status.busy)] fun s =>
      s.modUpd r fun x => { x with aborter := some (t, n), stop := true }

/-- The journal state as `ENS.STATUS` reports it. -/
def journalCode (x : Ens) : Byte :=
  match x.journalNow with
  | some j => (match j.st with | .idle => 0 | .copying => 1 | .copied => 2 | .mapped => 3)
  | none => 0

/-- The 28 bytes of `ENS.STATUS` (Table 16.9). -/
def State.ensStatus (s : State) : List Byte :=
  let x := s.nvm
  x.used.toList.flatMap (leBytes 2) ++ leBytes 2 x.degraded.toNat
    ++ leBytes 2 (bitsOf 16 fun r => s.regionUpdates r.val) ++ leBytes 4 x.suspect.length ++ leBytes 4 x.eccCorr
    ++ leBytes 4 x.remaps ++ [journalCode x, 0, 0, 0]

/-- ENS_STATUS. -/
def execEnsStatus (t : Ten) (n : SlotIx) (s : State) : Out :=
  command 0x0D04 [] t n s fun s => s.answer t n s.ensStatus

/-- ENS_LINE_INFO. -/
def execEnsLineInfo (t : Ten) (n : SlotIx) (s : State) : Out :=
  commandBy 0x0D05 t n s fun s =>
    let r := s.prm1 t n 0
    let off := s.prm t n 4 4
    s.guard t n [(!regionOk r, Status.authority), (!inRegion r off 1 || s.stray t n [(0, 1), (4, 4)], Status.param)] fun s =>
      let line := (regionBase r + off) / 64
      let p := s.nvm.phys line
      let spare := if p < 131072 then 0xFFFF else (p - 131072) % 512
      s.answer t n (leBytes 4 (s.nvm.wearOf line)
        ++ leBytes 1 (b2n (s.nvm.suspect.contains line) + 2 * b2n (p != line)) ++ leBytes 1 (bankOf line).val ++ leBytes 2 spare)

end Sys2Proof.Machine
end

