-- ==== Sys2Proof/Machine/Security.lean ====
section
/-!
DEFINITION. Lifecycle and debug thaw (R413 to R429): the `SEC` commands, the level timer, the thaw nonce and the
lock-out of challenges.
-/

namespace Sys2Proof.Machine

/-! ### Keys and status (R414, R417, Table 17.7) -/

/-- The owner key, where a copy verifies. -/
def State.ownerKey (s : State) : Option (List Byte) :=
  match s.fsec.keys[0] with
  | some k => some k
  | none => s.fsec.keys[1]

/-- The signer R414 names: 0 Graundal, 1 the owner. -/
def State.thawSigner (s : State) : Nat := if s.fuses.life = .sealed then 1 else 0

/-- `OWNER_KEY_ID`. -/
def State.ownerKeyId (s : State) : List Byte :=
  match s.fuses.life, s.ownerKey with
  | .sealed, some k => (beBytes 32 (Config.sha256 k).toNat).take 8
  | _, _ => List.replicate 8 0

/-- `REMAIN`, a minute begun counted whole. -/
def State.thawRemain (s : State) : Nat :=
  if s.ao.dbg.level = 0 then 0 else
  match s.ao.dbg.by_ with
  | some d => (d - s.now + 59999999999) / 60000000000
  | none => 0xFFFF

/-- The 24 bytes of `SEC.STATUS` (Table 17.7). -/
def State.secStatus (s : State) : List Byte :=
  leBytes 1 s.lifecycleCode ++ leBytes 1 s.debugCode
    ++ leBytes 1 (b2n s.ao.keyLock + 2 * b2n s.sec.nonce.isSome + 4 * b2n s.sec.trace + 8 * b2n s.sec.lockBy.isSome
        + 16 * b2n s.ownerKey.isSome + 32 * b2n s.fsec.erased)
    ++ leBytes 1 (if s.ao.dbg.level = 0 then 0xFF else s.ao.dbg.signer) ++ leBytes 2 s.thawRemain ++ leBytes 2 s.fsec.thaws
    ++ leBytes 2 s.sec.fails ++ List.replicate 6 0 ++ s.ownerKeyId

/-- SEC_STATUS. -/
def execSecStatus (t : Ten) (n : SlotIx) (s : State) : Out :=
  command 0x0E01 [] t n s fun s => s.answer t n s.secStatus

/-! ### Thaw tokens (R422 to R425) -/

/-- Nanoseconds of the 600 s of R423. -/
def thawWindow : Nat := 600000000000

/-- The result of a challenge. -/
def State.challengeData (s : State) (nonce : List Byte) : List Byte :=
  leBytes 8 Config.terminalId.toNat ++ nonce ++ leBytes 1 s.lifecycleCode ++ leBytes 1 s.debugCode ++ leBytes 1 s.thawSigner

/-- SEC_THAW_CHALLENGE (R423). -/
def execSecThawChallenge (t : Ten) (n : SlotIx) (s : State) : Out :=
  command 0x0E02 [] t n s fun s =>
    s.guard t n [(s.sec.lockBy.isSome, Status.busy)] fun s =>
      let nonce := leBytes 16 s.draw
      let s1 : State := { s.drawn with sec.nonce := some (nonce, s.now + thawWindow) }
      s1.answer t n (s1.challengeData nonce)

/-- Check 1 of Table 17.4. -/
def tokenForm (k : List Byte) : Bool :=
  k.length == 128 && leAt k 0 4 == 0x5A50544B && byteAt k 4 == 1 && (byteAt k 5 == 1 || byteAt k 5 == 2)
    && leAt k 32 2 ≤ 1440 && (field k 34 30).all (· == 0)

/-- Check 2: the outstanding nonce. -/
def State.tokenNonce (s : State) (k : List Byte) : Bool := s.sec.nonce.any fun x => x.1 == field k 16 16

/-- Check 6: the signature over bytes 0 to 63 (R422). -/
def State.tokenSigned (s : State) (k : List Byte) : Bool :=
  match if s.thawSigner = 0 then some Config.debugKey else s.ownerKey with
  | some key => Config.ecdsaVerify key (Config.sha256 (k.take 64)) (field k 64 64)
  | none => false

/-- The checks of Table 17.4 in order. -/
def State.tokenChecks (s : State) (k : List Byte) : List (Bool × Half) :=
  [(!tokenForm k, Status.param), (!s.tokenNonce k, Status.state),
   (byteAt k 7 != s.lifecycleCode || byteAt k 5 ≤ s.ao.dbg.level, Status.state),
   (leAt k 8 8 != Config.terminalId.toNat, Status.authority), (byteAt k 6 != s.thawSigner, Status.authority),
   (!s.tokenSigned k, Status.authority)]

/-- A failed `SEC.THAW` counted; four within 600 s lock the challenges (R423). -/
def State.thawFailed (s : State) : State :=
  let recent := s.now :: s.sec.failsAt.filter fun at_ => s.now < at_ + thawWindow
  { s with sec := { s.sec with
      fails := satInc 65535 s.sec.fails, failsAt := recent
      lockBy := if 4 ≤ recent.length then some (s.now + thawWindow) else s.sec.lockBy } }

/-- The level raised and its timer loaded (R425). -/
def State.raiseLevel (s : State) (t : Ten) (k : List Byte) : State :=
  let mins := leAt k 32 2
  { s with
    ao.dbg := {
      level := byteAt k 5, signer := byteAt k 6, ten := some t
      by_ := if mins = 0 then none else some (s.now + mins * 60000000000) }
    fsec.thaws := satInc 65535 s.fsec.thaws }

/-- NIGHT is left with cause "local wake", and nothing of it is sent (R426 step 2). -/
def State.nightQuiet (s : State) : State :=
  let s1 : State := { s with power.night.granted := false }
  if s1.power.pstate ≠ .night then s1 else
  match s1.power.wake with
  | some w => if w.kind = .nightExit then s1 else s1.startWake .nightExit .night 0
  | none => s1.startWake .nightExit .night 0

/-- Steps 1 to 4 of R426; steps 5 to 7 follow when no cipher job runs. -/
def State.enterThawed (s : State) (t : Ten) (n : SlotIx) : State :=
  let s1 : State := { s.cutBurst with pads.txdisLow := 0 }
  let s2 := s1.withdrawAll.nightQuiet
  let s3 := if s2.reg.st.registered then (s2.dereg 8).toListen else s2
  ({ s3 with sec.thawing := some { ten := t, slot := some n } } : State).settleThaw

/-- SEC_THAW (R424 to R426): every one served while a nonce is outstanding consumes it (R423). -/
def execSecThaw (t : Ten) (n : SlotIx) (s : State) : Out :=
  commandBy 0x0E03 t n s fun s =>
    if s.sec.thawing.any fun w => w.ten == t && w.slot == some n then s else
    let k := s.params t n
    let s1 : State := { s with sec.nonce := none }
    match (s.tokenChecks k).find? fun c => c.1 with
    | some c => s1.thawFailed.done t n c.2
    | none =>
      let s2 := s1.raiseLevel t k
      if byteAt k 5 = 2 then s2.enterThawed t n else s2.answer t n [1]

/-! ### Leaving a level (R427) -/

/-- From SLUSH to FROZEN: the trace session ends. -/
def State.refreeze (s : State) : State := { s with ao.dbg := {}, sec.trace := false }

/-- SEC_FREEZE: from THAWED the result is posted before the chip reset, which follows as that of `SYS.RESET` does. -/
def execSecFreeze (t : Ten) (n : SlotIx) (s : State) : Out :=
  command 0x0E04 [] t n s fun s => State.retryAuto <|
    if s.thawed then (s.answer t n [0]).acceptEntry .chipReset false t else s.refreeze.answer t n [0]

/-- LEVEL_TIMER_EXPIRY: taken by PD_AO in every state but PERMAFROST (R428). -/
def execLevelTimerExpiry (s : State) : Out :=
  .next <| State.retryAuto <| match s.ao.dbg.by_ with
    | some d =>
      if s.power.pstate = .permafrost then s
      else if s.thawed then (s.reach d).chipReset 0x07 0x0F else (s.reach d).refreeze
    | none => s

/-- THAW_NONCE_EXPIRY (R423). -/
def execThawNonceExpiry (s : State) : Out :=
  .next <| match s.sec.nonce with
    | some (_, d) => { s.reach d with sec.nonce := none }
    | none => s

/-- THAW_LOCKOUT_END (R423). -/
def execThawLockoutEnd (s : State) : Out :=
  .next <| match s.sec.lockBy with
    | some d => { s.reach d with sec.lockBy := none }
    | none => s

/-! ### Sealing and retirement (R417, R418) -/

/-- The lifecycle moves from FACTORY to SEALED under an owner key. -/
def State.sealTo (s : State) (key : List Byte) : State :=
  let keys : Vector (Option (List Byte)) 2 := Vector.replicate 2 (some key)
  ({ s with fsec := { s.fsec with keys := keys, thaws := 0 }, fuses.life := .sealed } : State).updateEnded 6 Status.ok

/-- SEC_SEAL (R417). -/
def execSecSeal (t : Ten) (n : SlotIx) (s : State) : Out :=
  commandBy 0x0E05 t n s fun s =>
    let ps := s.params t n
    let key := field ps 8 64
    s.guard t n [(ps.length != 72 || leAt ps 0 8 != Config.terminalId.toNat || !Config.onCurve key, Status.param),
                 (!s.inFactory || s.ao.dbg.level != 0 || s.ao.keyLock, Status.state)] fun s =>
      (s.sealTo key).answer t n [1]

/-- SEC_RETIRE (R418): `LTX.ACTIVATION` stop first, then the fuse and the erase. -/
def execSecRetire (t : Ten) (n : SlotIx) (s : State) : Out :=
  command 0x0E06 [(0, 9)] t n s fun s =>
    if s.waitsFor t n then s else
    s.guard t n [(s.prm t n 0 8 != Config.terminalId.toNat || s.prm1 t n 8 != 0xA5, Status.param),
                 (s.fuses.life != .sealed || s.ao.dbg.level != 0, Status.state), (s.reg.wait.isSome, Status.busy)] fun s =>
      s.startWait { ten := t, slot := n, rediscover := false, by_ := s.now + 4000000, retire := true }

end Sys2Proof.Machine
end

