-- ==== Sys2Proof/Machine/FirnRows.lean ====
section
/-!
DEFINITION. The Firn inference engine (R433 to R460): loading, jobs, layers, faults and the `FIRN` commands.
-/

namespace Sys2Proof.Machine

/-! ### Loading (R434 to R437) -/

/-- The bytes of ENS region 2 from an offset. -/
def State.pkgRead (s : State) (off n : Nat) : List Byte := s.ens.getN (0x300000 + off) n

/-- Every line of a range of region 2 verifies (R403). -/
def State.pkgTags (s : State) (off n : Nat) : Bool := s.nvm.stopsAt (0x300000 + off) (0x300000 + off + n) == 0x300000 + off + n

/-- The fields of a header but digest and signature (Table 18.3, R436 step 1); `room` is what the region holds from
the package's start. -/
def headerOk (h : List Byte) (room : Nat) : Bool :=
  let total := leAt h 8 4
  let ops := leAt h 6 2
  let len := leAt h 0x1C 4
  leAt h 0 4 == 0x4649524E && leAt h 4 2 == 1 && inRange 1 1024 ops && total % 64 == 0 && total ≤ 3145728
    && leAt h 0x18 4 == 256 + 64 * ops && len ≤ byteAt h 0x20 * 32768 && byteAt h 0x20 ≤ 47 && inRange 1 48 (byteAt h 0x21)
    && inRange 1 65536 (leAt h 0x24 4) && leAt h 0x28 4 % 32 == 0 && inRange 1 65536 (leAt h 0x2C 4) && leAt h 0x30 4 % 32 == 0
    && leAt h 0x28 4 + leAt h 0x24 4 ≤ byteAt h 0x21 * 32768 && leAt h 0x30 4 + leAt h 0x2C 4 ≤ byteAt h 0x21 * 32768
    && (fmtOf (byteAt h 0x22)).isSome && (fmtOf (byteAt h 0x23)).isSome && byteAt h 0x34 ≤ 1 && (field h 0x35 11).all (· == 0)
    && (field h 0xA0 96).all (· == 0) && 256 + 64 * ops + len ≤ total && total ≤ room

/-- The key a package's signer names (R435). -/
def State.signerKey (s : State) (h : List Byte) : Option (List Byte) :=
  if byteAt h 0x34 = 0 then some Config.modelKey else s.store.modelKey

/-- Digest and signature (R435). -/
def State.pkgSigned (s : State) (p : List Byte) : Bool :=
  let d := Config.sha256 (p.take 0x40 ++ p.drop 0x100)
  beNat (field p 0x40 32) == d.toNat && (s.signerKey p).any fun k => Config.ecdsaVerify k d (field p 0x60 64)

/-- A package as a model, before its ladders are generated. -/
def modelOf (t : Ten) (p : List Byte) : FModel :=
  let nOps := leAt p 6 2
  { loader := t, hdr := p.take 256, ops := field p 256 (64 * nOps), const := field p (256 + 64 * nOps) (leAt p 0x1C 4) }

/-- Its descriptors. -/
def FModel.descs (x : FModel) : List Desc := descsOf x.ops x.nOps

/-- The index of its first failing descriptor (R440); the last one must end a layer (R438). -/
def FModel.bad (x : FModel) : Option Nat :=
  match firstBad x.const (x.constBanks * 32768) (x.workBanks * 32768) x.descs 0 0 with
  | some i => some i
  | none => if x.descs.getLast?.any Desc.layerEnd then none else some (x.nOps - 1)

/-- Bytes of a package in staging (R434). -/
def FModel.staged (x : FModel) : Nat := 256 + 64 * x.nOps + x.const.length

/-- Staging in use. -/
def Firn.stagingUsed (x : Firn) : Nat := x.models.toList.foldl (fun a m => a + match m with | some y => y.staged | none => 0) 0

/-- The largest work area of a loaded model, in banks. -/
def Firn.workMost (x : Firn) : Nat :=
  x.models.toList.foldl (fun a m => max a (match m with | some y => y.workBanks | none => 0)) 0

/-- Space for one more model (R433, R434). -/
def Firn.fits (x : Firn) (m : FModel) : Bool :=
  x.constUsed + m.constBanks + max x.workMost m.workBanks ≤ 48 && x.stagingUsed + m.staged ≤ 1048576

/-- The handle a load takes: the one asked for, or the first free one; none where it is taken. -/
def Firn.handleFor (x : Firn) (h : Nat) : Option (Fin 8) :=
  if h = 0xFF then (List.finRange 8).find? fun i => (x.models[i]).isNone
  else if (x.models[(Fin.ofNat 8 h : Fin 8)]).isNone then some (Fin.ofNat 8 h) else none

/-- A load's result. -/
def loadData (h : Nat) (hdr : List Byte) (bad : Nat) : List Byte :=
  leBytes 1 h ++ [0, 0, 0] ++ field hdr 0x0C 8 ++ field hdr 0x14 4 ++ leBytes 4 bad

/-- Steps 6 and 7 of R436. -/
def State.loadModel (s : State) (h : Fin 8) (x : FModel) : State :=
  let y : FModel := { x with const := withLadders x.const x.descs, ready := s.domOn dINF }
  { s with firn.models := s.firn.models.set h (some y) }

/-- Steps 2 to 7 of R436. -/
def State.loadPackage (s : State) (t : Ten) (n : SlotIx) (off h : Nat) : State :=
  let p := s.pkgRead off (leAt (s.pkgRead off 256) 8 4)
  let x := modelOf t p
  if !s.pkgTags off p.length then s.done t n Status.tag
  else if !s.pkgSigned p then s.done t n Status.signature
  else match x.bad with
    | some i => s.post t n Status.param (loadData h x.hdr i)
    | none => match s.firn.handleFor h with
      | none => s.done t n Status.state
      | some i =>
        if !s.firn.fits x then s.done t n Status.state
        else (s.loadModel i x).answer t n (loadData i.val x.hdr (2 ^ 32 - 1))

/-- FIRN_MODEL_LOAD (R436): the first row of a command checks the header and begins the load, the next one ends it and
the command with it; that of an emptied slot does both. -/
def execFirnModelLoad (t : Ten) (n : SlotIx) (s : State) : Out :=
  command 0x0F02 [(0, 1), (4, 4)] t n s fun s =>
    let h := s.prm1 t n 0
    let off := s.prm t n 4 4
    if s.firn.loading == some (t, n) then ({ s with firn.loading := none } : State).loadPackage t n off h else
    s.guard t n [((7 < h && h != 0xFF) || off % 64 != 0 || 0x300000 ≤ off, Status.param),
                 ((s.updateOf 2).isSome, Status.regionBusy), (s.modelLoading, Status.busy), (!s.pkgTags off (min 256 (0x300000 - off)), Status.tag),
                 (!headerOk (s.pkgRead off 256) (0x300000 - off), Status.param)] fun s =>
      if (s.slot t n).ghost then s.loadPackage t n off h else { s with firn.loading := some (t, n) }

/-- A model taken from its handle. -/
def State.dropModel (s : State) (h : Fin 8) : State := { s with firn.models := s.firn.models.set h none }

/-- FIRN_MODEL_UNLOAD (R437). -/
def execFirnModelUnload (t : Ten) (n : SlotIx) (s : State) : Out :=
  commandBy 0x0F03 t n s fun s =>
    let h := s.prm1 t n 0
    let i : Fin 8 := Fin.ofNat 8 h
    let m := s.fmodel i
    s.guard t n [(h < 8 && m.any (fun x => x.loader != t) && !s.ownerAt t n, Status.authority),
                 (7 < h || s.stray t n [(0, 1)], Status.param), (m.isNone, Status.state),
                 (s.firn.jobs.any fun j => j.handle == i, Status.busy)] fun s =>
      (s.dropModel i).done t n Status.ok

/-- The 32 bytes of `FIRN.MODEL_INFO` for a loaded model. -/
def FModel.info (x : FModel) : List Byte :=
  [1] ++ leBytes 1 x.loader.val ++ leBytes 1 x.constBanks ++ leBytes 1 x.workBanks ++ field x.hdr 0x0C 8 ++ field x.hdr 0x14 4
    ++ leBytes 4 x.inLen ++ leBytes 4 x.outLen ++ leBytes 2 x.nOps ++ field x.hdr 0x34 1 ++ leBytes 1 (satTo 255 x.layers.length)
    ++ leBytes 4 (x.layers.foldl (fun a l => a + layerCycles l) 0)

/-- FIRN_MODEL_INFO. -/
def execFirnModelInfo (t : Ten) (n : SlotIx) (s : State) : Out :=
  command 0x0F04 [(0, 1)] t n s fun s =>
    let h := s.prm1 t n 0
    s.guard t n [(7 < h, Status.param)] fun s =>
      s.answer t n (match s.fmodel (Fin.ofNat 8 h) with
        | some x => x.info
        | none => List.replicate 32 0)

/-- FIRN_MODEL_KEY (R435, R460). -/
def execFirnModelKey (t : Ten) (n : SlotIx) (s : State) : Out :=
  commandBy 0x0F07 t n s fun s =>
    let op := s.prm1 t n 0
    let off := s.prm t n 8 4
    let key := s.partRead t off 64
    let used := if op = 0 then [(0, 1), (8, 8)] else [(0, 1)]
    let bad := op == 0 && (s.prm t n 12 4 != 64 || !s.rangeOk t n off 64 || !Config.onCurve key)
    s.guard t n [(1 < op || s.stray t n used || bad, Status.param), (s.configBusy, Status.regionBusy)] fun s =>
      if op = 0 then
        ({ s with store.modelKey := some key } : State).persisted.answer t n ((beBytes 32 (Config.sha256 key).toNat).take 8)
      else ({ s with store.modelKey := none } : State).persisted.answer t n (List.replicate 8 0)

/-! ### Jobs (R448 to R453) -/

/-- A position code of the program would lie above 65,535 (R446, R448). -/
def FModel.posOver (x : FModel) (base : Nat) : Bool := x.descs.any fun d => d.op == 7 && 65535 < base + d.p1 + (d.m - 1)

/-- Parameters of a `FIRN.RUN` for a model. -/
def State.runOk (s : State) (t : Ten) (n : SlotIx) (x : FModel) : Bool :=
  !x.posOver (s.prm t n 4 2) && s.rangeOk t n (s.prm t n 8 4) x.inLen && s.rangeOk t n (s.prm t n 12 4) x.outLen

/-- A job accepted: its number, its place, PD_INF and the boost point (R56, R80, R448, R449). -/
def State.submit (s : State) (t : Ten) (n : SlotIx) (h : Fin 8) : State :=
  let first := (s.oldestJob t).isNone
  let j : FJob := {
    num := s.firn.nextNum, ten := t, slot := n, handle := h, posBase := s.prm t n 4 2, inOff := s.prm t n 8 4
    outOff := s.prm t n 12 4, acceptedAt := s.now }
  let s1 : State := { s with firn := { s.firn with jobs := s.firn.jobs ++ [j], nextNum := (s.firn.nextNum + 1) % 256 } }
  let s2 := if first then s1.gainJob t else s1
  s2.seekBoost.toNoon.wakeDomains [dINF]

/-- FIRN_RUN (R448): the result posts when the job ends. -/
def execFirnRun (t : Ten) (n : SlotIx) (s : State) : Out :=
  command 0x0F05 [(0, 1), (4, 2), (8, 8)] t n s fun s =>
    let h := s.prm1 t n 0
    let i : Fin 8 := Fin.ofNat 8 h
    if s.firn.jobs.any fun j => j.ten == t && j.slot == n && !j.orphan then s else
    match s.fmodel i with
    | none => s.done t n (if 7 < h then Status.param else Status.state)
    | some x =>
      s.guard t n [(7 < h || !s.runOk t n x, Status.param), (8 ≤ s.firn.jobs.length, Status.busy)] fun s => s.submit t n i

/-- Jobs that may become resident: their banks are free, and no older job of their tenant waits (R449, R450). -/
def State.mayReside (s : State) : List FJob :=
  s.firn.jobs.filter fun j => !j.resident && s.banksOf j ≤ s.freeBanks
    && (s.firn.jobs.takeWhile fun x => x.num != j.num).all fun x => x.ten != j.ten || x.resident

/-- A job becomes resident: its work area zero but for its input (R449). -/
def State.reside (s : State) (j : FJob) : State :=
  match s.fmodel j.handle with
  | none => s
  | some x =>
    let work : Memory := Memory.putN [] x.inOff (s.partRead j.ten j.inOff x.inLen)
    (s.modJob j.num fun y => { y with resident := true, work := work }).firnNext

/-- FIRN_JOB_RESIDENT (R449): the first in the order of R450 among the jobs whose banks are free. -/
def execFirnJobResident (job : Nat) (s : State) : Out :=
  .next <| match s.smallestTag s.mayReside with
    | some j => if s.domOn dINF ∧ j.num = job then s.reside j else s
    | none => s

/-- What a layer of a job works on. -/
def FJob.toWork (j : FJob) (x : FModel) : Work :=
  { const := x.const, pos := j.posBase, mem := j.work, sat := j.sat, smEmpty := j.smEmpty, oor := j.oor }

/-- The engine's time accounts at a layer's end. -/
def State.layerTime (s : State) (start cycles : Nat) : State :=
  { s with firn := { s.firn with run := none, busyNs := s.firn.busyNs + (s.now - start), cycles := s.firn.cycles + cycles } }

/-- The running layer ends: its results, its job's virtual time, and the clock change that waits for it (R450, R452). -/
def State.endLayer (s : State) (j : FJob) (x : FModel) (start : Nat) : State :=
  let l := s.nextLayer j
  let cyc := layerCycles l + 64
  let s1 := s.reach (start + s.firnNs cyc)
  let w := (j.toWork x).layer l
  let tag := s1.firn.runTag
  let s2 := s1.modJob j.num fun y => { y with
    work := w.mem, sat := w.sat, smEmpty := w.smEmpty, oor := w.oor, layer := y.layer + 1, runNs := y.runNs + (s1.now - start) }
  let s3 : State := { s2 with firn.vt := s2.firn.vt.set j.ten tag }
  let s4 := s3.layerTime start cyc
  if s4.power.leaveBoost then s4.fromBoost else s4

/-- What follows a layer: a stop, the output copy, or the next layer of the job the scheduler chooses (R452, R453). -/
def State.afterLayer (s : State) (num : Nat) (layers : Nat) : State :=
  match s.fjob num with
  | none => s.firnNext
  | some j =>
    match s.jobStop j with
    | some r => (s.abortJob j r).firnNext
    | none => if layers ≤ j.layer then { s with firn.copying := some num } else s.engineLeft.firnNext

/-- FIRN_LAYER_BOUNDARY (R450, R452, R459): the estimate and 64 cycles after the layer's start. -/
def execFirnLayerBoundary (s : State) : Out :=
  .next <| State.retryAuto <| match s.firn.run with
    | none => s
    | some (num, start) => match s.fjob num with
      | none => s
      | some j => match s.fmodel j.handle with
        | none => s
        | some x => (s.endLayer j x start).afterLayer num x.layers.length

/-- FIRN_OUTPUT_COPIED (R453): the output is in the tenant's range, the result posts, source 0x90 reports it. -/
def execFirnOutputCopied (s : State) : Out :=
  .next <| State.retryAuto <| match s.firn.copying with
    | none => s
    | some num => match s.fjob num with
      | none => s
      | some j =>
        let x := (s.fmodel j.handle).map fun m => (m.outOff, m.outLen)
        let out := match x with | some (o, len) => j.work.getN o len | none => []
        let s1 := (s.partWrite j.ten j.outOff out).dropJob j
        let s2 := if j.orphan then s1 else s1.answer j.ten j.slot (j.result s.now 0)
        let s3 : State := { s2 with firn.completed := satInc (2 ^ 32 - 1) s2.firn.completed }
        (s3.raise 0x90 (BitVec.ofNat 32 num)).firnTouch.engineLeft.firnSettled.firnNext

/-! ### Faults (R454, R455, R457) -/

/-- The engine leaves service and tests itself, as a third watchdog within 10 s makes it (R454). -/
def State.engineTest (s : State) : State := { s with firn := { s.firn with inService := false, testing := true, wdtAt := [] } }

/-- FIRN_LAYER_WATCHDOG (R454): 2 × estimate + 8,192 cycles after the layer's start. -/
def execFirnLayerWatchdog (s : State) : Out :=
  .next <| State.retryAuto <| match s.firn.run with
    | none => s
    | some (num, start) => match s.fjob num with
      | none => s
      | some j =>
        let cyc := 2 * layerCycles (s.nextLayer j) + 8192
        let s1 := (s.reach (start + s.firnNs cyc)).layerTime start cyc
        let recent := s1.now :: s1.firn.wdtAt.filter fun at_ => s1.now < at_ + 10000000000
        let s2 : State := { s1 with firn := { s1.firn with wdt := satInc 65535 s1.firn.wdt, wdtAt := recent } }
        let ran := { j with runNs := j.runNs + (s1.now - start) }
        let s3 := (s2.abortJob ran 2).raise 0x92 (BitVec.ofNat 32 num)
        (if 3 ≤ recent.length then s3.engineTest else s3).firnNext

/-- A job whose layer is cut short, its running time counted. -/
def State.cutLayer (s : State) : State :=
  match s.firn.run with
  | some (_, start) => { s with firn.busyNs := s.firn.busyNs + (s.now - start) }
  | none => s

/-- Jobs that an SRAM error concerns: those of a constant area's model, or the one of a work area (R455). -/
def State.sramJobs (s : State) (area : Nat) : List FJob :=
  s.firn.jobs.filter fun j => if area < 8 then j.handle.val == area else j.num + 8 == area && j.resident

/-- Whether an area exists: a loaded model's constants, or a resident job's work area. -/
def State.sramArea (s : State) (area : Nat) : Bool :=
  if area < 8 then (s.fmodel (Fin.ofNat 8 area)).isSome else s.sramJobs area != []

/-- The constants of a model are to be copied again (R455). -/
def State.staleConstants (s : State) (area : Nat) : State :=
  if 8 ≤ area then s else
  let i : Fin 8 := Fin.ofNat 8 area
  { s with firn.models := s.firn.models.set i ((s.fmodel i).map fun x => { x with ready := false }) }

/-- FIRN_SRAM_ERROR (R455): areas 0 to 7 are constant areas by handle, 8 + n is the work area of job n; a single-bit
error is corrected and counted. -/
def execFirnSramError (area : Nat) (single : Bool) (s : State) : Out :=
  .next <| State.retryAuto <|
    if !s.sramArea area ∨ !s.domOn dINF then s
    else if single then { s with firn.eccCorr := satInc 65535 s.firn.eccCorr } else
    let js := s.sramJobs area
    let s1 := if js.any fun j => (s.firn.run.map Prod.fst) == some j.num then s.cutLayer else s
    let s2 : State := { s1 with firn.eccUncorr := satInc 65535 s1.firn.eccUncorr }
    ((js.foldl (fun s j => s.abortJob j 3) s2).staleConstants area).firnNext

/-- FIRN_SELF_TEST_DONE (R457). -/
def execFirnSelfTestDone (pass : Bool) (s : State) : Out :=
  .next <|
    if !s.firn.testing then s else
    let s1 : State := { s with firn := { s.firn with testing := false, testBy := none, inService := pass, failed := !pass } }
    let s2 := match s.firn.testBy with
      | some (t, n) => if pass then s1.answer t n [1] else s1.done t n Status.state
      | none => s1
    s2.firnNext

/-- A `FIRN.ENGINE` of this slot waits already. -/
def Firn.waitsFor (x : Firn) (t : Ten) (n : SlotIx) : Bool := x.testBy == some (t, n) || x.outBy == some (some (t, n))

/-- The engine goes out once its running job has ended. -/
def State.engineOut (s : State) (t : Ten) (n : SlotIx) : State :=
  ({ s with firn := { s.firn with inService := false, outBy := some (some (t, n)) } } : State).engineLeft

/-- FIRN_ENGINE (R457). -/
def execFirnEngine (t : Ten) (n : SlotIx) (s : State) : Out :=
  command 0x0F06 [(0, 1)] t n s fun s =>
    let op := s.prm1 t n 0
    let x := s.firn
    if x.waitsFor t n then s else
    s.guard t n [(1 < op, Status.param), (x.outBy.isSome || x.testBy.isSome, Status.busy),
                 (op == 1 && x.failed, Status.state)] fun s =>
      if op = 0 then (if x.inService then s.engineOut t n else s.answer t n [0])
      else if x.inService then s.answer t n [1]
      else { s with firn := { s.firn with testing := true, testBy := some (t, n) } }

/-! ### Status (Table 18.12) -/

/-- The 40 bytes of `FIRN.STATUS`. -/
def State.firnStatus (s : State) : List Byte :=
  let x := s.firn
  let busy := x.busyNs + match x.run with | some (_, start) => s.now - start | none => 0
  let wide (v : Nat) : List Byte := leBytes 4 (satTo (2 ^ 32 - 1) v)
  leBytes 1 (b2n x.inService + 2 * b2n (s.domOn dINF) + 4 * b2n s.power.firnFull + 8 * b2n x.thermal + 16 * b2n x.failed)
    ++ leBytes 1 x.jobs.length ++ leBytes 1 (x.jobs.filter (·.resident)).length ++ leBytes 1 s.freeBanks
    ++ leBytes 1 (bitsOf 8 fun i => (x.models[i]).isSome)
    ++ leBytes 1 (match s.holder 6 with | some t => t.val | none => 0xFF) ++ leBytes 2 ((x.stagingUsed + 1023) / 1024)
    ++ leBytes 4 x.completed ++ leBytes 4 x.aborted ++ leBytes 2 x.wdt ++ leBytes 2 x.eccCorr ++ leBytes 2 x.eccUncorr
    ++ leBytes 2 x.thermPause ++ wide (busy / 1000000) ++ wide (x.cycles / 2 ^ 20) ++ leBytes 4 x.preempts ++ [0, 0, 0, 0]

/-- The counters cleared. -/
def Firn.clear (x : Firn) : Firn :=
  { x with
    completed := 0, aborted := 0, wdt := 0, eccCorr := 0, eccUncorr := 0, thermPause := 0, busyNs := 0, cycles := 0
    preempts := 0 }

/-- FIRN_STATUS (R460). -/
def execFirnStatus (t : Ten) (n : SlotIx) (s : State) : Out :=
  command 0x0F01 [(0, 1)] t n s fun s =>
    let f := s.prm1 t n 0
    s.guard t n [(1 < f, Status.param)] fun s =>
      let r := s.firnStatus
      (if bit f 0 then { s with firn := s.firn.clear } else s).answer t n r

end Sys2Proof.Machine
end

