-- ==== Sys2Proof/Machine/Calendar.lean ====
section
/-!
DEFINITION. The calendar (R295 to R297): dates computed from TT, the held offset and leap, and a zone;
and TT computed from a date.
-/

namespace Sys2Proof.Machine

/-- Leap years (R295). -/
def leapYear (y : Nat) : Bool := (y % 4 == 0 && y % 100 != 0) || y % 400 == 0

/-- `ylen`. -/
def ylen (y : Nat) : Nat := if leapYear y then 366 else 365

/-- `mlen`. -/
def mlen (y m : Nat) : Nat :=
  if m = 2 then (if leapYear y then 29 else 28)
  else if m = 4 ∨ m = 6 ∨ m = 9 ∨ m = 11 then 30 else 31

/-- The year loop of R295: year and days left, within a bound of years. -/
def yearOf : Nat → Nat → Nat → Nat × Nat
  | 0, y, days => (y, days)
  | f + 1, y, days => if days < ylen y then (y, days) else yearOf f (y + 1) (days - ylen y)

/-- The month loop of R295. -/
def monthOf : Nat → Nat → Nat → Nat → Nat × Nat
  | 0, _, m, days => (m, days)
  | f + 1, y, m, days => if days < mlen y m then (m, days) else monthOf f y (m + 1) (days - mlen y m)

/-- A date of the calendar. -/
structure Date where
  year : Nat
  month : Nat
  day : Nat
  hour : Nat
  minute : Nat
  second : Nat
  weekday : Nat
  dayOfYear : Nat
  ns : Nat
  sec60 : Bool
deriving DecidableEq, Repr

/-- The calendar view of TT in ns under a zone in minutes (R295); none for `ERR_STATE`. -/
def TimeUnit.date (x : TimeUnit) (ttNs : Nat) (zone : Int) : Option Date :=
  let sec := ttNs / 10 ^ 9
  let sec60 := x.leapKind == 1 && sec + 1 == x.leapAt
  let u : Int := (sec : Int) - x.utcOff - (if sec60 then 1 else 0) + 60 * zone
  if u < 0 then none else
  let u := u.toNat
  let sod := u % 86400
  let (y, days) := yearOf 401 2000 (u / 86400)
  if 2399 < y then none else
  let (m, d) := monthOf 12 y 1 days
  some { year := y, month := m, day := d + 1, hour := sod / 3600, minute := sod % 3600 / 60,
         second := sod % 60 + b2n sec60, weekday := (u / 86400 + 5) % 7 + 1, dayOfYear := days + 1,
         ns := ttNs % 10 ^ 9, sec60 := sec60 }

/-- The date form of a date (Table 12.3). -/
def Date.bytes (d : Date) (isLocal : Bool) (zone : Int) : List Byte :=
  leBytes 2 d.year ++ leBytes 1 d.month ++ leBytes 1 d.day ++ leBytes 1 d.hour ++ leBytes 1 d.minute
    ++ leBytes 1 d.second ++ leBytes 1 (b2n isLocal) ++ leBytes 4 d.ns ++ leInt 2 zone ++ [0, 0]

/-- Days from the epoch to the first day of a year. -/
def daysToYear (y : Nat) : Nat := (List.range (y - 2000)).foldl (fun a i => a + ylen (2000 + i)) 0

/-- Days of a year before a month. -/
def daysToMonth (y m : Nat) : Nat := (List.range (m - 1)).foldl (fun a i => a + mlen y (i + 1)) 0

/-- The zone offset of a date form: its own when `LOCAL`, else 0. -/
def dateZone (b : List Byte) : Int := if bit (byteAt b 7) 0 then toSigned 16 (leAt b 12 2) else 0

/-- UTC seconds from the epoch that a date form names, its second taken as 59 when it is 60. -/
def dateUtc (b : List Byte) : Int :=
  let y := leAt b 0 2
  let days := daysToYear y + daysToMonth y (byteAt b 2) + (byteAt b 3 - 1)
  (days * 86400 + byteAt b 4 * 3600 + byteAt b 5 * 60 + min (byteAt b 6) 59 : Nat) - 60 * dateZone b

/-- UTC seconds of a held leap's UTC midnight. -/
def TimeUnit.leapMidnight (x : TimeUnit) : Int :=
  x.leapAt - (if x.leapKind = 1 then x.utcOff + 1 else x.utcOff - 1)

/-- The reserved parts of a date form (Table 12.3). -/
def dateStray (b : List Byte) : Bool := 1 < byteAt b 7 || leAt b 14 2 != 0

/-- The checks of R297 in their order; the nanoseconds are looked at only when `ns` says so. -/
def TimeUnit.dateBad (x : TimeUnit) (b : List Byte) (ns : Bool) : Option Half :=
  let zone := toSigned 16 (leAt b 12 2)
  let y := leAt b 0 2
  let m := byteAt b 2
  let d := byteAt b 3
  if zone < -1440 ∨ 1440 < zone then some Status.param
  else if y < 2000 ∨ 2399 < y ∨ m = 0 ∨ 12 < m ∨ d = 0 ∨ mlen y m < d ∨ 23 < byteAt b 4 ∨ 59 < byteAt b 5
      ∨ 60 < byteAt b 6 ∨ (ns ∧ 999999999 < leAt b 8 4) then some Status.badDate
  else if byteAt b 6 = 60 ∧ !(x.leapKind == 1 && dateUtc b + 1 == x.leapMidnight) then some Status.badDate
  else none

/-- TT in seconds of a date that passed the checks, with the offset in force at its instant (R297). -/
def TimeUnit.dateTt (x : TimeUnit) (b : List Byte) : Int :=
  let u := dateUtc b
  let off := if x.leapKind ≠ 0 ∧ x.leapMidnight ≤ u then
      (if x.leapKind = 1 then x.utcOff + 1 else x.utcOff - 1)
    else x.utcOff
  u + off + (if byteAt b 6 = 60 then 1 else 0)

end Sys2Proof.Machine
end

