-- ==== Sys2Proof/Machine/Time.lean ====
section
/-!
DEFINITION. Terminal time (R270 to R306): stamps and rate correction, steps, comparators, alarms, the
time outputs, captures, and the `TIME` commands.
-/

namespace Sys2Proof.Machine

/-! ### Comparators (R291 to R294) -/

/-- A comparator fires and is freed; source 0x20 + n carries `LATE`. -/
def State.fireCmp (s : State) (i : Fin 16) (late : Bool) : State :=
  ({ s with time.cmps := s.time.cmps.set i none } : State).raise (Fin.ofNat 256 (0x20 + i.val))
    (BitVec.ofNat 32 (b2n late))

/-- The largest distance of an armed target (R292). -/
def cmpReach : Nat := 2 ^ 47 - 1

/-- A held target re-evaluated after a step (R293). -/
def State.recheckCmp (s : State) (i : Fin 16) : State :=
  match s.time.cmps[i] with
  | none => s
  | some c =>
    if c.target ≤ s.ttNs then s.fireCmp i true
    else { s with time.cmps := s.time.cmps.set i (some { c with parked := decide (s.ttNs + cmpReach < c.target) }) }

/-- COMPARATOR_FIRE (R291): the first count at which the signed 48-bit difference is not negative. -/
def execComparatorFire (i : Fin 16) (s : State) : Out :=
  .next <| match s.time.cmps[i] with
    | some c =>
      if c.parked || !s.domOn dPLL then s else
      let s1 := s.reachTt c.target
      if 0 ≤ toSigned 48 ((s1.ttNs + 2 ^ 48 - c.target % 2 ^ 48) % 2 ^ 48) then s1.fireCmp i false else s1
    | none => s

/-- PARKED_TARGET_CHECK (R292): a parked target less than 2⁴⁶ ns ahead is armed. -/
def execParkedTargetCheck (s : State) : Out :=
  .next <| (List.finRange 16).foldl (fun s i => match s.time.cmps[i] with
    | some c => if c.parked && c.target < s.ttNs + 2 ^ 46 then
        { s with time.cmps := s.time.cmps.set i (some { c with parked := false }) } else s
    | none => s) s

/-! ### Alarms (R298) -/

/-- An alarm fires and is cleared; source 0x04 + n carries its number. -/
def State.fireAlarm (s : State) (i : Fin 4) : State :=
  ({ s with time.alarms := s.time.alarms.set i none } : State).aoAssert (Fin.ofNat 32 (4 + i.val))
    (BitVec.ofNat 32 i.val)

/-- CALENDAR_ALARM (R298). -/
def execCalendarAlarm (i : Fin 4) (s : State) : Out :=
  .next <| match s.time.alarms[i] with
    | some sec => if s.domOn dTKP then (s.reachTt (sec * 10 ^ 9)).fireAlarm i else s
    | none => s

/-! ### Outputs (R299 to R302) -/

/-- Whether a QUALIFIED output runs (R299). -/
def State.qualified (s : State) : Bool :=
  s.time.sstate == .locked ||
    (s.time.sstate == .holdover && match s.time.teEst s.now with | some e => e ≤ 1000 | none => false)

/-- Whether an output of a mode runs now. -/
def State.outRuns (s : State) : OutMode → Bool
  | .off => false
  | .always => true
  | .qualified => s.qualified

/-- A `PPS_OUT` pulse of a TT second, and source 0x30 (R300). -/
def State.ppsPulse (s : State) (sec tt : Nat) : State :=
  let s1 := (s.emit (.timeEdge 0 true tt)).emit (.timeEdge 0 false (tt + s.time.pps.widthUs * 1000))
  ({ s1 with time.pps.last := some sec } : State).raise 0x30 (BitVec.ofNat 32 sec)

/-- PPS_SECOND (R300): the next whole second, never one already output. -/
def execPpsSecond (s : State) : Out :=
  .next <|
    if s.time.pps.mode = .off ∨ !s.domOn dPLL then s else
    let sec0 := (s.ttNs + 999999999) / 10 ^ 9
    let sec := match s.time.pps.last with | some l => max sec0 (l + 1) | none => sec0
    let s1 := s.reachTt (sec * 10 ^ 9)
    if s1.outRuns s1.time.pps.mode then s1.ppsPulse sec (sec * 10 ^ 9) else s1

/-- Start of cycle n in units of 0.5 ns of TT, rounded (R301). -/
def Grid.startOf (g : Grid) (n : Nat) : Nat := 2 * g.t0 + (4 * n * 10 ^ 12 + g.f) / (2 * g.f)

/-- The next cycle of `GRID_REF_OUT` (R301): the one after the running cycle, or after a new setting or
a step the first one at least half a period after the running cycle began. -/
def State.nextCycle (s : State) : Nat :=
  let g := s.time.grid
  match g.cycle, g.changed with
  | some n, false => n + 1
  | c, _ =>
    let at_ := if c.isSome then max s.now (g.cycleAt + g.half) else s.now
    let d := s.time.tt at_ / 65536 - g.t0
    (d * g.f + (10 ^ 12 - 1)) / 10 ^ 12

/-- GRID_REF_CYCLE (R301). -/
def execGridRefCycle (s : State) : Out :=
  .next <|
    let g := s.time.grid
    if g.mode = .off ∨ g.f = 0 ∨ !s.domOn dPLL then s else
    let n := s.nextCycle
    let start := g.startOf n
    let s1 : State := { s with now := s.time.instantOf s.now ((start : Int) * 32768) }
    if !s1.outRuns g.mode then { s1 with time.grid := { g with cycle := none } } else
    let half := 10 ^ 12 / g.f / 2
    let s2 := (s1.emit (.timeEdge 1 true (start / 2))).emit (.timeEdge 1 false (start / 2 + half))
    let s3 : State := { s2 with time.grid := { g with cycle := some n, cycleAt := s2.now, half := half, changed := false } }
    if n % g.n = 0 then s3.raise 0x31 (BitVec.ofNat 32 n) else s3

/-- A pulse output changes level (R302). -/
def State.pulseEdge (s : State) (i : Fin 2) (p : Pulse) : State :=
  ({ s with time.pulses := s.time.pulses.set i p } : State).emit
    (.timeEdge (Fin.ofNat 4 (2 + i.val)) (p.active != p.invert) s.ttNs)

/-- A pulse output rises now. -/
def State.pulseRise (s : State) (i : Fin 2) : State :=
  s.pulseEdge i { s.time.pulses[i] with active := true, start := none }

/-- A pulse output falls now and its schedule is free. -/
def State.pulseFall (s : State) (i : Fin 2) : State :=
  s.pulseEdge i { s.time.pulses[i] with active := false, start := none, stop := none }

/-- PULSE_START (R302). -/
def execPulseStart (i : Fin 2) (s : State) : Out :=
  .next <| match s.time.pulses[i].start with
    | some t => if s.domOn dPLL then (s.reachTt t).pulseRise i else s
    | none => s

/-- PULSE_STOP (R302). -/
def execPulseStop (i : Fin 2) (s : State) : Out :=
  .next <| match s.time.pulses[i].stop with
    | some t => if s.time.pulses[i].active && s.domOn dPLL then (s.reachTt t).pulseFall i else s
    | none => s

/-- A pulse schedule after a step (R302). -/
def State.recheckPulse (s : State) (i : Fin 2) : State :=
  let p := s.time.pulses[i]
  let past (x : Option Nat) : Bool := match x with | some t => t ≤ s.ttNs | none => false
  if past p.start then
    if past p.stop then
      { s with time := { s.time with
          pulses := s.time.pulses.set i { p with start := none, stop := none }
          pulseLost := satInc 65535 s.time.pulseLost } }
    else s.pulseRise i
  else if p.active && past p.stop then s.pulseFall i
  else s

/-! ### Steps and stamps (R278 to R282, R284, R293) -/

/-- A leap that TT has reached (R284). -/
def State.leapNow (s : State) : State :=
  { s with time := { s.time with
      utcOff := if s.time.leapKind = 1 then s.time.utcOff + 1 else s.time.utcOff - 1
      leapKind := 0, leapAt := 0 } }

/-- LEAP_SECOND (R284). -/
def execLeapSecond (s : State) : Out :=
  .next <| if s.time.leapKind = 0 then s else (s.reachTt (s.time.leapAt * 10 ^ 9)).leapNow

/-- A step of TT (R279, R285): `OFFSET` moves, and before TT moves on every held target, alarm and
output is judged by the new TT (R293, R298, R300 to R302). -/
def State.stepTt (s : State) (by_ : Int) : State :=
  let before := s.ttNs
  let ran := s.outRuns s.time.pps.mode
  let s1 : State := { s with time := { s.time with
    offset := s.time.offset + by_, spent := true, sstate := .locked, ebar := 0, run := 0, errs := [], bad := 0
    lastCorr := s.now, grid := { s.time.grid with changed := true } } }
  let s2 := (List.finRange 16).foldl (fun s i => s.recheckCmp i) s1
  let s3 := (List.finRange 4).foldl (fun s i => match s.time.alarms[i] with
    | some sec => if sec ≤ s.ttNs / 10 ^ 9 then s.fireAlarm i else s
    | none => s) s2
  let s4 := (List.finRange 2).foldl (fun s i => s.recheckPulse i) s3
  let s5 := if s4.time.leapKind ≠ 0 ∧ s4.time.leapAt ≤ s4.ttNs / 10 ^ 9 then s4.leapNow else s4
  let sec := s5.ttNs / 10 ^ 9
  let fresh := match s5.time.pps.last with | some l => l < sec | none => true
  (if ran && s5.outRuns s5.time.pps.mode && before / 10 ^ 9 < sec && fresh then s5.ppsPulse sec s5.ttNs else s5).audStep

/-- The downstream delay of a stamp in units of 2⁻¹⁶ ns (R278), truncated towards zero. -/
def downDelay (rtdHalfNs : Nat) (asym heDelta : Int) : Int :=
  Config.tRx + heDelta + Int.tdiv (((rtdHalfNs * 32768 : Nat) - Config.tRx - Config.tTx : Int) * (2 ^ 31 + asym)) (2 ^ 32)

/-- The error of a stamp, none when it is not usable (R278): a result or a `TIME_INFO` that came within the frame applies
from the next one. -/
def State.stampError (s : State) (st : HeadStamp) : Option Int :=
  match st.timing, st.rtd with
  | some (a, b, h), some rtd =>
    if s.boot.core1Up && s.activeLane == some st.lane && s.reg.ranged[st.lane] then
      some (st.capture - ((st.heTs : Int) + downDelay rtd (if st.lane = 0 then a else b) h))
    else none
  | _, _ => none

/-- 1 ms in units of 2⁻¹⁶ ns. -/
def msU : Nat := 65536000000

/-- A usable stamp that lies beyond 1 ms: the fourth in a row is a FAULT (R282). -/
def State.badStamp (s : State) (e : Int) : State :=
  if s.time.bad = 3 then s.faultTime e else { s with time.bad := s.time.bad + 1 }

/-- A usable stamp meets the session (R279 to R282). -/
def State.useStamp (s : State) (e : Int) : State :=
  let s1 := { s with time.lastStamp := s.now }
  match s.time.sstate with
  | .unstepped => s1.stepTt (-e)
  | .locked =>
    let s2 := { s1 with time.errs := s1.time.errs ++ [e] }
    if msU < e.natAbs then s2.badStamp e else { s2 with time.bad := 0 }
  | .holdover =>
    if msU < e.natAbs then s1.badStamp e
    else ({ s1 with time := { s1.time with sstate := .locked, ebar := e, run := 0, errs := [], bad := 0, lastCorr := s.now } } : State
      ).raise 0x37 0
  | _ => s1

/-- TIME_STAMP (R278): CC1 processes the frame-start stamp. -/
def execTimeStamp (s : State) : Out :=
  .next <| match s.time.stamp with
    | none => s
    | some st =>
      let s1 := { s with time.stamp := none }
      match s.stampError st with
      | some e => if s.time.source = .head then s1.useStamp e else s1
      | none => s1

/-- One stamp of a multiframe against the running mean (R280): the mean, the outliers, the run, and
the stamps kept. -/
def takeErr (a : Int × Nat × Nat × List Int) (e : Int) : Int × Nat × Nat × List Int :=
  let (ebar, out, run, kept) := a
  if 65536000 < (e - ebar).natAbs then
    if run + 1 = 64 then (e, satInc 65535 out, 0, kept) else (ebar, satInc 65535 out, run + 1, kept)
  else (ebar, out, 0, kept ++ [e])

/-- A rate moved towards a target by at most 5 ppm/s over a time in ns (R280). -/
def slew (rate target : Int) (dt : Nat) : Int :=
  let step : Int := ((5 * 2 ^ 40 * dt) / 10 ^ 15 : Nat)
  if rate < target then min target (rate + step) else max target (rate - step)

/-- `RATE` kept within ±(2³¹ − 1) (R280). -/
def clampRate (r : Int) : Int := max (-(2 ^ 31 - 1)) (min (2 ^ 31 - 1) r)

/-- RATE_CORRECTION (R280, R285): frozen in NIGHT sleep (R288). -/
def execRateCorrection (s : State) : Out :=
  .next <|
    if s.time.sstate ≠ .locked ∨ !s.boot.core1Up ∨ (s.power.pstate = .night ∧ !s.power.night.listening) then s else
    match s.time.source with
    | .head =>
      let (ebar, out, run, kept) := s.time.errs.foldl takeErr (s.time.ebar, s.time.outliers, s.time.run, [])
      let ebar := if 4 ≤ kept.length then Int.tdiv (kept.foldl (· + ·) 0) kept.length else ebar
      let target := Int.tdiv (-ebar * 2 ^ 40) (8 * 10 ^ 9 * 65536)
      let x := s.time.setRate s.now (clampRate (slew s.time.rate target (s.now - s.time.lastCorr)))
      { s with time := { x with ebar := ebar, outliers := out, run := run, errs := [], lastCorr := s.now } }
    | .tenant _ => match s.time.target with
      | some r =>
        let x := s.time.setRate s.now (slew s.time.rate r (s.now - s.time.lastCorr))
        { s with time := { x with lastCorr := s.now } }
      | none => s
    | .none => s

/-- HOLDOVER_ENTRY (R281): 10 ms without a usable stamp; NIGHT sleep does not count. -/
def execHoldoverEntry (s : State) : Out :=
  .next <|
    if s.time.source = .head ∧ s.time.sstate = .locked ∧ s.power.pstate ≠ .night then
      (s.reach (s.time.lastStamp + 10000000)).enterHoldover
    else s

/-- TRANSFORM_REBASE (R271). -/
def execTransformRebase (s : State) : Out :=
  .next <| if s.time.tk.isSome then s else { s with time := s.time.rebase s.now }

/-! ### Captures (R304) -/

/-- A capture lost and counted. -/
def Capture.lose (c : Capture) : Capture := { c with lost := satInc 65535 c.lost, loss := true }

/-- CAPTURE_EDGE (R304): an edge at the present count and a phase in units of 0.5 ns; a level that lasts less than 4 ns is
no pulse to capture. -/
def execCaptureEdge (input : Fin 4) (rising : Bool) (phase ns : Nat) (s : State) : Out :=
  .next <|
    let c := s.time.caps[input]
    if ns < 4 || !s.ballActs (.tsIn input) || !c.cfg.getLsbD (if rising then 0 else 1) then s else
    let ph := min phase 15
    let at_ := (s.now - s.time.epoch) / 8 * 16 + ph
    let near := match c.lastEdge with | some l => at_ < l + 32 | none => false
    if near || 16 ≤ c.fifo.length then { s with time.caps := s.time.caps.set input c.lose } else
    let tt := s.ttU + ph * 32768
    let rec_ := Stamp.mk tt rising s.ttEst c.loss
    ({ s with time.caps := s.time.caps.set input { c with fifo := c.fifo ++ [rec_], loss := false, lastEdge := some at_ } } : State
    ).raise (Fin.ofNat 256 (0x32 + input.val)) (BitVec.ofNat 32 (tt / 65536))

/-! ### The TIME commands (R306) -/

/-- Session state codes of Table 12.5. -/
def SState.code : SState → Nat
  | .none => 0 | .unstepped => 1 | .locked => 2 | .holdover => 3 | .fault => 4

/-- Bytes 1 of Table 12.5. -/
def SSource.code : SSource → Nat
  | .none => 0 | .head => 1 | .tenant t => 2 + 16 * t.val

/-- The 40 bytes of `TIME.STATUS` (Table 12.5). -/
def timeStatus (s : State) : List Byte :=
  let x := s.time
  leBytes 1 x.sstate.code ++ leBytes 1 x.source.code
    ++ leBytes 1 (b2n x.unset + 2 * b2n x.estimated + 4 * b2n x.spent + 8 * b2n x.timing.isSome
        + 16 * b2n (x.leapKind != 0) + 32 * b2n x.traceable) ++ [0]
    ++ leBytes 2 x.gen.toNat ++ leInt 2 x.utcOff ++ leInt 4 x.rate ++ leBytes 4 (x.teWord s.now)
    ++ leInt 4 (Int.tdiv x.ebar 4096) ++ leBytes 8 x.leapAt ++ leBytes 1 x.leapKind ++ [0] ++ leBytes 2 x.outliers
    ++ leBytes 2 x.holdovers ++ leBytes 2 x.pulseLost ++ leBytes 4 (satTo (2 ^ 32 - 1) ((s.now - x.lastCorr) / 10 ^ 9))

/-- TIME_STATUS. -/
def execTimeStatus (t : Ten) (n : SlotIx) (s : State) : Out :=
  command 0x0501 [(0, 1)] t n s fun s =>
    let f := s.prm1 t n 0
    s.guard t n [(1 < f, Status.param)] fun s =>
      let s1 := if bit f 0 then
          { s with time := { s.time with outliers := 0, holdovers := 0, pulseLost := 0 } } else s
      s1.answer t n (timeStatus s)

/-- TIME_READ. -/
def execTimeRead (t : Ten) (n : SlotIx) (s : State) : Out :=
  command 0x0502 [] t n s fun s => s.answer t n <|
    ttBytes s.ttU ++ leBytes 6 (s.time.frcAt s.now) ++ leBytes 1 (b2n s.time.unset + 2 * b2n s.time.estimated)
      ++ leBytes 1 s.time.sstate.code ++ leBytes 2 s.time.gen.toNat

/-- The session opens and the result gives its generation. -/
def State.openAnswer (s : State) (t : Ten) (n : SlotIx) (src : SSource) : State :=
  let s1 := s.openTime src
  s1.answer t n (leBytes 2 s1.time.gen.toNat)

/-- TIME_SESSION_OPEN (R275, R276). -/
def execTimeSessionOpen (t : Ten) (n : SlotIx) (s : State) : Out :=
  commandBy 0x0503 t n s fun s =>
    let what := s.prm1 t n 0
    let head := what == 1
    let tenant := what == 2
    let stepIn := s.time.source == .head && s.time.sstate == .holdover
    s.guard t n [(head && !s.ownerAt t n, Status.authority), (tenant && !s.holdsAt t n 1, Status.authority),
                 (tenant && !s.leasedAt t n 7, Status.lease),
                 ((!head && !tenant) || s.stray t n [(0, 1)], Status.param),
                 (head && (!s.inService || s.time.sstate != .none), Status.state),
                 (tenant && (s.inService || s.silent || (s.time.sstate != .none && !stepIn)), Status.state)] fun s =>
      if head then s.openAnswer t n .head else s.closeTime.openAnswer t n (.tenant t)

/-- TIME_SESSION_CLOSE (R277). -/
def execTimeSessionClose (t : Ten) (n : SlotIx) (s : State) : Out :=
  command 0x0504 [] t n s fun s =>
    s.guard t n [(s.time.sstate == .none, Status.state)] fun s =>
      s.closeTime.answer t n (leBytes 2 s.time.gen.toNat)

/-- What a command that corrects a TENANT session finds (R279, R282, R306). -/
def State.sessionBad (s : State) : Option Half :=
  if s.time.sstate = .none then some Status.state
  else if s.time.sstate = .fault then some Status.timeFault
  else if s.time.source = .head then some Status.state else none

/-- The last TT, in seconds less the offset, a step may reach: 2399-12-31 (R285). -/
def lastSecond : Nat := 146097 * 86400

/-- A tenant's step (R285). -/
def State.tenantStep (s : State) (t : Ten) (n : SlotIx) (by_ : Int) : State :=
  let new := (s.ttU : Int) + by_
  if new < 0 ∨ (lastSecond : Int) ≤ new / (65536 * 10 ^ 9) - s.time.utcOff then s.done t n Status.param
  else (s.stepTt by_).answer t n (leInt 8 (by_ / 65536) ++ leInt 2 (by_ % 65536))

/-- TIME_STEP (R279, R285, R297). -/
def execTimeStep (t : Ten) (n : SlotIx) (s : State) : Out :=
  commandBy 0x0505 t n s fun s =>
    let what := s.prm1 t n 0
    let date := field (s.params t n) 8 16
    let off : Int := toSigned 64 (s.prm t n 8 8) * 65536 + s.prm t n 16 2
    let stray := if what = 0 then s.stray t n [(0, 1), (8, 10)] else s.stray t n [(0, 1), (8, 16)] || dateStray date
    s.guard t n [(1 < what || stray, Status.param)] fun s =>
      match s.sessionBad with
      | some st => s.done t n st
      | none =>
        if s.time.spent then s.done t n Status.stepSpent
        else if what = 0 then s.tenantStep t n off
        else match s.time.dateBad date true with
          | some st => s.done t n st
          | none =>
            let sec := s.time.dateTt date
            if sec < 0 then s.done t n Status.badDate
            else s.tenantStep t n ((sec * 10 ^ 9 + leAt date 8 4) * 65536 - s.ttU)

/-- TIME_RATE (R279, R282, R285): an observed error above 1 ms is a FAULT. -/
def execTimeRate (t : Ten) (n : SlotIx) (s : State) : Out :=
  command 0x0506 [(0, 5), (8, 8)] t n s fun s =>
    let r := toSigned 32 (s.prm t n 0 4)
    let obs := toSigned 64 (s.prm t n 8 8)
    s.guard t n [(1 < s.prm1 t n 4 || r == -(2 ^ 31), Status.param)] fun s =>
      match s.sessionBad with
      | some st => s.done t n st
      | none =>
        if bit (s.prm1 t n 4) 0 ∧ 1000000 < obs.natAbs then (s.faultTime (obs * 65536)).done t n Status.timeFault
        else ({ s with time := { s.time with
                  target := some r, lastCorr := if s.time.target.isNone then s.now else s.time.lastCorr } } : State).done t n Status.ok

/-- The comparator a request names (R292): any free one for 0xFF. -/
def State.cmpFor (s : State) (b : Nat) : Option (Fin 16) :=
  if b = 0xFF then (List.finRange 16).find? fun i => s.time.cmps[i].isNone else some (Fin.ofNat 16 b)

/-- A comparator another tenant holds (R292). -/
def State.cmpHeld (s : State) (t : Ten) (i : Fin 16) : Bool :=
  match s.time.cmps[i] with
  | some c => c.owner != t
  | none => false

/-- TIME_CMP_ARM (R292): re-arming its own comparator replaces the target. -/
def execTimeCmpArm (t : Ten) (n : SlotIx) (s : State) : Out :=
  command 0x0507 [(0, 2), (8, 8)] t n s fun s =>
    let b := s.prm1 t n 0
    let f := s.prm1 t n 1
    let target := s.prm t n 8 8
    s.guard t n [((15 < b && b != 0xFF) || 1 < f, Status.param)] fun s =>
      match s.cmpFor b with
      | none => s.done t n Status.busy
      | some i =>
        if s.cmpHeld t i then s.done t n Status.busy
        else if target ≤ s.ttNs then (s.fireCmp i true).answer t n (leBytes 1 i.val ++ [2])
        else
          let far := decide (s.ttNs + cmpReach < target)
          if far ∧ f = 0 then s.done t n Status.tooFar
          else ({ s with time.cmps := s.time.cmps.set i (some (Cmp.mk t target far)) } : State).answer t n
            (leBytes 1 i.val ++ leBytes 1 (b2n far))

/-- TIME_CMP_CANCEL (R294): a comparator that holds nothing has already fired. -/
def execTimeCmpCancel (t : Ten) (n : SlotIx) (s : State) : Out :=
  command 0x0508 [(0, 1)] t n s fun s =>
    let b := s.prm1 t n 0
    if 15 < b then s.done t n Status.param else
    let i : Fin 16 := Fin.ofNat 16 b
    match s.time.cmps[i] with
    | none => s.answer t n [1]
    | some c =>
      if c.owner ≠ t then s.done t n Status.busy
      else ({ s with time.cmps := s.time.cmps.set i none } : State).answer t n [0]

/-- TIME_CAL_READ (R295, R296). -/
def execTimeCalRead (t : Ten) (n : SlotIx) (s : State) : Out :=
  command 0x0509 [(0, 1)] t n s fun s =>
    let f := s.prm1 t n 0
    let zone := if bit f 0 then s.time.zones[t] else 0
    s.guard t n [(1 < f, Status.param)] fun s =>
      match s.time.date s.ttNs zone with
      | none => s.done t n Status.state
      | some d => s.answer t n (d.bytes (bit f 0) zone ++ leBytes 1 d.weekday ++ [0] ++ leBytes 2 d.dayOfYear
          ++ leBytes 1 (b2n s.time.unset + 2 * b2n s.time.estimated + 4 * b2n (s.time.leapKind != 0) + 8 * b2n d.sec60))

/-- TIME_ZONE (R296). -/
def execTimeZone (t : Ten) (n : SlotIx) (s : State) : Out :=
  command 0x050A [(0, 2)] t n s fun s =>
    let z := toSigned 16 (s.prm t n 0 2)
    s.guard t n [(z < -1440 || 1440 < z, Status.param)] fun s =>
      ({ s with time.zones := s.time.zones.set t z } : State).done t n Status.ok

/-- An alarm set (R298): one in the past fires at once. -/
def State.setAlarm (s : State) (t : Ten) (n : SlotIx) (i : Fin 4) (sec : Nat) : State :=
  if sec ≤ s.ttNs / 10 ^ 9 then (s.fireAlarm i).answer t n [1]
  else ({ s with time.alarms := s.time.alarms.set i (some sec) } : State).answer t n [0]

/-- TIME_ALARM (R297, R298). -/
def execTimeAlarm (t : Ten) (n : SlotIx) (s : State) : Out :=
  commandBy 0x050B t n s fun s =>
    let b := s.prm1 t n 0
    let what := s.prm1 t n 1
    let i : Fin 4 := Fin.ofNat 4 b
    let date := field (s.params t n) 8 16
    let stray := match what with
      | 0 => s.stray t n [(0, 2), (8, 8)]
      | 1 => s.stray t n [(0, 2), (8, 16)] || dateStray date
      | _ => s.stray t n [(0, 2)]
    s.guard t n [(3 < b || 2 < what || stray, Status.param)] fun s =>
      match what with
      | 0 => s.setAlarm t n i (s.prm t n 8 8)
      | 1 => match s.time.dateBad date false with
        | some st => s.done t n st
        | none =>
          let sec := s.time.dateTt date
          if sec < 0 then s.done t n Status.badDate else s.setAlarm t n i sec.toNat
      | _ => ({ s with time.alarms := s.time.alarms.set i none } : State).answer t n [0]

/-- Who may configure the time outputs (R299). -/
def State.mayDrive (s : State) (t : Ten) (n : SlotIx) : Bool := s.ownerAt t n || s.leasedAt t n 7

/-- The mode a byte names. -/
def outMode (b : Nat) : OutMode := if b = 0 then .off else if b = 1 then .always else .qualified

/-- TIME_PPS (R299, R300). -/
def execTimePps (t : Ten) (n : SlotIx) (s : State) : Out :=
  commandBy 0x050C t n s fun s =>
    let m := s.prm1 t n 0
    let w := s.prm t n 4 4
    s.guard t n [(!s.mayDrive t n, Status.lease),
                 (2 < m || w == 0 || 500000 < w || s.stray t n [(0, 1), (4, 4)], Status.param)] fun s =>
      ({ s with time.pps := { s.time.pps with mode := outMode m, widthUs := w } } : State).done t n Status.ok

/-- TIME_GRID_REF (R299, R301). -/
def execTimeGridRef (t : Ten) (n : SlotIx) (s : State) : Out :=
  commandBy 0x050D t n s fun s =>
    let m := s.prm1 t n 0
    let f := s.prm t n 4 4
    let every := s.prm t n 16 2
    s.guard t n [(!s.mayDrive t n, Status.lease),
                 (2 < m || f < 1000 || 100000000 < f || every == 0 || s.stray t n [(0, 1), (4, 14)], Status.param)] fun s =>
      let g := s.time.grid
      ({ s with time.grid := { g with
          mode := outMode m, f := f, t0 := s.prm t n 8 8, n := every, changed := true
          cycle := if m = 0 then none else g.cycle } } : State).done t n Status.ok

/-- A start or a window on a free pulse output (R302). -/
def State.pulseArm (s : State) (t : Ten) (n : SlotIx) (i : Fin 2) (invert : Bool) (start : Nat) (stop : Option Nat) : State :=
  let p : Pulse := { invert := invert, active := false, start := some start, stop := stop }
  let s0 := if invert = s.time.pulses[i].invert then s else s.emit (.timeEdge (Fin.ofNat 4 (2 + i.val)) invert s.ttNs)
  let s1 := { s0 with time.pulses := s0.time.pulses.set i p }
  if start ≤ s.ttNs then (s1.pulseRise i).answer t n [0x80] else s1.answer t n [0]

/-- A stop of a pulse output (R302): it cancels an armed start, and ends an active pulse at its time or
at once. -/
def State.pulseHalt (s : State) (t : Ten) (n : SlotIx) (i : Fin 2) (stop : Nat) : State :=
  let p := s.time.pulses[i]
  match p.start with
  | some a =>
    ({ s with time.pulses := s.time.pulses.set i { p with start := none, stop := none } } : State).answer t n
      [if a = stop then 1 else 2]
  | none =>
    if !p.active then s.answer t n [3]
    else if stop ≤ s.ttNs then (s.pulseFall i).answer t n [3]
    else ({ s with time.pulses := s.time.pulses.set i { p with stop := some stop } } : State).answer t n [0]

/-- TIME_PULSE (R299, R302). -/
def execTimePulse (t : Ten) (n : SlotIx) (s : State) : Out :=
  commandBy 0x050E t n s fun s =>
    let b := s.prm1 t n 0
    let what := s.prm1 t n 1
    let inv := s.prm1 t n 2
    let i : Fin 2 := Fin.ofNat 2 b
    let trunc (v : Nat) : Nat := v / 8 * 8
    let start := s.prm t n 8 8
    let stop := s.prm t n 16 8
    let stray := match what with
      | 0 => s.stray t n [(0, 3), (8, 16)]
      | 1 => s.stray t n [(0, 3), (8, 8)]
      | 2 => s.stray t n [(0, 3), (16, 8)]
      | _ => s.stray t n [(0, 3)]
    let p := s.time.pulses[i]
    let busy := p.active || p.start.isSome
    let far := decide (s.ttNs + cmpReach < start)
    s.guard t n [(!s.mayDrive t n, Status.lease), (1 < b || 3 < what || 1 < inv || stray, Status.param)] fun s =>
      match what with
      | 0 =>
        if stop < start then s.done t n Status.order
        else if trunc start = trunc stop then s.answer t n [1]
        else if busy then s.done t n Status.busy
        else if trunc stop ≤ s.ttNs then s.done t n Status.state
        else if far then s.done t n Status.tooFar
        else s.pulseArm t n i (bit inv 0) (trunc start) (some (trunc stop))
      | 1 =>
        if busy then s.done t n Status.busy
        else if far then s.done t n Status.tooFar
        else s.pulseArm t n i (bit inv 0) (trunc start) none
      | 2 => s.pulseHalt t n i (trunc stop)
      | _ => s.pulseHalt t n i (trunc s.ttNs)

/-- TIME_CAPTURE_CFG (R304). -/
def execTimeCaptureCfg (t : Ten) (n : SlotIx) (s : State) : Out :=
  command 0x050F [(0, 2)] t n s fun s =>
    let b := s.prm1 t n 0
    let c := s.prm1 t n 1
    let i : Fin 4 := Fin.ofNat 4 b
    s.guard t n [(3 < b || 3 < c, Status.param)] fun s =>
      ({ s with time.caps := s.time.caps.set i { s.time.caps[i] with cfg := BitVec.ofNat 2 c } } : State).done t n Status.ok

/-- A capture record (Table 12.4). -/
def Stamp.bytes (x : Stamp) : List Byte :=
  ttBytes x.tt ++ leBytes 1 (b2n x.rising + 2 * b2n x.est + 4 * b2n x.loss) ++ [0]

/-- TIME_CAPTURE_READ (R304): up to four records leave the FIFO, oldest first. -/
def execTimeCaptureRead (t : Ten) (n : SlotIx) (s : State) : Out :=
  command 0x0510 [(0, 1)] t n s fun s =>
    let b := s.prm1 t n 0
    let i : Fin 4 := Fin.ofNat 4 b
    s.guard t n [(3 < b, Status.param)] fun s =>
      let c := s.time.caps[i]
      let recs := c.fifo.take 4
      ({ s with time.caps := s.time.caps.set i { c with fifo := c.fifo.drop 4 } } : State).answer t n
        (leBytes 1 recs.length ++ [0] ++ leBytes 2 c.lost ++ field (recs.flatMap Stamp.bytes) 0 48)

/-- TIME_CONFIG (R286, R306). -/
def execTimeConfig (t : Ten) (n : SlotIx) (s : State) : Out :=
  command 0x0511 [(0, 7)] t n s fun s =>
    let f := s.prm1 t n 6
    let c : TimeCfg := { y0 := s.prm t n 0 2, d := s.prm t n 2 2, yTk := s.prm t n 4 2 }
    s.guard t n [(1 < f, Status.param), (bit f 0 && s.configBusy, Status.regionBusy)] fun s =>
      let s1 := { s with time.cfg := c }
      (if bit f 0 then ({ s1 with store.time := some c } : State).persisted else s1).done t n Status.ok

end Sys2Proof.Machine
end

