-- ==== Sys2Proof/Machine/Audio.lean ====
section
/-!
DEFINITION. Announcement audio and teleprotection (R461 to R484): containers in both directions, sample and block
boundaries, schedules, and the `AUDIO` and `TPS` commands.
-/

namespace Sys2Proof.Machine

/-! ### Announcement containers (R467, R468) -/

/-- Twelve zero pairs. -/
def silentBlock : List Pair := List.replicate 12 (0, 0)

/-- The pairs of a container's samples. -/
def pairsOf (bs : List Byte) (n : Nat) : List Pair := (List.range n).map fun i => (sampleOf bs (6 * i), sampleOf bs (6 * i + 3))

/-- A body, without `TCRC`, whose length and `NS` agree (R467). -/
def annOk (b : List Byte) : Bool :=
  if bit (byteAt b 2) 0 then b.length == 4 && byteAt b 3 == 0 else b.length == 76 && byteAt b 3 == 12

/-- The block of a body. -/
def annBlock (b : List Byte) : List Pair := if bit (byteAt b 2) 0 then silentBlock else pairsOf (b.drop 4) 12

/-- The last block written, again. -/
def SlipBuf.again (b : SlipBuf) : List Pair := b.last.getD silentBlock

/-- A container's block by its gap (R468): after a resynchronisation the next container is taken without a check. -/
def State.annGap (s : State) (seq : Nat) (blk : List Pair) : State :=
  match s.aud.seq with
  | none => ({ s with aud.seq := some seq } : State).slipWrite blk
  | some last =>
    let g := (seq + 131071 - last) % 65536
    if g ≤ 3 then
      let s1 := (List.range g).foldl (fun s _ => s.slipWrite s.aud.slip.again) s
      ({ s1 with aud := { s1.aud with seq := some seq, conceal := satTo (2 ^ 32 - 1) (s1.aud.conceal + g) } } : State).slipWrite blk
    else if g < 32768 then
      { s with aud := { s.aud with
          seq := none, resync := satInc 65535 s.aud.resync, slip := { s.aud.slip with blocks := [], filling := true } } }
    else { s with aud.stale := satInc 65535 s.aud.stale }

/-- AUDIO_CONTAINER (R468): while PD_AUD is off nothing of it is kept (R483). -/
def execAudioContainer (lane : Fin 2) (bytes : List Byte) (s : State) : Out :=
  tribRow lane bytes s (· == 1) fun s _ b =>
    if !annOk b then s.countDs lane fun n => { n with tribCrc := inc32 n.tribCrc }
    else if !s.domOn dAUD then s
    else ({ s with aud.tribRx := inc32 s.aud.tribRx } : State).annGap (beAt b 0 2) (annBlock b)

/-! ### TPS containers (R478 to R481) -/

/-- The bits of bytes in line order. -/
def lineBits (bs : List Byte) : List Bool := bs.flatMap fun b => (List.range 8).map fun i => bit b.toNat (7 - i)

/-- Bytes of bits in line order, the last one filled up with zeros. -/
def lineBytes : Nat → List Bool → List Byte
  | 0, _ => []
  | n + 1, bs => BitVec.ofNat 8 ((List.range 8).foldl (fun a i => 2 * a + b2n (bs.getD i false)) 0) :: lineBytes n (bs.drop 8)

/-- Data bytes of a container of N nominal bits. -/
def tpsBytes (n : Nat) : Nat := (n + 8) / 8

/-- The majority of three bits. -/
def majority (a b c : Bool) : Bool := (a && b) || (a && c) || (b && c)

/-- The decided `JC` and whether the copies disagree (R479). -/
def jcOf (v : Nat) : Nat × Bool :=
  let one (lo : Nat) : Bool := majority (bit v (lo + 6)) (bit v (lo + 4)) (bit v (lo + 2))
  (2 * b2n (one 1) + b2n (one 0), bits v 6 2 != bits v 4 2 || bits v 4 2 != bits v 2 2)

/-- The bits a container carries: N, N + 1 or N − 1 by its code (R479). -/
def tpsData (n code : Nat) (b : List Byte) : List Bool :=
  (lineBits (b.drop 2)).take (if code = 1 then n + 1 else if code = 2 then n - 1 else n)

/-- The remote indication after a valid container (R481). -/
def State.tpsRemote (s : State) (n : Fin 2) (tri : Bool) : State :=
  let x := s.tpsPort n
  if tri = x.remote then s.modTps n fun y => { y with triRun := 0 }
  else if x.triRun < 2 then s.modTps n fun y => { y with triRun := y.triRun + 1 }
  else (s.modTps n fun y => { y with remote := tri, triRun := 0 }).raise (Fin.ofNat 256 (0xAA + n.val)) (BitVec.ofNat 32 (b2n tri))

/-- The counts of a valid container (R479, R481); `missed` frames before it are made up for. -/
def Tps.count (x : Tps) (seq missed : Nat) (jc : Nat × Bool) : Tps :=
  { x with
    got := true, misses := 0, good := x.good + 1, seqIn := some seq, rxOk := inc32 x.rxOk
    lost := satTo (2 ^ 32 - 1) (x.lost + missed)
    jcInv := if jc.1 = 3 then inc32 x.jcInv else x.jcInv
    jcMinor := if jc.1 ≠ 3 ∧ jc.2 then inc32 x.jcMinor else x.jcMinor }

/-- The data of a valid container into the destuffer of an open port without defect. -/
def Tps.fill (x : Tps) (n missed : Nat) (data : List Bool) : Tps :=
  if !x.open_ || x.defect then x else (x.push n (List.replicate (n * missed) true)).push n data

/-- A valid container (R481). -/
def State.tpsTake (s : State) (p : Fin 2) (b : List Byte) : State :=
  let n := s.tpsNDown p
  let v := byteAt b 0
  let jc := jcOf v
  let missed := if 1 ≤ (s.tpsPort p).misses ∧ (s.tpsPort p).misses ≤ 2 then (s.tpsPort p).misses else 0
  let s1 := (s.modTps p fun x => x.count (byteAt b 1) missed jc).tpsRemote p (bit v 1)
  let s2 := if 8 ≤ (s1.tpsPort p).good then s1.tpsDefect p false else s1
  s2.modTps p fun x =>
    if bit v 0 then { x.flush with tais := true }
    else ({ x with tais := false } : Tps).fill n missed (tpsData n jc.1 b)

/-- TPS_CONTAINER (R481): a container of another length, and one with the last `TSEQ`, leaves the frame a miss;
while PD_AUD is off no sequence is kept (R483). -/
def execTpsContainer (lane : Fin 2) (bytes : List Byte) (s : State) : Out :=
  tribRow lane bytes s (fun t => t == 2 || t == 3) fun s t b =>
    let p : Fin 2 := Fin.ofNat 2 (t - 2)
    if b.length ≠ 2 + tpsBytes (s.tpsNDown p) ∨ (s.tpsPort p).seqIn = some (byteAt b 1) then s else
    let s1 := s.tpsTake p b
    if s.domOn dAUD then s1 else s1.modTps p fun x => { x with seqIn := none }

/-! ### Upstream containers (R462, R472, R478, R480) -/

/-- The input sends no samples: unlocked, or not PCM (R465, R466). -/
def Aud.inputDef (x : Aud) : Bool := !x.lock || x.nonPcm

/-- The body of an upstream audio container, without `TCRC` (Table 19.5). -/
def State.audBody (s : State) : List Byte :=
  let x := s.aud
  let silent := x.inputDef || (s.port 2).st == .muted
  let ps := if silent then [] else x.fifo.take 32
  beBytes 2 x.seqOut ++ leBytes 1 (b2n silent + 2 * b2n x.inputDef + 4 * b2n x.vfill) ++ leBytes 1 ps.length ++ leBytes 1 x.fs
    ++ field x.cs 0 5 ++ [0, 0] ++ ps.flatMap fun p => sampleBytes p.1 ++ sampleBytes p.2

/-- The audio container of a close tick; a close without `UP` is missed. -/
def State.closeAudio (s : State) : State :=
  if (s.port 2).st = .closed then s else
  match s.aud.up[(0 : Fin 3)] with
  | some t =>
    if !t.up then { s with aud.upSkip := satInc 65535 s.aud.upSkip } else
    let body := s.audBody
    let sent := byteAt body 3
    let rest := if sent = 0 then [] else s.aud.fifo.drop sent
    ({ s with aud := { s.aud with seqOut := (s.aud.seqOut + 1) % 65536, fifo := rest, vfill := false } } : State).mapTrib t.queue 1 body
  | none => { s with aud.upSkip := satInc 65535 s.aud.upSkip }

/-- The schedule of a TPS port at a close tick (R482). -/
def State.tpsDue (s : State) (p : Fin 2) : State :=
  let due (t : Option Nat) : Bool := match t with | some v => v ≤ s.ttNs | none => false
  let x := s.tpsPort p
  if !s.domOn dAUD then s
  else if due x.openAt then s.openTps p false
  else if x.openAt.isNone && due x.closeAt then s.closeTps p
  else s

/-- The justification code for F bits held (R480). -/
def jcFor (n f : Nat) : Nat := if n + 2 + n ≤ f then 1 else if f < n + 2 then 2 else 0

/-- What the mapper closes: the code, `TAIS`, the bits sent, and the port after it. -/
def Tps.close (x : Tps) (n : Nat) : Nat × Bool × List Bool × Tps :=
  let go := x.open_ && (x.rxGo || n + 2 ≤ x.rx.length)
  let y : Tps := { x with rxGo := go, seqOut := (x.seqOut + 1) % 256, sent := inc32 x.sent }
  if !go then (0, true, List.replicate n true, y) else
  let c := jcFor n x.rx.length
  let k := if c = 1 then n + 1 else if c = 2 then n - 1 else n
  (c, false, x.rx.take k ++ List.replicate (k - x.rx.length) true, { y with rx := x.rx.drop k })

/-- A container's body without `TCRC` (Table 19.7). -/
def tpsBody (n seq code : Nat) (tri tais : Bool) (data : List Bool) : List Byte :=
  leBytes 1 (84 * code + 2 * b2n tri + b2n tais) ++ leBytes 1 seq ++ lineBytes (tpsBytes n) data

/-- The TPS container of a close tick. -/
def State.closeTpsFrame (s : State) (p : Fin 2) : State :=
  let s1 := s.tpsDue p
  match s1.aud.up[tribOf p] with
  | some t =>
    if !t.up then s1 else
    let n := bitsOfRate t.rate
    let x := s1.tpsPort p
    let (code, tais, data, y) := x.close n
    (s1.modTps p fun _ => y).mapTrib t.queue (p.val + 2) (tpsBody n x.seqOut code x.defect tais data)
  | none => s1

/-- The configuration received applies upstream from a tributary's close tick (R461); a changed rate re-centres the
mapper of an open port. -/
def State.tribApply (s : State) (i : Fin 3) : State :=
  let old := (s.aud.up[i]).map Trib.rate
  let s1 : State := { s with aud.up := s.aud.up.set i s.aud.cfg[i] }
  if i = 0 ∨ old = (s1.aud.up[i]).map Trib.rate then s1 else
  s1.modTps (Fin.ofNat 2 (i.val - 1)) fun x => if x.open_ then { x with rx := [], rxGo := false, slip := inc32 x.slip } else x

/-- UPSTREAM_TRIB_CLOSE (R462). -/
def execUpstreamTribClose (ttype : Byte) (s : State) : Out :=
  .next <|
    let t := ttype.toNat
    if t = 0 ∨ 3 < t ∨ !s.domOn dFRM ∨ !s.domOn dPKT then s else
    let s1 := s.tribApply (Fin.ofNat 3 (t - 1))
    if t = 1 then s1.closeAudio else s1.closeTpsFrame (Fin.ofNat 2 (t - 2))

/-! ### TPS lines (R476, R480) -/

/-- TPS_RXD_BIT (R476): the majority of samples 7, 8 and 9 of a bit period into the mapper; a full mapper
re-centres. -/
def execTpsRxdBit (port : Fin 2) (samples : BitVec 3) (s : State) : Out :=
  .next <|
    if !s.domOn dAUD ∨ !(s.tpsPort port).open_ then s else
    s.modTps port fun x =>
      if 4 * s.tpsN port + 64 ≤ x.rx.length then { x with rx := [], rxGo := false, slip := inc32 x.slip }
      else { x with rx := x.rx ++ [majority samples[0] samples[1] samples[2]] }

/-- Sample ticks of the coming bit for a fill (R480). -/
def bitTicks (n f : Nat) : Nat := if 3 * n + 12 < f then 15 else if f + n + 4 < 2 * n + 8 then 17 else 16

/-- TPS_TXD_BIT_START (R480). -/
def execTpsTxdBitStart (port : Fin 2) (s : State) : Out :=
  .next <|
    let x := s.tpsPort port
    if !s.domOn dAUD ∨ !x.open_ ∨ !x.txGo then s else
    match x.tx with
    | [] => s.modTps port Tps.recentre
    | b :: rest =>
      let k := bitTicks (s.tpsNDown port) x.tx.length
      (s.modTps port fun y => { y with tx := rest, leak := if k = 16 then y.leak else inc32 y.leak }).emit (.tps port b k)

/-! ### Outputs (R465, R469, R470, R473) -/

/-- The sampling-frequency code of IEC 60958-3, least significant bit first transmitted. -/
def iecFs (code : Nat) : Nat := [3, 0, 2, 8, 10].getD code 0

/-- The word-length code of IEC 60958-3. -/
def iecWord (bits : Nat) : Nat := if bits = 16 then 2 else if bits = 20 then 10 else 11

/-- The channel status of a channel (R465), bytes 0 to 4; the rest are zero. -/
def channelStatus (c : AudioCfg) (fs channel : Nat) : List Byte :=
  leBytes 1 (4 * b2n c.copyOk) ++ [c.category] ++ leBytes 1 (16 * channel) ++ leBytes 1 (iecFs fs + 16) ++ leBytes 1 (iecWord c.word)

/-- A sample reduced to a word length, as 24 bits (R470). -/
def wordOf (w : Nat) (v : Int) : Nat := ((v / 2 ^ (24 - w) * 2 ^ (24 - w)) % 2 ^ 24).toNat

/-- Time slots 4 to 31 of a subframe: the word, V, U = 0, C and even parity. -/
def subframe (word : Nat) (v c : Bool) : BitVec 28 :=
  let x := word + 2 ^ 24 * b2n v + 2 ^ 26 * b2n c
  let ones := ((List.range 27).filter fun i => bit x i).length
  BitVec.ofNat 28 (x + 2 ^ 27 * (ones % 2))

/-- The pair a source supplies; none without content. -/
def State.sourcePair (s : State) (x : APort) : Option Pair :=
  let b := if x.cfg.monitor then s.aud.mon else s.aud.slip
  b.play.bind fun blk => blk[x.pos]?

/-- A pair through a port's gates: what leaves, and the port after it. -/
def APort.gate (x : APort) (r : Nat) (p : Pair) : Pair × APort :=
  let a := (x.gates[0]).step r x.prev[0] p.1
  let b := (x.gates[1]).step r x.prev[1] p.2
  ((a.1, b.1), { x with gates := (x.gates.set 0 a.2).set 1 b.2, prev := (x.prev.set 0 p.1).set 1 p.2 })

/-- The frame an output sends at a sample boundary. -/
def State.outSample (s : State) (port : Fin 2) : State :=
  let p : Fin 3 := Fin.ofNat 3 port.val
  let x := s.port p
  let src := s.sourcePair x
  let (o, y) := x.gate (rampLen s.aud.fs) (src.getD (0, 0))
  let v := src.isNone && x.st != .muted
  let status (ch : Nat) : Bool := bit (byteAt (channelStatus x.cfg s.aud.fs ch) (x.frame / 8)) (x.frame % 8)
  let s1 := s.emit (.audio port (x.frame == 0) (subframe (wordOf x.cfg.word o.1) v (status 1))
    (subframe (wordOf x.cfg.word o.2) v (status 2)))
  (s1.modPort p fun _ => { y with pos := x.pos + 1, frame := (x.frame + 1) % 192 }).gateDone p

/-! ### The input (R466, R472) -/

/-- A received sample: with a parity error the previous one of its channel, with V = 1 zero. -/
def inSample (prev v : Int) (parity invalid : Bool) : Int := if parity then prev else if invalid then 0 else v

/-- A pair joins the monitor block. -/
def State.monSample (s : State) (p : Pair) : State :=
  let blk := s.aud.monIn ++ [p]
  if blk.length < blockLen s.aud.fs then { s with aud.monIn := blk }
  else ({ s with aud.monIn := [] } : State).monWrite blk

/-- A gated pair joins the input FIFO of 64 pairs. -/
def State.fifoPut (s : State) (p : Pair) : State :=
  if s.aud.fifo.length < 64 then { s with aud.fifo := s.aud.fifo ++ [p] }
  else { s with aud := { s.aud with fifo := s.aud.fifo.drop 1 ++ [p], inOvf := satInc 65535 s.aud.inOvf } }

/-- A pair received on `AUD_IN`. -/
def State.inPair (s : State) (bytes : List Byte) (parity invalid : BitVec 2) : State :=
  let x := s.port 2
  let zeroed (c : Fin 2) : Bool := invalid[c] && !parity[c]
  let one (c : Fin 2) (v : Int) : Int := inSample x.prev[c] v parity[c] invalid[c]
  let raw : Pair := (one 0 (sampleOf bytes 0), one 1 (sampleOf bytes 3))
  let (o, y) := x.gate (rampLen s.aud.fs) raw
  let nv := b2n (zeroed 0) + b2n (zeroed 1)
  let s1 := s.modPort 2 fun _ => y
  let s2 : State := { s1 with aud := { s1.aud with
    inParity := satTo (2 ^ 32 - 1) (s1.aud.inParity + b2n parity[(0 : Fin 2)] + b2n parity[(1 : Fin 2)])
    inVfill := satTo (2 ^ 32 - 1) (s1.aud.inVfill + nv), vfill := s1.aud.vfill || nv != 0 } }
  let s3 := s2.monSample raw
  if x.st = .closed then s3 else (s3.fifoPut o).gateDone 2

/-- A sample boundary of an input without lock: nothing is received, and the gate sees silence (log entry 1921). -/
def State.noPair (s : State) : State :=
  let x := s.port 2
  if x.st = .closed then s else (s.modPort 2 fun _ => (x.gate (rampLen s.aud.fs) (0, 0)).2).gateDone 2

/-- SAMPLE_BOUNDARY (R473): a frame leaves an output that is not CLOSED, or a pair comes in at a locked input. -/
def execSampleBoundary (port : Fin 3) (pair : List Byte) (parity invalid : BitVec 2) (s : State) : Out :=
  .next <|
    if !s.domOn dAUD then s
    else if port = 2 then (if s.aud.lock then s.inPair pair parity invalid else s.noPair)
    else if (s.port port).st = .closed then s
    else s.outSample (Fin.ofNat 2 port.val)

/-- The first pair of the block now played comes next at every output of a source. -/
def State.blockStarts (s : State) (monitor : Bool) : State :=
  [0, 1].foldl (fun s (p : Fin 3) => s.modPort p fun x => if x.cfg.monitor = monitor then { x with pos := 0 } else x) s

/-- The announcement buffer at a block boundary (R469): with no tributary configured a drained buffer is as
emptied, and no slip. -/
def State.slipRead (s : State) : SlipBuf × Bool :=
  if s.aud.slip.blocks.isEmpty && (s.aud.down[(0 : Fin 3)]).isNone then ({ s.aud.slip with filling := true, play := none }, false)
  else s.aud.slip.read

/-- AUDIO_BLOCK_BOUNDARY (R469). -/
def execAudioBlockBoundary (monitor : Bool) (s : State) : Out :=
  .next <|
    if !s.domOn dAUD then s else
    let (b, again) := if monitor then s.aud.mon.read else s.slipRead
    let s1 : State := if monitor then
        { s with aud := { s.aud with mon := b, monSlip := if again then satInc 65535 s.aud.monSlip else s.aud.monSlip } }
      else
        let s2 : State := { s with aud := { s.aud with slip := b, slipRep := if again then inc32 s.aud.slipRep else s.aud.slipRep } }
        if again then s2.raise 0xA0 0 else s2
    s1.blockStarts monitor

/-- AUDIO_START_BOUNDARY (R474). -/
def execAudioStartBoundary (port : Fin 3) (s : State) : Out :=
  .next <| match (s.port port).start with
    | some tt => if s.domOn dAUD then (s.reachTt (s.portTt port tt)).startPort port false else s
    | none => s

/-- AUDIO_STOP_BOUNDARY (R474): a window's stop follows its start. -/
def execAudioStopBoundary (port : Fin 3) (s : State) : Out :=
  .next <| State.retryAuto <| match (s.port port).start, (s.port port).stop with
    | none, some tt => if s.domOn dAUD then (s.reachTt (s.portTt port tt)).stopPort port else s
    | _, _ => s

/-- GATE_TIMEOUT (R473). -/
def execGateTimeout (port : Fin 3) (s : State) : Out :=
  .next <| match (s.port port).gateBy with
    | some d => (s.reach d).gateTimeout port
    | none => s

/-- The input may lock (R466): two B preambles `apart` frames from each other, at a frame rate `ppm` off fs. -/
def inputLockMet (apart : Nat) (ppm : Int) : Bool := apart == 192 && ppm.natAbs ≤ 1000

/-- The input loses lock (R466): `bad` preambles of the last 192 frames, or a rate `ppm` off fs for `ns`. -/
def inputLossMet (bad : Nat) (ppm : Int) (ns : Nat) : Bool := 8 ≤ bad || (2000 < ppm.natAbs && 10000000 ≤ ns)

/-- AUDIO_INPUT_LOCK (R466). -/
def execAudioInputLock (apart : Nat) (ppm : Int) (s : State) : Out :=
  .next (if s.domOn dAUD && inputLockMet apart ppm then { s with aud.lock := true } else s)

/-- AUDIO_INPUT_LOSS (R466). -/
def execAudioInputLoss (bad : Nat) (ppm : Int) (ns : Nat) (s : State) : Out :=
  .next (if inputLossMet bad ppm ns then { s with aud.lock := false } else s)

/-- AUDIO_INPUT_BLOCK (R465, R466): bytes 0 to 4 of a complete block's channel status. -/
def execAudioInputBlock (cs : List Byte) (s : State) : Out :=
  .next <|
    if !s.domOn dAUD ∨ !s.aud.lock then s else
    let wrong := byteAt cs 3 % 16 != iecFs s.aud.fs
    { s with aud := { s.aud with
        cs := field cs 0 5, nonPcm := byteAt cs 0 % 4 != 0
        inFscode := if wrong then satInc 65535 s.aud.inFscode else s.aud.inFscode } }

/-! ### The AUDIO commands (R463, R472, R474, R484) -/

/-- A port state's code (Table 19.10). -/
def AState.code : AState → Nat
  | .closed => 0 | .muted => 1 | .opening => 2 | .playing => 3 | .closing => 4

/-- The 48 bytes of `AUDIO.STATUS` (Table 19.10). -/
def State.audioStatus (s : State) : List Byte :=
  let x := s.aud
  leBytes 1 x.fs ++ leBytes 1 x.slip.blocks.length ++ (x.ports.toList.map fun p => BitVec.ofNat 8 p.st.code)
    ++ leBytes 1 (b2n x.lock + 2 * b2n x.nonPcm + 4 * b2n x.inputDef) ++ leBytes 2 x.ramps ++ leBytes 4 x.slipRep
    ++ leBytes 4 x.slipDrop ++ leBytes 4 x.conceal ++ leBytes 2 x.resync ++ leBytes 2 x.stale ++ leBytes 4 x.tribRx
    ++ leBytes 2 x.schedLost ++ leBytes 2 x.monSlip ++ leBytes 4 x.inParity ++ leBytes 4 x.inVfill ++ leBytes 2 x.inFscode
    ++ leBytes 2 x.inOvf ++ leBytes 2 x.upSkip ++ leBytes 2 x.tribDeny

/-- The counters of Table 19.10 cleared. -/
def Aud.clear (x : Aud) : Aud :=
  { x with
    ramps := 0, slipRep := 0, slipDrop := 0, conceal := 0, resync := 0, stale := 0, tribRx := 0, schedLost := 0, monSlip := 0
    inParity := 0, inVfill := 0, inFscode := 0, inOvf := 0, upSkip := 0, tribDeny := 0 }

/-- AUDIO_STATUS. -/
def execAudioStatus (t : Ten) (n : SlotIx) (s : State) : Out :=
  command 0x1001 [(0, 1)] t n s fun s =>
    let f := s.prm1 t n 0
    s.guard t n [(1 < f, Status.param)] fun s =>
      let r := s.audioStatus
      (if bit f 0 then { s with aud := s.aud.clear } else s).answer t n r

/-- AUDIO_CONFIG (R463, R484): the monitor starts anew at a new sampling frequency. -/
def execAudioConfig (t : Ten) (n : SlotIx) (s : State) : Out :=
  command 0x1002 [(0, 2)] t n s fun s =>
    let code := s.prm1 t n 0
    let f := s.prm1 t n 1
    s.guard t n [(4 < code || 1 < f, Status.param), (s.aud.ports.toList.any (fun x => x.st != .closed), Status.state),
                 (bit f 0 && s.configBusy, Status.regionBusy)] fun s =>
      let s1 : State := { s with aud := { s.aud with fs := code, mon := {}, monIn := [] } }
      (if bit f 0 then ({ s1 with store.fs := some code } : State).persisted else s1).done t n Status.ok

/-- The settings of an `AUDIO.PORT`. -/
def State.portCfg (s : State) (t : Ten) (n : SlotIx) : AudioCfg :=
  let f := s.prm1 t n 4
  { word := if s.prm1 t n 0 = 2 then 24 else s.prm1 t n 1, monitor := s.prm1 t n 2 == 1, gateMs := s.prm1 t n 3, copyOk := bit f 0
    category := (s.params t n).getD 5 0 }

/-- The parameters of an `AUDIO.PORT` lie in their ranges. -/
def State.portPrmOk (s : State) (t : Ten) (n : SlotIx) : Bool :=
  let b := s.prm1 t n 0
  let w := s.prm1 t n 1
  let src := s.prm1 t n 2
  b ≤ 2 && (if b = 2 then w == 0 && src == 0 else (w == 16 || w == 20 || w == 24) && src ≤ 1)
    && within 1 100 (s.prm1 t n 3) && s.prm1 t n 4 ≤ 3

/-- The lease of an audio port (R463): a port outside the table has none. -/
def State.portLease (s : State) (t : Ten) (n : SlotIx) (b : Nat) : Bool := b ≤ 2 && !s.leasedAt t n (b + 1)

/-- AUDIO_PORT (R463, R484). -/
def execAudioPort (t : Ten) (n : SlotIx) (s : State) : Out :=
  commandBy 0x1003 t n s fun s =>
    let b := s.prm1 t n 0
    let p : Fin 3 := Fin.ofNat 3 b
    let keep := bit (s.prm1 t n 4) 1
    s.guard t n [(s.portLease t n b, Status.lease), (!s.portPrmOk t n || s.stray t n [(0, 6)], Status.param),
                 ((s.port p).st != .closed, Status.state), (keep && s.configBusy, Status.regionBusy)] fun s =>
      let c := s.portCfg t n
      let s1 := s.modPort p fun x => { x with cfg := c }
      (if keep then ({ s1 with store.audio := s1.store.audio.set p (some c) } : State).persisted else s1).done t n Status.ok

/-- A CLOSED port may open: the input with `UP` (R472), an output of the tributary at 48 kHz only (R463). -/
def State.mayOpen (s : State) (p : Fin 3) : Bool :=
  if p = 2 then (s.aud.cfg[(0 : Fin 3)]).any (·.up) else (s.port p).cfg.monitor || s.aud.fs == 2

/-- A port opened to MUTED; the phase of its sample boundaries is a free value. -/
def State.openPort (s : State) (p : Fin 3) : State :=
  let phase := s.freeVal % (10 ^ 9 / fsHz s.aud.fs)
  s.freed.modPort p fun x => { ({} : APort) with cfg := x.cfg, st := .muted, phase := phase, late := x.late }

/-- Work for PD_AUD: while the domain is off it is switched on, and the command's work starts when the wake completes
(R56); the command stays in service, and its row is looked at again then (log entry 319). -/
def State.withAud (s : State) (k : State → State) : State :=
  if s.dom dAUD = .off then s.wakeDomains [dAUD] else k s

/-- AUDIO_OPEN (R463, R475): a port that is not CLOSED stays as it is. -/
def execAudioOpen (t : Ten) (n : SlotIx) (s : State) : Out :=
  commandBy 0x1004 t n s fun s => State.retryAuto <|
    let b := s.prm1 t n 0
    let op := s.prm1 t n 1
    let p : Fin 3 := Fin.ofNat 3 b
    let closed := (s.port p).st == .closed
    s.guard t n [(s.portLease t n b, Status.lease), (2 < b || 1 < op || s.stray t n [(0, 2)], Status.param),
                 (op == 1 && closed && !s.mayOpen p, Status.state)] fun s =>
      let reply (s : State) : State := s.answer t n (leBytes 1 (s.port p).st.code)
      if op = 0 then reply (s.closePort p) else if closed then s.withAud fun s => reply (s.openPort p) else reply s

/-- Bytes a schedule command uses, by what it asks for. -/
def schedUsed (what : Nat) : List (Nat × Nat) :=
  match what with
  | 0 => [(0, 2), (8, 16)]
  | 1 => [(0, 2), (8, 8)]
  | 2 => [(0, 2), (16, 8)]
  | _ => [(0, 2)]

/-- A start or a window of an audio port taken (Table 19.6). -/
def State.armPort (s : State) (t : Ten) (n : SlotIx) (p : Fin 3) (start : Nat) (stop : Option Nat) : State :=
  let s1 := s.modPort p fun x => { x with start := some start, stop := stop }
  if s.portTt p start ≤ s.ttNs then (s1.startPort p false).answer t n [0x80] else s1.answer t n [0]

/-- A stop of an audio port (Table 19.6). -/
def State.haltPort (s : State) (t : Ten) (n : SlotIx) (p : Fin 3) (stop : Nat) : State :=
  let x := s.port p
  if x.start.isSome || x.startDue then
    ((s.modPort p fun y => { y with start := none, stop := none, startDue := false }).raise 0xA3 (portData p)).answer t n [2]
  else if x.st = .muted ∨ x.st = .closing then s.answer t n [3]
  else if s.portTt p stop ≤ s.ttNs then (s.stopPort p).answer t n [3]
  else (s.modPort p fun y => { y with stop := some stop }).answer t n [0]

/-- A window or a start of an audio port (Table 19.6). -/
def State.schedStart (s : State) (t : Ten) (n : SlotIx) (p : Fin 3) (start : Nat) (stop : Option Nat) : State :=
  let x := s.port p
  let same := stop.any fun v => s.portTt p start == s.portTt p v
  let far (v : Nat) : Bool := s.ttNs + cmpReach < v
  if stop.any (· < start) then s.done t n Status.order
  else if same then (s.raise 0xA3 (portData p)).answer t n [2]
  else s.guard t n [(x.start.isSome || x.startDue || x.st == .opening || x.st == .playing, Status.busy),
      (stop.any (fun v => s.portTt p v ≤ s.ttNs), Status.state), (far start || stop.any far, Status.tooFar)] fun s =>
    s.armPort t n p start stop

/-- AUDIO_SCHEDULE (R474). -/
def execAudioSchedule (t : Ten) (n : SlotIx) (s : State) : Out :=
  commandBy 0x1005 t n s fun s =>
    let b := s.prm1 t n 0
    let what := s.prm1 t n 1
    let p : Fin 3 := Fin.ofNat 3 b
    let start := s.prm t n 8 8
    let stop := s.prm t n 16 8
    let x := s.port p
    s.guard t n [(s.portLease t n b, Status.lease), (2 < b || 3 < what || s.stray t n (schedUsed what), Status.param),
                 (x.st == .closed || x.shutting, Status.state)] fun s =>
      match what with
      | 0 => s.schedStart t n p start (some stop)
      | 1 => s.schedStart t n p start none
      | 2 =>
        if x.start.isNone && !x.startDue && s.ttNs + cmpReach < stop then s.done t n Status.tooFar else s.haltPort t n p stop
      | _ => s.haltPort t n p s.ttNs

/-! ### The TPS commands (R482, R484) -/

/-- The 40 bytes of `TPS.STATUS` (Table 19.11). -/
def State.tpsStatus (s : State) (p : Fin 2) : List Byte :=
  let x := s.tpsPort p
  let c := s.aud.cfg[tribOf p]
  leBytes 1 p.val ++ leBytes 1 (b2n x.open_)
    ++ leBytes 1 (b2n x.defect + 2 * b2n x.remote + 4 * b2n x.defect + 8 * b2n x.tais + 16 * b2n x.txGo + 32 * b2n c.isSome)
    ++ [0] ++ leBytes 2 (s.tpsN p) ++ leBytes 2 ((c.map Trib.rate).getD 0) ++ leBytes 2 x.tx.length ++ leBytes 2 x.rx.length
    ++ leBytes 4 x.rxOk ++ leBytes 4 x.sent ++ leBytes 4 x.jcInv ++ leBytes 4 x.jcMinor ++ leBytes 4 x.lost ++ leBytes 4 x.slip
    ++ leBytes 4 x.leak

/-- The counters of Table 19.11 cleared. -/
def Tps.clear (x : Tps) : Tps := { x with rxOk := 0, sent := 0, jcInv := 0, jcMinor := 0, lost := 0, slip := 0, leak := 0 }

/-- TPS_STATUS. -/
def execTpsStatus (t : Ten) (n : SlotIx) (s : State) : Out :=
  command 0x1101 [(0, 2)] t n s fun s =>
    let b := s.prm1 t n 0
    let f := s.prm1 t n 1
    let p : Fin 2 := Fin.ofNat 2 b
    s.guard t n [(1 < b || 1 < f, Status.param)] fun s =>
      let r := s.tpsStatus p
      (if bit f 0 then s.modTps p Tps.clear else s).answer t n r

/-- The close tick a TT converts to, counted from an arbitrary one (R482): the first at or after it. -/
def State.tickNo (s : State) (p : Fin 2) (tt : Nat) : Int :=
  let close := ((s.aud.cfg[tribOf p]).map Trib.close).getD 0
  let base : Int := s.tickAt s.lanes.prot.active s.act.k close
  ((s.now : Int) + tt - s.ttNs - base + 249999) / 250000

/-- Whether a TT's close tick has passed. -/
def State.tickPast (s : State) (p : Fin 2) (tt : Nat) : Bool := decide (s.tickNo p tt < s.tickNo p s.ttNs) || tt == s.ttNs

/-- An opening or a window of a TPS port (R482, Table 19.6). -/
def State.tpsStart (s : State) (t : Ten) (n : SlotIx) (p : Fin 2) (start : Nat) (stop : Option Nat) : State :=
  let x := s.tpsPort p
  let far (v : Nat) : Bool := s.ttNs + cmpReach < v
  let past (v : Nat) : Bool := s.tickPast p v
  if stop.any (· < start) then s.done t n Status.order
  else if stop.any fun v => decide (s.tickNo p start = s.tickNo p v) then s.answer t n [2]
  else s.guard t n [(x.openAt.isSome || x.open_, Status.busy), (stop.any past, Status.state),
      (far start || stop.any far, Status.tooFar)] fun s => s.withAud fun s =>
    let s1 := s.modTps p fun y => { y with openAt := some start, closeAt := stop }
    if past start then (s1.openTps p false).answer t n [0x80] else s1.answer t n [0]

/-- A closing of a TPS port. -/
def State.tpsHalt (s : State) (t : Ten) (n : SlotIx) (p : Fin 2) (stop : Nat) : State :=
  let x := s.tpsPort p
  if x.openAt.isSome then (s.modTps p fun y => { y with openAt := none, closeAt := none }).answer t n [2]
  else if !x.open_ then s.answer t n [3]
  else if s.tickPast p stop then (s.closeTps p).answer t n [3]
  else (s.modTps p fun y => { y with closeAt := some stop }).answer t n [0]

/-- The tributary of a port is configured in both directions (R482). -/
def State.tpsBoth (s : State) (p : Fin 2) : Bool := (s.aud.cfg[tribOf p]).any fun c => c.down && c.up

/-- TPS_SCHEDULE (R482). -/
def execTpsSchedule (t : Ten) (n : SlotIx) (s : State) : Out :=
  commandBy 0x1102 t n s fun s => State.retryAuto <|
    let b := s.prm1 t n 0
    let what := s.prm1 t n 1
    let p : Fin 2 := Fin.ofNat 2 b
    let start := s.prm t n 8 8
    let stop := s.prm t n 16 8
    s.guard t n [(b ≤ 1 && !s.leasedAt t n (b + 4), Status.lease), (1 < b || 3 < what || s.stray t n (schedUsed what), Status.param),
                 (what ≤ 1 && !s.tpsBoth p, Status.state)] fun s =>
      match what with
      | 0 => s.tpsStart t n p start (some stop)
      | 1 => s.tpsStart t n p start none
      | 2 =>
        if (s.tpsPort p).openAt.isNone && s.ttNs + cmpReach < stop then s.done t n Status.tooFar else s.tpsHalt t n p stop
      | _ => s.tpsHalt t n p s.ttNs

end Sys2Proof.Machine
end

