-- ==== Sys2Proof/Machine/Mailbox.lean ====
section
/-!
DEFINITION. The accesses to a window (R107 to R119), command start, time-out and abort (R125 to
R130), and core restarts (R90, R131).
-/

namespace Sys2Proof.Machine

/-! ### Window accesses -/

/-- A write through an access: an SPI port posts it (R114); in-band and owner writes take effect at once. -/
def State.viaWrite (s : State) (via : Via) (off : Nat) (data : List Byte) : State :=
  match via with
  | .spi p => s.spiWrite p off data
  | _ => match s.tenOf via with
    | some t => s.writeWindow t off (data.take (0x1000 - off))
    | none => s

/-- A read through an access. The bytes leave the terminal. -/
def State.viaRead (s : State) (via : Via) (off len : Nat) : State :=
  match via with
  | .spi p => s.spiRead p off len (s.waitBytes off len)
  | _ =>
    let (bs, s1) := readWindow s via off len
    s1.emit (.read via bs)

/-- Whether an access is answered: an SPI port answers from PD_CTL's logic step on (R96). -/
def State.answers (s : State) : Via → Bool
  | .spi p => s.spiAlive p
  | _ => s.boot.mbxReady

/-- The status read 0xA5 (R116): the port status byte and `MBX_STATUS` from hardware; the only side effect
is the release of the R96 notice. Recovery does not serve it (R102). -/
def State.spiStatus (s : State) (port : Fin 4) : State :=
  if s.boot.phase = .recovery then s else
  let pt := s.mbx.ports[port]
  let st := match s.tenOfPort port with
    | some t => mbxStatus s.boot.mbxReady (s.ten t)
    | none => b2n s.boot.mbxReady * 2 ^ 31
  let byte := statusByte s (s.tirqLow port) (pt.buf != []) port.val
  let s1 := s.emit (.read (.spi port) (BitVec.ofNat 8 byte :: leBytes 4 st))
  let s2 := { s1 with mbx.ports := s1.mbx.ports.set port { pt with notice := false, waiting := none } }
  match s.tenOfPort port with
  | some t => s2.modTen t fun x => { x with notice := false }
  | none => s2

/-- What the opcode byte of an SPI transaction asks for (Table 5.2): a window read, a window write or a status read,
single-bit or quad. -/
inductive SpiOp where
  | read | write | status
deriving DecidableEq, Repr

/-- Table 5.2; none for any other opcode byte. -/
def spiOp (b : Byte) : Option SpiOp :=
  if b = 0xA1 ∨ b = 0xE1 then some .read else if b = 0xA2 ∨ b = 0xE2 then some .write
  else if b = 0xA5 ∨ b = 0xE5 then some .status else none

/-- An SPI transaction from the fall of `SPIn_CS_N` to its rise (R112, R113): the whole bytes the host sent, and how many
more it clocked. One with an unknown opcode byte, or without its address, has no effect, and a read that ends before its
token returns wait bytes alone. -/
def State.spiTransaction (s : State) (p : Fin 4) (sent : List Byte) (clocks : Nat) : State :=
  match sent with
  | [] => s
  | op :: rest =>
    match spiOp op with
    | none => s
    | some .status => s.spiStatus p
    | some .write => match rest with
      | hi :: lo :: data => s.spiWrite p (256 * hi.toNat + lo.toNat) data
      | _ => s
    | some .read => match rest with
      | hi :: lo :: _ =>
        let off := 256 * hi.toNat + lo.toNat
        let wait := s.waitBytes off (clocks - 2)
        if clocks < 2 + wait then (s.freed).emit (.read (.spi p) (List.replicate clocks 0xFF))
        else s.spiRead p off (clocks - 2 - wait) wait
      | _ => s

/-- SPI_STATUS_READ (R112 to R116, Table 5.2): an SPI transaction as its bytes come, the status read 0xA5 among them (log
entry 538). -/
def execSpiStatusRead (port : Fin 4) (sent : List Byte) (clocks : Nat) (s : State) : Out :=
  .next <| if s.spiAlive port then s.spiTransaction port sent clocks else s

/-- MBX_STATUS_READ (R96, R119, R176). -/
def execMbxStatusRead (via : Via) (s : State) : Out :=
  .next <| if s.answers via then s.viaRead via 0x004 4 else s

/-- MBX_STATUS_CLEAR (R111, Table 5.1). -/
def execMbxStatusClear (via : Via) (value : Word) (s : State) : Out :=
  .next <| if s.answers via then s.viaWrite via 0x004 (leBytes 4 value.toNat) else s

/-- DOORBELL (R122). -/
def execDoorbell (via : Via) (value : Word) (s : State) : Out :=
  .next <| if s.answers via then s.viaWrite via 0x008 (leBytes 4 value.toNat) else s

/-- RESULT_ACK (R122). -/
def execResultAck (via : Via) (value : Word) (s : State) : Out :=
  .next <| if s.answers via then s.viaWrite via 0x00C (leBytes 4 value.toNat) else s

/-- RESULT_SLOT_READ (R123): the 64 bytes of a result slot. -/
def execResultSlotRead (via : Via) (slot : SlotIx) (s : State) : Out :=
  .next <| if s.answers via then s.viaRead via (0x300 + 64 * slot.val) 64 else s

/-- EVT_TAIL (R110). -/
def execEvtTail (via : Via) (value : Word) (s : State) : Out :=
  .next <| if s.answers via then s.viaWrite via 0x018 (leBytes 4 value.toNat) else s

/-- BULK_BASE (R109). -/
def execBulkBase (via : Via) (value : Word) (s : State) : Out :=
  .next <| if s.answers via then s.viaWrite via 0x01C (leBytes 4 value.toNat) else s

/-- HEARTBEAT (R155). -/
def execHeartbeat (via : Via) (value : Word) (s : State) : Out :=
  .next <| if s.answers via then s.viaWrite via 0x020 (leBytes 4 value.toNat) else s

/-- BULK_APERTURE_ACCESS (R109, R113): offsets below 0x900 or beyond 0xFFF are no part of the aperture. -/
def execBulkApertureAccess (via : Via) (access : Aperture) (s : State) : Out :=
  .next <| if !s.answers via then s else
    match access with
    | .read off len => if 0x900 ≤ off then s.viaRead via off len else s
    | .write off data => if 0x900 ≤ off then s.viaWrite via off data else s

/-- REGISTER_WRITE (R108, R114): on an SPI port the bytes are posted; in-band and owner writes take
effect at once. -/
def execRegisterWrite (via : Via) (off : Nat) (data : List Byte) (s : State) : Out :=
  .next <| if s.answers via then s.viaWrite via off data else s

/-- WRITE_BUFFER_DRAIN (R115): the posted runs of the port take effect, but for what waits for the exit from NIGHT. -/
def execWriteBufferDrain (port : Fin 4) (s : State) : Out := .next (s.drainAll port)

/-! ### In-band frames (R117 to R119) -/

/-- A frame dropped and counted at a local lane. -/
def State.ibDrop (s : State) (l : Fin 2) : State :=
  { s with mbx.ibDrops := s.mbx.ibDrops.set l (s.mbx.ibDrops[l] + 1) }

/-- Whether a request frame stands (R117, R143): version, tenant, length, source and tag; and a type Table 5.4 gives requests,
DESIGN CHOICE (log entry 534): a well-tagged frame of another type is dropped and counted, and leaves the last `SEQ`. -/
def State.ibOk (s : State) (l : Fin 2) (src payload : List Byte) (t : Ten) : Bool :=
  let x := s.ten t
  let len := beAt payload 8 2
  let dataLen := if byteAt payload 1 = 0x02 then len else 0
  let body := field payload 0 (10 + dataLen)
  byteAt payload 0 == 1 && byteAt payload 2 == t.val && laneOf x.cfg.transport == some l
    && x.st != .detached && len ≤ 1024 && src == x.ibMac
    && match s.ibKey t with
      | some k => field payload (10 + dataLen) 8 == top64 (Config.cmac k body)
      | none => false

/-- The effect and the response of a request (Table 5.4). DESIGN CHOICE (log entry 535): `LEN` of a write response counts
every byte inside the window, those that a location discards too. -/
def State.ibServe (s : State) (t : Ten) (payload : List Byte) : Option (List Byte × State) :=
  let addr := beAt payload 6 2
  let len := beAt payload 8 2
  let seq := BitVec.ofNat 16 (beAt payload 4 2)
  match s.ibKey t with
  | none => none
  | some k =>
    match byteAt payload 1 with
    | 0x01 =>
      let (bs, s1) := readWindow s (.lane t) addr len
      some (ibFrame 0x81 t seq addr len bs k, s1)
    | 0x02 =>
      let data := (field payload 10 len).take (0x1000 - addr)
      some (ibFrame 0x82 t seq addr data.length [] k, s.writeWindow t addr data)
    | 0x05 => some (ibFrame 0x85 t seq addr 5 (s.noticeBody t) k, s.statusSeen (.lane t))
    | _ => none

/-- INBAND_MBX_FRAME (R117, R118): a repeated `SEQ` is answered again, a later one is executed, any
other is dropped. The key comes from a context loaded for firmware (R378). DESIGN CHOICE (log entry 533): a request whose
`SEQ` is 0 right after attach, when no response is stored yet, is dropped and counted. -/
def execInbandMbxFrame (lane : Fin 2) (src payload : List Byte) (s : State) : Out :=
  .next <|
    let t : Ten := Fin.ofNat 8 (byteAt payload 2)
    if !s.laneLink lane then s
    else if !s.boot.mbxReady || !s.ibOk lane src payload t then s.ibDrop lane else
    let s := s.firmUse (ibEntry t)
    let x := s.ten t
    let seq := BitVec.ofNat 16 (beAt payload 4 2)
    let ahead := (seq - x.ibSeq).toNat
    if ahead = 0 ∧ x.ibResp ≠ [] then s.macSend lane ⟨x.ibMac, 0x88B6, x.ibResp⟩
    else if 1 ≤ ahead ∧ ahead ≤ 32767 then
      match s.ibServe t payload with
      | some (resp, s1) =>
        (s1.modTen t fun y => { y with ibSeq := seq, ibResp := resp }).macSend lane ⟨x.ibMac, 0x88B6, resp⟩
      | none => s.ibDrop lane
    else s.ibDrop lane

/-- NOTICE_FRAME_REPEAT (R119): the frame goes again while the condition holds and the status is unread. -/
def execNoticeFrameRepeat (t : Ten) (s : State) : Out :=
  .next <| match (s.ten t).noticeBy, laneOf (s.ten t).cfg.transport with
    | some d, some _ =>
      let s1 := s.reach d
      if (s1.ten t).irq && !(s1.ten t).statusRead then s1.sendNotice t
      else s1.modTen t fun x => { x with noticeBy := none }
    | _, _ => s

/-! ### Lane attach (R141 to R144) -/

/-- An attach frame of the terminal (Table 6.3). -/
def attachFrame (type : Byte) (t : Ten) (slot : Nat) (nT nD : List Byte) (session : Word) (status : Half)
    (key : List Byte) : List Byte :=
  let body := [0x01, type, BitVec.ofNat 8 t.val, BitVec.ofNat 8 slot] ++ field nT 0 8 ++ field nD 0 8
    ++ beBytes 4 session.toNat ++ beBytes 2 status.toNat ++ List.replicate 6 0
  body ++ top64 (Config.cmac key body)

/-- An attach frame dropped and counted. -/
def State.attDrop (s : State) (l : Fin 2) : State :=
  { s with mbx.attDrops := s.mbx.attDrops.set l (s.mbx.attDrops[l] + 1) }

/-- Whether an attach frame names a tenant bound to the lane, its credential slot and a slot that
meets R138, outside a lockout (R143). -/
def State.attachNames (s : State) (l : Fin 2) (payload : List Byte) (t : Ten) : Bool :=
  let x := s.ten t
  40 ≤ payload.length && byteAt payload 0 == 1 && byteAt payload 2 == t.val && t != 0
    && laneOf x.cfg.transport == some l && byteAt payload 3 == x.cfg.cred && s.credOk x.cfg.cred t
    && s.slotsOpen
    && x.att.lockBy.isNone

/-- Whether an attach frame's tag is right under the credential slot's key. -/
def State.attachTag (s : State) (payload : List Byte) (t : Ten) : Bool :=
  field payload 32 8 == top64 (Config.cmac (s.credKey (s.ten t).cfg.cred) (field payload 0 32))

/-- A failed tag (R143): 8 within 60 s drop the tenant's attach frames for 60 s. -/
def State.attachFail (s : State) (l : Fin 2) (t : Ten) : State :=
  (s.attDrop l).modTen t fun x =>
    let fails := (x.att.fails.filter fun f => s.now < f + 60000000000) ++ [s.now]
    { x with att.fails := fails,
             att.lockBy := if 8 ≤ fails.length then some (s.now + 60000000000) else x.att.lockBy }

/-- ATTACH_REQ (R143): addressed to broadcast or to the lane, it is answered with `ATTACH_CHAL`. -/
def execAttachReq (lane : Fin 2) (dst src payload : List Byte) (s : State) : Out :=
  .next <|
    let t : Ten := Fin.ofNat 8 (byteAt payload 2)
    let recent := s.mbx.attReqs[lane].filter fun f => s.now < f + 1000000000
    let lease := beAt payload 26 2
    if !s.laneLink lane then s
    else if !s.boot.mbxReady || !(dst == List.replicate 6 0xFF || dst == s.laneMac lane) || 10 ≤ recent.length then
      s.attDrop lane else
    let s1 := { s with mbx.attReqs := s.mbx.attReqs.set lane (recent ++ [s.now]) }
    if byteAt payload 1 ≠ 0x01 ∨ !s1.attachNames lane payload t ∨ (lease ≠ 0 ∧ (lease < 100 ∨ 10000 < lease)) then
      s1.attDrop lane
    else if !s1.attachTag payload t then s1.attachFail lane t
    else
      let nD := beBytes 8 (s1.draw % 2 ^ 64)
      let ses := nextSession (s1.ten t).base
      let nT := field payload 4 8
      let s2 := s1.drawn.modTen t fun x => { x with
        att.nT := nT, att.nD := nD, att.session := ses, att.leaseMs := lease,
        att.hbAlways := bit (byteAt payload 28) 0, att.src := src, att.chalAt := some s.now }
      s2.macSend lane ⟨src, 0x88B5,
        attachFrame 0x81 t (s.ten t).cfg.cred nT nD ses 0 (s.credKey (s.ten t).cfg.cred)⟩

/-- ATTACH_CONF (R142 to R144): a verified confirmation ends an existing session as `TENANT.RESET`
with `KEEP_MEM`, opens the new one and derives its in-band key. -/
def execAttachConf (lane : Fin 2) (src payload : List Byte) (s : State) : Out :=
  .next <|
    let t : Ten := Fin.ofNat 8 (byteAt payload 2)
    let a := (s.ten t).att
    if !s.laneLink lane then s
    else if !s.boot.mbxReady || byteAt payload 1 ≠ 0x02 || !s.attachNames lane payload t then s.attDrop lane
    else if !s.attachTag payload t then s.attachFail lane t
    else match a.chalAt with
      | none => s.attDrop lane
      | some c =>
        if c + 100000000 < s.now ∨ field payload 4 8 ≠ a.nT ∨ field payload 12 8 ≠ a.nD
            ∨ beAt payload 20 4 ≠ a.session.toNat ∨ src ≠ a.src then s.attDrop lane
        else
          let key := kdf 1 (s.credKey (s.ten t).cfg.cred) [0x5A, 0x50, 0x49, 0x42]
            ([BitVec.ofNat 8 t.val] ++ a.nT ++ a.nD ++ beBytes 4 a.session.toNat)
          let s1 := if (s.ten t).st = .detached then s else s.resetNow t true none false
          let s2 := s1.openSession t a.leaseMs a.hbAlways
          let s3 := (s2.modTen t fun x => { x with
            session := a.session, base := a.session, ibMac := src, att.chalAt := none }).setEntry (ibEntry t)
              (some { key := key, flags := 0x04, owner := some t })
          (s3.firmUse (ibEntry t)).macSend lane ⟨src, 0x88B5,
            attachFrame 0x82 t (s.ten t).cfg.cred a.nT a.nD a.session Status.ok key⟩

/-- ATTACH_LOCKOUT_END (R143). -/
def execAttachLockoutEnd (t : Ten) (s : State) : Out :=
  .next <| match (s.ten t).att.lockBy with
    | some d => (s.reach d).modTen t fun x => { x with att.lockBy := none, att.fails := [] }
    | none => s

/-! ### Command start (R125, R525) -/

/-- The authority an opcode needs (Table 22.2). Where the table refers to another table or to a
parameter, the command's own meaning judges it. -/
inductive Need where
  | free | owner | t0 | bit (b : Nat) | bitOwner (b : Nat)
deriving DecidableEq, Repr

/-! Table 22.2, by family: each opcode with the authority checked at the start. -/

/-- The `SYS` opcodes. -/
def sysOps : List (Nat × Need) := [
  (0x0101, .free), (0x0102, .free), (0x0103, .owner), (0x0104, .free), (0x0105, .free), (0x0106, .owner),
  (0x0107, .free)]

/-- The `TENANT` opcodes. -/
def tenantOps : List (Nat × Need) := [
  (0x0201, .free), (0x0202, .free), (0x0203, .free), (0x0204, .free), (0x0205, .free), (0x0206, .owner),
  (0x0207, .owner), (0x0208, .owner), (0x0209, .t0)]

/-- The `EVT` opcodes. -/
def evtOps : List (Nat × Need) := [
  (0x0301, .free), (0x0302, .free), (0x0303, .owner), (0x0304, .bit 0), (0x0305, .free), (0x0306, .bit 7)]

/-- The `POWER` opcodes. -/
def powerOps : List (Nat × Need) := [
  (0x0401, .free), (0x0402, .bit 0), (0x0403, .bit 0), (0x0404, .bitOwner 0), (0x0405, .bit 0),
  (0x0406, .bit 0)]

/-- The `TIME` opcodes. -/
def timeOps : List (Nat × Need) := [
  (0x0501, .free), (0x0502, .free), (0x0503, .free), (0x0504, .owner), (0x0505, .bit 1), (0x0506, .bit 1),
  (0x0507, .bit 1), (0x0508, .bit 1), (0x0509, .free), (0x050A, .free), (0x050B, .bit 1), (0x050C, .free),
  (0x050D, .free), (0x050E, .free), (0x050F, .bit 1), (0x0510, .bit 1), (0x0511, .owner)]

/-- The `CLOCK` opcodes. -/
def clockOps : List (Nat × Need) := [
  (0x0601, .free), (0x0602, .bit 8), (0x0603, .bitOwner 8), (0x0604, .bit 8), (0x0605, .owner),
  (0x0606, .bitOwner 8)]

/-- The `LANE` opcodes. -/
def laneOps : List (Nat × Need) := [
  (0x0701, .free), (0x0702, .owner), (0x0703, .owner), (0x0704, .bit 7), (0x0705, .bit 7), (0x0706, .bit 7)]

/-- The `LTX` opcodes. -/
def ltxOps : List (Nat × Need) := [
  (0x0801, .free), (0x0802, .bit 7), (0x0803, .free), (0x0804, .owner), (0x0805, .free), (0x0806, .owner),
  (0x0807, .owner)]

/-- The `RULES` opcodes. -/
def rulesOps : List (Nat × Need) := [
  (0x0901, .free), (0x0902, .bit 2), (0x0903, .bit 2), (0x0904, .bit 2), (0x0905, .bit 2), (0x0906, .bit 2),
  (0x0907, .bit 2), (0x0908, .bit 2), (0x0909, .owner)]

/-- The `TRAFFIC` opcodes. -/
def trafficOps : List (Nat × Need) := [
  (0x0A01, .free), (0x0A02, .owner), (0x0A03, .free), (0x0A04, .bit 2), (0x0A05, .owner), (0x0A06, .owner),
  (0x0A07, .bit 7), (0x0A08, .bit 7), (0x0A09, .free), (0x0A0A, .free)]

/-- The `CIPHER` opcodes. -/
def cipherOps : List (Nat × Need) := [
  (0x0B01, .free), (0x0B02, .bit 3), (0x0B03, .bit 3), (0x0B04, .bit 3), (0x0B05, .bit 3), (0x0B06, .bit 7)]

/-- The `KEYS` opcodes. -/
def keysOps : List (Nat × Need) := [
  (0x0C01, .free), (0x0C02, .owner), (0x0C03, .bit 3), (0x0C04, .free)]

/-- The `ENS` opcodes. -/
def ensOps : List (Nat × Need) := [
  (0x0D01, .free), (0x0D02, .free), (0x0D03, .free), (0x0D04, .free), (0x0D05, .bit 7)]

/-- The `SEC` opcodes. -/
def secOps : List (Nat × Need) := [
  (0x0E01, .free), (0x0E02, .bit 7), (0x0E03, .bit 7), (0x0E04, .bit 7), (0x0E05, .owner), (0x0E06, .owner)]

/-- The `FIRN` opcodes. -/
def firnOps : List (Nat × Need) := [
  (0x0F01, .free), (0x0F02, .bit 6), (0x0F03, .bit 6), (0x0F04, .bit 6), (0x0F05, .bit 6), (0x0F06, .bit 7),
  (0x0F07, .owner)]

/-- The `AUDIO`, `TPS` and `DIAG` opcodes. -/
def audioOps : List (Nat × Need) := [
  (0x1001, .free), (0x1002, .bit 4), (0x1003, .bit 4), (0x1004, .bit 4), (0x1005, .bit 4), (0x1101, .free),
  (0x1102, .bit 5), (0x1201, .bit 7)]

/-- The opcodes of Table 22.2 with the authority checked at the start. -/
def opcodeTable : List (Nat × Need) :=
  List.flatten [sysOps, tenantOps, evtOps, powerOps, timeOps, clockOps, laneOps, ltxOps, rulesOps, trafficOps,
    cipherOps, keysOps, ensOps, secOps, firnOps, audioOps]

/-- The authority an opcode needs; none for an opcode that is not assigned (R11). -/
def needOf (op : Nat) : Option Need := (opcodeTable.find? (·.1 == op)).map (·.2)

/-- Whether a tenant meets a need (R146, R147). -/
def State.meets (s : State) (t : Ten) : Need → Bool
  | .free => true
  | .owner => s.isOwner t
  | .t0 => t == 0
  | .bit b => s.holds t b
  | .bitOwner b => s.holds t b && s.isOwner t

/-- In RETIRED at THAWED the tenant that thawed holds owner authority for `CLOCK.BAND_WRITE` and
`CLOCK.RELOCK` alone (R416). -/
def State.retiredOwner (s : State) (t : Ten) (op : Nat) : Bool :=
  s.fuses.life == .retired && s.thawed && s.ao.dbg.ten == some t && (op == 0x0603 || op == 0x0606)

/-- The lease a command needs whatever its parameters (R153, Table 22.2). -/
def leaseNeeded (op : Nat) : Option Nat :=
  if op = 0x0505 ∨ op = 0x0506 then some 7
  else if 0x0902 ≤ op ∧ op ≤ 0x0905 then some 8 else none

/-- Whether an opcode is accepted in a slot (R132, R136, R162). -/
def slotTakes (n : SlotIx) (op : Nat) : Bool :=
  (needOf op).isSome && (n.val != 7 || (0x0201 ≤ op && op ≤ 0x0204))

/-- Whether a DETACHED tenant may send a command (R139). -/
def State.detachedMay (s : State) (t : Ten) (n : SlotIx) (op : Nat) : Bool :=
  op == 0x0201 || op == 0x0202 ||
    (op == 0x0204 && (s.prm1 t n 0 == 0xFF || s.prm1 t n 0 == t.val))

/-- The first failing check of R525 up to the lease, with its status. -/
def State.startCheck (s : State) (t : Ten) (n : SlotIx) : Option Half :=
  let x := s.slot t n
  let op := x.opcode
  if !slotTakes n op then some Status.opcode
  else if !s.descOk t x then some Status.param
  else if (s.ten t).st == .detached && !s.detachedMay t n op then some Status.state
  else if !(match needOf op with | some need => s.meets t need | none => false) && !s.retiredOwner t op then some Status.authority
  else match leaseNeeded op with
    | some id => if s.hasLease t id then none else some Status.lease
    | none => none

/-- Commands of slots 0 to 6 of a tenant accepted before an order and not posted (R125). -/
def Tenant.earlier (x : Tenant) (order : Nat) : Bool :=
  lowSlots.any fun n => x.slots[n].pending && x.slots[n].order < order

/-- The command a tenant can start next: the earliest accepted one, its `FENCE` met and a token of
`CMD_RATE` at hand (R125, R150); a FAULTED tenant's commands wait for neither (R157). -/
def State.startable (s : State) (t : Ten) : Option SlotIx :=
  let x := s.ten t
  match lowSlots.find? fun n => x.slots[n].phase == .accepted &&
      !lowSlots.any fun m => x.slots[m].phase == .accepted && x.slots[m].order < x.slots[n].order with
  | none => none
  | some n =>
    if x.st == .faulted then some n
    else if x.slots[n].fence && x.earlier x.slots[n].order then none
    else if (x.cmdBucket.fill x.cfg.rate 8 s.now).any then some n else none

/-- The tenant CC0 serves next in its round robin (R125): the one it visits, up to `CMD_WEIGHT`
commands, else the next one with a command to start. -/
def State.nextServed (s : State) : Option Ten :=
  let r := s.mbx.rr
  if (s.startable r).isSome && (s.ten r).visit < (s.ten r).cfg.weight then some r
  else ((List.range 8).map fun i => r + 1 + Fin.ofNat 8 i).find? fun t => (s.startable t).isSome

/-- CC0's visit moves to a tenant and one of its commands is counted (R125, R150). -/
def State.visited (s : State) (t : Ten) : State :=
  let s1 := if s.mbx.rr = t ∧ (s.ten t).visit < (s.ten t).cfg.weight then s
    else { s.modTen t fun x => { x with visit := 0 } with mbx.rr := t }
  s1.modTen t fun x => { x with
    visit := x.visit + 1,
    cmdBucket := if x.st = .faulted then x.cmdBucket else (x.cmdBucket.fill x.cfg.rate 8 s.now).take }

/-- A command starts (R157, R63, R525): a FAULTED tenant's command in slots 0 to 6 posts
`FAULT_TENANT`, a failed check posts its status, a command that passes them in a notice period posts `ERR_STATE` (log
entry 507); else the command runs under the rights its tenant holds now (R146, R160), which is work that returns the
terminal from DUSK to NOON (R56). -/
def State.startCommand (s : State) (t : Ten) (n : SlotIx) : State :=
  if (s.ten t).st = .faulted ∧ n ≠ 7 then s.done t n Status.faultTenant
  else match s.startCheck t n with
    | some st => s.done t n st
    | none =>
      if s.power.entry.isSome ∧ n ≠ 7 then s.done t n Status.state
      else (s.modSlot t n fun x => { x with phase := .running, rights := s.rightsOf t }).touch.toNoon

/-- COMMAND_START (R125, R525): slots 0 to 6 in CC0's order, slot 7 by CC1, or by CC0 while CC1 is in
reset (R25). -/
def execCommandStart (t : Ten) (n : SlotIx) (s : State) : Out :=
  .next <|
    if !s.boot.mbxReady then s
    else if n = 7 then
      if (s.slot t 7).phase = .accepted ∧ s.coreUp t 7 then s.startCommand t 7 else s
    else if s.boot.core0Up ∧ s.nextServed = some t ∧ s.startable t = some n then
      (s.visited t).startCommand t n
    else s

/-- COMMAND_TIMEOUT (R129). A core in reset posts nothing: the command ends at the restart (R131). -/
def execCommandTimeout (t : Ten) (n : SlotIx) (s : State) : Out :=
  .next <| match (s.slot t n).deadline with
    | some d =>
      let s1 := (s.reach d).modSlot t n fun x => { x with deadline := none, expired := true }
      if s1.coreUp t n then s1.askStop t n .timeout else s1
    | none => s

/-- The slot `SYS.ABORT` finds for a `SEQ` (R130): the lowest of slots 0 to 6 that is not its own and
is PENDING or READY. -/
def State.abortTarget (s : State) (t : Ten) (self : SlotIx) (seq : Nat) : Option SlotIx :=
  lowSlots.find? fun m => m != self && (s.slot t m).phase != .empty && (s.slot t m).seq == seq

/-- SYS_ABORT (R130, R136). -/
def execSysAbort (t : Ten) (n : SlotIx) (s : State) : Out :=
  command 0x0107 [(0, 2)] t n s fun s =>
    match s.abortTarget t n (s.prm t n 0 2) with
    | none => s.done t n Status.abortUnknown
    | some m =>
      let x := s.slot t m
      match x.phase with
      | .held | .accepted =>
        if x.opcode = 0x0107 then s.done t n Status.abortLate
        else (s.stopWaiting t m .abort).done t n Status.ok
      | .running =>
        if hasSafePoint x.opcode then
          ((s.modSlot t m fun y => { y with
            stop := some (y.stop.getD .abort), abortAsked := true, aborters := y.aborters ++ [n] }).firnSweep).sweepInject t m
        else
          (s.modSlot t m fun y => if y.opcode = 0x0107 then y else
            { y with stop := some (y.stop.getD .abort), abortAsked := true }).done t n Status.abortLate
      | _ => s.done t n Status.abortLate

/-! ### Core restarts (R90, R131) -/

/-- A command cut off by a core reset posts `ABORTED` with `RESTART`, and `CORE_RESTART` is set. -/
def State.abortRestart (s : State) (t : Ten) (n : SlotIx) : State :=
  let s1 := (s.modSlot t n fun x => { x with stop := none, aborters := [], expired := false }).postRaw t n Status.aborted [] false
  (s1.modSlot t n fun x => { x with restart := true }).flagTen t (·.coreRestart) fun w => { w with coreRestart := true }

/-- A command that a core had accepted and not posted. -/
def Slot.taken (x : Slot) : Bool := x.phase == .accepted || x.phase == .running

/-- The commands that CC0 had accepted and not posted, those of slot 7 it served or was to answer among them, are cut off
(R131). -/
def State.abortSlots (s : State) : State :=
  allTen.foldl (fun s t => (List.finRange 8).foldl (fun s n =>
    if (s.slot t n).taken && (n != 7 || (s.slot t n).core0) then s.abortRestart t n else s) s) s

/-- The commands of slot 7 that CC1 had accepted and not posted: CC0 cuts them off, at once or after its own restart (R131). -/
def State.leaveToCc0 (s : State) : State :=
  allTen.foldl (fun s t =>
    if (s.slot t 7).taken && !(s.slot t 7).core0 then
      if s.boot.core0Up then s.abortRestart t 7 else s.modSlot t 7 fun x => { x with core0 := true }
    else s) s

/-- A held doorbell is accepted once its core accepts commands again; its time-out runs from acceptance (R122, R131). -/
def State.acceptHeld (s : State) : State :=
  allTen.foldl (fun s t => (List.finRange 8).foldl (fun s n =>
    s.modSlot t n fun x => if x.phase = .held ∧ s.accepts n then
      { x with phase := .accepted, core0 := n = 7 ∧ !s.boot.core1Up
               deadline := if x.timeout = 0 then none else some (s.now + x.timeout * 1000000) }
    else x) s) s

/-- The CC0 expiries inside the sliding window of 10 s, this one the last (R90). -/
def State.window0 (s : State) : List Nat := (s.boot.wdt0.filter fun f => s.now < f + 10000000000) ++ [s.now]

/-- A CC0 expiry inside the reset that CC1's third expiry takes: the record tells the cause of higher priority (R92). -/
def State.expiryInReset (s : State) (core : Fin 2) : State :=
  if core = 0 ∧ s.boot.phase = .rom ∧ s.now = s.boot.releaseAt ∧ s.boot.cause.any (·.1 == 6) ∧ 2 ≤ s.window0.length then
    { s with boot.cause := some (mergeCause s.boot.cause (5, s.window0.length)) }
  else s

/-- CORE_WATCHDOG_EXPIRY (R90, Table 4.2): the core alone is reset, or a chip reset is taken at CC0's
second or CC1's third expiry within 10 s. -/
def execCoreWatchdogExpiry (core : Fin 2) (s : State) : Out :=
  .next <|
    if s.boot.phase ≠ .running then s.expiryInReset core else
    if core = 0 then
      let win := s.window0
      if 2 ≤ win.length then s.chipReset 0x05 win.length else
      let s1 := { s with boot.wdt0 := win, boot.core0Up := false, ao.rst.scopeLast := 1,
                         ao.rst.core0 := satInc 255 s.ao.rst.core0 }
      s1.cc0Down.settleThaw
    else
      let win := (s.boot.wdt1.filter fun f => s.now < f + 10000000000) ++ [s.now]
      if 3 ≤ win.length then s.chipReset 0x06 win.length else
      let s1 := { s with boot.wdt1 := win, boot.core1Up := false, ao.rst.scopeLast := 2,
                         ao.rst.core1 := satInc 255 s.ao.rst.core1 }
      s1.leaveToCc0.cc1Down

/-! ### Heartbeats, delegation, rescue and drains -/

/-- HEARTBEAT_DEADLINE (R155): three lease periods without a heartbeat; T0 is not watched (R149). -/
def execHeartbeatDeadline (t : Ten) (s : State) : Out :=
  .next <| match (s.ten t).hbFrom with
    | some f =>
      if t ≠ 0 ∧ (s.ten t).st = .attached then (s.reach (f + 3 * (s.ten t).leaseMs * 1000000)).fault t else s
    | none => s

/-- DELEGATION_EXPIRY (R148). -/
def execDelegationExpiry (s : State) : Out :=
  .next <| match s.mbx.delegate with
    | some (_, d) => (s.reach d).endDelegation 0
    | none => s

/-- A revocation that was still completing is complete (R154). -/
def State.revokeDone (s : State) (id : Nat) : State :=
  { s with mbx.revoking := s.mbx.revoking.filter (· != id) }

/-- CC0 stops what a rescue queued; with the last part of a tenant's rescue its resources are free, `RESIDUAL` clears, and
commands are accepted again (R162). -/
def State.serveResidue (s : State) : State :=
  let s1 := s.mbx.residue.foldl (fun s r => if r.2 = 6 then s.stopJobs (some r.1) 1 else s.stopResource r.2) s
  let busy (t : Ten) : Bool := s1.mbx.residue.any fun r => r.1 == t && s1.resourceBusy r.2
  let gone := s1.mbx.residue.filter fun r => !busy r.1
  let s2 := gone.foldl (fun s r => s.revokeDone r.2) { s1 with mbx.residue := s1.mbx.residue.filter fun r => busy r.1 }
  (allTen.foldl (fun s t => s.modTen t fun x => { x with residual := x.residual && busy t }) s2).acceptHeld

/-- RESCUE_RESIDUE_DONE (R162). -/
def execRescueResidueDone (s : State) : Out :=
  .next <| if s.boot.core0Up then s.serveResidue else s

/-- CORE_RESTART_DONE (R131, R162): the commands a core had accepted and not posted are aborted, CC0
completes the queued parts of a rescue, and held doorbells are accepted. -/
def execCoreRestartDone (core : Fin 2) (s : State) : Out :=
  .next <|
    if s.boot.phase ≠ .running then s
    else if core = 0 then
      if s.boot.core0Up then s else
      ({ s.abortSlots with boot.core0Up := true } : State).serveResidue.startJobs
    else if s.boot.core1Up then s
    else ({ s with boot.core1Up := true } : State).acceptHeld.cc1Back

/-- Running commands of slots 0 to 6 of a tenant but one, the commands of emptied slots among them. -/
def State.runningOf (s : State) (u : Ten) (but : Ten × SlotIx) : List (Ten × SlotIx) :=
  (lowSlots.filter fun m => ((s.slot u m).phase == .running && (u, m) != but)
    || s.mbx.ghosts.any fun g => g.ten == u && g.slot == m).map fun m => (u, m)

/-- An access that a waiting result waits for still runs. -/
def State.stillRuns (s : State) (p : Ten × SlotIx) : Bool :=
  (s.slot p.1 p.2).phase == .running || s.mbx.ghosts.any fun g => g.ten == p.1 && g.slot == p.2

/-- Pending waits whose accesses and revocations have all ended; the end of a session waits for every command that runs. -/
def State.drained (s : State) (d : Drain) : Bool :=
  (d.after.all fun p => !s.stillRuns p) && (d.held.all fun k => !s.flights.any (·.n == k)) && (d.res.all fun id => !s.mbx.revoking.contains id) &&
  match d.fin with
  | .detach => s.runningOf d.ten (d.ten, d.slot) == []
  | .reset u _ _ => s.runningOf u (d.ten, d.slot) == []
  | _ => true

end Sys2Proof.Machine
end

