-- ==== Sys2Proof/Machine/Boot.lean ====
section
/-!
DEFINITION. Reset and boot (R87 to R106): image selection, the boot steps to `MBX_READY`, time-outs,
domain resets, the recovery download, and the `SYS` and `DIAG` commands.
-/

namespace Sys2Proof.Machine

/-! ### Images (R97 to R99) -/

/-- The base of an image region (Table 16.8). -/
def imgBase (i : Fin 2) : Nat := if i = 0 then 0 else 0x180000

/-- Bytes of an image region. -/
def State.imgRead (s : State) (i : Fin 2) (off n : Nat) : List Byte := s.ens.getN (imgBase i + off) n

/-- `MAGIC` and `HDR_VER` stand (Table 4.6). -/
def hdrListed (h : List Byte) : Bool := leAt h 0 4 == 0x5A503438 && leAt h 4 4 == 1

/-- The other header conditions but `SVN`, `DIGEST` and the signature (Table 4.6, R99). -/
def hdrOk (h : List Byte) : Bool :=
  let len := leAt h 8 4
  4096 ≤ len && len ≤ 1572608 && len % 64 == 0 && leAt h 0x14 4 < len && leAt h 0x18 4 < len
    && (field h 0x1C 36).all (· == 0) && (field h 0xA0 96).all (· == 0)

/-- `SVN`. -/
def hdrSvn (h : List Byte) : Nat := leAt h 0x0C 4

/-- `GENERATION`. -/
def hdrGen (h : List Byte) : Nat := leAt h 0x10 4

/-- Whether the digest of an image stands: header bytes 0x000 to 0x03F and the body (R97). -/
def digestOk (img : List Byte) : Bool :=
  beNat (field img 0x40 32) == (Config.sha256 (img.take 0x40 ++ (img.drop 0x100).take (leAt img 8 4))).toNat

/-- Whether the signature of an image stands (R97). -/
def signatureOk (img : List Byte) : Bool :=
  Config.ecdsaVerify Config.imageKey (BitVec.ofNat 256 (beNat (field img 0x40 32))) (field img 0x60 64)

/-- The header of an image region. -/
def State.hdr (s : State) (i : Fin 2) : List Byte := s.imgRead i 0 256

/-- A whole image. -/
def State.image (s : State) (i : Fin 2) : List Byte := s.imgRead i 0 (256 + leAt (s.hdr i) 8 4)

/-- The state of an image. -/
def Icb.get (x : Icb) (i : Fin 2) : ImageState := if i = 0 then x.stateA else x.stateB

/-- The state of an image changed. -/
def Icb.put (x : Icb) (i : Fin 2) (v : ImageState) : Icb :=
  if i = 0 then { x with stateA := v } else { x with stateB := v }

/-- Candidates of R99, highest `GENERATION` first, A before B among equals. -/
def State.candidates (s : State) : List (Fin 2) :=
  let ok (i : Fin 2) := hdrListed (s.hdr i)
  if ok 0 && ok 1 then (if hdrGen (s.hdr 0) < hdrGen (s.hdr 1) then [1, 0] else [0, 1])
  else (if ok 0 then [0] else []) ++ (if ok 1 then [1] else [])

/-- The skip reason of a candidate (R99), 0 for none. -/
def State.skipReason (s : State) (i : Fin 2) : Nat :=
  let h := s.hdr i
  if s.icb.get i = .rejected then 5
  else if s.icb.get i = .fresh ∧ s.ao.rst.image.toNat = i.val ∧ 3 ≤ s.ao.rst.tries then 6
  else if !hdrOk h then 1
  else if hdrSvn h < s.icb.minSvn then 4
  else if !digestOk (s.image i) then 2
  else if !signatureOk (s.image i) then 3 else 0

/-- The selection's effect on one candidate that is returned (R99). -/
def State.choose (s : State) (i : Fin 2) : State :=
  let tries := if s.icb.get i = .fresh then
      (if s.ao.rst.image.toNat = i.val then s.ao.rst.tries else 0) + 1
    else s.ao.rst.tries
  { s with ao.rst.tries := tries, ao.rst.image := BitVec.ofNat 8 i.val }

/-- The selection of R99 over the candidates: the state, the image, and the images skipped. -/
def State.select (s : State) : List (Fin 2) → State × Option (Fin 2) × List (Fin 2)
  | [] => (s, none, [])
  | i :: rest =>
    let r := s.skipReason i
    if r = 0 then (s.choose i, some i, [])
    else
      let s1 := { s with ao.rst.skip := BitVec.ofNat 8 r }
      let s2 := if r = 6 then { s1 with icb := s1.icb.put i .rejected } else s1
      let (s3, got, skipped) := s2.select rest
      (s3, got, i :: skipped)

/-! ### Boot (R93 to R96) -/

/-- Recovery is entered (R102): the region to be written is the one that does not hold the image R99
would choose, or A when none is bootable. -/
def State.enterRecovery (s : State) : State :=
  let (_, got, _) := s.select s.candidates
  let target : Fin 2 := match got with | some i => if i = 0 then 1 else 0 | none => 0
  { s with boot.phase := .recovery, boot.rcv := { ({} : Recovery) with target := target }, ao.rst.image := 0xFF,
           boot.image := none, boot.cause := none }

/-- The session bases drawn at a chip-scope start (R140). -/
def State.drawBases (s : State) : State :=
  allTen.foldl (fun s t => s.drawn.modTen t fun x => { x with base := BitVec.ofNat 32 s.draw }) s

/-- The image runs and the partitions are clear (Table 4.5, steps 11 to 14). -/
def State.imageRuns (s : State) (i : Fin 2) : State :=
  let s1 : State := { s with
    boot := { s.boot with
      phase := .running, image := some i, cause := none, wdt0 := [], core0Up := true, core1Up := true, mbxReady := true }
    ao := { s.ao with
      imageLock := some i, rst := { s.ao.rst with ready := (s.now - s.boot.releaseAt) / 10000 } } }
  { s1 with sram := [], power := { s1.power with pstate := .noon, memLost := false } }

/-- The events a boot owes the owner: an image of higher `GENERATION` skipped (R99), a journal lost, a wake that failed before it. -/
def State.bootEvents (s : State) (i : Fin 2) (skipped : List (Fin 2)) : State :=
  let s1 := match skipped.find? fun k => hdrGen (s.hdr i) < hdrGen (s.hdr k) with
    | some k =>
      let f : State := { s with ao := { s.ao with rst := { s.ao.rst with flags := s.ao.rst.flags ||| 2 } } }
      f.direct Code.imageFallback [0] (i.val + 256 * f.ao.rst.skip.toNat + 65536 * k.val)
    | none => s
  let s2 := if s1.ao.rst.flags.getLsbD 4 then s1.direct Code.journalLost [0] 0 else s1
  if s2.power.faultPend then s2.tellFault else s2

/-- Steps 11 to 18 of Table 4.5: the image runs, the partitions are clear, the units start, the
mailboxes are served, the T0 session opens before any directed event (R145), PD_LNA powers up with its
pull check (R45, R105), and the voltage is brought to the NOON point (R524). -/
def State.startFirmware (s : State) (i : Fin 2) (skipped : List (Fin 2)) : State :=
  let s1 := (s.imageRuns i).setDoms
    (s.allowedDoms [dTKP, dCTL, dMEM, dPLL, dLNA, dLNL, dFRM, dPKT, dCIP, dNVM, dAUD]) .on
  let s2 := s1.drawBases.bootUnits
  let s3 := (s2.restartIdle.noticePorts true).openOwner
  let s3a := (s3.bootEvents i skipped).pendEvents
  let s4 := if s3a.domOn dLNA then s3a.pullCheck else s3a
  if s4.ao.vcode ≠ 30 then s4.startPmic [30] .boot
  else { s4 with power := { s4.power with rdAssist := false, wrAssist := false } }

/-- The ROM's first steps (R91, R104; steps 5 and 6 of Table 4.5): the reset-cause record and the journal. -/
def State.romStart (s : State) : State :=
  let c := s.boot.cause.getD (0, 0)
  (({ s with ao.rst := s.ao.rst.start c.1 c.2 s.pads.strap } : State).setDoms [dTKP, dCTL, dMEM, dPLL, dNVM] .on).journalBoot

/-- BOOT (R93): the record, the journal, then recovery or the image R99 chooses. -/
def execBoot (s : State) : Out :=
  .next <| if s.boot.phase ≠ .rom then s else
    let s2 := s.romStart
    if s2.pads.strap then s2.enterRecovery else
    match s2.select s2.candidates with
    | (s3, some i, skipped) => s3.startFirmware i skipped
    | (s3, none, _) => s3.enterRecovery

/-- A start that runs out of time counts as a failed boot of a NEW image (R95); the record of that start stands. -/
def State.bootTimeout (s : State) : State :=
  if s.boot.phase ≠ .rom ∨ s.pads.strap then s else
  let s1 := s.romStart
  ({ (s1.select s1.candidates).1 with boot.cause := none } : State).chipReset 0x08 0

/-- ROM_WATCHDOG_EXPIRY (R95). -/
def execRomWatchdogExpiry (s : State) : Out :=
  .next <| if s.boot.phase = .rom then (s.reach (s.boot.releaseAt + 250000000)).bootTimeout else s

/-- MBX_READY_TIMEOUT (R95). -/
def execMbxReadyTimeout (s : State) : Out :=
  .next <| if s.boot.phase = .rom then (s.reach (s.boot.releaseAt + 500000000)).bootTimeout else s

/-- RST_N_LOW (R505): a pulse below 200 ns is ignored, one of 1 µs or more takes a chip reset, one in
between may (a free value). -/
def execRstNLow (ns : Nat) (s : State) : Out :=
  .next <|
    let go (s : State) := ({ s with pads.rstN := false } : State).chipReset 0x02 0
    if ns < 200 ∨ !s.pads.powered then s
    else if 1000 ≤ ns then go s
    else if bit s.freeVal 0 then go s.freed else s.freed

/-- RST_N_RELEASE (R38, R76, R93): `GPIO0` is sampled; the wake sequence runs only for an enable that
has to rise (R37). -/
def execRstNRelease (gpio0 : Bool) (s : State) : Out :=
  .next <|
    if s.pads.rstN || !s.pads.powered then s else
    let s1 := { s with pads.rstN := true, pads.strap := gpio0, boot.releaseAt := s.now, ao.spent := 0,
                       pads.gpio := (s.pads.gpio &&& 0xFFFFFE#24) ||| BitVec.ofNat 24 (b2n gpio0) }
    s1.startChip .rstRelease 0

/-- DOMAIN_RESET_START (R89, R106): 1 ms after its result the domain is reset for 10 µs, its leases are
released, and its wake starts; a domain that is off stays off. -/
def execDomainResetStart (s : State) : Out :=
  .next <| match s.boot.domReset with
    | [] => s
    | (d, at_) :: rest =>
      let s1 := { s.reach at_ with boot.domReset := rest }
      if !s1.domOn d then s1 else
      let ids := if d = dINF then [6] else if d = dAUD then [1, 2, 3, 4, 5] else []
      let s2 := (ids.foldl (fun s id => s.freeLease id) s1).powerOff d
      let s3 := { s2 with ao.rst.scopeLast := 3, now := s2.now + 10000 }
      s3.wakeDomains [d]

/-! ### The SYS and DIAG commands -/

/-- SYS_IDENTIFY (Table 1.7). -/
def execSysIdentify (t : Ten) (n : SlotIx) (s : State) : Out :=
  command 0x0101 [] t n s fun s => s.answer t n <|
    leBytes 8 Config.terminalId.toNat ++ leBytes 1 0xB0 ++ leBytes 1 (b2n Config.gradeE) ++ leBytes 1 4
      ++ [Config.fwMinor, Config.fwPatch] ++ leBytes 1 (match s.boot.image with | some i => i.val | none => 0)
      ++ leBytes 1 s.lifecycleCode ++ leBytes 1 s.debugCode

/-- SYS_BLOCK_STATUS (Table 1.8). -/
def execSysBlockStatus (t : Ten) (n : SlotIx) (s : State) : Out :=
  command 0x0102 [] t n s fun s => s.answer t n <|
    leBytes 2 (bitsOf 13 fun d => s.domOn d) ++ leBytes 2 (bitsOf 13 fun d => s.dom d == .ret)
      ++ leBytes 1 s.clkFlags ++ leBytes 1 s.power.pstate.code
      ++ leBytes 1 (match s.activeLane with | some l => l.val | none => 0xFF) ++ [0]

/-- SYS_RESET (R106, Table 4.8): the result is posted before acting. -/
def execSysReset (t : Ten) (n : SlotIx) (s : State) : Out :=
  command 0x0103 [(0, 2)] t n s fun s =>
    let scope := s.prm1 t n 0
    let d := s.prm1 t n 1
    s.guard t n [(1 < scope || (scope == 0 && d != 0) || (scope == 1 && d != 6 && d != 11 && d != 12), Status.param)]
      fun s =>
        let s1 := s.done t n Status.ok
        if scope = 0 && s.power.entry.isSome then s.done t n Status.state
        else if scope = 0 then
          (if s1.inService then s1.sendDeregNotice 7 else s1).acceptEntry .chipReset false t
        else { s1 with boot.domReset := s1.boot.domReset ++ [(Fin.ofNat 13 d, s1.now + 1000000)] }

/-- The reset-cause record's bytes (Table 4.3). -/
def ResetRec.bytes (r : ResetRec) : List Byte :=
  [r.cause, r.detail, r.prev, r.scopeLast] ++ leBytes 2 r.chipCount ++ leBytes 1 r.core0 ++ leBytes 1 r.core1
    ++ [r.image] ++ leBytes 1 r.tries ++ [r.skip, r.flags] ++ leBytes 4 r.ready

/-- SYS_RESET_CAUSE (R91). -/
def execSysResetCause (t : Ten) (n : SlotIx) (s : State) : Out :=
  command 0x0104 [] t n s fun s => s.answer t n s.ao.rst.bytes

/-- The code of an image state (Table 4.8). -/
def ImageState.code : ImageState → Nat
  | .fresh => 0 | .confirmed => 1 | .rejected => 2

/-- Whether a header is valid in the sense of R99. -/
def hdrValid (h : List Byte) : Bool := hdrListed h && hdrOk h

/-- `SVN` and `GENERATION` of an image; all ones when its header is invalid (Table 4.8). -/
def State.imgInfo (s : State) (i : Fin 2) : List Byte :=
  let h := s.hdr i
  if hdrValid h then leBytes 4 (hdrSvn h) ++ leBytes 4 (hdrGen h) else List.replicate 8 0xFF

/-- SYS_IMAGE_STATUS (Table 4.8). -/
def execSysImageStatus (t : Ten) (n : SlotIx) (s : State) : Out :=
  command 0x0105 [] t n s fun s => s.answer t n <|
    leBytes 4 s.icb.minSvn ++ leBytes 1 s.icb.stateA.code ++ leBytes 1 s.icb.stateB.code
      ++ leBytes 1 (match s.boot.image with | some i => i.val | none => 0) ++ [0] ++ s.imgInfo 0 ++ s.imgInfo 1

/-- The running image confirmed, and `MIN_SVN` raised to its `SVN` when asked and higher (R101). -/
def State.commitImage (s : State) (i : Fin 2) (raise : Bool) : State :=
  let svn := hdrSvn (s.hdr i)
  ({ s with icb := { s.icb.put i .confirmed with
      minSvn := if raise then max s.icb.minSvn svn else s.icb.minSvn } } : State).recordWritten

/-- SYS_IMAGE_COMMIT (R101). -/
def execSysImageCommit (t : Ten) (n : SlotIx) (s : State) : Out :=
  command 0x0106 [(0, 1)] t n s fun s =>
    let f := s.prm1 t n 0
    s.guard t n [(1 < f, Status.param)] fun s =>
      let s1 := match s.boot.image with | some i => s.commitImage i (bit f 0) | none => s
      s1.answer t n (leBytes 4 s1.icb.minSvn)

/-- The level read back on an `OPT_TXDIS` ball. -/
def Pads.txdisLevel (p : Pads) : BitVec 2 := p.txdisBoard &&& ~~~p.txdisLow

/-- DIAG_PADS (R52, Table 2.9). -/
def execDiagPads (t : Ten) (n : SlotIx) (s : State) : Out :=
  command 0x1201 [] t n s fun s =>
    let p := s.pads
    s.answer t n <|
      leBytes 1 (p.wakePins.toNat + 16 * b2n s.railHigh)
        ++ leBytes 1 (p.los.toNat + 4 * p.txdisLevel.toNat + 16 * p.txdisFault.toNat)
        ++ leBytes 1 (b2n (p.hostMode == some true) + 2 * b2n (p.fieldMode == some true) + 4 * b2n p.strap)
        ++ leBytes 1 s.ao.vcode ++ leBytes 3 (p.gpio &&& p.gpioIn &&& s.gpioSeen).toNat ++ [0]

/-! ### Recovery download (R102, R103) -/

/-- A command of the recovery window, after what SPI0 has posted (R114). -/
def State.inRecovery (s : State) (f : State → State) : State :=
  let s1 := s.drainAll 0
  if s1.boot.phase = .recovery then f s1 else s

/-- RCV_START (R103). DESIGN CHOICE (log entry 410): in RECEIVING it starts the download again, in VERIFYING and WRITING it
does nothing, and a bad `RCV_LEN` sets the error and keeps the state. -/
def execRcvStart (s : State) : Out :=
  .next <| s.inRecovery fun s =>
    let r := s.boot.rcv
    if r.state = 3 ∨ r.state = 4 then s
    else if r.len < 4352 ∨ 1572864 < r.len then { s with boot.rcv.err := 1 }
    else { s with boot.rcv := { r with state := 2, err := 0, next := 0, staged := [] } }

/-- The size of chunk k of a download. -/
def chunkSize (len k : Nat) : Nat := min 2048 (len - 2048 * k)

/-- RCV_CHUNK (R103): the number and the CRC are checked, then the chunk is staged; outside RECEIVING it does nothing
(log entry 410). -/
def execRcvChunk (s : State) : Out :=
  .next <| s.inRecovery fun s =>
    let r := s.boot.rcv
    let bs := Memory.getN r.buf 0 (chunkSize r.len r.next)
    if r.state ≠ 2 then s
    else if r.chunk ≠ r.next ∨ r.len ≤ 2048 * r.next then { s with boot.rcv.err := 2 }
    else if crc32 bs ≠ r.crc.toNat then { s with boot.rcv.err := 3 }
    else { s with boot.rcv := { r with next := r.next + 1, staged := r.staged ++ bs } }

/-- RCV_FINISH (R103): with every chunk received, verification runs; with chunks missing it does nothing (log entry 410). -/
def execRcvFinish (s : State) : Out :=
  .next <| s.inRecovery fun s =>
    if s.boot.rcv.state = 2 ∧ s.boot.rcv.len ≤ 2048 * s.boot.rcv.next then { s with boot.rcv.state := 3 } else s

/-- RCV_REBOOT. -/
def execRcvReboot (s : State) : Out := .next <| s.inRecovery fun s => s.chipReset 0x0A 0

/-- What verification finds wrong with a staged image (R97, R103), 0 for nothing. -/
def stagedErr (minSvn : Nat) (img : List Byte) : Nat :=
  if !hdrListed img || !hdrOk img || img.length != 256 + leAt img 8 4 then 8
  else if hdrSvn img < minSvn then 6
  else if !digestOk img then 4
  else if !signatureOk img then 5 else 0

/-- RECOVERY_VERIFIED: WRITING, or FAILED with the reason. -/
def execRecoveryVerified (s : State) : Out :=
  .next <|
    if s.boot.phase ≠ .recovery ∨ s.boot.rcv.state ≠ 3 then s else
    let e := stagedErr s.icb.minSvn s.boot.rcv.staged
    if e = 0 then { s with boot.rcv.state := 4, ens := s.ens.clear (imgBase s.boot.rcv.target) 64 }
    else { s with boot.rcv.state := 6, boot.rcv.err := e }

/-- RECOVERY_WRITTEN: the region holds the image and is NEW, or the write failed. -/
def execRecoveryWritten (ok : Bool) (s : State) : Out :=
  .next <|
    if s.boot.phase ≠ .recovery ∨ s.boot.rcv.state ≠ 4 then s
    else if ok then
      let bs := s.boot.rcv.staged
      let s1 := s.writeLines (bs.length / 64 + 1) (imgBase s.boot.rcv.target / 64) bs
      { s1 with boot.rcv.state := 5, icb := s1.icb.put s1.boot.rcv.target .fresh }
    else { s with boot.rcv.state := 6, boot.rcv.err := 7 }

end Sys2Proof.Machine
end

