-- ==== Sys2Proof/Machine/Clock.lean ====
section
/-!
DEFINITION. Clock synthesis (R307 to R324): lock and loss, reference loss, coast and relock, DPLL-T's
measurements, and the `CLOCK` commands.
-/

namespace Sys2Proof.Machine

/-! ### Lock, loss and coast (R308, R314 to R316) -/

/-- PLL-A coasts (R315): LOL silences the transmitter and DPLL-T loses its input. -/
def State.coast (s : State) : State :=
  let s1 : State := { s with clk := { s.clk with
    lock := false, coast := true, recloseBy := none, coastAt := if s.clk.coast then s.clk.coastAt else s.now } }
  s1.raiseLol.dpllLoss

/-- PLLA_LOSS_OF_LOCK (R308). -/
def execPllaLossOfLock (s : State) : Out :=
  .next <| if s.domOn dPLL ∧ s.clk.lock then
      ({ s with clk.lolCount := satInc 65535 s.clk.lolCount } : State).coast
    else s

/-- Whether a count of one supervisor period is a loss of reference (R314): outside 759 to 767, or, on
the internal oscillator, below 90 % of 762.94. -/
def lorCount (fallback : Bool) (edges : Nat) : Bool :=
  if fallback then edges * 10000 < 6866460 else edges < 759 || 767 < edges

/-- LOSS_OF_REFERENCE (R314): one supervisor period with the `REFCLK` edges counted in it. -/
def execLossOfReference (edges : Nat) (s : State) : Out :=
  .next <|
    if !s.domOn dPLL || !lorCount s.clk.fallback edges then s else
    let s1 := if s.clk.refOk then { s with clk := { s.clk with refOk := false, lorCount := satInc 65535 s.clk.lorCount } } else s
    if s1.clk.relock.isSome then s1 else s1.coast

/-- XTAL_FAULT (R289, R314): the supervisor counts against PD_AO's oscillator; source 0x11. -/
def execXtalFault (s : State) : Out :=
  .next <| ({ s with clk.fallback := true } : State).timeXtalFault.aoAssert 17 0

/-- The search of a run-time relock begins: the first attempt, or a repeat in 100 ms when no entry
covers the target (R316). -/
def State.search (s : State) (r : Relock) : State :=
  match s.clk.searchList with
  | [] =>
    let s1 : State := { s with clk.relock := some { r with tries := [], attemptBy := none, retryAt := some (s.now + 100000000), by_ := none } }
    match r.by_ with
    | some (t, n) => s1.done t n Status.noBand
    | none => s1
  | l => { s with clk.relock := some { r with tries := l, attemptBy := some (s.now + 300000), retryAt := none } }

/-- Domains whose clocks stop in a run-time relock (R316). -/
def relockStops : List Dom := [dLNA, dLNL, dFRM, dPKT, dCIP, dINF, dAUD]

/-- A run-time relock begins (R316): the fabric goes to `REFCLK`, the clocks of the stopped domains stand
with their state held, and every lane loses lock. -/
def State.startRelock (s : State) (by_ : Option (Ten × SlotIx)) : State :=
  let stops := relockStops.filter fun d => s.dom d == .on
  let s1 := (s.setDoms stops .gated).lanesDark
  let s2 : State := { s1 with clk := { s1.clk with lock := false, recloseBy := none, relocks := satInc 65535 s1.clk.relocks } }
  (s2.raiseLol.dpllLoss).search { tries := [], attemptBy := none, retryAt := none, stopped := stops, by_ := by_ }

/-- The coast, if one runs, ends with a lock (R316). -/
def Clk.endCoast (x : Clk) (now : Nat) : Clk :=
  if x.coast then { x with coast := false, lastCoast := satTo (2 ^ 32 - 1) ((now - x.coastAt) / 1000000) } else x

/-- LOL clears once `PLLA_LOCK` has been held for 1 ms (Table 9.8). -/
def State.lolHeld (s : State) : State := if s.fr.lol then { s with fr.lolBy := some (s.now + 1000000) } else s

/-- PLLA_LOCK_ACQUIRED (R308, R316): ends a coast, or a run-time relock whose clocks then restart. -/
def execPllaLockAcquired (s : State) : Out :=
  .next <|
    if !s.domOn dPLL || s.clk.lock then s else
    match s.clk.relock with
    | some r => match r.tries with
      | i :: _ =>
        let s1 : State := { s.lolHeld with clk := { s.clk.endCoast s.now with lock := true, entry := some i, relock := none } }
        let s2 := (r.stopped.filter fun d => s1.dom d == .gated).foldl (fun s d => s.setDom d .on) s1
        match r.by_ with
        | some (t, n) => s2.answer t n (leBytes 1 i.val)
        | none => s2
      | [] => s
    | none =>
      if s.clk.coast ∧ s.clk.recloseBy = none then s
      else { s.lolHeld with clk := { s.clk.endCoast s.now with lock := true, recloseBy := none } }

/-- REFCLK_QUALIFIED (R316): 16 good periods and the swing check; the loop re-closes from the frozen
word. -/
def execRefclkQualified (s : State) : Out :=
  .next <|
    if !s.domOn dPLL then s else
    let s1 := { s with clk.refOk := true }
    if s1.clk.coast ∧ s1.clk.relock = none then { s1 with clk.recloseBy := some (s1.now + 1000000) } else s1

/-- RELOCK_TIMEOUT (R316): no lock within 1 ms of re-closing. -/
def execRelockTimeout (s : State) : Out :=
  .next <| match s.clk.recloseBy with
    | some d => (s.reach d).startRelock none
    | none => s

/-- LOCK_SEARCH_ATTEMPT_TIMEOUT (R312): the next entry is tried; after the last one a wake's step waits
for its own timeout, and a run-time relock repeats its search in 100 ms. -/
def execLockSearchAttemptTimeout (s : State) : Out :=
  .next <| match s.clk.relock with
    | some r => match r.attemptBy, r.tries with
      | some d, _ :: rest =>
        let s1 := s.reach d
        if rest = [] then
          let s2 : State := { s1 with clk.relock := some { r with
            tries := [], attemptBy := none, retryAt := some (s1.now + 100000000), by_ := none } }
          match r.by_ with
          | some (t, n) => s2.done t n Status.state
          | none => s2
        else { s1 with clk.relock := some { r with tries := rest, attemptBy := some (s1.now + 300000) } }
      | _, _ => s
    | none => { s with clk.wakeTries := s.clk.wakeTries.drop 1 }

/-- RELOCK_RETRY (R316). -/
def execRelockRetry (s : State) : Out :=
  .next <| match s.clk.relock with
    | some r => match r.retryAt with
      | some d => (s.reach d).search r
      | none => s
    | none => s

/-! ### DPLL-T (R317 to R320) -/

/-- A frequency in units of 0.01 ppm, one step of the phase accumulator over two frames, as `STEER`. -/
def steerOf (df : Int) : Int := Int.tdiv (df * 250 * 2 ^ 24) (10 ^ 8)

/-- `STEER` within ±200 ppm (R307). -/
def clampSteer (v : Int) : Int := max (-838861) (min 838861 v)

/-- The jump of ACQUIRE (R318); a jump beyond the limit is counted. -/
def State.dpllJump (s : State) (df : Int) : State :=
  let v := s.clk.steer - steerOf df
  { s with clk := { s.clk with
      dpll := .acquire, jumped := true, steer := clampSteer v
      steerLim := if clampSteer v = v then s.clk.steerLim else satInc 65535 s.clk.steerLim } }

/-- ACQUIRE is entered from HOLD (R320): the transmitter is silenced (R321), and the jump follows at once. -/
def State.dpllAcquire (s : State) (df : Int) : State := ((s.emptyTable.withdrawAll).cutBurst).dpllJump df

/-- TRACK is entered; the detector is re-zeroed (R317). -/
def State.dpllTrack (s : State) : State :=
  { s with clk := { s.clk with dpll := .track, tracked := true, jumped := false, loopAt := s.now } }

/-- DPLL_MEASUREMENT (R318, R320): the phase moved by `df` sixty-fourths of a UI over two frames, which
is 0.01 ppm each. -/
def execDpllMeasurement (df : Int) (s : State) : Out :=
  .next <|
    if !s.clk.lock ∨ !s.boot.core1Up ∨ !s.activeSync then s else
    let s1 := { s with clk.ferr := df * 10 }
    match s.clk.dpll with
    | .acquire => if s.clk.jumped ∧ df.natAbs ≤ 10 then s1.dpllTrack.fromNextMap else s1.dpllJump df
    | .hold => if df.natAbs ≤ 500 then s1.dpllTrack else s1.dpllAcquire df
    | _ => s

/-- DPLL_TRACK_UPDATE (R319): `STEER` moves towards the loop's aim, a free value, by at most 2 ppm/s and
within ±200 ppm; coming to the limit is counted. -/
def execDpllTrackUpdate (phase : Int) (s : State) : Out :=
  .next <|
    if s.clk.dpll ≠ .track ∨ !s.clk.lock ∨ !s.boot.core1Up ∨ !s.activeSync then s else
    let aim := Config.loopSteer s.clk.bw phase s.free
    let step : Int := ((2 * 250 * 2 ^ 24 * (s.now - s.clk.loopAt)) / 10 ^ 15 : Nat)
    let v := clampSteer (max (s.clk.steer - step) (min (s.clk.steer + step) aim))
    let hit := v.natAbs == 838861 && s.clk.steer.natAbs != 838861
    let s1 := s.freed
    { s1 with clk := { s1.clk with
        steer := v, loopAt := s1.now, steerLim := if hit then satInc 65535 s1.clk.steerLim else s1.clk.steerLim } }

/-! ### The CLOCK commands (R324) -/

/-- `PLL_STATE` of Table 13.5. -/
def Clk.pllState (x : Clk) : Nat :=
  if x.relock.isSome then 3 else if x.wakeTries != [] then 1 else if x.coast then 2 else if x.lock then 0 else 1

/-- `DPLL_STATE` of Table 13.5. -/
def Dpll.code : Dpll → Nat
  | .open_ => 0 | .acquire => 1 | .track => 2 | .hold => 3

/-- The 32 bytes of `CLOCK.STATUS` (Table 13.5). -/
def clockStatus (x : Clk) : List Byte :=
  leBytes 1 x.pllState ++ leBytes 1 (match x.entry with | some i => i.val | none => 0xFF) ++ leBytes 1 x.dpll.code
    ++ leBytes 1 (b2n x.refOk + 2 * b2n (x.steer.natAbs == 838861) + 4 * b2n x.fallback + 8 * b2n x.romDefault)
    ++ leInt 4 x.steer ++ leInt 4 x.ferr ++ leBytes 2 x.lolCount ++ leBytes 2 x.lorCount ++ leBytes 2 x.relocks
    ++ leBytes 2 x.holds ++ leBytes 2 x.steerLim ++ leBytes 1 x.bw ++ leBytes 1 x.amp ++ leBytes 4 x.seed
    ++ leBytes 4 x.lastCoast

/-- CLOCK_STATUS. -/
def execClockStatus (t : Ten) (n : SlotIx) (s : State) : Out :=
  command 0x0601 [(0, 1)] t n s fun s =>
    let f := s.prm1 t n 0
    s.guard t n [(1 < f, Status.param)] fun s =>
      let s1 : State := if bit f 0 then
          { s with clk := { s.clk with lolCount := 0, lorCount := 0, relocks := 0, holds := 0, steerLim := 0 } } else s
      s1.answer t n (clockStatus s.clk)

/-- CLOCK_BAND_READ. -/
def execClockBandRead (t : Ten) (n : SlotIx) (s : State) : Out :=
  command 0x0602 [(0, 2)] t n s fun s =>
    let i := s.prm1 t n 0
    let c := s.prm1 t n 1
    s.guard t n [(31 < i || c == 0 || 6 < c || 32 < i + c, Status.param)] fun s =>
      s.answer t n (((s.clk.bands.toList.drop i).take c).flatMap fun e => leBytes 8 e.toNat)

/-- The table after a write of entries from an index (R310). -/
def bandsPut (b : Vector (BitVec 64) 32) (i : Nat) (es : List (BitVec 64)) : Vector (BitVec 64) 32 :=
  Vector.ofFn fun k => if i ≤ k.val ∧ k.val < i + es.length then bandFields (es.getD (k.val - i) 0) else b[k]

/-- CLOCK_BAND_WRITE (R310, R311). -/
def execClockBandWrite (t : Ten) (n : SlotIx) (s : State) : Out :=
  commandBy 0x0603 t n s fun s =>
    let i := s.prm1 t n 0
    let c := s.prm1 t n 1
    let f := s.prm1 t n 2
    let es := (List.range c).map fun k => BitVec.ofNat 64 (s.prm t n (8 + 8 * k) 8)
    let b := bandsPut s.clk.bands i es
    s.guard t n [(31 < i || c == 0 || 6 < c || 32 < i + c || 1 < f || s.stray t n [(0, 3), (8, 8 * c)] || !bandsOk b, Status.param),
                 (!(s.inFactory || s.thawed) || (bit f 0 && !s.inFactory), Status.state),
                 (s.clk.searching, Status.busy)] fun s =>
      let s1 := { s with clk.bands := b }
      (if bit f 0 then ({ s1 with store.bands := some b } : State).updateEnded 6 Status.ok else s1).done t n Status.ok

/-- CLOCK_DITHER (R313). -/
def execClockDither (t : Ten) (n : SlotIx) (s : State) : Out :=
  command 0x0604 [(0, 6)] t n s fun s =>
    let seed := s.prm t n 0 4
    let a := s.prm1 t n 4
    let f := s.prm1 t n 5
    s.guard t n [(2 ^ 23 ≤ seed || a == 0 || 2 < a || 1 < f, Status.param), (seed == 0, Status.badSeed),
                 (bit f 0 && s.configBusy, Status.regionBusy)] fun s =>
      let s1 : State := { s with clk := { s.clk with seed := seed, amp := a } }
      (if bit f 0 then ({ s1 with store.seed := some seed } : State).persisted else s1).done t n Status.ok

/-- CLOCK_DPLL_CONFIG (R319). -/
def execClockDpllConfig (t : Ten) (n : SlotIx) (s : State) : Out :=
  command 0x0605 [(0, 2)] t n s fun s =>
    let b := s.prm1 t n 0
    let f := s.prm1 t n 1
    s.guard t n [(3 < b || 1 < f, Status.param), (bit f 0 && s.configBusy, Status.regionBusy)] fun s =>
      let s1 := { s with clk.bw := b }
      (if bit f 0 then ({ s1 with store.bw := some b } : State).persisted else s1).done t n Status.ok

/-- CLOCK_RELOCK (R316): the result posts after the search. -/
def execClockRelock (t : Ten) (n : SlotIx) (s : State) : Out :=
  command 0x0606 [] t n s fun s =>
    s.guard t n [(!(s.inFactory || s.thawed), Status.state), (s.clk.searching, Status.busy)] fun s =>
      s.startRelock (some (t, n))

end Sys2Proof.Machine
end

