-- ==== Sys2Proof/Machine/Tenants.lean ====
section
/-!
DEFINITION. The `TENANT` commands (R137 to R163): status, attach, detach, reset, leases, binding,
shares, partitions and delegation, and the results that wait for running accesses (R160).
-/

namespace Sys2Proof.Machine

/-- The tenant a target byte names: 0xFF is the requester itself; 8 to 0xFE name none. -/
def targetOf (t : Ten) (b : Nat) : Option Ten :=
  if b = 0xFF then some t else if b < 8 then some (Fin.ofNat 8 b) else none

/-- Whether a tenant another one names is unreachable: T0 while not IN_SERVICE (R149), a lane tenant
while its lane has no link. -/
def State.unreachable (s : State) (u : Ten) : Bool :=
  if u = 0 then !s.inService else
  match laneOf (s.ten u).cfg.transport with
  | some l => (s.ten u).st != .detached && !s.laneLink l
  | none => false

/-- The state byte of `TENANT.STATUS` (Table 6.10). -/
def TState.code : TState → Nat
  | .detached => 0 | .attached => 1 | .faulted => 2

/-- The transport a tenant is reported on; T0's is the owner mailbox (Table 6.1). -/
def State.transportOf (s : State) (t : Ten) : Nat := if t = 0 then 1 else (s.ten t).cfg.transport.toNat

/-- The 24 bytes of `TENANT.STATUS` (Table 6.10). -/
def tenantStatus (s : State) (u : Ten) : List Byte :=
  let x := s.ten u
  leBytes 1 u.val ++ leBytes 1 x.st.code ++ leBytes 2 (s.authOf u).toNat ++ leBytes 4 x.session.toNat
    ++ leBytes 4 (s.leaseMask u) ++ leBytes 2 x.leaseMs ++ leBytes 2 (satTo 65535 ((s.now - x.hbLast) / 1000000))
    ++ leBytes 1 (s.transportOf u) ++ leBytes 1 (b2n (s.delegate == some u) + 2 * b2n x.residual)
    ++ List.replicate 6 0

/-- TENANT_STATUS (R149, R163). -/
def execTenantStatus (t : Ten) (n : SlotIx) (s : State) : Out :=
  commandBy 0x0201 t n s fun s =>
    match targetOf t (s.prm1 t n 0) with
    | none => s.done t n Status.param
    | some u =>
      if u ≠ t ∧ !s.ownerAt t n then s.done t n Status.authority
      else if s.stray t n [(0, 1)] then s.done t n Status.param
      else if u ≠ t ∧ u ≠ 0 ∧ s.unreachable u then s.done t n Status.unreachable
      else s.answer t n (tenantStatus s u)

/-- TENANT_ATTACH (R140, R141): a new session for an SPI tenant; the slot of the command posts after
the session's slots are EMPTY. -/
def execTenantAttach (t : Ten) (n : SlotIx) (s : State) : Out :=
  command 0x0202 [(0, 3)] t n s fun s =>
    let lease := s.prm t n 0 2
    let x := s.ten t
    s.guard t n [(1 < s.prm1 t n 2 || (lease != 0 && (lease < 100 || 10000 < lease)), Status.param),
                 (t == 0 || x.st != .detached || (spiOf x.cfg.transport).isNone, Status.state)] fun s =>
      let y := s.slot t n
      let s1 := (s.openSession t lease (bit (s.prm1 t n 2) 0)).setSlot t n { y with cmd := Vector.replicate 64 0 }
      let z := s1.ten t
      s1.answer t n (leBytes 4 z.session.toNat ++ leBytes 2 (s1.authOf t).toNat ++ leBytes 1 z.cfg.part ++ [0])

/-! ### Results that wait -/

/-- READY results of slots 0 to 6 but one. -/
def State.readyLow (s : State) (u : Ten) (but : Option SlotIx) : Nat :=
  (lowSlots.filter fun m => (s.slot u m).phase == .ready && but != some m).length

/-- Commands of slots 0 to 6 that a reset stops. -/
def State.pendingLow (s : State) (u : Ten) (but : Option SlotIx) : Nat :=
  (lowSlots.filter fun m => (s.slot u m).pending && but != some m).length

/-- The slot of slots 0 to 6 whose own command ends its session. -/
def ownSlot (t : Ten) (n : SlotIx) (u : Ten) : Option SlotIx := if u = t ∧ n ≠ 7 then some n else none

/-- What a waiting result still does as it posts: the end of a session stops what has been accepted since, and ends what it
acquired since (R141, R158). -/
def State.finish (s : State) (d : Drain) : State :=
  match d.fin with
  | .plain => s.answer d.ten d.slot d.data
  | .grant id => (s.grantLease d.ten id).answer d.ten d.slot d.data
  | .detach =>
    ((s.askStopAll d.ten (ownSlot d.ten d.slot d.ten) .detach).endSession d.ten).answer d.ten d.slot []
  | .reset u keep stopped =>
    let own := ownSlot d.ten d.slot u
    let all := stopped + s.pendingLow u own
    let s1 := (s.askStopAll u own .reset).endSession u
    let ready := s1.readyLow u own
    let res := (s.ten u).residual
    (s1.resetSession u keep own (u != d.ten)).answer d.ten d.slot
      (leBytes 1 all ++ leBytes 1 (ready - all) ++ [BitVec.ofNat 8 (b2n res), 0])

/-- A result posts at once when nothing is left to wait for, and waits otherwise (R160). -/
def State.drainOrPost (s : State) (d : Drain) : State :=
  if s.drained d then s.finish d else { s with mbx.drains := s.mbx.drains ++ [d] }

/-- PERMISSION_DRAIN_DONE (R154, R159, R160). -/
def execPermissionDrainDone (t : Ten) (n : SlotIx) (s : State) : Out :=
  .next <| match s.mbx.drains.find? fun d => d.ten == t && d.slot == n with
    | some d =>
      if s.drained d then
        ({ s with mbx.drains := s.mbx.drains.filter fun e => !(e.ten == t && e.slot == n) } : State).finish d
      else s
    | none => s

/-! ### Detach and reset (R158, R159, R162) -/

/-- TENANT_DETACH: the tenant's commands stop, its leases are released, and the result posts last. DESIGN CHOICE (log entry
540): a FAULTED tenant, which leaves that state by other ways only (R157), is answered `ERR_STATE`. -/
def execTenantDetach (t : Ten) (n : SlotIx) (s : State) : Out :=
  command 0x0203 [] t n s fun s =>
    if t = 0 ∨ (s.ten t).st ≠ .attached then s.done t n Status.state else
    let s1 := s.askStopAll t (ownSlot t n t) .detach
    let ids := s1.leasesOf t
    let x := s1.ten t
    let s2 := (s1.endSession t).modTen t fun y => { y with st := x.st }
    s2.drainOrPost { ten := t, slot := n, data := [], after := s2.runningOf t (t, n), res := ids, fin := .detach }

/-- A reset by CC0 (R158): commands are asked to stop, leases released, and the rest is done when they
have stopped. -/
def State.resetByCc0 (s : State) (t : Ten) (n : SlotIx) (u : Ten) (keep : Bool) : State :=
  let own := ownSlot t n u
  let count := s.pendingLow u own
  let ids := s.leasesOf u
  let x := s.ten u
  let s1 := s.askStopAll u own .reset
  let s2 := (s1.endSession u).modTen u fun y => { y with st := x.st }
  s2.drainOrPost { ten := t, slot := n, data := [], after := s2.runningOf u (t, n), res := ids,
                   fin := .reset u keep count }

/-- A rescue by CC1 in slot 7 (R162): slots, ring, window, lease table and notice at once; what needs
CC0 is queued, and the result carries `RESIDUAL` while any of it is left. -/
def State.resetByCc1 (s : State) (t : Ten) (n : SlotIx) (u : Ten) (keep : Bool) : State :=
  let own := ownSlot t n u
  let count := s.pendingLow u own
  let ready := s.readyLow u own
  let ids := (s.leasesOf u).filter s.needsCc0 ++ s.jobsNeedCc0 u
  let s0 := s.letRun u own
  let s1 := ids.foldl (fun s id => s.freeLease id) s0
  let s2 := { s1 with mbx.residue := s1.mbx.residue ++ ids.map (fun id => (u, id)),
                      mbx.revoking := s1.mbx.revoking ++ ids.filter (s.hasLease u) }
  let s3 := (s2.endSession u).modTen u fun x => { x with residual := ids != [] }
  (s3.resetSession u keep own (u != t)).answer t n
    (leBytes 1 count ++ leBytes 1 ready ++ [BitVec.ofNat 8 (b2n (ids != [])), 0])

/-- TENANT_RESET (R158, R159, R162). -/
def execTenantReset (t : Ten) (n : SlotIx) (s : State) : Out :=
  commandBy 0x0204 t n s fun s =>
    match targetOf t (s.prm1 t n 0) with
    | none => s.done t n Status.param
    | some u =>
      s.guard t n [(u != t && !s.ownerAt t n, Status.authority), (1 < s.prm1 t n 1 || u == 0 || s.stray t n [(0, 2)], Status.param),
                   (u != t && s.unreachable u, Status.unreachable)] fun s =>
        if (s.ten u).st = .detached then s.answer t n [0, 0, 0, 0]
        else if n = 7 then s.resetByCc1 t n u (bit (s.prm1 t n 1) 0)
        else s.resetByCc0 t n u (bit (s.prm1 t n 1) 0)

/-! ### Leases (R153, R154) -/

/-- The previous holder of a resource as the result gives it. -/
def holderByte (h : Option Ten) : List Byte :=
  [match h with | some u => BitVec.ofNat 8 u.val | none => 0xFF]

/-- The commands of a holder that use a resource and stop at a safe point when it is taken (R154): an `ENS.WRITE` of the
region, a Firn job in exclusive mode. -/
def State.usersOf (s : State) (u : Ten) (id : Nat) : List SlotIx :=
  lowSlots.filter fun m => (s.slot u m).phase == .running &&
    ((s.slot u m).opcode == 0x0D02 && regionLease (s.prm1 u m 0) == id || (s.slot u m).opcode == 0x0F05 && id == 6)

/-- A resource is on its way from its holder to the owner, or still stopping (R154). -/
def State.changing (s : State) (id : Nat) : Bool :=
  s.mbx.revoking.contains id || s.mbx.drains.any fun d => d.fin == .grant id

/-- TENANT_LEASE (R154). -/
def execTenantLease (t : Ten) (n : SlotIx) (s : State) : Out :=
  commandBy 0x0205 t n s fun s =>
    let what := s.prm1 t n 0
    let id := s.prm1 t n 1
    let h := s.holder id
    s.guard t n [(leaseNeed id == .bad, Status.param),
                 (!maskAllows t (s.slot t n).rights.auth (s.ownerAt t n) id || (what == 2 && !s.ownerAt t n), Status.authority),
                 (2 < what || s.stray t n [(0, 2)], Status.param)] fun s =>
      match what with
      | 0 =>
        if h = some t then s.answer t n (holderByte h)
        else if h.isSome then s.done t n Status.lease
        else if s.changing id then s.done t n Status.busy
        else (s.grantLease t id).answer t n (holderByte none)
      | 1 =>
        if h ≠ some t then s.done t n Status.lease else
        let s1 := s.revoke id
        s1.drainOrPost { ten := t, slot := n, data := holderByte h, after := [], res := [id], fin := .plain }
      | _ =>
        match h with
        | some u =>
          if u = t then s.answer t n (holderByte h) else
          let users := s.usersOf u id
          let s1 := users.foldl (fun s m => s.askStop u m .lease) s
          let s2 := (s1.revoke id).tellRevoked u id 0
          s2.drainOrPost { ten := t, slot := n, data := holderByte h, after := s2.runningOf u (t, n),
                           res := [id], fin := .grant id }
        | none =>
          if s.changing id then s.done t n Status.busy
          else (s.grantLease t id).answer t n (holderByte none)

/-! ### Binding, shares, partitions -/

/-- Transport codes a binding may name (Table 6.1). -/
def bindable (code : Nat) : Bool := code == 0 || (0x10 ≤ code && code ≤ 0x13) || code == 0x22 || code == 0x23

/-- Whether a binding stands (R138, R151). -/
def State.bindOk (s : State) (u : Ten) (code cred : Nat) : Bool :=
  bindable code && (code == 0 || (s.ten u).cfg.part != 0) &&
  match spiOf (BitVec.ofNat 8 code), laneOf (BitVec.ofNat 8 code) with
  | some p, _ => cred == 0 && (s.tenOfPort p == none || s.tenOfPort p == some u)
  | _, some _ => s.credOk cred u
  | _, _ => cred == 0

/-- TENANT_BIND (R138, R152, R160, R161, R163): an authority removed takes its leases with it; a
change of the transport ends the session as a reset. -/
def execTenantBind (t : Ten) (n : SlotIx) (s : State) : Out :=
  command 0x0206 [(0, 6)] t n s fun s =>
    let b := s.prm1 t n 0
    let u : Ten := Fin.ofNat 8 b
    let code := s.prm1 t n 1
    let cred := s.prm1 t n 2
    let auth := s.prm t n 4 2
    s.guard t n [(b == 0 || 7 < b || s.prm1 t n 3 != 0 || 0x1FF < auth || !s.bindOk u code cred, Status.param),
                 (s.unreachable u, Status.unreachable), (s.fuses.life == .retired, Status.state),
                 (s.configBusy, Status.regionBusy)] fun s =>
      let old := (s.ten u).cfg
      let s1 := s.modTen u fun x => { x with
        cfg.transport := BitVec.ofNat 8 code, cfg.cred := cred, cfg.auth := BitVec.ofNat 16 auth }
      let lost := (s1.leasesOf u).filter fun id => !maskAllows u (s1.authOf u) (s1.isOwner u) id
      let s2 := lost.foldl (fun s id => (s.revoke id).tellRevoked u id 4) s1
      let moved := old.transport.toNat ≠ code
      let s4 := if moved ∧ (s2.ten u).st ≠ .detached then s2.resetNow u false (ownSlot t n u) (u != t) else s2
      let s5 := if moved ∨ old.cred ≠ cred then { s4 with sram := s4.sram.clear (s4.partAddr u 0) (s4.partBytes u) } else s4
      let removed := old.auth &&& ~~~(BitVec.ofNat 16 auth) ≠ 0
      let s6 := s5.persisted
      s6.drainOrPost { ten := t, slot := n, data := [], after := if removed then s5.runningOf u (t, n) else [],
                       res := lost, fin := .plain }

/-- TENANT_SET_QOS (R150, R160, R163): a narrowed `UQ_MASK` is a permission change. -/
def execTenantSetQos (t : Ten) (n : SlotIx) (s : State) : Out :=
  command 0x0207 [(0, 24)] t n s fun s =>
    let b := s.prm1 t n 0
    let u : Ten := Fin.ofNat 8 b
    let weight := s.prm1 t n 1
    let rate := s.prm t n 2 2
    let firn := s.prm1 t n 4
    let budget := s.prm t n 6 2
    let mask := BitVec.ofNat 64 (s.prm t n 8 8)
    s.guard t n [(7 < b || weight == 0 || rate < 10 || 10000 < rate || firn == 0 || s.prm1 t n 5 != 0
                    || budget == 0 || 10000 < budget, Status.param),
                 (u != t && s.unreachable u, Status.unreachable), (s.fuses.life == .retired, Status.state),
                 (s.configBusy, Status.regionBusy)] fun s =>
      let old := (s.ten u).cfg.uqMask
      let caps : Vector Nat 8 := Vector.ofFn fun g => s.prm1 t n (16 + g.val)
      let s1 := s.modTen u fun x => { x with
        cfg.weight := weight, cfg.rate := rate, cfg.firnWeight := firn, cfg.evtBudget := budget,
        cfg.uqMask := mask, cfg.gsCap := caps }
      let s2 := s1.persisted
      s2.drainOrPost { ten := t, slot := n, data := [],
                       after := if old &&& ~~~mask ≠ 0 then s1.runningOf u (t, n) else [], res := []
                       held := if old &&& ~~~mask ≠ 0 then s1.classified u else [], fin := .plain }

/-- The base of tenant t under a list of sizes, in units of 64 KiB. -/
def baseIn (sizes : Vector Nat 8) (t : Ten) : Nat :=
  ((List.finRange 8).filter (· < t)).foldl (fun a u => a + sizes[u]) 0

/-- The tenant area after new sizes (R152): a moved partition is cleared whole, a grown one in its
added part. -/
def movedSram (m : Memory) (old new : Vector Nat 8) : Memory :=
  allTen.foldl (fun m u =>
    if baseIn old u ≠ baseIn new u then m.clear (baseIn new u * 65536) (new[u] * 65536)
    else m.clear ((baseIn new u + old[u]) * 65536) ((new[u] - old[u]) * 65536)) m

/-- Commands whose bulk reference reaches into the removed part of a shrinking partition are asked to
stop at their next safe point (R161). -/
def State.stopBeyond (s : State) (u : Ten) (bytes : Nat) : State :=
  (lowSlots.filter fun m => (s.slot u m).phase == .running && (s.slot u m).bulk
      && hasSafePoint (s.slot u m).opcode && bytes < (s.slot u m).bOff + (s.slot u m).bLen).foldl
    (fun s m => s.askStop u m .abort) s

/-- TENANT_PARTITION (R151, R152, R160, R161, R163). DESIGN CHOICE (log entry 541): a FAULTED tenant counts as attached, since
its session is open. -/
def execTenantPartition (t : Ten) (n : SlotIx) (s : State) : Out :=
  command 0x0208 [(0, 9)] t n s fun s =>
    let new : Vector Nat 8 := Vector.ofFn fun u => s.prm1 t n u.val
    let old : Vector Nat 8 := Vector.ofFn fun u => (s.ten u).cfg.part
    let total := allTen.foldl (fun a u => a + new[u]) 0
    s.guard t n [(1 < s.prm1 t n 8 || allTen.any (fun u => 24 < new[u]) || 32 < total
                    || allTen.any (fun u => s.bound u && new[u] == 0), Status.param),
                 (s.fuses.life == .retired || allTen.any (fun u => (s.ten u).st != .detached &&
                    (baseIn old u != baseIn new u || old[u] < new[u])), Status.state),
                 (s.configBusy, Status.regionBusy)] fun s =>
      let shrunk := allTen.filter fun u => new[u] < old[u]
      let s1 := shrunk.foldl (fun s u => s.stopBeyond u (new[u] * 65536)) s
      let s2 := allTen.foldl (fun s u => s.modTen u fun x => { x with cfg.part := new[u] })
        { s1 with sram := movedSram s1.sram old new }
      let s3 := if bit (s.prm1 t n 8) 0 then ({ s2 with store.parts := new } : State).persisted else s2
      s3.drainOrPost { ten := t, slot := n, data := allTen.map fun u => BitVec.ofNat 8 (baseIn new u),
                       after := shrunk.flatMap fun u => s3.runningOf u (t, n), res := [], fin := .plain }

/-- TENANT_DELEGATE (R147, R148). The range of a duration is that of a delegation: the end of one has none (log entry 542). -/
def execTenantDelegate (t : Ten) (n : SlotIx) (s : State) : Out :=
  command 0x0209 [(0, 4)] t n s fun s =>
    let b := s.prm1 t n 0
    let u : Ten := Fin.ofNat 8 b
    let mins := s.prm t n 2 2
    let prev := holderByte s.delegate
    if s.prm1 t n 1 ≠ 0 then s.done t n Status.param
    else if b = 0xFF then (s.endDelegation 1).answer t n prev
    else s.guard t n [(b == 0 || 7 < b || mins == 0 || 1440 < mins, Status.param),
                      (s.unreachable u, Status.unreachable), ((s.ten u).st != .attached, Status.state)] fun s =>
      let s1 := if s.delegate = some u then s else s.endDelegation 2
      ({ s1 with mbx.delegate := some (u, s1.now + mins * 60000000000) } : State).answer t n prev

end Sys2Proof.Machine
end

