-- ==== Sys2Proof/Machine/Events.lean ====
section
/-!
DEFINITION. The event router (R164 to R182): service of the latches, the delivery modes, the event
records of the rings, and the `EVT` commands.
-/

namespace Sys2Proof.Machine

/-! ### Records (R133, R134, R175) -/

/-- An event generated for a tenant and lost (R134): its number is used up and the next record
carries `LOSS`. -/
def Tenant.lose (x : Tenant) : Tenant := { x with evtSeq := x.evtSeq + 1, loss := true }

/-- The record of an event (Table 5.8). -/
def Tenant.record (x : Tenant) (vid : Nat) (code : Half) (l : Latch) : EvtRec :=
  { flags := BitVec.ofNat 8 (b2n x.loss + 2 * b2n l.est), vid := BitVec.ofNat 8 vid, code := code,
    tt := l.tt % 2 ^ 48, data := l.data, seq := x.evtSeq }

/-- A record written at `HEAD`, which then advances (R133). -/
def Tenant.push (x : Tenant) (r : EvtRec) : Tenant :=
  { x with ring := x.ring.set (Fin.ofNat 64 x.win.head.toNat) r, win.head := x.win.head + 1,
           evtSeq := x.evtSeq + 1, loss := false }

/-- Unread records. -/
def Tenant.unread (x : Tenant) : Nat := (x.win.head - x.win.tail).toNat

/-- The ring takes an event, or a full ring loses it and sets `EVT_OVF` (R134). -/
def State.ringEvent (s : State) (t : Ten) (vid : Nat) (code : Half) (l : Latch) : State :=
  let x := s.ten t
  if x.unread = 64 then
    (s.setTen t { x.lose with lostRing := satInc 65535 x.lostRing }).flagTen t (·.evtOvf) fun w => { w with evtOvf := true }
  else (s.setTen t (x.push (x.record vid code l))).notify t

/-- An event for a tenant: the budget is charged before the ring, directed events are exempt from
the budget, and a DETACHED tenant receives nothing (R169, R175). -/
def State.deliver (s : State) (t : Ten) (vid : Nat) (code : Half) (l : Latch) (directed : Bool) : State :=
  let x := s.ten t
  if x.st = .detached then s
  else if directed then s.ringEvent t vid code l
  else
    let b := x.evtBucket.fill x.cfg.evtBudget 64 s.now
    if b.any then (s.setTen t { x with evtBucket := b.take }).ringEvent t vid code l
    else s.setTen t { x.lose with evtBucket := b, lostBudget := satInc 65535 x.lostBudget }

/-! ### Service (R166, R171 to R174) -/

/-- The VID a tenant maps a source to (R167). -/
def Tenant.vidOf (x : Tenant) (src : Fin 256) : Option (Fin 64) :=
  (List.finRange 64).find? fun v => x.vids[v] == some src

/-- Whether a tenant can take a LOWEST event (R172). -/
def State.eligible (s : State) (t : Ten) : Bool :=
  let x := s.ten t
  x.st == .attached && x.unread < 64 && (x.evtBucket.fill x.cfg.evtBudget 64 s.now).any &&
    (if t = 0 then s.inService else match laneOf x.cfg.transport with
      | some l => s.laneLink l
      | none => true)

/-- Tenant targets of a routing entry. -/
def Source.tenants (x : Source) : List Ten := allTen.filter fun t => x.targets.getLsbD t.val

/-- The tenant a LOWEST event goes to: the lowest current priority among the eligible targets, the
first at or after the round-robin pointer among equals (R172, R173). -/
def State.lowestTarget (s : State) (x : Source) : Option Ten :=
  let cand := x.tenants.filter s.eligible
  let least := cand.foldl (fun m t => min m (s.ten t).win.cpri.toNat) 15
  ((List.range 8).map fun i => x.ptr + Fin.ofNat 8 i).find? fun t =>
    cand.contains t && (s.ten t).win.cpri.toNat == least

/-- A record for one tenant under its own VID. -/
def State.deliverTo (s : State) (src : Fin 256) (l : Latch) (t : Ten) : State :=
  match (s.ten t).vidOf src with
  | some v => s.deliver t v.val (BitVec.ofNat 16 (0x1000 + src.val)) l false
  | none => s

/-- A served event delivered under its mode (R171, R172). -/
def State.deliverEvent (s : State) (src : Fin 256) (l : Latch) : State :=
  let x := s.source src
  let s1 := s.coreEvent src l
  if x.lowest then
    match s1.lowestTarget x with
    | some t => (s1.deliverTo src l t).modSource src fun y => { y with ptr := t + 1 }
    | none => s1.modSource src fun y => { y with noTarget := satInc 255 y.noTarget }
  else x.tenants.foldl (fun s t => s.deliverTo src l t) s1

/-- The set latch the router serves next: highest `PRIO`, then lowest source number (R166); source
0xF0 stands for the directed events. -/
def State.nextLatch (s : State) : Option (Fin 256) :=
  let set := (List.finRange 256).filter fun i =>
    if i.val = 0xF0 then s.evt.directed != [] else (s.source i).latch.isSome
  let top := set.foldl (fun m i => max m (s.source i).prio.toNat) 0
  set.find? fun i => (s.source i).prio.toNat == top

/-- EVENT_LATCH_SERVE (R166, R168, R171, R172). -/
def execEventLatchServe (s : State) : Out :=
  .next <| if !s.domOn dCTL then s else
    match s.nextLatch with
    | none => s
    | some i =>
      if i.val = 0xF0 then
        match s.evt.directed with
        | [] => s
        | d :: rest =>
          (allTen.filter fun t => d.targets.getLsbD t.val).foldl
            (fun s t => s.deliver t 0 d.code d.latch true) { s with evt.directed := rest }
      else match (s.source i).latch with
        | some l => (s.modSource i fun x => { x with latch := none }).deliverEvent i l
        | none => s

/-- EVENT_SOURCE_ASSERT (R164, R166, R178). -/
def execEventSourceAssert (src : Fin 256) (data : Word) (s : State) : Out :=
  .next <| if src.val < 0x20 then s.aoAssert (Fin.ofNat 32 src.val) data else s.raise src data

/-- MBX_NOTICE_REPEAT (R176): every 8 multiframes while the condition holds and the status is unread. -/
def execMbxNoticeRepeat (s : State) : Out :=
  .next <| match (s.ten 0).noticeBy with
    | some d =>
      let s1 := s.reach d
      if (s1.ten 0).irq && !(s1.ten 0).statusRead then s1.sendNotice 0
      else s1.modTen 0 fun x => { x with noticeBy := none }
    | none => s

/-! ### The EVT commands (R182) -/

/-- The subscribe authority of a source (Table 7.1): none, or the bit of Table 6.4. -/
def subscribeBit (src : Nat) : Option Nat :=
  if src ≤ 0x07 then none else if src = 0x08 then some 0
  else if src ≤ 0x0F then some 7 else if src ≤ 0x11 then some 0
  else if src < 0x30 then some 1 else if src ≤ 0x39 then none
  else if src ≤ 0x56 then some 7 else if src ≤ 0x79 then some 2 else if src ≤ 0x86 then some 7
  else if src ≤ 0x93 then some 6 else if src ≤ 0xA4 then some 4 else if src ≤ 0xAB then some 5
  else if src ≤ 0xC7 then none else some 7

/-- Whether a source exists and takes subscriptions (R164). -/
def subscribable (src : Nat) : Bool := (sourceDom src).isSome && src != 0xF0

/-- EVT_SUBSCRIBE (R167, R182). -/
def execEvtSubscribe (t : Ten) (n : SlotIx) (s : State) : Out :=
  commandBy 0x0301 t n s fun s =>
    let b := s.prm1 t n 0
    let src : Fin 256 := Fin.ofNat 256 b
    let v := s.prm1 t n 1
    let x := s.ten t
    s.guard t n [(subscribable b && (match subscribeBit b with | some k => !s.holdsAt t n k | none => false), Status.authority),
                 (!subscribable b || v == 0 || 63 < v || s.stray t n [(0, 2)], Status.param),
                 (x.vids[(Fin.ofNat 64 v : Fin 64)].isSome || (x.vidOf src).isSome, Status.state)] fun s =>
      ((s.modTen t fun y => { y with vids := y.vids.set (Fin.ofNat 64 v) (some src) }).modSource src fun y =>
        { y with targets := y.targets ||| (1#8 <<< t.val) }).done t n Status.ok

/-- EVT_UNSUBSCRIBE (R167, R170, R182). -/
def execEvtUnsubscribe (t : Ten) (n : SlotIx) (s : State) : Out :=
  command 0x0302 [(0, 1)] t n s fun s =>
    let v := s.prm1 t n 0
    if v = 0 ∨ 63 < v then s.done t n Status.param else
    match (s.ten t).vids[(Fin.ofNat 64 v : Fin 64)] with
    | none => s.done t n Status.state
    | some src =>
      ((s.modTen t fun y => { y with vids := y.vids.set (Fin.ofNat 64 v) none }).modSource src fun y =>
        { y with targets := y.targets &&& ~~~(1#8 <<< t.val) }).done t n Status.ok

/-- EVT_CONFIG (R182): for 0xF0 only `PRIO` is applied. -/
def execEvtConfig (t : Ten) (n : SlotIx) (s : State) : Out :=
  command 0x0303 [(0, 3)] t n s fun s =>
    let b := s.prm1 t n 0
    let m := s.prm1 t n 1
    let p := s.prm1 t n 2
    s.guard t n [(3 < m || 15 < p, Status.param)] fun s =>
      (s.modSource (Fin.ofNat 256 b) fun x =>
        if b = 0xF0 then { x with prio := BitVec.ofNat 4 p }
        else { x with en := bit m 0, lowest := bit m 1, prio := BitVec.ofNat 4 p }).done t n Status.ok

/-- EVT_AO_WATCH (R177, R182). -/
def execEvtAoWatch (t : Ten) (n : SlotIx) (s : State) : Out :=
  command 0x0304 [(0, 4)] t n s fun s =>
    let w := s.prm t n 0 4
    s.guard t n [(2 ^ 18 ≤ w || 16 < setSizeOf (BitVec.ofNat 32 w), Status.param)] fun s =>
      ({ s with power.wcfg.set := BitVec.ofNat 32 w } : State).answer t n (leBytes 4 w)

/-- The core that serves a slot's command (R25). -/
def Slot.servedBy (x : Slot) (n : SlotIx) : Fin 2 := if n = 7 ∧ !x.core0 then 1 else 0

/-- The current priority Nergor publishes for a core (R174): 8 while it serves a command, else 1 while
it has other firmware work, else 0. A core handles an event within the service of its latch. -/
def State.corePrio (s : State) (core : Fin 2) : Nat :=
  if allTen.any fun u => (List.finRange 8).any fun m =>
      (s.slot u m).phase == .running && (s.slot u m).servedBy m == core then 8
  else if s.coreWorks core then 1 else 0

/-- The 24 bytes of the `EVT.STATUS` summary (Table 7.7). -/
def evtSummary (s : State) (t : Ten) : List Byte :=
  let x := s.ten t
  leBytes 8 (bitsOf 64 fun v => v.val == 0 || x.vids[v].isSome) ++ leBytes 2 x.lostBudget ++ leBytes 2 x.lostRing
    ++ leBytes 1 ((x.evtBucket.fill x.cfg.evtBudget 64 s.now).level / 10 ^ 9) ++ leBytes 1 x.win.cpri.toNat
    ++ leBytes 1 (s.corePrio 0) ++ leBytes 1 (s.corePrio 1) ++ leBytes 4 s.wakeCfg.set.toNat ++ leBytes 4 s.power.wakeSrc.toNat

/-- The 8 bytes of `EVT.STATUS` for a VID (Table 7.7). -/
def evtVid (s : State) (src : Fin 256) : List Byte :=
  let x := s.source src
  leBytes 1 src.val ++ leBytes 1 (b2n x.en + 2 * b2n x.lowest) ++ leBytes 1 x.prio.toNat ++ [0]
    ++ leBytes 2 (coreTargets src.val + 4 * x.targets.toNat) ++ leBytes 1 x.merged ++ leBytes 1 x.noTarget

/-- EVT_STATUS (R182). -/
def execEvtStatus (t : Ten) (n : SlotIx) (s : State) : Out :=
  command 0x0305 [(0, 1)] t n s fun s =>
    let v := s.prm1 t n 0
    if v = 0xFF then s.answer t n (evtSummary s t)
    else if v = 0 ∨ 63 < v then s.done t n Status.param
    else match (s.ten t).vids[(Fin.ofNat 64 v : Fin 64)] with
      | some src => s.answer t n (evtVid s src)
      | none => s.done t n Status.state

/-- EVT_TEST (R182): source 0xF1 asserts with the data given. -/
def execEvtTest (t : Ten) (n : SlotIx) (s : State) : Out :=
  command 0x0306 [(0, 4)] t n s fun s =>
    (s.raise 0xF1 (BitVec.ofNat 32 (s.prm t n 0 4))).done t n Status.ok

end Sys2Proof.Machine
end

