-- ==== Sys2Proof/Machine/Dispatch.lean ====
section
/-!
DEFINITION. The dispatch of the commands: one arm per constructor, each one call of its meaning.
-/

namespace Sys2Proof.Machine

/-- The effect of a command on everything but the queue. -/
def exec (i : Instr) (s : State) : Host.Outcome State Fault Refusal :=
  match i with
  | .sysIdentify t n => Sys2Proof.Machine.execSysIdentify t n s
  | .sysBlockStatus t n => Sys2Proof.Machine.execSysBlockStatus t n s
  | .sysReset t n => Sys2Proof.Machine.execSysReset t n s
  | .sysResetCause t n => Sys2Proof.Machine.execSysResetCause t n s
  | .sysImageStatus t n => Sys2Proof.Machine.execSysImageStatus t n s
  | .sysImageCommit t n => Sys2Proof.Machine.execSysImageCommit t n s
  | .sysAbort t n => Sys2Proof.Machine.execSysAbort t n s
  | .tenantStatus t n => Sys2Proof.Machine.execTenantStatus t n s
  | .tenantAttach t n => Sys2Proof.Machine.execTenantAttach t n s
  | .tenantDetach t n => Sys2Proof.Machine.execTenantDetach t n s
  | .tenantReset t n => Sys2Proof.Machine.execTenantReset t n s
  | .tenantLease t n => Sys2Proof.Machine.execTenantLease t n s
  | .tenantBind t n => Sys2Proof.Machine.execTenantBind t n s
  | .tenantSetQos t n => Sys2Proof.Machine.execTenantSetQos t n s
  | .tenantPartition t n => Sys2Proof.Machine.execTenantPartition t n s
  | .tenantDelegate t n => Sys2Proof.Machine.execTenantDelegate t n s
  | .evtSubscribe t n => Sys2Proof.Machine.execEvtSubscribe t n s
  | .evtUnsubscribe t n => Sys2Proof.Machine.execEvtUnsubscribe t n s
  | .evtConfig t n => Sys2Proof.Machine.execEvtConfig t n s
  | .evtAoWatch t n => Sys2Proof.Machine.execEvtAoWatch t n s
  | .evtStatus t n => Sys2Proof.Machine.execEvtStatus t n s
  | .evtTest t n => Sys2Proof.Machine.execEvtTest t n s
  | .powerStatus t n => Sys2Proof.Machine.execPowerStatus t n s
  | .powerSetState t n => Sys2Proof.Machine.execPowerSetState t n s
  | .powerFloor t n => Sys2Proof.Machine.execPowerFloor t n s
  | .powerTimers t n => Sys2Proof.Machine.execPowerTimers t n s
  | .powerWakeCfg t n => Sys2Proof.Machine.execPowerWakeCfg t n s
  | .powerBoost t n => Sys2Proof.Machine.execPowerBoost t n s
  | .timeStatus t n => Sys2Proof.Machine.execTimeStatus t n s
  | .timeRead t n => Sys2Proof.Machine.execTimeRead t n s
  | .timeSessionOpen t n => Sys2Proof.Machine.execTimeSessionOpen t n s
  | .timeSessionClose t n => Sys2Proof.Machine.execTimeSessionClose t n s
  | .timeStep t n => Sys2Proof.Machine.execTimeStep t n s
  | .timeRate t n => Sys2Proof.Machine.execTimeRate t n s
  | .timeCmpArm t n => Sys2Proof.Machine.execTimeCmpArm t n s
  | .timeCmpCancel t n => Sys2Proof.Machine.execTimeCmpCancel t n s
  | .timeCalRead t n => Sys2Proof.Machine.execTimeCalRead t n s
  | .timeZone t n => Sys2Proof.Machine.execTimeZone t n s
  | .timeAlarm t n => Sys2Proof.Machine.execTimeAlarm t n s
  | .timePps t n => Sys2Proof.Machine.execTimePps t n s
  | .timeGridRef t n => Sys2Proof.Machine.execTimeGridRef t n s
  | .timePulse t n => Sys2Proof.Machine.execTimePulse t n s
  | .timeCaptureCfg t n => Sys2Proof.Machine.execTimeCaptureCfg t n s
  | .timeCaptureRead t n => Sys2Proof.Machine.execTimeCaptureRead t n s
  | .timeConfig t n => Sys2Proof.Machine.execTimeConfig t n s
  | .clockStatus t n => Sys2Proof.Machine.execClockStatus t n s
  | .clockBandRead t n => Sys2Proof.Machine.execClockBandRead t n s
  | .clockBandWrite t n => Sys2Proof.Machine.execClockBandWrite t n s
  | .clockDither t n => Sys2Proof.Machine.execClockDither t n s
  | .clockDpllConfig t n => Sys2Proof.Machine.execClockDpllConfig t n s
  | .clockRelock t n => Sys2Proof.Machine.execClockRelock t n s
  | .laneStatus t n => Sys2Proof.Machine.execLaneStatus t n s
  | .laneConfig t n => Sys2Proof.Machine.execLaneConfig t n s
  | .laneSwitch t n => Sys2Proof.Machine.execLaneSwitch t n s
  | .laneMode t n => Sys2Proof.Machine.execLaneMode t n s
  | .laneSlip t n => Sys2Proof.Machine.execLaneSlip t n s
  | .laneCapture t n => Sys2Proof.Machine.execLaneCapture t n s
  | .ltxDsStatus t n => Sys2Proof.Machine.execLtxDsStatus t n s
  | .ltxDsSnapshot t n => Sys2Proof.Machine.execLtxDsSnapshot t n s
  | .ltxRegStatus t n => Sys2Proof.Machine.execLtxRegStatus t n s
  | .ltxActivation t n => Sys2Proof.Machine.execLtxActivation t n s
  | .ltxUsStatus t n => Sys2Proof.Machine.execLtxUsStatus t n s
  | .ltxUsConfig t n => Sys2Proof.Machine.execLtxUsConfig t n s
  | .ltxQueueMap t n => Sys2Proof.Machine.execLtxQueueMap t n s
  | .rulesStatus t n => Sys2Proof.Machine.execRulesStatus t n s
  | .rulesProfile t n => Sys2Proof.Machine.execRulesProfile t n s
  | .rulesWrite t n => Sys2Proof.Machine.execRulesWrite t n s
  | .rulesCommit t n => Sys2Proof.Machine.execRulesCommit t n s
  | .rulesDiscard t n => Sys2Proof.Machine.execRulesDiscard t n s
  | .rulesRead t n => Sys2Proof.Machine.execRulesRead t n s
  | .rulesLane t n => Sys2Proof.Machine.execRulesLane t n s
  | .rulesCounters t n => Sys2Proof.Machine.execRulesCounters t n s
  | .rulesSlowConfig t n => Sys2Proof.Machine.execRulesSlowConfig t n s
  | .trafficStatus t n => Sys2Proof.Machine.execTrafficStatus t n s
  | .trafficQueueCfg t n => Sys2Proof.Machine.execTrafficQueueCfg t n s
  | .trafficQueueStatus t n => Sys2Proof.Machine.execTrafficQueueStatus t n s
  | .trafficPolicer t n => Sys2Proof.Machine.execTrafficPolicer t n s
  | .trafficBuffer t n => Sys2Proof.Machine.execTrafficBuffer t n s
  | .trafficHold t n => Sys2Proof.Machine.execTrafficHold t n s
  | .trafficWatch t n => Sys2Proof.Machine.execTrafficWatch t n s
  | .trafficWatchRead t n => Sys2Proof.Machine.execTrafficWatchRead t n s
  | .trafficInject t n => Sys2Proof.Machine.execTrafficInject t n s
  | .trafficReceive t n => Sys2Proof.Machine.execTrafficReceive t n s
  | .cipherStatus t n => Sys2Proof.Machine.execCipherStatus t n s
  | .cipherGcmSeal t n => Sys2Proof.Machine.execCipherGcmSeal t n s
  | .cipherGcmOpen t n => Sys2Proof.Machine.execCipherGcmOpen t n s
  | .cipherCtr t n => Sys2Proof.Machine.execCipherCtr t n s
  | .cipherCmac t n => Sys2Proof.Machine.execCipherCmac t n s
  | .cipherCore t n => Sys2Proof.Machine.execCipherCore t n s
  | .keysInfo t n => Sys2Proof.Machine.execKeysInfo t n s
  | .keysImport t n => Sys2Proof.Machine.execKeysImport t n s
  | .keysDerive t n => Sys2Proof.Machine.execKeysDerive t n s
  | .keysDestroy t n => Sys2Proof.Machine.execKeysDestroy t n s
  | .ensRead t n fixed bad => Sys2Proof.Machine.execEnsRead t n fixed bad s
  | .ensWrite t n => Sys2Proof.Machine.execEnsWrite t n s
  | .ensAbort t n => Sys2Proof.Machine.execEnsAbort t n s
  | .ensStatus t n => Sys2Proof.Machine.execEnsStatus t n s
  | .ensLineInfo t n => Sys2Proof.Machine.execEnsLineInfo t n s
  | .secStatus t n => Sys2Proof.Machine.execSecStatus t n s
  | .secThawChallenge t n => Sys2Proof.Machine.execSecThawChallenge t n s
  | .secThaw t n => Sys2Proof.Machine.execSecThaw t n s
  | .secFreeze t n => Sys2Proof.Machine.execSecFreeze t n s
  | .secSeal t n => Sys2Proof.Machine.execSecSeal t n s
  | .secRetire t n => Sys2Proof.Machine.execSecRetire t n s
  | .firnStatus t n => Sys2Proof.Machine.execFirnStatus t n s
  | .firnModelLoad t n => Sys2Proof.Machine.execFirnModelLoad t n s
  | .firnModelUnload t n => Sys2Proof.Machine.execFirnModelUnload t n s
  | .firnModelInfo t n => Sys2Proof.Machine.execFirnModelInfo t n s
  | .firnRun t n => Sys2Proof.Machine.execFirnRun t n s
  | .firnEngine t n => Sys2Proof.Machine.execFirnEngine t n s
  | .firnModelKey t n => Sys2Proof.Machine.execFirnModelKey t n s
  | .audioStatus t n => Sys2Proof.Machine.execAudioStatus t n s
  | .audioConfig t n => Sys2Proof.Machine.execAudioConfig t n s
  | .audioPort t n => Sys2Proof.Machine.execAudioPort t n s
  | .audioOpen t n => Sys2Proof.Machine.execAudioOpen t n s
  | .audioSchedule t n => Sys2Proof.Machine.execAudioSchedule t n s
  | .tpsStatus t n => Sys2Proof.Machine.execTpsStatus t n s
  | .tpsSchedule t n => Sys2Proof.Machine.execTpsSchedule t n s
  | .diagPads t n => Sys2Proof.Machine.execDiagPads t n s
  | .rcvStart => Sys2Proof.Machine.execRcvStart s
  | .rcvChunk => Sys2Proof.Machine.execRcvChunk s
  | .rcvFinish => Sys2Proof.Machine.execRcvFinish s
  | .rcvReboot => Sys2Proof.Machine.execRcvReboot s
  | .recoveryVerified => Sys2Proof.Machine.execRecoveryVerified s
  | .recoveryWritten ok => Sys2Proof.Machine.execRecoveryWritten ok s
  | .spiStatusRead port sent clocks => Sys2Proof.Machine.execSpiStatusRead port sent clocks s
  | .mbxStatusRead via => Sys2Proof.Machine.execMbxStatusRead via s
  | .mbxStatusClear via value => Sys2Proof.Machine.execMbxStatusClear via value s
  | .doorbell via value => Sys2Proof.Machine.execDoorbell via value s
  | .resultAck via value => Sys2Proof.Machine.execResultAck via value s
  | .resultSlotRead via slot => Sys2Proof.Machine.execResultSlotRead via slot s
  | .evtTail via value => Sys2Proof.Machine.execEvtTail via value s
  | .bulkBase via value => Sys2Proof.Machine.execBulkBase via value s
  | .heartbeat via value => Sys2Proof.Machine.execHeartbeat via value s
  | .bulkApertureAccess via access => Sys2Proof.Machine.execBulkApertureAccess via access s
  | .registerWrite via off data => Sys2Proof.Machine.execRegisterWrite via off data s
  | .writeBufferDrain port => Sys2Proof.Machine.execWriteBufferDrain port s
  | .inbandMbxFrame lane src payload => Sys2Proof.Machine.execInbandMbxFrame lane src payload s
  | .noticeFrameRepeat t => Sys2Proof.Machine.execNoticeFrameRepeat t s
  | .attachReq lane dst src payload => Sys2Proof.Machine.execAttachReq lane dst src payload s
  | .attachConf lane src payload => Sys2Proof.Machine.execAttachConf lane src payload s
  | .attachLockoutEnd t => Sys2Proof.Machine.execAttachLockoutEnd t s
  | .commandStart t n => Sys2Proof.Machine.execCommandStart t n s
  | .commandTimeout t n => Sys2Proof.Machine.execCommandTimeout t n s
  | .coreWatchdogExpiry core => Sys2Proof.Machine.execCoreWatchdogExpiry core s
  | .coreRestartDone core => Sys2Proof.Machine.execCoreRestartDone core s
  | .heartbeatDeadline t => Sys2Proof.Machine.execHeartbeatDeadline t s
  | .delegationExpiry => Sys2Proof.Machine.execDelegationExpiry s
  | .rescueResidueDone => Sys2Proof.Machine.execRescueResidueDone s
  | .permissionDrainDone t n => Sys2Proof.Machine.execPermissionDrainDone t n s
  | .eventSourceAssert src data => Sys2Proof.Machine.execEventSourceAssert src data s
  | .eventLatchServe => Sys2Proof.Machine.execEventLatchServe s
  | .mbxNoticeRepeat => Sys2Proof.Machine.execMbxNoticeRepeat s
  | .tDuskExpiry => Sys2Proof.Machine.execTDuskExpiry s
  | .tInfExpiry => Sys2Proof.Machine.execTInfExpiry s
  | .tBoostExpiry => Sys2Proof.Machine.execTBoostExpiry s
  | .tAudExpiry => Sys2Proof.Machine.execTAudExpiry s
  | .tLnlExpiry => Sys2Proof.Machine.execTLnlExpiry s
  | .tLnlProbeExpiry => Sys2Proof.Machine.execTLnlProbeExpiry s
  | .lnlProbeEnd partner => Sys2Proof.Machine.execLnlProbeEnd partner s
  | .tNightExpiry => Sys2Proof.Machine.execTNightExpiry s
  | .tGlacierExpiry => Sys2Proof.Machine.execTGlacierExpiry s
  | .tDarkExpiry => Sys2Proof.Machine.execTDarkExpiry s
  | .tNoticeExpiry => Sys2Proof.Machine.execTNoticeExpiry s
  | .domainWorkArrival d => Sys2Proof.Machine.execDomainWorkArrival d s
  | .sleepAnswerTimeout => Sys2Proof.Machine.execSleepAnswerTimeout s
  | .nightListenWake => Sys2Proof.Machine.execNightListenWake s
  | .nightListenEnd => Sys2Proof.Machine.execNightListenEnd s
  | .wakeTrigger src data => Sys2Proof.Machine.execWakeTrigger src data s
  | .wakeStepReady sig => Sys2Proof.Machine.execWakeStepReady sig s
  | .wakeStepTimeout sig noBand => Sys2Proof.Machine.execWakeStepTimeout sig noBand s
  | .wakeDebounceExpiry pin => Sys2Proof.Machine.execWakeDebounceExpiry pin s
  | .wakePinChange pin level ns => Sys2Proof.Machine.execWakePinChange pin level ns s
  | .csNFall port => Sys2Proof.Machine.execCsNFall port s
  | .debugAttach => Sys2Proof.Machine.execDebugAttach s
  | .debugDetach => Sys2Proof.Machine.execDebugDetach s
  | .vbatLow mv => Sys2Proof.Machine.execVbatLow mv s
  | .xtalFault => Sys2Proof.Machine.execXtalFault s
  | .lightWakeFrame => Sys2Proof.Machine.execLightWakeFrame s
  | .tjUpdate tj => Sys2Proof.Machine.execTjUpdate tj s
  | .pmicWriteComplete ack stretch => Sys2Proof.Machine.execPmicWriteComplete ack stretch s
  | .pmicSettleExpiry => Sys2Proof.Machine.execPmicSettleExpiry s
  | .pmicRetryTimer => Sys2Proof.Machine.execPmicRetryTimer s
  | .railOkLow ns => Sys2Proof.Machine.execRailOkLow ns s
  | .vbatPowerOn mv => Sys2Proof.Machine.execVbatPowerOn mv s
  | .vbatFall mv => Sys2Proof.Machine.execVbatFall mv s
  | .rstNLow ns => Sys2Proof.Machine.execRstNLow ns s
  | .rstNRelease gpio0 => Sys2Proof.Machine.execRstNRelease gpio0 s
  | .boot => Sys2Proof.Machine.execBoot s
  | .romWatchdogExpiry => Sys2Proof.Machine.execRomWatchdogExpiry s
  | .mbxReadyTimeout => Sys2Proof.Machine.execMbxReadyTimeout s
  | .domainResetStart => Sys2Proof.Machine.execDomainResetStart s
  | .laneLock lane rd cdr groups => Sys2Proof.Machine.execLaneLock lane rd cdr groups s
  | .laneLoss lane rd groups cdr => Sys2Proof.Machine.execLaneLoss lane rd groups cdr s
  | .optLosChange lane level => Sys2Proof.Machine.execOptLosChange lane level s
  | .laneRelockQualified lane => Sys2Proof.Machine.execLaneRelockQualified lane s
  | .holdOffExpiry => Sys2Proof.Machine.execHoldOffExpiry s
  | .waitToRestoreExpiry => Sys2Proof.Machine.execWaitToRestoreExpiry s
  | .localLinkUp lane mode pauseRx pauseTx => Sys2Proof.Machine.execLocalLinkUp lane mode pauseRx pauseTx s
  | .localLinkDown lane => Sys2Proof.Machine.execLocalLinkDown lane s
  | .egressHoldExpiry lane => Sys2Proof.Machine.execEgressHoldExpiry lane s
  | .macFrameReceive lane frame fcsOk => Sys2Proof.Machine.execMacFrameReceive lane frame fcsOk s
  | .pauseFrameReceived lane quanta => Sys2Proof.Machine.execPauseFrameReceived lane quanta s
  | .pauseTimeEnd lane => Sys2Proof.Machine.execPauseTimeEnd lane s
  | .xoffCrossing lane => Sys2Proof.Machine.execXoffCrossing lane s
  | .xonCrossing lane => Sys2Proof.Machine.execXonCrossing lane s
  | .pauseRepeat lane => Sys2Proof.Machine.execPauseRepeat lane s
  | .fawDetected lane pos rd groups shift => Sys2Proof.Machine.execFawDetected lane pos rd groups shift s
  | .frameHeader lane bytes => Sys2Proof.Machine.execFrameHeader lane bytes s
  | .grantEntry lane bytes => Sys2Proof.Machine.execGrantEntry lane bytes s
  | .discoveryEntry lane bytes => Sys2Proof.Machine.execDiscoveryEntry lane bytes s
  | .packetContainer lane bytes => Sys2Proof.Machine.execPacketContainer lane bytes s
  | .packetDecryptDone => Sys2Proof.Machine.execPacketDecryptDone s
  | .audioContainer lane bytes => Sys2Proof.Machine.execAudioContainer lane bytes s
  | .tpsContainer lane bytes => Sys2Proof.Machine.execTpsContainer lane bytes s
  | .assignRh lane slot bytes => Sys2Proof.Machine.execAssignRh lane slot bytes s
  | .authChal lane slot bytes => Sys2Proof.Machine.execAuthChal lane slot bytes s
  | .keyDeliver lane slot bytes => Sys2Proof.Machine.execKeyDeliver lane slot bytes s
  | .rangeResult lane slot bytes => Sys2Proof.Machine.execRangeResult lane slot bytes s
  | .deregister lane slot bytes => Sys2Proof.Machine.execDeregister lane slot bytes s
  | .timeInfo lane slot bytes => Sys2Proof.Machine.execTimeInfo lane slot bytes s
  | .upHold lane slot bytes => Sys2Proof.Machine.execUpHold lane slot bytes s
  | .sleepGrant lane slot bytes => Sys2Proof.Machine.execSleepGrant lane slot bytes s
  | .sleepDeny lane slot bytes => Sys2Proof.Machine.execSleepDeny lane slot bytes s
  | .nightWake lane slot bytes => Sys2Proof.Machine.execNightWake lane slot bytes s
  | .ownerMbx lane slot bytes => Sys2Proof.Machine.execOwnerMbx lane slot bytes s
  | .tribCfg lane slot bytes => Sys2Proof.Machine.execTribCfg lane slot bytes s
  | .lof8msExpiry => Sys2Proof.Machine.execLof8msExpiry s
  | .lof2sExpiry => Sys2Proof.Machine.execLof2sExpiry s
  | .lolClear lane => Sys2Proof.Machine.execLolClear lane s
  | .keySwitchBoundary => Sys2Proof.Machine.execKeySwitchBoundary s
  | .keyRetire => Sys2Proof.Machine.execKeyRetire s
  | .grantTableFrameEnd => Sys2Proof.Machine.execGrantTableFrameEnd s
  | .activationListen => Sys2Proof.Machine.execActivationListen s
  | .tAssignExpiry => Sys2Proof.Machine.execTAssignExpiry s
  | .tAuthExpiry => Sys2Proof.Machine.execTAuthExpiry s
  | .tRangeExpiry => Sys2Proof.Machine.execTRangeExpiry s
  | .silentDurationExpiry => Sys2Proof.Machine.execSilentDurationExpiry s
  | .deregNoticeTimeout => Sys2Proof.Machine.execDeregNoticeTimeout s
  | .eqdChangeApply lane => Sys2Proof.Machine.execEqdChangeApply lane s
  | .serialNumberBurst => Sys2Proof.Machine.execSerialNumberBurst s
  | .rangingBurst lane => Sys2Proof.Machine.execRangingBurst lane s
  | .burstFreeze gs => Sys2Proof.Machine.execBurstFreeze gs s
  | .protectionSlotClose gs => Sys2Proof.Machine.execProtectionSlotClose gs s
  | .packetSealDone => Sys2Proof.Machine.execPacketSealDone s
  | .burstCommit gs => Sys2Proof.Machine.execBurstCommit gs s
  | .withdrawal gs => Sys2Proof.Machine.execWithdrawal gs s
  | .timeStamp => Sys2Proof.Machine.execTimeStamp s
  | .rateCorrection => Sys2Proof.Machine.execRateCorrection s
  | .holdoverEntry => Sys2Proof.Machine.execHoldoverEntry s
  | .transformRebase => Sys2Proof.Machine.execTransformRebase s
  | .comparatorFire ix => Sys2Proof.Machine.execComparatorFire ix s
  | .parkedTargetCheck => Sys2Proof.Machine.execParkedTargetCheck s
  | .ppsSecond => Sys2Proof.Machine.execPpsSecond s
  | .gridRefCycle => Sys2Proof.Machine.execGridRefCycle s
  | .pulseStart ix => Sys2Proof.Machine.execPulseStart ix s
  | .pulseStop ix => Sys2Proof.Machine.execPulseStop ix s
  | .captureEdge input rising phase ns => Sys2Proof.Machine.execCaptureEdge input rising phase ns s
  | .leapSecond => Sys2Proof.Machine.execLeapSecond s
  | .calendarAlarm ix => Sys2Proof.Machine.execCalendarAlarm ix s
  | .pllaLockAcquired => Sys2Proof.Machine.execPllaLockAcquired s
  | .pllaLossOfLock => Sys2Proof.Machine.execPllaLossOfLock s
  | .lossOfReference edges => Sys2Proof.Machine.execLossOfReference edges s
  | .refclkQualified => Sys2Proof.Machine.execRefclkQualified s
  | .relockTimeout => Sys2Proof.Machine.execRelockTimeout s
  | .lockSearchAttemptTimeout => Sys2Proof.Machine.execLockSearchAttemptTimeout s
  | .relockRetry => Sys2Proof.Machine.execRelockRetry s
  | .dpllMeasurement df => Sys2Proof.Machine.execDpllMeasurement df s
  | .dpllTrackUpdate phase => Sys2Proof.Machine.execDpllTrackUpdate phase s
  | .ingressFrame src bytes oversize => Sys2Proof.Machine.execIngressFrame src bytes oversize s
  | .parserTake => Sys2Proof.Machine.execParserTake s
  | .laneLookupDone lane parity entry => Sys2Proof.Machine.execLaneLookupDone lane parity entry s
  | .slowPathDecide => Sys2Proof.Machine.execSlowPathDecide s
  | .slowDeadlineExpiry => Sys2Proof.Machine.execSlowDeadlineExpiry s
  | .slowPathSecond => Sys2Proof.Machine.execSlowPathSecond s
  | .reorderRelease src => Sys2Proof.Machine.execReorderRelease src s
  | .versionDrain => Sys2Proof.Machine.execVersionDrain s
  | .pauseUpdateQuiesced => Sys2Proof.Machine.execPauseUpdateQuiesced s
  | .pauseUpdateTimeout => Sys2Proof.Machine.execPauseUpdateTimeout s
  | .entryScrub failed => Sys2Proof.Machine.execEntryScrub failed s
  | .laneOutEmpty lane => Sys2Proof.Machine.execLaneOutEmpty lane s
  | .laneMarkerOut lane pass => Sys2Proof.Machine.execLaneMarkerOut lane pass s
  | .portEgressSelect lane => Sys2Proof.Machine.execPortEgressSelect lane s
  | .holdExpiry id => Sys2Proof.Machine.execHoldExpiry id s
  | .watchPeriod => Sys2Proof.Machine.execWatchPeriod s
  | .injectOffer t n => Sys2Proof.Machine.execInjectOffer t n s
  | .cipherJobDone => Sys2Proof.Machine.execCipherJobDone s
  | .cipherParityFault core => Sys2Proof.Machine.execCipherParityFault core s
  | .cipherSelfTestDone core pass => Sys2Proof.Machine.execCipherSelfTestDone core pass s
  | .kbusOpDone => Sys2Proof.Machine.execKbusOpDone s
  | .kbusWatchdog => Sys2Proof.Machine.execKbusWatchdog s
  | .ceilWriteDone slot ok => Sys2Proof.Machine.execCeilWriteDone slot ok s
  | .ceilWriteRetry => Sys2Proof.Machine.execCeilWriteRetry s
  | .ensLineWriteDone region verify ok fixed => Sys2Proof.Machine.execEnsLineWriteDone region verify ok fixed s
  | .levelTimerExpiry => Sys2Proof.Machine.execLevelTimerExpiry s
  | .thawNonceExpiry => Sys2Proof.Machine.execThawNonceExpiry s
  | .thawLockoutEnd => Sys2Proof.Machine.execThawLockoutEnd s
  | .firnJobResident job => Sys2Proof.Machine.execFirnJobResident job s
  | .firnLayerBoundary => Sys2Proof.Machine.execFirnLayerBoundary s
  | .firnLayerWatchdog => Sys2Proof.Machine.execFirnLayerWatchdog s
  | .firnSramError area single => Sys2Proof.Machine.execFirnSramError area single s
  | .firnOutputCopied => Sys2Proof.Machine.execFirnOutputCopied s
  | .firnSelfTestDone pass => Sys2Proof.Machine.execFirnSelfTestDone pass s
  | .audioBlockBoundary monitor => Sys2Proof.Machine.execAudioBlockBoundary monitor s
  | .audioStartBoundary port => Sys2Proof.Machine.execAudioStartBoundary port s
  | .audioStopBoundary port => Sys2Proof.Machine.execAudioStopBoundary port s
  | .gateTimeout port => Sys2Proof.Machine.execGateTimeout port s
  | .audioInputLock apart ppm => Sys2Proof.Machine.execAudioInputLock apart ppm s
  | .audioInputLoss bad ppm ns => Sys2Proof.Machine.execAudioInputLoss bad ppm ns s
  | .audioInputBlock cs => Sys2Proof.Machine.execAudioInputBlock cs s
  | .upstreamTribClose ttype => Sys2Proof.Machine.execUpstreamTribClose ttype s
  | .vddioLevelDetect field mv => Sys2Proof.Machine.execVddioLevelDetect field mv s
  | .burstEnd => Sys2Proof.Machine.execBurstEnd s
  | .lightWakeSample a b => Sys2Proof.Machine.execLightWakeSample a b s
  | .sampleBoundary port pair parity invalid => Sys2Proof.Machine.execSampleBoundary port pair parity invalid s
  | .tpsRxdBit port samples => Sys2Proof.Machine.execTpsRxdBit port samples s
  | .tpsTxdBitStart port => Sys2Proof.Machine.execTpsTxdBitStart port s

end Sys2Proof.Machine
end

