-- ==== Sys2Proof/Safety.lean ====
section
/-!
DEFINITION. What a safe state is, and the notions the statements share: invariants, a command that may act, an access that
reaches its window, a message that arrives.
-/

namespace Sys2Proof.Machine

/-- A memory in its canonical form, whatever its size: addresses strictly rising, no zero byte listed. -/
abbrev Memory.canon (m : Memory) : Prop := m.Pairwise (fun x y => x.1 < y.1) ∧ ∀ c ∈ m, c.2 ≠ 0

/-- The memories of the terminal are in canonical form: the tenant area, the non-volatile store, the recovery buffer, and
the work area of every Firn job. -/
structure State.MemOk (s : State) : Prop where
  sram : s.sram.canon
  ens : s.ens.canon
  buf : Memory.canon s.boot.rcv.buf
  work : ∀ j ∈ s.firn.jobs, j.work.canon

/-- The place of a lifecycle in the order in which the fuses are burnt (R413). -/
def Life.order : Life → Nat
  | .factory => 0 | .sealed => 1 | .retired => 2

/-- Slot n of tenant t runs the command of an opcode, and no parameter byte outside the ones its table gives is set
(R8, R125). -/
abbrev State.sends (s : State) (t : Ten) (n : SlotIx) (op : Nat) (used : List (Nat × Nat)) : Prop :=
  s.runs t n op = true ∧ s.stray t n used = false

/-- The state BOOT works on (R91, R93): the reset-cause record written, the domains of the ROM on, the journal served. -/
def State.booted (s : State) : State :=
  (({ s with ao.rst := s.ao.rst.start (s.boot.cause.getD (0, 0)).1 (s.boot.cause.getD (0, 0)).2 s.pads.strap } : State
    ).setDoms [dTKP, dCTL, dMEM, dPLL, dNVM] .on).journalBoot

/-- An access that reaches the window of a tenant that is served (R96), on an SPI port with nothing posted before it
(R114). -/
abbrev State.reaches (s : State) (via : Via) (t : Ten) : Prop :=
  s.answers via = true ∧ s.boot.phase = .running ∧ s.boot.mbxReady = true ∧
  (∀ p, via = .spi p → s.mbx.ports[p].buf = []) ∧ s.tenOf via = some t

/-- The state an access works on: a transaction that still waited on its SPI port is over (R113). -/
def State.accessed (s : State) : Via → State
  | .spi p => s.newTxn p
  | _ => s

/-- An LMM of a type arrives in a slot of the active lane that `LMM_USED` marks, in SYNC, with its check right, for this
terminal, and CC1 runs (R213). -/
abbrev State.lmmArrives (s : State) (l : Fin 2) (slot : Fin 3) (bytes : List Byte) (type : Nat) : Prop :=
  bytes.length = 48 ∧ l = s.lanes.prot.active ∧ (s.chan l).st = .sync ∧ (s.chan l).rx.judged = true ∧
  (s.chan l).rx.lmm.getLsbD slot.val = true ∧ s.domOn dFRM = true ∧ beAt bytes 46 2 = crc16 (bytes.take 46) ∧
  byteAt bytes 2 = type ∧ s.boot.core1Up = true ∧ (s.seeSlot l slot).lmmMine bytes = true

end Sys2Proof.Machine
end

