-- ==== Sys2Proof/Certificates/Slice0/Obligations.lean ====
section
/-!
DEFINITION. The statements for the provers: what the commands of the ZP-480 do, by families of the command table, and
the invariants that every step keeps.
-/

open Sys2Proof Sys2Proof.Machine

/-! ### The block -/

/-- The command at the front of the queue is the one a step executes, on the state with the queue's rest (the block
form of the model). -/
def Obligations.StepRunsFront : Prop :=
  ∀ (c : Instr) (rest : List Instr) (s : State),
    step { s with pending := c :: rest } = exec c { s with pending := rest }

/-- Every command answers a next state, whatever the state: no row faults and none is refused (log entry 1). On an
empty queue one tick of the 125 MHz clock passes and nothing else happens: the model's choice, log entry 5. -/
def Obligations.StepNeverStops : Prop :=
  (∀ (c : Instr) (s : State), ∃ s', exec c s = .next s') ∧
  (∀ s : State, s.pending = [] → step s = .next { s with now := s.now + 8 })

/-- A mailbox command whose slot does not run its opcode changes nothing: a command acts between its start and its
result only (R122, R125; log entry 8); where the core still has to complete the command of an emptied slot, that
command runs (R128). A reserved parameter byte that is not zero makes a command complete with
`ERR_PARAM` and has no other effect (R8). -/
def Obligations.CommandGuards : Prop :=
  (∀ (op : Nat) (used : List (Nat × Nat)) (t : Ten) (n : SlotIx) (s : State) (body : State → State),
     s.runs t n op = false →
       (s.ghostOf t n op = none → command op used t n s body = .next s ∧ commandBy op t n s body = .next s) ∧
       (∀ g, s.ghostOf t n op = some g → commandBy op t n s body = .next (s.runGhost g body))) ∧
  (∀ (op : Nat) (used : List (Nat × Nat)) (t : Ten) (n : SlotIx) (s : State) (body : State → State),
     s.runs t n op = true → s.stray t n used = true →
       command op used t n s body = .next (s.done t n Status.param))

/-- A result (R124): its slot is READY with the status and at most 56 bytes of data, every other slot stands, and
beside the tenants' windows, what leaves the terminal, the upstream messages, the idle timer of DUSK and, where a notice
frame goes out on a local lane, that lane's frames and the cipher context of its tag, nothing changes: no memory, no key,
no register of another unit; no tenant's session, settings, ring or floor. -/
def Obligations.ResultFrame : Prop :=
  ∀ (s : State) (t : Ten) (n : SlotIx) (st : Half) (data : List Byte) (bulk : Bool), (s.slot t n).aborters = [] →
    let s' := s.post t n st data bulk
    (s'.slot t n).phase = .ready ∧ (s'.slot t n).status = st ∧ (s'.slot t n).data = data.take 56 ∧
    (s'.slot t n).readCount = 0 ∧ (s'.slot t n).desc = (s.slot t n).desc ∧
    (∀ u m, (u, m) ≠ (t, n) → s'.slot u m = s.slot u m) ∧
    (∃ ten out us dusk locals uses ctx, s' = { s with
      tenants := ten, out := out, us := us, power.idle.dusk := dusk, lanes.locals := locals
      cip := { s.cip with uses := uses, ctx := ctx } }) ∧
    ∀ u, (s'.ten u).st = (s.ten u).st ∧ (s'.ten u).cfg = (s.ten u).cfg ∧ (s'.ten u).ring = (s.ten u).ring ∧
      (s'.ten u).session = (s.ten u).session ∧ (s'.ten u).vids = (s.ten u).vids ∧ (s'.ten u).floor = (s.ten u).floor

/-! ### SYS, DIAG, reset and boot (chapters 01, 02, 04) -/

/-- The `SYS` and `DIAG` reports: each completes with `OK` and the bytes of its table (Tables 1.7, 1.8, 4.3, 4.8,
2.9); beside the result nothing changes. `SYS.RESET` posts `OK` first (R106): with chip scope and no entry under way the
terminal then accepts the entry that ends in the chip reset, after a deregistration notice where it is IN_SERVICE; with
domain scope a reset of PD_LNL, PD_INF or PD_AUD is due 1 ms later. `SYS.ABORT` (R130): where no command of the tenant has
the `SEQ`, it completes with `ABORT_UNKNOWN`; where the command has not started and is no `SYS.ABORT`, it is stopped before
its start and `SYS.ABORT` completes with `OK`; a running command without a safe point is noted as asked to stop, and
`SYS.ABORT` completes with `ABORT_LATE`. -/
def Obligations.SysCommands : Prop :=
  (∀ (s : State) (t : Ten) (n : SlotIx),
     (s.sends t n 0x0101 [] → exec (.sysIdentify t n) s = .next (s.answer t n
       (leBytes 8 Config.terminalId.toNat ++ [0xB0, BitVec.ofNat 8 (b2n Config.gradeE), 4, Config.fwMinor, Config.fwPatch]
         ++ leBytes 1 (match s.boot.image with | some i => i.val | none => 0)
         ++ leBytes 1 s.lifecycleCode ++ leBytes 1 s.debugCode))) ∧
     (s.sends t n 0x0102 [] → exec (.sysBlockStatus t n) s = .next (s.answer t n
       (leBytes 2 (bitsOf 13 fun d => s.domOn d) ++ leBytes 2 (bitsOf 13 fun d => s.dom d == .ret)
         ++ leBytes 1 s.clkFlags ++ leBytes 1 s.power.pstate.code
         ++ leBytes 1 (match s.activeLane with | some l => l.val | none => 0xFF) ++ [0]))) ∧
     (s.sends t n 0x0104 [] → exec (.sysResetCause t n) s = .next (s.answer t n s.ao.rst.bytes)) ∧
     (s.sends t n 0x0105 [] → exec (.sysImageStatus t n) s = .next (s.answer t n
       (leBytes 4 s.icb.minSvn ++ leBytes 1 s.icb.stateA.code ++ leBytes 1 s.icb.stateB.code
         ++ leBytes 1 (match s.boot.image with | some i => i.val | none => 0) ++ [0] ++ s.imgInfo 0 ++ s.imgInfo 1))) ∧
     (s.sends t n 0x1201 [] → exec (.diagPads t n) s = .next (s.answer t n
       (leBytes 1 (s.pads.wakePins.toNat + 16 * b2n s.railHigh)
         ++ leBytes 1 (s.pads.los.toNat + 4 * s.pads.txdisLevel.toNat + 16 * s.pads.txdisFault.toNat)
         ++ leBytes 1 (b2n (s.pads.hostMode == some true) + 2 * b2n (s.pads.fieldMode == some true) + 4 * b2n s.pads.strap)
         ++ leBytes 1 s.ao.vcode ++ leBytes 3 (s.pads.gpio &&& s.pads.gpioIn &&& s.gpioSeen).toNat ++ [0])))) ∧
  (∀ (s : State) (t : Ten) (n : SlotIx), s.sends t n 0x0103 [(0, 2)] →
     (s.prm1 t n 0 = 0 → s.prm1 t n 1 = 0 → s.power.entry = none → exec (.sysReset t n) s =
       .next (((if (s.done t n Status.ok).inService then (s.done t n Status.ok).sendDeregNotice 7 else s.done t n Status.ok)
         ).acceptEntry .chipReset false t)) ∧
     (∀ d : Dom, d = dLNL ∨ d = dINF ∨ d = dAUD → s.prm1 t n 0 = 1 → s.prm1 t n 1 = d.val →
       exec (.sysReset t n) s =
         .next { s.done t n Status.ok with boot.domReset :=
           (s.done t n Status.ok).boot.domReset ++ [(d, (s.done t n Status.ok).now + 1000000)] })) ∧
  (∀ (s : State) (t : Ten) (n : SlotIx), s.sends t n 0x0107 [(0, 2)] →
     (s.abortTarget t n (s.prm t n 0 2) = none → exec (.sysAbort t n) s = .next (s.done t n Status.abortUnknown)) ∧
     (∀ m, s.abortTarget t n (s.prm t n 0 2) = some m → (s.slot t m).phase = .accepted → (s.slot t m).opcode ≠ 0x0107 →
       exec (.sysAbort t n) s = .next ((s.stopWaiting t m .abort).done t n Status.ok)) ∧
     (∀ m, s.abortTarget t n (s.prm t n 0 2) = some m → (s.slot t m).phase = .running →
       hasSafePoint (s.slot t m).opcode = false → (s.slot t m).opcode ≠ 0x0107 → exec (.sysAbort t n) s =
         .next ((s.modSlot t m fun y => { y with stop := some (y.stop.getD .abort), abortAsked := true }).done t n
           Status.abortLate)))

/-- `SYS.IMAGE_COMMIT` sets the running image to CONFIRMED; with `RAISE` set, `MIN_SVN` becomes the running image's
`SVN` when that is higher, and it is never lowered (R101). The result is `MIN_SVN` after the command. The image that the
selection of R99 returns is a candidate; it is not REJECTED, its `SVN` is not below `MIN_SVN`, its digest, its signature
and its header stand, and it is not NEW with three tries recorded against it. -/
def Obligations.ImageTrust : Prop :=
  (∀ (s : State) (t : Ten) (n : SlotIx) (i : Fin 2),
     s.sends t n 0x0106 [(0, 1)] → s.prm1 t n 0 ≤ 1 → s.boot.image = some i →
       let x : Icb := { s.icb.put i .confirmed with
         minSvn := if s.prm1 t n 0 = 1 then max s.icb.minSvn (hdrSvn (s.hdr i)) else s.icb.minSvn }
       exec (.sysImageCommit t n) s = .next ((({ s with icb := x } : State).recordWritten).answer t n (leBytes 4 x.minSvn)) ∧
       x.get i = .confirmed ∧ ∀ j, j ≠ i → x.get j = s.icb.get j) ∧
  (∀ (s s' : State) (is : List (Fin 2)) (i : Fin 2) (skipped : List (Fin 2)), s.select is = (s', some i, skipped) →
     i ∈ is ∧ ∃ s1 : State, s1.ens = s.ens ∧ s1.icb.minSvn = s.icb.minSvn ∧ s' = s1.choose i ∧
       s1.ao.rst.image = s.ao.rst.image ∧ s1.ao.rst.tries = s.ao.rst.tries ∧
       ¬(s1.icb.get i = .fresh ∧ s.ao.rst.image.toNat = i.val ∧ 3 ≤ s.ao.rst.tries) ∧ s1.icb.get i ≠ .rejected ∧ s.icb.minSvn ≤ hdrSvn (s.hdr i) ∧ digestOk (s.image i) = true ∧
       signatureOk (s.image i) = true ∧ hdrOk (s.hdr i) = true)

/-- BOOT (R93, R99, R102): with `GPIO0` sampled high the terminal is in recovery, IDLE, with no running image; with it
low it runs the image R99 returns, or enters recovery where R99 returns RECOVERY. ROM_WATCHDOG_EXPIRY and
MBX_READY_TIMEOUT (R95): a start that has not ended 250 ms, or 500 ms, after reset release counts as a failed boot of
the image R99 chooses, and ends in a chip reset with the cause BOOT_TIMEOUT. -/
def Obligations.Boot : Prop :=
  (∀ s : State, s.boot.phase = .rom →
     ((State.booted s).pads.strap = true →
       ∃ s', exec .boot s = .next s' ∧ s'.boot.phase = .recovery ∧ s'.boot.rcv.state = 1 ∧ s'.ao.rst.image = 0xFF ∧
         s'.boot.mbxReady = s.boot.mbxReady ∧ s'.ens = (State.booted s).ens) ∧
     (∀ i skipped s3, (State.booted s).pads.strap = false →
       (State.booted s).select (State.booted s).candidates = (s3, some i, skipped) →
         exec .boot s = .next (s3.startFirmware i skipped)) ∧
     (∀ skipped s3, (State.booted s).pads.strap = false →
       (State.booted s).select (State.booted s).candidates = (s3, none, skipped) →
         exec .boot s = .next s3.enterRecovery)) ∧
  (∀ s : State, s.boot.phase = .rom → s.pads.strap = false →
     (let s1 := s.reach (s.boot.releaseAt + 250000000)
      exec .romWatchdogExpiry s =
        .next (({ (s1.romStart.select s1.romStart.candidates).1 with boot.cause := none } : State).chipReset 0x08 0)) ∧
     (let s1 := s.reach (s.boot.releaseAt + 500000000)
      exec .mbxReadyTimeout s =
        .next (({ (s1.romStart.select s1.romStart.candidates).1 with boot.cause := none } : State).chipReset 0x08 0)))

/-- `RST_N` and VBAT (R38, R93, R505): a low pulse of 1 µs takes a chip reset, one below 200 ns none, and one between
them either or none; at the release with both enables high the ROM starts at once with `GPIO0` as its strap; VBAT past
1.65 V is a power-on reset; VBAT below 1.60 V holds every domain in reset and leaves the key store and the lifecycle, and
the store but for a line that was being written. What a chip reset leaves (R87, R88, R100, Table 4.1): the wake record,
the AO-watch set, the key-lock flag and, while `PWR_EN_MAIN` is high, the voltage code in force; the lifecycle, the image
control block, the key store and the bindings; the debug level is FROZEN, the image write-lock is clear and no tenant
session is open. -/
def Obligations.Resets : Prop :=
  (∀ s : State,
     (∀ ns, 1000 ≤ ns → s.pads.powered = true →
       exec (.rstNLow ns) s = .next (({ s with pads.rstN := false } : State).chipReset 0x02 0)) ∧
     (∀ ns, ns < 200 → exec (.rstNLow ns) s = .next s) ∧
     (∀ ns, 200 ≤ ns → ns < 1000 → s.pads.powered = true → ∃ s', exec (.rstNLow ns) s = .next s' ∧
       (s' = s.freed ∨ s' = ({ s.freed with pads.rstN := false } : State).chipReset 0x02 0)) ∧
     (∀ g, s.pads.rstN = false → s.pads.powered = true → s.pads.enAux = true → s.pads.enMain = true →
       ∃ s', exec (.rstNRelease g) s = .next s' ∧ s'.pads.rstN = true ∧ s'.pads.strap = g ∧ s'.boot.phase = .rom ∧
         s'.boot.releaseAt = s.now ∧ s'.boot.cause = s.boot.cause ∧ s'.ens = s.ens ∧ s'.ao.rst = s.ao.rst) ∧
     (∀ mv, s.pads.powered = false → 1650 ≤ mv → exec (.vbatPowerOn mv) s = .next (s.powerOnReset mv)) ∧
     (∀ mv, mv < 1600 → ∃ s', exec (.vbatFall mv) s = .next s' ∧ s'.pads.powered = false ∧ (∀ d, s'.dom d = .held) ∧
       s'.pads.enAux = false ∧ s'.pads.enMain = false ∧ s'.pads.txdisLow = 0 ∧ s'.fuses = s.fuses ∧
       s'.keys = s.keys ∧ s'.ens = s.cutUpdates.ens)) ∧
  (∀ (s : State) (cause detail : Nat),
     let s' := s.chipReset cause detail
     s'.ao.wake = s.ao.wake ∧ s'.ao.cfg = s.ao.cfg ∧ s'.ao.keyLock = s.ao.keyLock ∧
     (s.pads.enMain = true → s'.ao.vcode = s.ao.vcode) ∧ s'.ao.dbg = {} ∧ s'.ao.imageLock = none ∧
     s'.fuses = s.fuses ∧ s'.icb = s.icb ∧ s'.store = s.store ∧ s'.keys = s.keys ∧ (∀ t, (s'.ten t).st = .detached) ∧
     (∀ t, (s'.ten t).cfg.transport = (s.ten t).cfg.transport ∧ (s'.ten t).cfg.auth = (s.ten t).cfg.auth))

/-- DOMAIN_RESET_START (R89, R106): the domain of a pending reset that is on is reset 1 ms after its result; Firn or
audio leases are released, the record notes a domain reset, and after 10 µs the domain's wake starts.
CORE_WATCHDOG_EXPIRY and CORE_RESTART_DONE (R90, R131, Table 4.2): a first expiry within 10 s resets the core alone;
CC0's second and CC1's third is a chip reset with its cause; at its restart CC0 aborts the commands it had accepted,
completes what a rescue left to it and takes up its cipher work, and CC1 accepts the held doorbells. -/
def Obligations.DomainAndCoreResets : Prop :=
  (∀ (s : State) (d : Dom) (at_ : Nat) (rest : List (Dom × Nat)), s.boot.domReset = (d, at_) :: rest → s.domOn d = true →
     exec .domainResetStart s =
       .next (let s2 := ((if d = dINF then [6] else if d = dAUD then [1, 2, 3, 4, 5] else []).foldl
                 (fun s id => s.freeLease id) ({ s.reach at_ with boot.domReset := rest } : State)).powerOff d
              ({ s2 with ao.rst.scopeLast := 3, now := s2.now + 10000 } : State).wakeDomains [d])) ∧
  (∀ s : State, s.boot.phase = .running →
     ((s.boot.wdt0.filter fun f => s.now < f + 10000000000) = [] → exec (.coreWatchdogExpiry 0) s =
       .next (({ s with
         boot.wdt0 := [s.now], boot.core0Up := false, ao.rst.scopeLast := 1
         ao.rst.core0 := satInc 255 s.ao.rst.core0 } : State).cc0Down.settleThaw)) ∧
     ((s.boot.wdt0.filter fun f => s.now < f + 10000000000).length = 1 →
       exec (.coreWatchdogExpiry 0) s = .next (s.chipReset 0x05 2)) ∧
     ((s.boot.wdt1.filter fun f => s.now < f + 10000000000) = [] → exec (.coreWatchdogExpiry 1) s =
       .next (({ s with
         boot.wdt1 := [s.now], boot.core1Up := false, ao.rst.scopeLast := 2
         ao.rst.core1 := satInc 255 s.ao.rst.core1 } : State).leaveToCc0.cc1Down)) ∧
     ((s.boot.wdt1.filter fun f => s.now < f + 10000000000).length = 2 →
       exec (.coreWatchdogExpiry 1) s = .next (s.chipReset 0x06 3)) ∧
     (s.boot.core0Up = false → exec (.coreRestartDone 0) s =
       .next (({ s.abortSlots with boot.core0Up := true } : State).serveResidue.startJobs)) ∧
     (s.boot.core1Up = false → exec (.coreRestartDone 1) s =
       .next (({ s with boot.core1Up := true } : State).acceptHeld.cc1Back)))

/-- The recovery download (R102, R103, Table 4.7), with nothing posted on SPI0: START in its length range begins, with
its chunks in order and a right CRC each is taken, FINISH after the last verifies, and a staged image that stands is
written and NEW; REBOOT is a chip reset with the cause RECOVERY_END. -/
def Obligations.Recovery : Prop :=
  ∀ s : State, s.boot.phase = .recovery → s.mbx.ports[(0 : Fin 4)].buf = [] →
    (s.boot.rcv.state ≠ 3 → s.boot.rcv.state ≠ 4 → 4352 ≤ s.boot.rcv.len → s.boot.rcv.len ≤ 1572864 →
      exec .rcvStart s = .next { s with boot.rcv := { s.boot.rcv with state := 2, err := 0, next := 0, staged := [] } }) ∧
    (s.boot.rcv.state = 2 → s.boot.rcv.chunk = s.boot.rcv.next → 2048 * s.boot.rcv.next < s.boot.rcv.len →
      crc32 (Memory.getN s.boot.rcv.buf 0 (chunkSize s.boot.rcv.len s.boot.rcv.next)) = s.boot.rcv.crc.toNat →
      exec .rcvChunk s = .next { s with boot.rcv := { s.boot.rcv with
        next := s.boot.rcv.next + 1
        staged := s.boot.rcv.staged ++ Memory.getN s.boot.rcv.buf 0 (chunkSize s.boot.rcv.len s.boot.rcv.next) } }) ∧
    (s.boot.rcv.state = 2 → s.boot.rcv.len ≤ 2048 * s.boot.rcv.next →
      exec .rcvFinish s = .next { s with boot.rcv.state := 3 }) ∧
    (exec .rcvReboot s = .next (s.chipReset 0x0A 0)) ∧
    (s.boot.rcv.state = 3 → stagedErr s.icb.minSvn s.boot.rcv.staged = 0 → exec .recoveryVerified s =
      .next { s with boot.rcv.state := 4, ens := s.ens.clear (imgBase s.boot.rcv.target) 64 }) ∧
    (s.boot.rcv.state = 3 → hdrListed s.boot.rcv.staged = true → hdrOk s.boot.rcv.staged = true →
      s.boot.rcv.staged.length = 256 + leAt s.boot.rcv.staged 8 4 → hdrSvn s.boot.rcv.staged < s.icb.minSvn →
      exec .recoveryVerified s = .next { s with boot.rcv.state := 6, boot.rcv.err := 6 }) ∧
    (s.boot.rcv.state = 4 → ∃ s1 : State,
      s1 = s.writeLines (s.boot.rcv.staged.length / 64 + 1) (imgBase s.boot.rcv.target / 64) s.boot.rcv.staged ∧
      exec (.recoveryWritten true) s =
        .next { s1 with boot.rcv.state := 5, icb := s1.icb.put s1.boot.rcv.target .fresh }) ∧
    (s.boot.rcv.state = 4 → exec (.recoveryWritten false) s =
      .next { s with boot.rcv.state := 6, boot.rcv.err := 7 })

/-! ### Windows, sessions and commands (chapters 05 and 06) -/

/-- A write to a register of a window takes effect whole, and only as that register's rule says (R108, Table 5.1): at
once, on an SPI port when nothing else is posted there. Window reads (R116,
R119, R123): a read of `MBX_STATUS` gives the word of Table 5.1 and ends the notices; a read of a result slot gives its
64 bytes and counts the read while the slot is READY; on an SPI port the bytes follow the fixed 0xFF byte and the token
0x5C (R113). The status read of an SPI port gives the port status byte and `MBX_STATUS`, and ends the R96 notice; an
unknown opcode byte has no effect (Table 5.2). -/
def Obligations.WindowAccess : Prop :=
  (∀ (s : State) (via : Via) (t : Ten) (v : Word), State.reaches s via t →
     let s1 := s.accessed via
     exec (.mbxStatusClear via v) s = .next (s1.statusWrite t v.toNat) ∧
     exec (.doorbell via v) s = .next (s1.doorbell t v.toNat) ∧
     exec (.resultAck via v) s = .next (s1.resultAck t v.toNat) ∧
     exec (.evtTail via v) s = .next (s1.evtTail t v.toNat) ∧
     exec (.bulkBase via v) s = .next (s1.bulkBase t v.toNat) ∧
     exec (.heartbeat via v) s = .next (s1.heartbeat t v.toNat)) ∧
  (∀ (s : State) (via : Via) (t : Ten), State.reaches s via t → (∀ p, via ≠ .spi p) →
     exec (.mbxStatusRead via) s = .next
       ((s.statusSeen via).emit (.read via (leBytes 4 (mbxStatus true (s.ten t))))) ∧
     ∀ n : SlotIx, ∃ bs, exec (.resultSlotRead via n) s =
       .next ((s.modSlot t n Slot.counted).emit (.read via bs)) ∧ bs.length = 64 ∧
         ∀ i, i < 64 → bs.getD i 0 = winByte (s.modSlot t n Slot.counted) t (0x300 + 64 * n.val + i)) ∧
  (∀ (s : State) (p : Fin 4) (t : Ten), State.reaches s (.spi p) t →
     let s1 := (s.newTxn p).freed
     exec (.mbxStatusRead (.spi p)) s = .next ((s1.statusSeen (.spi p)).emit
       (.read (.spi p) (0xFF :: 0x5C :: leBytes 4 (mbxStatus true (s.ten t))))) ∧
     ∀ n : SlotIx, ∃ bs, exec (.resultSlotRead (.spi p) n) s =
       .next ((s1.modSlot t n Slot.counted).emit (.read (.spi p) (0xFF :: 0x5C :: bs))) ∧ bs.length = 64 ∧
         ∀ i, i < 64 → bs.getD i 0 = winByte (s1.modSlot t n Slot.counted) t (0x300 + 64 * n.val + i)) ∧
  (∀ (s : State) (p : Fin 4) (t : Ten) (op : Byte) (sent : List Byte) (clocks : Nat), s.spiAlive p = true →
     s.boot.phase ≠ .recovery → s.tenOfPort p = some t →
     (op = 0xA5 ∨ op = 0xE5 → ∃ byte : Byte,
       byte.toNat = statusByte s (s.mbx.ports[p].notice || (s.ten t).irq) (s.mbx.ports[p].buf != []) p.val ∧
       exec (.spiStatusRead p (op :: sent) clocks) s = .next
         ((({ s with
             out := s.out ++ [.read (.spi p) (byte :: leBytes 4 (mbxStatus s.boot.mbxReady (s.ten t)))]
             mbx.ports := s.mbx.ports.set p { s.mbx.ports[p] with notice := false, waiting := none } } : State)).modTen t
           fun x => { x with notice := false })) ∧
     (op ∉ [0xA1, 0xE1, 0xA2, 0xE2, 0xA5, 0xE5] → exec (.spiStatusRead p (op :: sent) clocks) s = .next s) ∧
     (op = 0xA2 ∨ op = 0xE2 → ∀ hi lo data, sent = hi :: lo :: data →
       exec (.spiStatusRead p (op :: sent) clocks) s = .next (s.spiWrite p (256 * hi.toNat + lo.toNat) data)))

/-- A doorbell bit (R122): an EMPTY slot takes the descriptor as it stands and is PENDING, accepted at once with its
time-out running where its core accepts commands (R131), and no other slot and no memory changes; a slot in any other
state keeps its command and sets `RING_ERR`. Acknowledgement and `BULK_BASE`
(R109, R122, R155): READY slots become EMPTY and no other; the base moves inside the partition; a heartbeat restarts
the watch of a tenant that is not FAULTED. -/
def Obligations.SlotRegisters : Prop :=
  (∀ (s : State) (t : Ten) (n : SlotIx),
     ((s.slot t n).phase = .empty → s.accepts n = true →
       let x := (s.ringSlot t n).slot t n
       x.phase = .accepted ∧ x.desc = (s.slot t n).cmd ∧ x.order = s.mbx.nextOrder ∧ x.stop = none ∧
       x.deadline = (if x.timeout = 0 then none else some (s.now + x.timeout * 1000000)) ∧
       (∀ u m, (u, m) ≠ (t, n) → (s.ringSlot t n).slot u m = s.slot u m) ∧ (s.ringSlot t n).sram = s.sram) ∧
     ((s.slot t n).phase ≠ .empty →
       ((s.ringSlot t n).ten t).win.ringErr = true ∧ (s.ringSlot t n).slot t n = s.slot t n)) ∧
  (∀ (s : State) (t : Ten),
     (∀ v n, ((s.resultAck t v).slot t n).phase =
       if bit v n.val = true ∧ (s.slot t n).phase = .ready then .empty else (s.slot t n).phase) ∧
     (∀ v, bits v 8 14 * 256 < s.partBytes t → ((s.bulkBase t v).ten t).win.bulkBase = BitVec.ofNat 14 (bits v 8 14)) ∧
     (∀ v, (s.ten t).st ≠ .faulted → ((s.heartbeat t v).ten t).hbLast = s.now))

/-- Posted and aperture accesses (R109, R113, R114): bytes written over SPI are posted; with the tenant area served a
drain lets the oldest posted run take effect and goes on with the rest; in-band writes take effect at once, up to the
window's end, and an aperture read answers what the window reads there.
In-band frames (R117, R118): a request that stands and is ahead of the last `SEQ` is executed and answered; the last
one repeated is answered again without being executed; a request that does not stand is dropped and counted. -/
def Obligations.WindowTraffic : Prop :=
  (∀ s : State,
     (∀ p off data, s.spiAlive p = true → exec (.registerWrite (.spi p) off data) s = .next (s.spiWrite p off data)) ∧
     (∀ u off data, s.boot.mbxReady = true → s.tenOf (.lane u) = some u →
       exec (.registerWrite (.lane u) off data) s = .next (s.writeWindow u off (data.take (0x1000 - off)))) ∧
     (∀ p t e rest, s.mbx.ports[p].buf = e :: rest → s.boot.phase = .running → s.tenOfPort p = some t →
       s.domOn dMEM = true →
       exec (.writeBufferDrain p) s = .next (State.drainRuns false p rest.length
         (({ s with mbx.ports := s.mbx.ports.set p { s.mbx.ports[p] with buf := rest } } : State).writeWindow t
           e.off e.data))) ∧
     (∀ p off data, s.spiAlive p = true → 0x900 ≤ off →
       exec (.bulkApertureAccess (.spi p) (.write off data)) s = .next (s.spiWrite p off data)) ∧
     (∀ p off len, s.spiAlive p = true → 0x900 ≤ off →
       exec (.bulkApertureAccess (.spi p) (.read off len)) s = .next (s.spiRead p off len (s.waitBytes off len))) ∧
     (∀ u off data, s.boot.mbxReady = true → s.tenOf (.lane u) = some u → 0x900 ≤ off →
       exec (.bulkApertureAccess (.lane u) (.write off data)) s = .next (s.writeWindow u off (data.take (0x1000 - off)))) ∧
     (∀ u off len, s.boot.mbxReady = true → s.tenOf (.lane u) = some u → 0x900 ≤ off →
       exec (.bulkApertureAccess (.lane u) (.read off len)) s =
         .next ((readWindow s (.lane u) off len).2.emit (.read (.lane u) (readWindow s (.lane u) off len).1)))) ∧
  (∀ (s : State) (l : Fin 2) (src payload : List Byte),
     let t : Ten := Fin.ofNat 8 (byteAt payload 2)
     let seq := BitVec.ofNat 16 (beAt payload 4 2)
     let ahead := (seq - (s.ten t).ibSeq).toNat
     let s0 := s.firmUse (ibEntry t)
     s.boot.mbxReady = true → s.laneLink l = true →
     (s.ibOk l src payload t = true → 1 ≤ ahead → ahead ≤ 32767 → ∀ resp s1, s0.ibServe t payload = some (resp, s1) →
       exec (.inbandMbxFrame l src payload) s = .next
         ((s1.modTen t fun y => { y with ibSeq := seq, ibResp := resp }).macSend l ⟨(s.ten t).ibMac, 0x88B6, resp⟩)) ∧
     (s.ibOk l src payload t = true → ahead = 0 → (s.ten t).ibResp ≠ [] →
       exec (.inbandMbxFrame l src payload) s =
       .next (s0.macSend l ⟨(s.ten t).ibMac, 0x88B6, (s.ten t).ibResp⟩)) ∧
     (s.ibOk l src payload t = false → exec (.inbandMbxFrame l src payload) s = .next (s.ibDrop l)))

/-- Lane attach (R142, R143), on a lane whose link is up: fewer than 10 requests within the last second, an `ATTACH_REQ`
to broadcast or to the lane, for a tenant that may attach there, with a right tag is answered with `ATTACH_CHAL`, and the
challenge is kept; one with a wrong tag is dropped and counted, and the eighth within 60 s locks the tenant out for 60 s;
a confirmation more than 100 ms after the challenge, or one that differs from it, opens nothing; one that matches opens
the session of a DETACHED tenant with its in-band key; the lockout ends by itself. -/
def Obligations.LaneAttach : Prop :=
  (∀ (s : State) (l : Fin 2) (dst src payload : List Byte),
    let t : Ten := Fin.ofNat 8 (byteAt payload 2)
    let recent := s.mbx.attReqs[l].filter fun f => s.now < f + 1000000000
    let s1 : State := { s with mbx.attReqs := s.mbx.attReqs.set l (recent ++ [s.now]) }
    let a := (s.ten t).att
    (s.laneLink l = true → s.boot.mbxReady = true → dst = List.replicate 6 0xFF ∨ dst = s.laneMac l →
      recent.length < 10 → byteAt payload 1 = 0x01 → s.attachNames l payload t = true → beAt payload 26 2 = 0 →
      (s.attachTag payload t = true → ∃ (s2 s3 : State) (ans : List Byte), exec (.attachReq l dst src payload) s = .next s3 ∧
        s3 = s2.macSend l ⟨src, 0x88B5, ans⟩ ∧ byteAt ans 1 = 0x81 ∧
        (s2.ten t).att.chalAt = some s.now ∧ (s2.ten t).att.nT = field payload 4 8 ∧ (s2.ten t).att.src = src ∧
        (s2.ten t).att.session = nextSession (s.ten t).base ∧ (s2.ten t).st = (s.ten t).st) ∧
      (s.attachTag payload t = false → exec (.attachReq l dst src payload) s = .next (s1.attachFail l t))) ∧
    (s.laneLink l = true → s.boot.mbxReady = true → byteAt payload 1 = 0x02 → s.attachNames l payload t = true →
      s.attachTag payload t = true → ∀ c, a.chalAt = some c →
      (c + 100000000 < s.now ∨ field payload 4 8 ≠ a.nT ∨ field payload 12 8 ≠ a.nD ∨
        beAt payload 20 4 ≠ a.session.toNat ∨ src ≠ a.src →
        exec (.attachConf l src payload) s = .next (s.attDrop l)) ∧
      (s.now ≤ c + 100000000 → field payload 4 8 = a.nT → field payload 12 8 = a.nD →
        beAt payload 20 4 = a.session.toNat → src = a.src → (s.ten t).st = .detached →
        ∃ (s2 s3 : State) (ans : List Byte), exec (.attachConf l src payload) s = .next s3 ∧ s3 = s2.macSend l ⟨src, 0x88B5, ans⟩ ∧
          byteAt ans 1 = 0x82 ∧ (s2.ten t).session = a.session ∧ (s2.ten t).st = .attached ∧ (s2.ten t).ibMac = src ∧
          (s2.ten t).att.chalAt = none ∧
          s2.ibKey t = some (kdf 1 (s.credKey (s.ten t).cfg.cred) [0x5A, 0x50, 0x49, 0x42]
            ([BitVec.ofNat 8 t.val] ++ a.nT ++ a.nD ++ beBytes 4 a.session.toNat))))) ∧
  (∀ (s : State) (l : Fin 2) (t : Ten), 7 ≤ ((s.ten t).att.fails.filter fun f => s.now < f + 60000000000).length →
    ((s.attachFail l t).ten t).att.lockBy = some (s.now + 60000000000)) ∧
  (∀ (s : State) (u : Ten) (d : Nat), (s.ten u).att.lockBy = some d → exec (.attachLockoutEnd u) s =
    .next ((s.reach d).modTen u fun x => { x with att.lockBy := none, att.fails := [] }))

/-- COMMAND_START (R125, R525, R157, R63): the command CC0 or CC1 serves next completes at once with the status of the
first check it fails, or with `FAULT_TENANT` if its tenant is FAULTED, and otherwise runs under the rights its tenant
holds now; running is work, so the terminal leaves DUSK; in the notice period of an entry it posts `ERR_STATE` instead
(the model's choice of the check's place, log entry 507). The checks of a command's start stand in the order of R525: the
opcode, the descriptor, the session, the authority, the lease; an unassigned opcode is `ERR_OPCODE` whatever else is wrong
(R11). -/
def Obligations.CommandStart : Prop :=
  (∀ (s : State) (t : Ten) (n : SlotIx), s.boot.mbxReady = true →
     (n ≠ 7 → s.boot.core0Up = true → s.nextServed = some t → s.startable t = some n →
       let s1 := s.visited t
       ((s.ten t).st = .faulted → exec (.commandStart t n) s = .next (s1.done t n Status.faultTenant)) ∧
       ((s.ten t).st ≠ .faulted → ∀ st, s1.startCheck t n = some st →
         exec (.commandStart t n) s = .next (s1.done t n st)) ∧
       ((s.ten t).st ≠ .faulted → s1.startCheck t n = none → s.power.entry ≠ none →
         exec (.commandStart t n) s = .next (s1.done t n Status.state)) ∧
       ((s.ten t).st ≠ .faulted → s1.startCheck t n = none → s.power.entry = none →
         exec (.commandStart t n) s = .next
           ((s1.modSlot t n fun x => { x with phase := .running, rights := s1.rightsOf t }).touch.toNoon))) ∧
     ((s.slot t 7).phase = .accepted → s.coreUp t 7 = true →
       (∀ st, s.startCheck t 7 = some st → exec (.commandStart t 7) s = .next (s.done t 7 st)) ∧
       (s.startCheck t 7 = none → exec (.commandStart t 7) s = .next
         ((s.modSlot t 7 fun x => { x with phase := .running, rights := s.rightsOf t }).touch.toNoon)))) ∧
  (∀ (s : State) (t : Ten) (n : SlotIx),
     let op := (s.slot t n).opcode
     (needOf op = none → s.startCheck t n = some Status.opcode) ∧
     (slotTakes n op = true → s.descOk t (s.slot t n) = false → s.startCheck t n = some Status.param) ∧
     (slotTakes n op = true → s.descOk t (s.slot t n) = true → (s.ten t).st = .detached → s.detachedMay t n op = false →
       s.startCheck t n = some Status.state) ∧
     (slotTakes n op = true → s.descOk t (s.slot t n) = true → (s.ten t).st ≠ .detached →
       ∀ need, needOf op = some need →
         (s.meets t need = false → s.retiredOwner t op = false → s.startCheck t n = some Status.authority) ∧
         (s.meets t need = true → ∀ id, leaseNeeded op = some id → s.hasLease t id = false →
           s.startCheck t n = some Status.lease)))

/-- Deadlines of commands and sessions (R129, R148, R155, R162, R160): a time-out asks the command to
stop where its core runs, three
lease periods without a heartbeat fault the tenant, a delegation ends at its time, CC0 serves what a rescue queued, a
result that has waited posts when nothing holds it, and a notice is repeated while it is unread. -/
def Obligations.CommandDeadlines : Prop :=
  ∀ (s : State) (t : Ten) (n : SlotIx),
    (∀ d, (s.slot t n).deadline = some d → s.coreUp t n = true → exec (.commandTimeout t n) s =
      .next (((s.reach d).modSlot t n fun x => { x with deadline := none, expired := true }).askStop t n .timeout)) ∧
    (∀ f, t ≠ 0 → (s.ten t).st = .attached → (s.ten t).hbFrom = some f →
      exec (.heartbeatDeadline t) s = .next ((s.reach (f + 3 * (s.ten t).leaseMs * 1000000)).fault t)) ∧
    (∀ u d, s.mbx.delegate = some (u, d) → exec .delegationExpiry s = .next ((s.reach d).endDelegation 0)) ∧
    (s.boot.core0Up = true → exec .rescueResidueDone s = .next s.serveResidue) ∧
    (∀ d, (s.mbx.drains.find? fun d => d.ten == t && d.slot == n) = some d → s.drained d = true →
      exec (.permissionDrainDone t n) s =
        .next (({ s with mbx.drains := s.mbx.drains.filter fun e => !(e.ten == t && e.slot == n) } : State).finish d)) ∧
    (∀ d l, (s.ten t).noticeBy = some d → laneOf (s.ten t).cfg.transport = some l → (s.ten t).irq = true →
      (s.ten t).statusRead = false → exec (.noticeFrameRepeat t) s = .next ((s.reach d).sendNotice t))

/-- The `TENANT` commands under the checks of their rows. A status answers Table 6.10 (R163), of another tenant to the
owner. An attach of a DETACHED SPI tenant opens a session, and answers its number, authority and partition (R140, R141).
A detach stops the tenant's commands and ends its session once they have stopped (R158); a reset answers zeros for a
DETACHED tenant and else goes by CC1 in slot 7 and by CC0 in the others (R158, R162). A lease that is free is granted, one
that another holds is `ERR_LEASE`, and a release gives up the holder's own (R153, R154). A binding takes the transport,
the credential slot and the authority mask given, revokes the leases the mask no longer allows, ends the session whose
transport changes, and clears the partition with either change; the shares and the partitions take the values given
(R138, R150 to R152, R160, R161); a delegation replaces the one before it, and 0xFF ends it (R148). -/
def Obligations.TenantCommands : Prop :=
  (∀ (s : State) (t : Ten) (n : SlotIx),
     (∀ u, s.sends t n 0x0201 [(0, 1)] → targetOf t (s.prm1 t n 0) = some u →
       (u = t ∨ s.ownerAt t n = true ∧ (u = 0 ∨ s.unreachable u = false)) →
       exec (.tenantStatus t n) s = .next (s.answer t n (tenantStatus s u))) ∧
     (s.sends t n 0x0202 [(0, 3)] → t ≠ 0 → s.prm1 t n 2 ≤ 1 →
       (s.prm t n 0 2 = 0 ∨ 100 ≤ s.prm t n 0 2 ∧ s.prm t n 0 2 ≤ 10000) → (s.ten t).st = .detached →
       (spiOf (s.ten t).cfg.transport).isSome = true → ∃ s1 : State,
         exec (.tenantAttach t n) s = .next (s1.answer t n (leBytes 4 (s1.ten t).session.toNat
           ++ leBytes 2 (s1.authOf t).toNat ++ leBytes 1 (s1.ten t).cfg.part ++ [0])) ∧
         s1 = (s.openSession t (s.prm t n 0 2) (bit (s.prm1 t n 2) 0)).setSlot t n
           { s.slot t n with cmd := Vector.replicate 64 0 }) ∧
     (s.sends t n 0x0203 [] → t ≠ 0 → (s.ten t).st = .attached → ∃ s1 s2 : State,
       s1 = s.askStopAll t (ownSlot t n t) .detach ∧
       s2 = (s1.endSession t).modTen t (fun y => { y with st := (s1.ten t).st }) ∧
       exec (.tenantDetach t n) s = .next (s2.drainOrPost
         { ten := t, slot := n, data := [], after := s2.runningOf t (t, n), res := s1.leasesOf t, fin := .detach })) ∧
     (∀ u, s.runs t n 0x0204 = true → targetOf t (s.prm1 t n 0) = some u → u ≠ 0 →
       (u = t ∨ s.ownerAt t n = true ∧ s.unreachable u = false) → s.prm1 t n 1 ≤ 1 → s.stray t n [(0, 2)] = false →
       exec (.tenantReset t n) s = .next
         (if (s.ten u).st = .detached then s.answer t n [0, 0, 0, 0]
          else if n = 7 then s.resetByCc1 t n u (bit (s.prm1 t n 1) 0)
          else s.resetByCc0 t n u (bit (s.prm1 t n 1) 0))) ∧
     (∀ id, s.sends t n 0x0205 [(0, 2)] → s.prm1 t n 1 = id → (leaseNeed id == .bad) = false →
       maskAllows t (s.slot t n).rights.auth (s.ownerAt t n) id = true →
       (s.prm1 t n 0 = 0 → s.holder id = none → s.changing id = false →
         exec (.tenantLease t n) s = .next ((s.grantLease t id).answer t n [0xFF])) ∧
       (s.prm1 t n 0 = 0 → s.holder id = some t → exec (.tenantLease t n) s = .next (s.answer t n [BitVec.ofNat 8 t.val])) ∧
       (∀ u, s.prm1 t n 0 = 0 → u ≠ t → s.holder id = some u →
         exec (.tenantLease t n) s = .next (s.done t n Status.lease)) ∧
       (s.prm1 t n 0 = 1 → s.holder id ≠ some t → exec (.tenantLease t n) s = .next (s.done t n Status.lease)) ∧
       (s.prm1 t n 0 = 1 → s.holder id = some t → exec (.tenantLease t n) s = .next ((s.revoke id).drainOrPost
         { ten := t, slot := n, data := [BitVec.ofNat 8 t.val], after := [], res := [id], fin := .plain })))) ∧
  (∀ (s : State) (t : Ten) (n : SlotIx) (u : Ten),
     (s.sends t n 0x0206 [(0, 6)] → u ≠ 0 → s.prm1 t n 0 = u.val → s.prm1 t n 3 = 0 → s.prm t n 4 2 ≤ 0x1FF →
       s.bindOk u (s.prm1 t n 1) (s.prm1 t n 2) = true →
       s.unreachable u = false → s.fuses.life ≠ .retired → s.configBusy = false →
       let old := (s.ten u).cfg
       let auth : Half := BitVec.ofNat 16 (s.prm t n 4 2)
       let moved := old.transport.toNat ≠ s.prm1 t n 1
       ∃ s1 s2 s3 s4 : State,
         s1 = s.modTen u (fun x => { x with
           cfg.transport := BitVec.ofNat 8 (s.prm1 t n 1), cfg.cred := s.prm1 t n 2, cfg.auth := auth }) ∧
         s2 = ((s1.leasesOf u).filter fun id => !maskAllows u (s1.authOf u) (s1.isOwner u) id).foldl
           (fun s id => (s.revoke id).tellRevoked u id 4) s1 ∧
         s3 = (if moved ∧ (s2.ten u).st ≠ .detached then s2.resetNow u false (ownSlot t n u) (u != t) else s2) ∧
         s4 = (if moved ∨ old.cred ≠ s.prm1 t n 2 then
           { s3 with sram := s3.sram.clear (s3.partAddr u 0) (s3.partBytes u) } else s3) ∧
         exec (.tenantBind t n) s = .next (s4.persisted.drainOrPost
           { ten := t, slot := n, data := [], after := if old.auth &&& ~~~auth ≠ 0 then s4.persisted.runningOf u (t, n) else [],
             res := (s1.leasesOf u).filter fun id => !maskAllows u (s1.authOf u) (s1.isOwner u) id, fin := .plain })) ∧
     (s.sends t n 0x0207 [(0, 24)] → s.prm1 t n 0 = u.val → (u = t ∨ s.unreachable u = false) → 1 ≤ s.prm1 t n 1 →
       10 ≤ s.prm t n 2 2 → s.prm t n 2 2 ≤ 10000 →
       1 ≤ s.prm1 t n 4 → s.prm1 t n 5 = 0 → 1 ≤ s.prm t n 6 2 → s.prm t n 6 2 ≤ 10000 →
       s.fuses.life ≠ .retired → s.configBusy = false → ∃ (s1 : State) (d : Drain),
         s1 = s.modTen u (fun x => { x with cfg := { x.cfg with
           weight := s.prm1 t n 1, rate := s.prm t n 2 2, firnWeight := s.prm1 t n 4, evtBudget := s.prm t n 6 2,
           uqMask := BitVec.ofNat 64 (s.prm t n 8 8), gsCap := Vector.ofFn fun g => s.prm1 t n (16 + g.val) } }) ∧
         exec (.tenantSetQos t n) s = .next (s1.persisted.drainOrPost d) ∧ d.ten = t ∧ d.slot = n ∧ d.data = [] ∧
         d.fin = .plain ∧
         ((s.ten u).cfg.uqMask &&& ~~~BitVec.ofNat 64 (s.prm t n 8 8) = 0 → d.after = [] ∧ d.held = []) ∧
         ((s.ten u).cfg.uqMask &&& ~~~BitVec.ofNat 64 (s.prm t n 8 8) ≠ 0 →
           d.after = s1.runningOf u (t, n) ∧ d.held = s1.classified u)) ∧
     (s.sends t n 0x0209 [(0, 4)] → s.prm1 t n 1 = 0 →
       (u ≠ 0 → s.prm1 t n 0 = u.val → 1 ≤ s.prm t n 2 2 → s.prm t n 2 2 ≤ 1440 → s.unreachable u = false →
         (s.ten u).st = .attached → s.delegate ≠ some u → ∃ s1 : State, s1 = s.endDelegation 2 ∧
         exec (.tenantDelegate t n) s = .next (({ s1 with
           mbx.delegate := some (u, s1.now + s.prm t n 2 2 * 60000000000) } : State).answer t n (holderByte s.delegate))) ∧
       (s.prm1 t n 0 = 0xFF →
         exec (.tenantDelegate t n) s = .next ((s.endDelegation 1).answer t n (holderByte s.delegate))))) ∧
  (∀ (s : State) (t : Ten) (n : SlotIx) (new old : Vector Nat 8), new = Vector.ofFn (fun u => s.prm1 t n u.val) →
     old = Vector.ofFn (fun u => (s.ten u).cfg.part) →
     s.sends t n 0x0208 [(0, 9)] → s.prm1 t n 8 ≤ 1 → (∀ u : Ten, new[u] ≤ 24) →
     allTen.foldl (fun a u => a + new[u]) 0 ≤ 32 → (∀ u : Ten, s.bound u = true → new[u] ≠ 0) →
     (∀ u : Ten, (s.ten u).st ≠ .detached → baseIn old u = baseIn new u ∧ new[u] ≤ old[u]) → s.fuses.life ≠ .retired →
     s.configBusy = false → ∃ (s1 s2 s3 : State) (d : Drain),
       s1 = (allTen.filter fun u => new[u] < old[u]).foldl (fun s u => s.stopBeyond u (new[u] * 65536)) s ∧
       s2 = allTen.foldl (fun s u => s.modTen u fun x => { x with cfg.part := new[u] })
         { s1 with sram := movedSram s1.sram old new } ∧
       s3 = (if s.prm1 t n 8 = 1 then ({ s2 with store.parts := new } : State).persisted else s2) ∧
       exec (.tenantPartition t n) s = .next (s3.drainOrPost d) ∧ d.ten = t ∧ d.slot = n ∧ d.fin = .plain ∧
       d.data = allTen.map (fun u => BitVec.ofNat 8 (baseIn new u)))

/-- A write to `EVT_TAIL` takes effect only if it moves `TAIL` forward by no more than `HEAD` − `TAIL`, counted modulo
65,536; any other value is ignored (R110). -/
def Obligations.EvtTailMovesForward : Prop :=
  ∀ (s : State) (via : Via) (t : Ten) (v : Word), s.reaches via t →
    let w := (s.ten t).win
    let s1 := s.accessed via
    (BitVec.ofNat 16 v.toNat - w.tail ≤ w.head - w.tail →
      exec (.evtTail via v) s = .next (s1.modTen t fun x => { x with win.tail := BitVec.ofNat 16 v.toNat })) ∧
    (¬ BitVec.ofNat 16 v.toNat - w.tail ≤ w.head - w.tail → exec (.evtTail via v) s = .next s1)

/-- A write to `BULK_BASE` whose `BASE` × 256 is not less than the current partition size is ignored. An aperture byte
that lies at or beyond the end of the partition reads zero, discards a write and sets `BULK_ERR` (R109). -/
def Obligations.ApertureBeyondThePartition : Prop :=
  ∀ (s : State) (t : Ten), s.boot.mbxReady = true →
    (∀ via v, s.reaches via t → s.partBytes t ≤ bits v.toNat 8 14 * 256 → exec (.bulkBase via v) s = .next (s.accessed via)) ∧
    (s.tenOf (.lane t) = some t → ∀ off, 0x900 ≤ off → off < 0x1000 → s.partBytes t ≤ (s.ten t).bulkOff off →
      (∃ s' x, exec (.bulkApertureAccess (.lane t) (.read off 1)) s = .next s' ∧
        s'.out = x ++ [.read (.lane t) [0]] ∧ (s'.ten t).win.bulkErr = true) ∧
      (∀ b, ∃ s', exec (.bulkApertureAccess (.lane t) (.write off [b])) s = .next s' ∧
        s'.sram = s.sram ∧ (s'.ten t).win.bulkErr = true))

/-! ### Power and the always-on domain (chapters 02 and 03) -/

/-- The `POWER` commands (R57, R60 to R62, R80, R86, R177): the report of Table 3.13; a floor set and the effective
floor answered; the timers and the wake configuration written; the boost policy. `POWER.SET_STATE` (R60) leaves NIGHT for
DUSK, and accepts an entry to NIGHT, GLACIER or PERMAFROST that the floor permits and nothing blocks; the first blocker
answers its status; the owner's `FORCE` needs no floor and clears the blockers that can be cleared (R62); without it a
floor shallower than the target refuses with `ERR_STATE` (R57). -/
def Obligations.PowerCommands : Prop :=
  (∀ (s : State) (t : Ten) (n : SlotIx),
     (s.sends t n 0x0401 [] → exec (.powerStatus t n) s = .next (s.answer t n (powerStatus s))) ∧
     (∀ f : PState, f ≠ .boost → f ≠ .permafrost → s.sends t n 0x0403 [(0, 1)] → s.prm1 t n 0 = f.code → ∃ s1 : State,
       s1 = s.modTen t (fun x => { x with floor := some f }) ∧
       exec (.powerFloor t n) s =
         .next (s1.answer t n (leBytes 1 (match s1.floor with | some g => g.code | none => 0xFF))).retryAuto) ∧
     (s.sends t n 0x0404 [(0, 48)] → s.prm t n 44 4 ≤ 3 → (timerParams (s.params t n)).ok = true →
       exec (.powerTimers t n) s =
         .next (({ s with power.cfg := timerParams (s.params t n) } : State).done t n Status.ok).retryAuto) ∧
     (s.sends t n 0x0405 [(0, 6)] → (∀ i : Fin 4, s.prm1 t n i.val ≤ 7) → s.prm1 t n 5 ≤ 3 →
       ∃ set : BitVec 32, (∀ i : Fin 4, set.getLsbD i.val = bit (s.prm1 t n i.val) 0) ∧ set.getLsbD 8 = bit (s.prm1 t n 5) 0 ∧
         (∀ i, 4 ≤ i → i ≠ 8 → set.getLsbD i = s.power.wcfg.set.getLsbD i) ∧
         (setSizeOf set ≤ 16 → exec (.powerWakeCfg t n) s = .next (({ s with
           power.wcfg := { set := set, pinHigh := BitVec.ofNat 4 (bitsOf 4 fun i => bit (s.prm1 t n i.val) 1)
                           pinEdge := BitVec.ofNat 4 (bitsOf 4 fun i => bit (s.prm1 t n i.val) 2)
                           debounce := s.prm1 t n 4, bcast := bit (s.prm1 t n 5) 1 } } : State).done t n Status.ok))) ∧
     (s.sends t n 0x0406 [(0, 1)] →
       (s.prm1 t n 0 = 0 → exec (.powerBoost t n) s =
         .next ((({ s with power.boostAuto := false } : State).leaveBoost).done t n Status.ok)) ∧
       (s.prm1 t n 0 = 1 → exec (.powerBoost t n) s =
         .next ((({ s with power.boostAuto := true } : State).seekBoost).done t n Status.ok)))) ∧
  (∀ (s : State) (t : Ten) (n : SlotIx), s.sends t n 0x0402 [(0, 2)] →
     let b := s.prm1 t n 0
     let night := b = 3 || b = 4
     (b = 2 → s.prm1 t n 1 = 0 → exec (.powerSetState t n) s = .next
       (if s.power.pstate = .night ∨ s.power.night.granted then (s.stateAnswer t n).nightTrigger 0x02
        else s.stateAnswer t n)) ∧
     (s.prm1 t n 1 = 0 → s.floorAllows (targetState b) = true → s.blocker night = none →
       (b = 3 → exec (.powerSetState t n) s = .next ((s.stateAnswer t n).requestSleep 1).leaveBoost) ∧
       (b = 4 → exec (.powerSetState t n) s =
         .next ((s.stateAnswer t n).acceptEntry .glacier s.power.cfg.glacierRetain t)) ∧
       (b = 5 → exec (.powerSetState t n) s = .next ((s.stateAnswer t n).acceptEntry .permafrost false t))) ∧
     (s.prm1 t n 1 = 1 → s.ownerAt t n = true → s.hardBlocker night = none →
       (b = 3 → exec (.powerSetState t n) s = .next ((s.clearForcible.stateAnswer t n).requestSleep 1 true).leaveBoost) ∧
       (b = 4 → exec (.powerSetState t n) s =
         .next ((s.clearForcible.stateAnswer t n).acceptEntry .glacier s.power.cfg.glacierRetain t true)) ∧
       (b = 5 → exec (.powerSetState t n) s = .next ((s.clearForcible.stateAnswer t n).acceptEntry .permafrost false t true))) ∧
     (s.prm1 t n 1 = 0 → 3 ≤ b → b ≤ 5 → s.floorAllows (targetState b) = false →
       exec (.powerSetState t n) s = .next (s.done t n Status.state)) ∧
     (∀ st, s.prm1 t n 1 = 0 → 3 ≤ b → b ≤ 5 → s.floorAllows (targetState b) = true → s.blocker night = some st →
       exec (.powerSetState t n) s = .next (s.done t n st)))

/-- The idle timers (R55 to R59, R61, R66, R80, Table 3.2): where the terminal is idle in the sense of its timer, the
expiry takes the action of the table, at its deadline: to DUSK where the floor permits it; PD_INF, PD_AUD and PD_LNL off;
the boost point left; a probe of PD_LNL, which ends with the domain off or, with a partner, on; the NIGHT request, which
waits while a floor or a blocker holds it back; automatic GLACIER once both of its timers have expired. Work that arrives
while the terminal is in NOON, DUSK or the boost point leads to NOON and switches its domain on. -/
def Obligations.IdleTimers : Prop :=
  ∀ s : State,
    (s.serving = true → s.power.pstate = .noon → s.power.pmic = none → s.power.entry = none → s.workIdle = true →
      exec .tDuskExpiry s = .next (if s.floorAllows .dusk
        then (s.reach (s.power.idle.dusk + s.power.cfg.tDusk * 1000000)).toDusk else s)) ∧
    (s.domOn dINF = true → s.firnIdle = true →
      exec .tInfExpiry s = .next ((s.reach (s.power.idle.inf + s.power.cfg.tInf * 1000000)).powerOff dINF)) ∧
    (s.power.pstate = .boost → s.firnIdle = true →
      exec .tBoostExpiry s = .next (s.reach (s.power.idle.boost + s.power.cfg.tBoost * 1000000)).leaveBoost) ∧
    (s.power.pstate = .dusk → s.domOn dAUD = true → s.audIdle = true →
      exec .tAudExpiry s = .next ((s.reach (s.power.idle.aud + s.power.cfg.tAud * 1000000)).powerOff dAUD)) ∧
    (s.power.pstate = .dusk → s.domOn dLNL = true → s.anyLink = false → s.power.probing = none →
      ∃ s1 : State, s1 = (s.reach (s.power.idle.lnl + s.power.cfg.tLnl * 1000000000)).powerOff dLNL ∧
        exec .tLnlExpiry s = .next { s1 with power.idle.probe := s1.now, power.idle.night := s1.now }) ∧
    (s.power.pstate = .dusk → s.dom dLNL = .off → s.power.probeWake = false →
      ∃ s1 : State, s1 = s.reach (s.power.idle.probe + s.power.cfg.tLnlProbe * 1000000) ∧
        exec .tLnlProbeExpiry s = .next (({ s1 with power.probeWake := true } : State).wakeDomains [dLNL])) ∧
    (∀ d, s.power.probing = some d → ∃ s1 : State, s1 = { s.reach d with power.probing := none } ∧
      exec (.lnlProbeEnd true) s =
        .next (({ s1 with power.idle.lnl := s1.now, power.idle.night := s1.now } : State).unitsOn [dLNL]) ∧
      (s.power.pstate = .dusk → exec (.lnlProbeEnd false) s =
        .next (({ s1 with power.idle.probe := s1.now } : State).powerOff dLNL))) ∧
    (s.nightIdle = true →
      (s.floorAllows .night = true → s.blocker true = none →
        exec .tNightExpiry s = .next ((s.reach s.nightDue).requestSleep 0)) ∧
      (s.floorAllows .night = false ∨ s.blocker true ≠ none →
        exec .tNightExpiry s = .next { s.reach s.nightDue with power.nightWaits := true })) ∧
    (s.serving = true → s.power.pstate.awake = true → s.mbx.leases = [] → s.allDark = true →
      (∀ s1 : State, s1 = s.reach (s.power.idle.glacier + s.power.cfg.tGlacier * 1000000000) →
        (s1.now < s.power.idle.dark + s.power.cfg.tDark * 1000000000 → exec .tGlacierExpiry s = .next s1) ∧
        (s.power.idle.dark + s.power.cfg.tDark * 1000000000 ≤ s1.now → s.power.cfg.glacierAuto = true →
          s.floorAllows .glacier = true → s.blocker true = none →
          exec .tGlacierExpiry s = .next (s1.acceptEntry .glacier s.power.cfg.glacierRetain 0))) ∧
      (∀ s1 : State, s1 = s.reach (s.power.idle.dark + s.power.cfg.tDark * 1000000000) →
        (s1.now < s.power.idle.glacier + s.power.cfg.tGlacier * 1000000000 → exec .tDarkExpiry s = .next s1) ∧
        (s.power.idle.glacier + s.power.cfg.tGlacier * 1000000000 ≤ s1.now → s.power.cfg.glacierAuto = true →
          s.floorAllows .glacier = true → s.blocker true = none →
          exec .tDarkExpiry s = .next (s1.acceptEntry .glacier s.power.cfg.glacierRetain 0)))) ∧
    (∀ d, s.serving = true → s.power.pstate.awake = true →
      exec (.domainWorkArrival d) s = .next (((s.probeOver d).toNoon).wakeDomains [d]))

/-- The end of a notice period (R63, R64): a chip reset is taken; an entry that a floor forbids by now is dropped (the
model's choice, log entry 331); a terminal that is not IN_SERVICE goes on with the entry, one that is sends its
deregistration notice and waits at most 4 ms for it. A local deregistration notice ends the wait of `LTX.ACTIVATION` where
no entry waits for it (R246). PERMAFROST (R53, R64, Table 4.1): PD_AO alone stays powered, both enables are low, the fibre
is dark, no mailbox is served; the fuses and the image control block stand. NIGHT (R66 to R72): no answer within the time
ends the request, and the attempts are counted; at the anchor the terminal goes to NIGHT, or tells that the condition has
ended; 250 µs before a listen the wake for it starts; a listen that ends in SYNC returns to sleep with the schedule
advanced, and the third missed one leaves NIGHT. -/
def Obligations.EntriesAndDeepStates : Prop :=
  (∀ (s : State) (e : Entry) (s1 : State), s.power.entry = some e → s1 = (s.reach e.deadline).endAll →
     (e.stage = .notice → e.target = .chipReset → exec .tNoticeExpiry s =
       .next (({ s1 with power.entry := none } : State).chipReset 0x07 e.byTenant.val)) ∧
     (e.stage = .notice → s.entryFloored e = true → exec .tNoticeExpiry s =
       .next { s.reach e.deadline with power.entry := none }) ∧
     (e.stage = .notice → e.target ≠ .chipReset → s.entryFloored e = false → s1.inService = false →
       exec .tNoticeExpiry s = .next (s1.afterNotice e)) ∧
     (e.stage = .notice → e.target ≠ .chipReset → s.entryFloored e = false → s1.inService = true →
       exec .tNoticeExpiry s = .next { s1.sendDeregNotice 5 with
         power.entry := some { e with stage := .dereg, deadline := s1.now + 4000000 } }) ∧
     (e.stage = .dereg → exec .deregNoticeTimeout s = .next ((s.reach e.deadline).afterNotice e)) ∧
     (∀ w, e.stage ≠ .dereg → s.reg.wait = some w →
       exec .deregNoticeTimeout s = .next ((s.reach w.by_).finishWait w))) ∧
  (∀ (s : State) (w : ActWait), s.power.entry = none → s.reg.wait = some w →
     exec .deregNoticeTimeout s = .next ((s.reach w.by_).finishWait w)) ∧
  (∀ (s : State) (e : Entry), e.target = .permafrost → s.power.wcfg.set = 0 →
     let s' := s.enterDeep e
     s'.power.pstate = .permafrost ∧ s'.dom 0 = .on ∧ (∀ d : Dom, d ≠ 0 → s'.dom d = .off) ∧ s'.pads.enAux = false ∧
     s'.pads.enMain = false ∧ s'.pads.txdisLow = 0 ∧ s'.boot.mbxReady = false ∧ s'.power.wake = none ∧
     s'.fuses = s.fuses ∧ s'.icb = s.icb) ∧
  (∀ s : State,
     (∀ d, s.power.night.answerBy = some d → ∃ s1 : State, s1 = { s.reach d with
       power.night.answerBy := none, power.idle.night := max s.now d
       power.night.attempts := s.power.night.attempts + 1 } ∧ exec .sleepAnswerTimeout s = .next s1.retryAuto) ∧
     (∀ s1 : State, s.power.pstate ≠ .night → s.power.night.granted = true → s1 = s.reachTt s.power.night.nextListen →
       (s1.nightReady = true → exec .nightListenWake s = .next s1.goNight) ∧
       (s1.nightReady = false → exec .nightListenWake s = .next (s1.nightTrigger 0))) ∧
     (s.power.pstate = .night → s.power.night.listening = false → s.power.night.exiting = false → s.power.wake = none →
       exec .nightListenWake s = .next ((s.reachTt (s.power.night.nextListen - 250000)).startWake .listen .night 0)) ∧
     (∀ s0 : State, s.power.pstate = .night → s.power.night.exiting = false →
       s0 = s.reachTt (s.power.night.nextListen + 2000000) →
       (s0.power.night.listening = true → s0.activeSync = true → s0.act.unproven = false → ∃ s1 : State,
         s1 = (({ s0 with power.night.missedRun := 0, power.wake := none } : State).powerOffAll [dLNA, dFRM]).dpllLoss ∧
         exec .nightListenEnd s = .next { s1 with
           power.night := { s1.power.night with listening := false }.advance }) ∧
       (s0.activeSync = false → s0.power.night.missedRun = 2 → exec .nightListenEnd s =
         .next (({ s0 with power.night.missedRun := 3, power.night.missed := satInc 65535 s0.power.night.missed } : State
           ).nightTrigger 0x10))))

/-- The wake sequence (R73 to R76, Table 3.5): in GLACIER a watched source that can be seen is kept in `AO_PEND` and
starts the wake (R178, R179); a ready signal that is not the step's last leaves the step waiting for the others, with the
next regulator enable raised; the last one leads to the next step that has something to wait for, and after the logic step
the wake is complete; a signal that misses its time aborts the wake. The fourth failed wake in a row out of NIGHT is a
chip reset with the cause WAKE_FAIL (R76). -/
def Obligations.WakeSequence : Prop :=
  (∀ s : State,
     (∀ src data, s.wakeCfg.set.getLsbD src.val = true → s.aoSees src = true → s.domOn dCTL = false →
       s.power.pstate = .glacier → s.pads.rstN = true → s.pads.powered = true → s.power.entry = none →
       s.power.wake = none → s.freshSource src = true → s.power.night.granted = false →
       exec (.wakeTrigger src data) s = .next ((s.latchAo src data).startWake .glacier .glacier (pinBit src))) ∧
     (∀ w sig g gs, s.power.wake = some w → w.waiting = sig :: g :: gs → sig ∉ g :: gs → sig ≠ .pllaLock →
       ∃ s1 s2 : State, s1 = s.signalled sig ∧ s2 = s1.raiseEnable w.raised g ∧ exec (.wakeStepReady sig) s =
         .next { s2 with power.wake := some { w with
           waiting := g :: gs, raised := if s1.raises g then w.raised ++ [g] else w.raised } }) ∧
     (∀ w sig, s.power.wake = some w → w.waiting = [sig] → sig ≠ .pllaLock →
       (w.step = 5 → exec (.wakeStepReady sig) s = .next ((s.signalled sig).finishWake w)) ∧
       (∀ m g gs, firstStep (s.signalled sig) w.kind w.doms (5 - w.step) (w.step + 1) = (m, g :: gs) →
         w.kind ≠ .glacier → exec (.wakeStepReady sig) s =
           .next { s.signalled sig with power.wake := some { w with step := m, waiting := g :: gs } })) ∧
     (∀ w sig, s.power.wake = some w → w.waiting.contains sig = true →
       exec (.wakeStepTimeout sig false) s = .next (s.failWake w w.step (sigDetail false sig)))) ∧
  (∀ (s : State) (w : WakeSeq) (step detail : Nat), w.kind = .nightExit → s.power.nightFails = 3 →
     w.doms = [] → ∃ s1 : State, s.failWake w step detail = s1.chipReset 0x04 0)

/-- The pins that PD_AO watches (R30, R86, R164, R421, R506): a change of a wake pin towards its active level is judged
at once without a debounce outside PERMAFROST, and at the end of the debounce with one; in PERMAFROST a level of 1 µs is
judged and one below 20 ns is not; chip selects, the debug port and a low VBAT assert their sources, and the debug port
released ends its trace session. Light-wake (R47, R81 to R83): while PD_TKP is on, `LW_EN` is set and the ball acts, the
detector samples the ball of the lane it watches; below a reference of 60 mV it decodes nothing, above it a sample joins
the frame search; a decoded frame with a wrong check is counted, and one with the right check and the terminal's group
wakes it from GLACIER and is reported elsewhere. -/
def Obligations.PinsAndLightWake : Prop :=
  (∀ s : State,
     (∀ (pin : Fin 4) (ns : Nat) (s1 : State), s.wakeCfg.pinHigh.getLsbD pin.val = true →
       s1 = { s with pads.wakePins := s.pads.wakePins ||| (1#4 <<< pin.val) } →
       (s.power.pstate ≠ .permafrost → s.wakeCfg.debounce = 0 →
         exec (.wakePinChange pin true ns) s = .next (s1.judgePin pin)) ∧
       (s.power.pstate ≠ .permafrost → s.wakeCfg.debounce ≠ 0 →
         exec (.wakePinChange pin true ns) s = .next { s1 with
           power.debounceBy := s.power.debounceBy.set pin (some (s.now + s.wakeCfg.debounce * 1000000000 / 32768)) }) ∧
       (s.power.pstate = .permafrost → 1000 ≤ ns → exec (.wakePinChange pin true ns) s = .next (s1.judgePin pin)) ∧
       (s.power.pstate = .permafrost → ns < 20 → exec (.wakePinChange pin true ns) s = .next s1)) ∧
     (∀ (pin : Fin 4) (d : Nat), s.power.debounceBy[pin] = some d → exec (.wakeDebounceExpiry pin) s =
       .next (({ s.reach d with power.debounceBy := s.power.debounceBy.set pin none } : State).judgePin pin)) ∧
     (∀ port : Fin 4, exec (.csNFall port) s =
       .next (s.aoAssert (Fin.ofNat 32 (9 + port.val)) (BitVec.ofNat 32 port.val))) ∧
     (exec .debugAttach s =
       .next ((({ s with pads.trstN := true } : State).aoAssert 15 (BitVec.ofNat 32 s.debugCode)).debugAttached)) ∧
     (exec .debugDetach s = .next { s with pads.trstN := false, sec.trace := false, sec.tap := .idcode }) ∧
     (∀ mv, mv < 2000 → exec (.vbatLow mv) s =
       .next (({ s with pads.vbatMv := mv } : State).aoAssert 16 (BitVec.ofNat 32 (mv / 10))))) ∧
  (∀ s : State,
     (∀ a b uv, s.domOn dTKP = true → s.wakeCfg.set.getLsbD 8 = true → s.ballActs (.optics s.power.lw.lane) = true →
       uv = min 1200000 (if s.power.lw.lane = 0 then a else b) →
       ((s.power.lw.track uv).vref < 60000 → exec (.lightWakeSample a b) s =
         .next { s with power.lw := { s.power.lw.track uv with samples := [], bits := [], body := none } }) ∧
       (60000 ≤ (s.power.lw.track uv).vref → exec (.lightWakeSample a b) s =
         .next { s with power.lw := (s.power.lw.track uv).addSample (lwClass s.power.lw.vref uv) })) ∧
     (∀ g c, s.power.lw.frame = some (g, c) →
       (c.toNat ≠ (crc16 (beBytes 2 g.toNat)) ^^^ s.power.lw.site.toNat → exec .lightWakeFrame s =
         .next { s with power.lw.frame := none, power.lw.badchk := satInc 65535 s.power.lw.badchk }) ∧
       (c.toNat = (crc16 (beBytes 2 g.toNat)) ^^^ s.power.lw.site.toNat → g ≠ 0 → g = s.power.lw.group →
         (s.power.pstate = .glacier → s.power.wake = none → exec .lightWakeFrame s =
           .next (({ s with power.lw.frame := none, power.lw.hits := satInc 65535 s.power.lw.hits } : State).aoAssert 8
             (g.setWidth 32))) ∧
         (s.power.pstate ≠ .glacier → s.power.pstate ≠ .night → exec .lightWakeFrame s =
           .next (({ s with power.lw.frame := none, power.lw.ignored := satInc 65535 s.power.lw.ignored } : State).raise 0x08
             (g.setWidth 32))))))

/-- Rails, the PMIC link and the junction (R32, R36, R37, R48, R49, R79, R80, R524): `RAIL_OK` low for 2 µs outside its
blanking, with `PWR_EN_MAIN` high and no wake under way, is a BROWNOUT, and a shorter low or one within the blanking is
not; an acknowledged code is in force and settles for 50 µs; one that is not is retried once after 100 µs, and so is a
write whose target stretches the clock beyond 10 ms; the next code of a change follows, and the
last completes it; a junction
above 95 °C holds the boost point off, and leaves it. A supply of balls takes its mode as it rises past 1.2 V, and keeps
it from 0.5 V up. -/
def Obligations.VoltageAndRails : Prop :=
  ∀ s : State,
    (∀ ns, s.pads.enMain = true → s.pads.enRise + 100000 ≤ s.now → 2000 ≤ ns → s.power.wake = none →
      exec (.railOkLow ns) s = .next ((({ s with pads.railLowTo := max s.pads.railLowTo (s.now + ns) } : State).reach
        (s.now + 2000)).chipReset 0x03 0)) ∧
    (∀ ns, s.now + ns < max s.now (s.pads.enRise + 100000) + 2000 →
      exec (.railOkLow ns) s = .next { s with pads.railLowTo := max s.pads.railLowTo (s.now + ns) }) ∧
    (∀ op stretch, s.power.pmic = some op → s.tw.active = some .pm → ∃ s1 : State,
      s1 = { s.reach (s.tw.since + min stretch maxStretch) with
        tw := { s.tw with active := none, last := if maxStretch < stretch then Status.busy else 0 } } ∧
      (stretch ≤ maxStretch → exec (.pmicWriteComplete true stretch) s = .next { s1 with
        ao.vcode := op.codes.headD 30, power.pmic := some { op with settleBy := some (s1.now + 50000) } }) ∧
      (∀ ack, ack = false ∨ maxStretch < stretch →
        (op.retried = false → exec (.pmicWriteComplete ack stretch) s =
          .next { s1 with power.pmic := some { op with retried := true, retryAt := some (s1.now + 100000) } }) ∧
        (op.retried = true → exec (.pmicWriteComplete ack stretch) s = .next (s1.pmicFail op)))) ∧
    (∀ op d c, s.power.pmic = some op → op.settleBy = some d →
      (op.codes = [c] → exec .pmicSettleExpiry s = .next ((s.reach d).pmicDone op.why)) ∧
      (∀ c2 cs, op.codes = c :: c2 :: cs → op.why ≠ .toBoost → exec .pmicSettleExpiry s =
        .next (({ s.reach d with power.rdAssist := false, power.wrAssist := false } : State).startPmic (c2 :: cs) op.why))) ∧
    (∀ op d, s.power.pmic = some op → op.retryAt = some d → op.failed = false → exec .pmicRetryTimer s =
      .next (({ s.reach d with power.pmic := some { op with retryAt := none } } : State).sendPmic (op.codes.headD 30))) ∧
    (∀ tj, 380 < tj → ∃ s1 : State, s1 = { s with power.tj := tj, power.thermalHold := true } ∧
      (s.power.pstate ≠ .boost → exec (.tjUpdate tj) s = .next s1.firnThermal) ∧
      (s.power.pstate = .boost → s.power.leaveBoost = false → exec (.tjUpdate tj) s =
        .next ((s1.raise 0x93 (BitVec.ofInt 32 tj)).leaveBoost.seekBoost).firnThermal)) ∧
    (∀ mv, s.pads.hostMode = none → 1200 < mv →
      exec (.vddioLevelDetect false mv) s = .next { s with pads.hostMode := some (decide (2500 ≤ mv)) }) ∧
    (∀ mv m, s.pads.fieldMode = some m → 500 ≤ mv →
      exec (.vddioLevelDetect true mv) s = .next { s with pads.fieldMode := some m })

/-! ### The event router (chapter 07) -/

/-- Latches and their service (R164, R166, R171): an assertion of a source that is on sets its latch with the present
time, or is merged into it with the newer data; the router serves the latch of highest `PRIO`, lowest number among
equals, clears it and delivers the event; a directed event goes to each of its targets; the owner's notice is sent again
while its condition holds and its status is unread (R176). -/
def Obligations.LatchRules : Prop :=
  ∀ s : State,
    (∀ (src : Fin 256) (data : Word), 0x20 ≤ src.val → src.val ≠ 0xF0 → s.canAssert src = true → (s.source src).en = true →
      (s.source src).latch = none → ∃ s', exec (.eventSourceAssert src data) s = .next s' ∧
        (s'.source src).latch = some { tt := s.ttNs, est := s.ttEst, data := data } ∧
        (s'.source src).merged = (s.source src).merged ∧ (∀ i, i ≠ src → s'.source i = s.source i) ∧ s'.tenants = s.tenants) ∧
    (∀ (src : Fin 256) (data : Word) (l : Latch), 0x20 ≤ src.val → src.val ≠ 0xF0 → s.canAssert src = true →
      (s.source src).en = true → (s.source src).latch = some l → ∃ s', exec (.eventSourceAssert src data) s = .next s' ∧
        (s'.source src).latch = some { l with data := data } ∧
        (s'.source src).merged = satInc 255 (s.source src).merged) ∧
    (∀ i j : Fin 256, s.nextLatch = some i → j.val ≠ 0xF0 → (s.source j).latch.isSome = true →
      (s.source j).prio ≤ (s.source i).prio ∧ ((s.source j).prio = (s.source i).prio → i ≤ j)) ∧
    (∀ (i : Fin 256) (l : Latch), s.domOn dCTL = true → s.nextLatch = some i → i.val ≠ 0xF0 → (s.source i).latch = some l →
      exec .eventLatchServe s = .next ((s.modSource i fun x => { x with latch := none }).deliverEvent i l)) ∧
    (∀ d rest, s.domOn dCTL = true → s.nextLatch = some 0xF0 → s.evt.directed = d :: rest →
      exec .eventLatchServe s = .next ((allTen.filter fun t => d.targets.getLsbD t.val).foldl
        (fun s t => s.deliver t 0 d.code d.latch true) { s with evt.directed := rest })) ∧
    (∀ d, (s.ten 0).noticeBy = some d → (s.ten 0).irq = true → (s.ten 0).statusRead = false →
      exec .mbxNoticeRepeat s = .next ((s.reach d).sendNotice 0))

/-- An event for a tenant (R133, R134, R169, R175): a DETACHED tenant receives nothing; an attached one with a free
place in its ring receives a record with its next number; a directed event that finds the ring full is lost, sets
`EVT_OVF`, and uses its number up. LOWEST delivery (R172): the target has the least current priority of the eligible
ones; where no target is eligible the event is counted in `NO_TARGET`. -/
def Obligations.Delivery : Prop :=
  (∀ (s : State) (t : Ten) (vid : Nat) (code : Half) (l : Latch),
     (∀ b, (s.ten t).st = .detached → s.deliver t vid code l b = s) ∧
     ((s.ten t).st ≠ .detached → (s.ten t).unread ≠ 64 →
       let x := (s.deliver t vid code l true).ten t
       x.win.head = (s.ten t).win.head + 1 ∧ x.evtSeq = (s.ten t).evtSeq + 1 ∧ x.loss = false ∧
       x.ring[(Fin.ofNat 64 (s.ten t).win.head.toNat : Fin 64)] = (s.ten t).record vid code l ∧
       (∀ u, u ≠ t → ((s.deliver t vid code l true).ten u).ring = (s.ten u).ring)) ∧
     ((s.ten t).st ≠ .detached → (s.ten t).unread = 64 →
       let x := (s.deliver t vid code l true).ten t
       x.win.head = (s.ten t).win.head ∧ x.ring = (s.ten t).ring ∧ x.win.evtOvf = true ∧ x.loss = true ∧
       x.evtSeq = (s.ten t).evtSeq + 1 ∧ x.lostRing = satInc 65535 (s.ten t).lostRing)) ∧
  (∀ (s : State) (i : Fin 256) (l : Latch), (s.source i).lowest = true →
     (∀ t, s.lowestTarget (s.source i) = some t →
       s.eligible t = true ∧ t ∈ (s.source i).tenants ∧
       (∀ u ∈ (s.source i).tenants, s.eligible u = true → (s.ten t).win.cpri.toNat ≤ (s.ten u).win.cpri.toNat) ∧
       s.deliverEvent i l = ((s.coreEvent i l).deliverTo i l t).modSource i fun y => { y with ptr := t + 1 }) ∧
     (s.lowestTarget (s.source i) = none →
       s.deliverEvent i l = (s.coreEvent i l).modSource i fun y => { y with noTarget := satInc 255 y.noTarget }))

/-- The `EVT` commands (R167, R177, R182): a subscription takes a free VID and adds the tenant to the source's
targets, its end takes both away; the owner sets mode and priority of a source but 0xF0; the AO-watch set takes the value given;
the reports of Table 7.7, of the tenant and of a VID; `EVT.TEST` asserts source 0xF1. -/
def Obligations.EvtCommands : Prop :=
  ∀ (s : State) (t : Ten) (n : SlotIx),
    (s.sends t n 0x0301 [(0, 2)] → ∀ src : Fin 256, s.prm1 t n 0 = src.val → subscribable src.val = true →
      (∀ k, subscribeBit src.val = some k → s.holdsAt t n k = true) → 1 ≤ s.prm1 t n 1 → s.prm1 t n 1 ≤ 63 →
      (s.ten t).vids[(Fin.ofNat 64 (s.prm1 t n 1) : Fin 64)] = none → (s.ten t).vidOf src = none →
      exec (.evtSubscribe t n) s = .next (((s.modTen t fun y => { y with
          vids := y.vids.set (Fin.ofNat 64 (s.prm1 t n 1)) (some src) }).modSource src fun y =>
        { y with targets := y.targets ||| (1#8 <<< t.val) }).done t n Status.ok)) ∧
    (s.sends t n 0x0302 [(0, 1)] → ∀ src : Fin 256, 1 ≤ s.prm1 t n 0 → s.prm1 t n 0 ≤ 63 →
      (s.ten t).vids[(Fin.ofNat 64 (s.prm1 t n 0) : Fin 64)] = some src →
      exec (.evtUnsubscribe t n) s = .next (((s.modTen t fun y => { y with
          vids := y.vids.set (Fin.ofNat 64 (s.prm1 t n 0)) none }).modSource src fun y =>
        { y with targets := y.targets &&& ~~~(1#8 <<< t.val) }).done t n Status.ok)) ∧
    (s.sends t n 0x0303 [(0, 3)] → s.prm1 t n 0 ≠ 0xF0 → s.prm1 t n 1 ≤ 3 →
      s.prm1 t n 2 ≤ 15 → exec (.evtConfig t n) s = .next ((s.modSource (Fin.ofNat 256 (s.prm1 t n 0)) fun x => { x with
        en := bit (s.prm1 t n 1) 0, lowest := bit (s.prm1 t n 1) 1
        prio := BitVec.ofNat 4 (s.prm1 t n 2) }).done t n Status.ok)) ∧
    (s.sends t n 0x0304 [(0, 4)] → s.prm t n 0 4 < 2 ^ 18 → setSizeOf (BitVec.ofNat 32 (s.prm t n 0 4)) ≤ 16 →
      exec (.evtAoWatch t n) s = .next (({ s with power.wcfg.set := BitVec.ofNat 32 (s.prm t n 0 4) } : State).answer t n
        (leBytes 4 (s.prm t n 0 4)))) ∧
    (s.sends t n 0x0305 [(0, 1)] → s.prm1 t n 0 = 0xFF → exec (.evtStatus t n) s = .next (s.answer t n (evtSummary s t))) ∧
    (s.sends t n 0x0305 [(0, 1)] → ∀ src : Fin 256, 1 ≤ s.prm1 t n 0 → s.prm1 t n 0 ≤ 63 →
      (s.ten t).vids[(Fin.ofNat 64 (s.prm1 t n 0) : Fin 64)] = some src →
      exec (.evtStatus t n) s = .next (s.answer t n (evtVid s src))) ∧
    (s.sends t n 0x0306 [(0, 4)] → exec (.evtTest t n) s =
      .next ((s.raise 0xF1 (BitVec.ofNat 32 (s.prm t n 0 4))).done t n Status.ok))

/-- The round-robin pointer of a source, tenant index 2 of the router being T0 (R173): it points at T0 after every
chip-scope start; among the eligible targets that share the lowest current priority the router takes the first at or
after it, wrapping; after every LOWEST delivery it points past the tenant that was served, wrapping. -/
def Obligations.RoundRobinPointer : Prop :=
  ∀ (s : State) (i : Fin 256) (l : Latch),
    (∀ cause detail, ((s.chipReset cause detail).source i).ptr = 0) ∧
    (∀ t, (s.source i).lowest = true → s.lowestTarget (s.source i) = some t →
      (∀ u ∈ (s.source i).tenants, s.eligible u = true → (s.ten u).win.cpri = (s.ten t).win.cpri →
        (t - (s.source i).ptr).val ≤ (u - (s.source i).ptr).val) ∧
      ((s.deliverEvent i l).source i).ptr = t + 1)

/-! ### Lanes (chapter 08) -/

/-- The `LANE` commands (R191, R192, R198, R202, R208): the report of Table 8.8; the settings of the fibre lanes and of a
local lane, whose link goes down, written; a switch to an eligible standby lane, and the lockout set and cleared; raw mode
entered and left; a slip of a raw lane, which ends with a second row, moves its boundary and has its lock judged afresh;
the capture of the last 24 code-groups. -/
def Obligations.LaneCommands : Prop :=
  (∀ (s : State) (t : Ten) (n : SlotIx),
    (s.sends t n 0x0701 [(0, 2)] → s.prm1 t n 0 ≤ 3 → s.prm1 t n 1 = 0 →
      exec (.laneStatus t n) s = .next (s.answer t n (laneStatus s (Fin.ofNat 4 (s.prm1 t n 0))))) ∧
    (s.sends t n 0x0702 [(0, 8)] → s.prm1 t n 0 = 0 → byteAt (s.params t n) 1 ≤ 3 →
      (protParams (s.params t n)).holdOffUs ≤ 1000 → within 10 3600 (protParams (s.params t n)).wtrS = true →
      byteAt (s.params t n) 6 ≤ 15 → byteAt (s.params t n) 7 = 0 → s.absentLane 0 = false → exec (.laneConfig t n) s =
        .next ((({ s with lanes.prot.cfg := protParams (s.params t n) } : State).updateWtr).done t n Status.ok)) ∧
    (∀ l : Fin 2, ∀ c : LocalCfg, s.sends t n 0x0702 [(0, 9)] → s.prm1 t n 0 = 2 + l.val → c = localParams (s.params t n) →
      1 ≤ c.mode → c.mode ≤ 3 → byteAt (s.params t n) 2 ≤ 7 → (c.mode ≠ 3 ∨ c.an = false) → byteAt (s.params t n) 3 ≤ 3 →
      c.holdMs ≤ 10000 → c.quanta ≠ 0 → byteAt (s.params t n) 8 = 0 → s.absentLane (2 + l.val) = false →
      exec (.laneConfig t n) s =
        .next (((s.dropLocal l).modLocal l fun x => { x with cfg := c }).done t n Status.ok)) ∧
    (s.sends t n 0x0703 [(0, 1)] →
      (s.prm1 t n 0 = 0 → s.lanes.prot.holdBy = none → s.lanes.prot.lockout = false → s.activeLane ≠ none →
        s.laneEligible s.standby = true →
        exec (.laneSwitch t n) s = .next ((s.switchTo s.standby).answer t n (s.switchTo s.standby).activeByte)) ∧
      (s.prm1 t n 0 = 1 → exec (.laneSwitch t n) s =
        .next (({ s with lanes.prot.lockout := true } : State).answer t n s.activeByte)) ∧
      (s.prm1 t n 0 = 2 → exec (.laneSwitch t n) s =
        .next (({ s with lanes.prot.lockout := false } : State).answer t n s.activeByte))) ∧
    (∀ i : Fin 4, s.prm1 t n 0 = i.val → s.absentLane i.val = false →
      (s.sends t n 0x0704 [(0, 2)] → s.prm1 t n 1 = 0 →
        exec (.laneMode t n) s = .next ((s.setRaw i false []).done t n Status.ok)) ∧
      (s.sends t n 0x0704 [(0, 2)] → s.prm1 t n 1 = 1 → i.val < 2 → (s.reg.st = .initial ∨ s.reg.st = .dereg) →
        exec (.laneMode t n) s = .next ((s.setRaw i true []).done t n Status.ok)) ∧
      (s.sends t n 0x0704 [(0, 18)] → s.prm1 t n 1 = 1 → 2 ≤ i.val → (s.patternOf t n).all patternOk = true →
        exec (.laneMode t n) s = .next ((s.setRaw i true ((s.patternOf t n).map (BitVec.ofNat 9))).done t n Status.ok))) ∧
    (s.sends t n 0x0705 [(0, 2)] → ∀ i : Fin 4, s.prm1 t n 0 = i.val → 1 ≤ s.prm1 t n 1 → s.prm1 t n 1 ≤ 9 →
      s.absentLane i.val = false → (s.phy i).raw = true → (s.phy i).slip = none →
      s.lanes.phy.toList.any (·.slipsFor t n) = false → exec (.laneSlip t n) s =
        .next (s.modPhy i fun p => { p with slip := some (t, n, s.prm1 t n 1) })) ∧
    (s.inHand t n 0x0705 = true → s.lanes.phy.toList.any (·.slipsFor t n) = true →
      exec (.laneSlip t n) s = .next ((s.endSlips t n).done t n Status.ok)) ∧
    (s.sends t n 0x0706 [(0, 1)] → ∀ i : Fin 4, s.prm1 t n 0 = i.val → s.absentLane i.val = false →
      exec (.laneCapture t n) s = .next (s.answer t n
        (leBytes 2 (s.phy i).slips ++ leBytes 2 24 ++ (s.phy i).words.flatMap fun w => leBytes 2 w.toNat)))) ∧
  (∀ (s : State) (t : Ten) (n : SlotIx) (i : Fin 4) (k : Nat), (s.phy i).slip = some (t, n, k) →
    ((s.endSlips t n).phy i).slips = ((s.phy i).slips + k) % 10 ∧ ((s.endSlips t n).phy i).slip = none ∧
    ((s.endSlips t n).phy i).lock = false)

/-- Lock, loss and qualification (R188, R190, R196): a fibre lane, or a local lane in raw mode, locks when its code-groups
meet the criterion and its CDR has its frequency; a locked fibre lane loses lock on the criterion of Table 8.3 or when its
CDR does; a high LOS ball darkens its lane; 10 ms of lock qualifies a fibre lane again. Protection (R195 to R198): at the
end of the hold-off an eligible standby lane takes over, unless a lockout holds; at the end of the wait to restore the
preferred lane does, unless a lockout holds. -/
def Obligations.LockAndProtection : Prop :=
  (∀ (s : State) (rd : Bool) (groups : List CodeGroup),
     (∀ i : Fin 4, s.laneOn i = true → (s.phy i).lock = false → s.noLight i = false → (s.phy i).slip = none →
       lockMet (s.judged i rd groups) (s.marks i (s.judged i rd groups)) = true →
       (i.val < 2 → exec (.laneLock i rd true groups) s = .next ((s.takeGroups i rd groups).fibreLocks (fibreOf i))) ∧
       (2 ≤ i.val → (s.phy i).raw = true → exec (.laneLock i rd true groups) s =
         .next ((s.takeGroups i rd groups).modPhy i fun p => { p with lock := true }))) ∧
     (∀ i : Fin 4, ∀ cdr, i.val < 2 → s.laneOn i = true → (s.phy i).lock = true →
       (cdr = true ∨ lossMet (s.marks i (s.judged i rd groups)) = true) → exec (.laneLoss i rd groups cdr) s =
         .next ((s.takeGroups i rd groups).loseLane (fibreOf i))) ∧
     (∀ l : Fin 2, s.ballActs (.optics l) = true → s.pads.los.getLsbD l.val = true → exec (.optLosChange l false) s =
       .next (({ s with pads.los := s.pads.los &&& ~~~(1#2 <<< l.val) } : State).aoAssert (Fin.ofNat 32 (0x0D + l.val)) 0)) ∧
     (∀ l : Fin 2, s.ballActs (.optics l) = true → s.pads.los.getLsbD l.val = false → exec (.optLosChange l true) s =
       .next ((({ s with pads.los := s.pads.los ||| (1#2 <<< l.val) } : State).aoAssert
         (Fin.ofNat 32 (0x0D + l.val)) 1).darkLane l)) ∧
     (∀ (i : Fin 4) (d : Nat), i.val < 2 → (s.phy i).qualBy = some d → (s.phy i).lock = true →
       exec (.laneRelockQualified i) s = .next
         (((s.reach d).modPhy i fun p => { p with good := true, qualBy := none }).resumeActive.updateWtr.tellDefects))) ∧
  (∀ s : State,
     (∀ d, s.lanes.prot.holdBy = some d →
       let s1 : State := { s.reach d with lanes.prot.holdBy := none }
       (s1.laneEligible s1.standby = true → s.lanes.prot.lockout = false →
         exec .holdOffExpiry s = .next (s1.switchTo s1.standby).retryAuto) ∧
       (s.lanes.prot.lockout = true → exec .holdOffExpiry s = .next s1.retryAuto)) ∧
     (∀ d, s.lanes.prot.wtrBy = some d →
       (s.lanes.prot.lockout = false → (s.reach d).laneEligible s.lanes.prot.cfg.preferred = true →
         s.lanes.prot.active ≠ s.lanes.prot.cfg.preferred →
         exec .waitToRestoreExpiry s = .next ((s.reach d).switchTo s.lanes.prot.cfg.preferred)) ∧
       (s.lanes.prot.lockout = true → exec .waitToRestoreExpiry s = .next (s.reach d))))

/-- Local links (R189, R190, R201): a partner's word brings the link up, at once where no loss has come; a link down
drops the lane; a link that is not back at the end of the egress hold has its queues flushed. The local MACs (R204 to
R206): a frame with a wrong FCS is counted and dropped, a good one is sorted; a PAUSE frame is taken; at the
pause's end the frames that waited go out; XOFF and XON of the ingress send PAUSE frames while transmission is on, and one is repeated. -/
def Obligations.LocalLanes : Prop :=
  (∀ (s : State) (l : Fin 2),
     (∀ mode rx tx x, s.localOn l = true → (s.phy (localIx l)).raw = false → (s.phy (localIx l)).lock = false →
       (s.phy (localIx l)).lost = false →
       ((s.modLocal l fun x => x.countWord mode).local_ l).negotiate mode rx tx = some x →
       exec (.localLinkUp l mode rx tx) s = .next (((((s.modLocal l fun x => x.countWord mode).modLocal l fun _ => x).modPhy
         (localIx l) fun p => { p with lock := true })).linkUp l)) ∧
     (exec (.localLinkDown l) s = .next (s.dropLocal l)) ∧
     (∀ d, (s.local_ l).holdBy = some d → s.laneLink l = false → exec (.egressHoldExpiry l) s =
       .next (((s.reach d).modLocal l fun x => { x with holdBy := none }).flushEgress l))) ∧
  (∀ (s : State) (l : Fin 2),
     (∀ frame, s.laneLink l = true → exec (.macFrameReceive l frame false) s =
       .next (s.modLocal l fun x => { x with fcsErr := inc32 x.fcsErr })) ∧
     (∀ frame, s.laneLink l = true → 60 ≤ frame.length → frame.length ≤ 16379 →
       exec (.macFrameReceive l frame true) s = .next (s.macSort l frame)) ∧
     (∀ quanta, s.laneLink l = true → exec (.pauseFrameReceived l quanta) s = .next
       ((s.modLocal l fun x => { x with rxFrames := inc32 x.rxFrames }).pauseReceived l quanta.toNat)) ∧
     (∀ d, (s.local_ l).pausedBy = some d → exec (.pauseTimeEnd l) s =
       .next ((s.local_ l).macq.foldl (fun s f => s.macSend l f)
         ((s.reach d).modLocal l fun x => { x with pausedBy := none, macq := [] }))) ∧
     ((s.local_ l).xoff = false → 1024 * s.tm.buf.xoff[l] ≤ s.fifoFill (Fin.ofNat 4 (1 + l.val)) →
       (s.local_ l).txPause = false → exec (.xoffCrossing l) s =
         .next (({ s with tm.xoffCnt := s.tm.xoffCnt.set l (inc32 s.tm.xoffCnt[l]) } : State).modLocal l fun y =>
           { y with xoff := true, repeatBy := none })) ∧
     ((s.local_ l).xoff = true → s.fifoFill (Fin.ofNat 4 (1 + l.val)) < 1024 * s.tm.buf.xon[l] →
       (s.local_ l).txPause = true → s.laneLink l = true → exec (.xonCrossing l) s =
         .next ((s.modLocal l fun y => { y with xoff := false, repeatBy := none }).sendPause l 0)) ∧
     (∀ d, (s.local_ l).repeatBy = some d → (s.local_ l).xoff = true → (s.local_ l).txPause = true → s.laneLink l = true →
       exec (.pauseRepeat l) s = .next (((s.reach d).sendPause l (s.local_ l).cfg.quanta).modLocal l fun y =>
         { y with repeatBy := some (y.repeatAt (s.reach d).now) })))

/-! ### Lineatex downstream (chapter 09) -/

/-- Frame alignment (R70, R209, R222, Table 9.7), while the lane's receiver is on and locked: a correct FAW in HUNT starts
a frame; in PRESYNC a correct one at the next frame start is SYNC and a wrong one returns to HUNT; in SYNC each is judged
at its place; in NIGHT a correct one at the kept position preloads SYNC. SYNC is lost at the fourth errored FAW in a row,
and not before (R222). -/
def Obligations.FrameAlignment : Prop :=
  (∀ (s : State) (l : Fin 2) (rd : Bool) (groups : List CodeGroup) (shift : Int), s.fibreOn l = true →
     s.domOn dFRM = true → (s.phy (fibreIx l)).lock = true →
     let ok := fawCorrect (s.judged (fibreIx l) rd groups)
     let at_ := s.fawAt l 78125 ok shift
     (∀ pos, (s.chan l).st = .hunt → s.power.pstate ≠ .night →
       (ok = true → exec (.fawDetected l pos rd groups shift) s = .next (s.huntFaw l (s.fawAt l pos ok shift))) ∧
       (ok = false → exec (.fawDetected l pos rd groups shift) s = .next s)) ∧
     ((s.chan l).st = .presync → s.power.pstate ≠ .night → ok = true →
       exec (.fawDetected l 78125 rd groups shift) s = .next ((s.beginFrame l 1 at_ true).reachSync l)) ∧
     ((s.chan l).st = .presync → ok = false → exec (.fawDetected l 78125 rd groups shift) s =
       .next ((((s.reach (at_ / 2)).toHunt l).tellDefects).markDark s.allDark)) ∧
     ((s.chan l).st = .sync → exec (.fawDetected l 78125 rd groups shift) s = .next (s.syncFaw l at_ ok)) ∧
     (∀ pos k n mfi, (s.chan l).st ≠ .sync → s.power.pstate = .night → ok = true →
       (s.chan l).keptNear (s.fawAt l pos ok shift) = some (k, n, mfi) →
       exec (.fawDetected l pos rd groups shift) s = .next (s.preload l k n mfi (s.fawAt l pos ok shift)))) ∧
  (∀ (s : State) (l : Fin 2) (start2 : Nat), (s.chan l).st = .sync →
     ((s.chan l).fawRun = 3 → ((s.syncFaw l start2 false).chan l).st = .hunt) ∧
     ((s.chan l).fawRun < 3 → ((s.syncFaw l start2 false).chan l).st = .sync ∧
       ((s.syncFaw l start2 false).chan l).fawRun = (s.chan l).fawRun + 1) ∧
     (((s.syncFaw l start2 true).chan l).st = .sync ∧ ((s.syncFaw l start2 true).chan l).fawRun = 0))

/-- Headers, entries and containers of a frame in SYNC (R211, R215, R218, R223): a header whose check fails counts
against the channel and, on the active lane, leaves its map invalid; one whose check holds is judged for alignment, and
used on the active lane while SYNC stands; an entry whose check fails is dropped and counted; an entry for this terminal on
the active lane that fits joins the grant table and is served, or starts a ranging; a discovery entry is skipped or used in
LISTEN; a whole container for a role of this terminal is taken for it; the oldest container that a core works on has its
check ended. -/
def Obligations.FrameContents : Prop :=
  ∀ (s : State) (l : Fin 2) (bytes : List Byte),
    ((s.chan l).st = .sync → (s.chan l).rx.judged = false → bytes.length = 40 → s.domOn dFRM = true →
      (headerValid bytes = false →
        (l ≠ s.lanes.prot.active → exec (.frameHeader l bytes) s = .next (s.modChan l Chan.badHeader).tellDefects) ∧
        (l = s.lanes.prot.active → exec (.frameHeader l bytes) s = .next (({ s.modChan l Chan.badHeader with
          us.maps := (((s.chan l).k, false) :: s.us.maps).take 4 } : State).resolveAll).tellDefects)) ∧
      (∀ s1 : State, headerValid bytes = true →
        s1 = s.modChan l (fun c => (c.goodHeader bytes).alignPreloaded (hMfi bytes)) →
        (l ≠ s.lanes.prot.active → exec (.frameHeader l bytes) s = .next ((s1.updateWtr).tellDefects.endSilence)) ∧
        (l = s.lanes.prot.active → s1.inSync l = true →
          exec (.frameHeader l bytes) s = .next (((s1.activeHeader l bytes).updateWtr).tellDefects.endSilence)))) ∧
    (∀ (s1 : State) (e : Grant), s.mapEntry l bytes = true → s.boot.core1Up = true → s1 = s.countEntry l →
      e = grantOf (s1.chan l).k bytes →
      (gOk bytes = false → exec (.grantEntry l bytes) s = .next (s1.dropEntry l) ∧
        exec (.discoveryEntry l bytes) s = .next (s1.dropEntry l)) ∧
      (gOk bytes = true → gRh bytes = s1.reg.rh → gRh bytes ≠ 0 → gRh bytes ≠ 0xFFF → s1.takesEntries l = true →
        l = s1.lanes.prot.active → e.fits s1.us.table = true →
        (e.ranging = false → exec (.grantEntry l bytes) s =
          .next ((({ s1 with us.table := s1.us.table ++ [e] } : State).serveGrant e).resolveAll)) ∧
        (e.ranging = true → exec (.grantEntry l bytes) s = .next (s1.rangingActive l e).resolveAll)) ∧
      (gOk bytes = true → gRh bytes = s1.reg.rh → gRh bytes ≠ 0 → gRh bytes ≠ 0xFFF → s1.takesEntries l = true →
        l ≠ s1.lanes.prot.active → exec (.grantEntry l bytes) s = .next (s1.rangingStandby l e)) ∧
      (gOk bytes = true → gRh bytes = 0xFFF → l = s1.lanes.prot.active → s1.reg.st = .listen →
        s1.framed l = true → s1.dpllSilent = false → s1.slotsUnusable = false →
        s1.fr.silenced = false → s1.mapOpen l = true →
        (0 < s1.reg.skip → exec (.discoveryEntry l bytes) s = .next { s1 with reg.skip := s1.reg.skip - 1 }) ∧
        (s1.reg.skip = 0 → exec (.discoveryEntry l bytes) s = .next (s1.useDiscovery bytes)))) ∧
    (l = s.lanes.prot.active → s.domOn dFRM = true → (s.chan l).delinPkt bytes = .whole → ∃ s1 : State,
      s1 = s.modChan l (fun c => c.afterPkt bytes .whole) ∧
      (∀ role, s1.roleOf (kRh bytes) = some role →
        exec (.packetContainer l bytes) s = .next (s1.takeContainer l role (bytes.take (6 + kLen bytes)))) ∧
      (s1.roleOf (kRh bytes) = none → exec (.packetContainer l bytes) s = .next s1)) ∧
    (∀ (s1 : State) (d : Dec), s1 = s.startJobs → (s1.cip.decq.find? fun d => s1.runsOn (.dec d)) = some d →
      exec .packetDecryptDone s = .next
        ((({ s1 with cip.decq := s1.cip.decq.erase d } : State).freeCores (· == .dec d)).finishDec d).touch.startJobs)

/-- Defects and the key switch (R225 to R228, Table 9.8): LOF of 8 ms silences, LOF of 2 s deregisters a registered
terminal; LOL clears after 1 ms of lock; at the armed boundary both indices change where every role's key is held, and
the old generation is retired a multiframe later. -/
def Obligations.DefectTimers : Prop :=
  ∀ s : State,
    (∀ f, s.act.lofFrom = some f → s.domOn dFRM = true → s.power.pstate ≠ .night → s.fr.silenced = false →
      exec .lof8msExpiry s = .next (s.reach (f + 8000000)).silence) ∧
    (∀ f, s.act.lofFrom = some f → s.domOn dFRM = true → s.power.pstate ≠ .night → s.reg.st.registered = true →
      exec .lof2sExpiry s = .next (((s.reach (f + 2000000000)).dereg 2).toListen)) ∧
    (∀ l d, s.fr.lolBy = some d → exec (.lolClear l) s =
      .next (({ s.reach d with fr := { s.fr with lol := false, lolBy := none } } : State).endSilence)) ∧
    (∀ b, s.fr.arm = some b → (s.reach (s.act.startOf b)).rolesHeld (!s.fr.kiUp) = true →
      exec .keySwitchBoundary s = .next (({ s.reach (s.act.startOf b) with fr := { s.fr with
        kiUp := !s.fr.kiUp, kiDown := !s.fr.kiUp, arm := none, late := false
        retire := some (s.fr.kiUp, b + 8), lastSwitch := some b } } : State).raise 0x54 (BitVec.ofNat 32 (b2n !s.fr.kiUp)))) ∧
    (∀ g b, s.fr.retire = some (g, b) → ∃ s', exec .keyRetire s = .next s' ∧ s'.fr.retire = none ∧
      s'.reg.ivHigh[(⟨b2n g, by cases g <;> decide⟩ : Fin 4)] = 0 ∧ s'.reg.ivHigh[(⟨2 + b2n g, by cases g <;> decide⟩ : Fin 4)] = 0 ∧
      s'.now = max s.now (s.act.startOf b) ∧
      ∀ r, s'.entry (trafficEntry r g) = none)

/-- The `LTX` reports and settings of chapters 09 to 11 (R229, R246, R248, R256, R269): the reports answer their tables;
`LTX.ACTIVATION` returns from DEREG to INITIAL, and a stop or a rediscovery waits for the deregistration notice, at most 4
ms; a grant stream takes its new depth, with its bursts withdrawn, and an empty queue its new mapping. -/
def Obligations.LtxCommands : Prop :=
  ∀ (s : State) (t : Ten) (n : SlotIx),
    (s.sends t n 0x0801 [(0, 2)] → ∀ l : Fin 2, s.prm1 t n 0 = l.val → s.prm1 t n 1 = 0 → s.absentLane l.val = false →
      exec (.ltxDsStatus t n) s = .next (s.answer t n (s.dsStatus l))) ∧
    (s.sends t n 0x0802 [(0, 1)] → ∀ l : Fin 2, s.prm1 t n 0 = l.val → s.absentLane l.val = false →
      exec (.ltxDsSnapshot t n) s = .next (s.answer t n (field (s.chan l).hdr 0 40 ++ leBytes 8 (s.chan l).hdrCap))) ∧
    (s.sends t n 0x0803 [(0, 1)] → s.prm1 t n 0 = 0 → exec (.ltxRegStatus t n) s = .next (s.answer t n s.regStatus)) ∧
    (∀ s1 : State, s.sends t n 0x0804 [(0, 1)] → s.prm1 t n 0 = 1 → s.waitsFor t n = false →
      s1 = (if s.reg.st = .dereg then s.setAct .initial else s) →
      exec (.ltxActivation t n) s = .next (s1.answer t n (leBytes 1 s1.reg.st.code))) ∧
    (s.sends t n 0x0804 [(0, 1)] → (s.prm1 t n 0 = 0 ∨ s.prm1 t n 0 = 2) → s.waitsFor t n = false → s.reg.wait = none →
      exec (.ltxActivation t n) s =
        .next (s.startWait { ten := t, slot := n, rediscover := s.prm1 t n 0 == 2, by_ := s.now + 4000000 })) ∧
    (s.sends t n 0x0805 [(0, 2)] → ∀ g : Fin 8, s.prm1 t n 0 = g.val → s.prm1 t n 1 = 0 →
      exec (.ltxUsStatus t n) s = .next (s.answer t n (s.usStatus g))) ∧
    (s.sends t n 0x0806 [(0, 3)] → ∀ g : Fin 8, s.prm1 t n 0 = g.val → s.prm1 t n 1 ≤ 2 → s.prm1 t n 2 = 0 →
      (s.gs g).depth ≠ s.prm1 t n 1 → exec (.ltxUsConfig t n) s =
        .next (((s.withdrawGs g).modGs g fun x => { x with depth := s.prm1 t n 1 }).done t n Status.ok)) ∧
    (s.sends t n 0x0807 [(0, 6)] → ∀ (q : Fin 64) (g : Fin 8) (b : Fin 4), byteAt (s.params t n) 0 = q.val →
      byteAt (s.params t n) 1 = g.val → byteAt (s.params t n) 2 = b.val → byteAt (s.params t n) 3 = 0 →
      byteAt (s.params t n) 4 = 0 → byteAt (s.params t n) 5 = 0 → s.held (upQid q) = [] →
      exec (.ltxQueueMap t n) s = .next ((s.setMap q { gs := g, band := b, prot := false, plen := 0 }).done t n Status.ok))

/-! ### Messages and registration (chapters 09 and 10) -/

/-- The checks every message row shares (R213), for a slot of the active lane that `LMM_USED` marks: a message whose CRC is
wrong is dropped and counted, and so is one for this terminal whose `BLEN` its chapter does not allow; one whose `BLEN` is
right has its body taken, with the `LRH`. -/
def Obligations.LmmChecks : Prop :=
  ∀ (s : State) (l : Fin 2) (slot : Fin 3) (bytes : List Byte) (type : Nat) (lens : Nat → Bool)
    (body : State → Nat → List Byte → State),
    (bytes.length = 48 → l = s.lanes.prot.active → (s.chan l).st = .sync → (s.chan l).rx.judged = true →
      (s.chan l).rx.lmm.getLsbD slot.val = true → s.domOn dFRM = true → beAt bytes 46 2 ≠ crc16 (bytes.take 46) →
      lmmRow type lens l slot bytes s body = .next ((s.seeSlot l slot).dropLmm l)) ∧
    (State.lmmArrives s l slot bytes type → 1 ≤ type → type ≤ 12 → lens (byteAt bytes 3) = false →
      lmmRow type lens l slot bytes s body = .next ((s.seeSlot l slot).dropLmm l)) ∧
    (State.lmmArrives s l slot bytes type → 1 ≤ type → type ≤ 12 → lens (byteAt bytes 3) = true →
      lmmRow type lens l slot bytes s body = .next (body (s.seeSlot l slot) (beAt bytes 0 2 / 16) (lmmBody bytes)))

/-- The registration messages (R236 to R242, R231, R247): the RH and EqD of the answer to the terminal's serial number
start AUTH; a challenge draws nonces, derives keys and is answered; a delivered key with a right tag is taken, and the
third wrong tag in AUTH returns to LISTEN; a range result of an outstanding burst is applied; a deregistration acts.
The other messages (R66, R67, R72, R244, R283, R364, R461): time information is taken, a hold placed on the named
grant streams, a sleep grant kept or discarded, a denial keeps the request back, a night wake ends NIGHT, an owner
access in order is served and answered, and a tributary configuration is taken. -/
def Obligations.Messages : Prop :=
  (∀ (s : State) (l : Fin 2) (slot : Fin 3) (bytes : List Byte),
     let b := lmmBody bytes
     let s1 := s.seeSlot l slot
     (State.lmmArrives s l slot bytes 1 → byteAt bytes 3 = 13 → beAt b 0 8 = Config.terminalId.toNat →
       s.reg.st = .discovery → beAt b 8 2 % 4096 ≠ 0 → beAt b 8 2 % 4096 ≤ 0x7FF → exec (.assignRh l slot bytes) s =
         .next ((({ s1 with reg.rh := beAt b 8 2 % 4096 } : State).setEqd s1.lanes.prot.active (beAt b 10 3 % 2 ^ 21)).enterAuth)) ∧
     (State.lmmArrives s l slot bytes 2 → byteAt bytes 3 = 16 → s.reg.st = .auth → s1.slotsUnusable = false →
       ∃ (s4 : State) (resp : List Byte), exec (.authChal l slot bytes) s = .next (s4.queueLmm 0x81 resp) ∧
         s4.reg.nHe = b.take 16 ∧ s4.reg.nT.length = 16 ∧ s4.reg.kseq = Vector.replicate 3 0 ∧ s4.reg.st = .auth ∧
         (s4.entry eOwn).isSome = true ∧ resp.take 16 = s4.reg.nT) ∧
     (State.lmmArrives s l slot bytes 3 → byteAt bytes 3 = 32 → byteAt b 0 ≤ 2 → byteAt b 1 ≤ 1 → ∀ k, s1.entry eKmac = some k →
       (s.reg.st = .auth ∨ s.reg.st = .inService ∨ s.reg.st = .silent) →
       (field b 24 8 = lmmTag k (beAt bytes 0 2 / 16) 0x03 (b.take 24) → exec (.keyDeliver l slot bytes) s =
         .next (s1.takeKey (Fin.ofNat 3 (byteAt b 0)) (byteAt b 1 == 1) b)) ∧
       (field b 24 8 ≠ lmmTag k (beAt bytes 0 2 / 16) 0x03 (b.take 24) → s.reg.st = .auth → s.reg.authFails = 2 →
         exec (.keyDeliver l slot bytes) s =
           .next ((({ s1 with reg.keyFail := satInc 65535 s1.reg.keyFail } : State).dereg 4).toListen))) ∧
     (State.lmmArrives s l slot bytes 4 → byteAt bytes 3 = 9 → ∀ r : Fin 2, byteAt b 0 = r.val → byteAt b 1 = 0 →
       s.reg.shotOut[r] = true → exec (.rangeResult l slot bytes) s =
         .next (({ s1 with reg.shotOut := s1.reg.shotOut.set r false } : State).lanesRanged r (beAt b 2 3 % 2 ^ 21) (beAt b 5 4))) ∧
     (State.lmmArrives s l slot bytes 4 → byteAt bytes 3 = 9 → ∀ r : Fin 2, byteAt b 0 = r.val → byteAt b 1 = 1 →
       s.reg.shotOut[r] = true → exec (.rangeResult l slot bytes) s =
         .next ({ s1 with reg := { s1.reg with
           shotOut := s1.reg.shotOut.set r false, again := s1.reg.again.set r true } } : State).updateWtr) ∧
     (State.lmmArrives s l slot bytes 5 → byteAt bytes 3 = 12 → beAt b 4 8 = Config.terminalId.toNat → ∀ s2,
       s1.deregAction (byteAt b 0) (beAt bytes 0 2 / 16) (beAt b 2 2) = some s2 →
       exec (.deregister l slot bytes) s = .next { s2 with reg.lastReason := byteAt b 1 })) ∧
  (∀ (s : State) (l : Fin 2) (slot : Fin 3) (bytes : List Byte),
     let b := lmmBody bytes
     let s1 := s.seeSlot l slot
     (State.lmmArrives s l slot bytes 6 → byteAt bytes 3 = 24 → byteAt b 2 = 0 → s1.leapOk 0 (toSigned 16 (beAt b 0 2)) (beAt b 4 8) = true →
       s.time.utcOff = toSigned 16 (beAt b 0 2) → ∃ s', exec (.timeInfo l slot bytes) s = .next s' ∧
         s' = { s1 with time := { s1.time with
           utcOff := toSigned 16 (beAt b 0 2), leapKind := 0, leapAt := 0, traceable := bit (byteAt b 3) 0
           timing := some (toSigned 32 (beAt b 12 4), toSigned 32 (beAt b 16 4), toSigned 32 (beAt b 20 4)) } }) ∧
     (State.lmmArrives s l slot bytes 7 → byteAt bytes 3 = 4 → (s.reg.st = .inService ∨ s.reg.st = .silent) →
       exec (.upHold l slot bytes) s = .next (({ s1 with
         tm.holdHe := holdMasked s1.tm.holdHe (byteAt b 0) (holdOf s1.now (beAt b 1 2) (bit (byteAt b 3) 0)) } : State).buildMasked (byteAt b 0))) ∧
     (State.lmmArrives s l slot bytes 8 → byteAt bytes 3 = 13 → s.power.night.answerBy.isSome = true → s.power.pstate ≠ .night →
       (s1.grantOk l (byteAt b 0) (beAt b 1 8) = true → exec (.sleepGrant l slot bytes) s =
         .next ((s1.keepSite b).takeGrant (byteAt b 0) (beAt b 1 8))) ∧
       (s1.grantOk l (byteAt b 0) (beAt b 1 8) = false → exec (.sleepGrant l slot bytes) s = .next { s1 with
         power.night := { s1.power.night with
           discards := s1.power.night.discards + 1, answerBy := none }
         power.idle.night := s1.now })) ∧
     (State.lmmArrives s l slot bytes 9 → byteAt bytes 3 = 2 → s.power.night.answerBy.isSome = true →
       exec (.sleepDeny l slot bytes) s = .next { s1 with
         power.night := { s1.power.night with answerBy := none, retryFrom := s.now + beAt b 0 2 * 1000000000 }
         power.idle.night := s.now }) ∧
     (State.lmmArrives s l slot bytes 10 → byteAt bytes 3 = 0 → exec (.nightWake l slot bytes) s = .next (s1.nightTrigger 0x01)) ∧
     (State.lmmArrives s l slot bytes 11 → byteAt bytes 3 = 40 → ∀ k, s1.entry eOwn = some k → s.reg.st = .inService →
       field b 32 8 = lmmTag k (beAt bytes 0 2 / 16) 0x0B (b.take 32) →
       1 ≤ (beAt b 2 2 + 65536 - s1.reg.oseq.getD 0) % 65536 → (beAt b 2 2 + 65536 - s1.reg.oseq.getD 0) % 65536 ≤ 32767 →
       ∀ resp s2, s1.ownerServe b = some (resp, s2) → exec (.ownerMbx l slot bytes) s = .next (s2.ownerAnswer k (beAt b 2 2) resp)) ∧
     (State.lmmArrives s l slot bytes 12 → byteAt bytes 3 = 24 → ∀ cfg, tribConfig b = some cfg →
       (∀ n : Fin 2, (cfg[tribOf n]).isSome = true) → exec (.tribCfg l slot bytes) s = .next { s1 with aud.cfg := cfg }))

/-- Activation timers and bursts (R235, R241, R243, R247, Table 10.2): with PD_LNA on and a usable fibre lane that is not
raw, INITIAL leads to LISTEN; the assign, authentication and ranging timers are counted and return to LISTEN, the latter
two with a deregistration; a silence ends; a change of EqD applies at its frame; the serial-number burst starts `T_ASSIGN`
and leaves; an accepted ranging grant is skipped without a transmit permission and else leaves as a ranging burst. -/
def Obligations.ActivationTimers : Prop :=
  ∀ s : State,
    (s.reg.st = .initial → s.domOn dLNA = true → (∃ l, s.present l = true ∧ s.txFault l = false) →
      (∀ l : Fin 2, (s.phy (fibreIx l)).raw = false) → s.boot.core1Up = true → ∃ s1 : State,
      s1 = (({ s with lanes.prot.active := s.firstLane } : State).toListen).tellDefects ∧ exec .activationListen s =
        .next (if s1.txFault s1.lanes.prot.active then s1.loseLane s1.lanes.prot.active else s1)) ∧
    (∀ d, s.reg.tAssign = some d → s.reg.st = .discovery →
      exec .tAssignExpiry s = .next ((s.reach d).countTimeout).toListen) ∧
    (∀ d, s.reg.tAuth = some d → s.reg.st = .auth →
      exec .tAuthExpiry s = .next ((((s.reach d).countTimeout).dereg 3).toListen)) ∧
    (∀ d, s.reg.tRange = some d → s.reg.st = .ranging →
      exec .tRangeExpiry s = .next ((((s.reach d).countTimeout).dereg 3).toListen)) ∧
    (∀ d, s.reg.silentBy = some d → s.reg.st = .silent → exec .silentDurationExpiry s = 
      .next (s.reach d).enterService.fromNextMap) ∧
    (∀ l e, s.reg.eqdNext[l] = some e → exec (.eqdChangeApply l) s =
      .next (({ s.reach (s.tickAt l e.frame 0) with reg.eqdNext := s.reg.eqdNext.set l none } : State).setEqd l e.value)) ∧
    (∀ x at_, s.reg.serial = some x → at_ = s.tickAt s.lanes.prot.active x.frame x.start → s.reg.st = .discovery →
      let s2 : State := { s.reach at_ with reg := { s.reg with serial := none, tAssign := some (at_ + 16000000) } }
      s2.mayTransmit s.lanes.prot.active = true → exec .serialNumberBurst s =
        .next (({ s2 with reg.snSent := satInc 65535 s.reg.snSent } : State).launch s.lanes.prot.active x.start at_ true
          { lane := s.lanes.prot.active, end_ := at_ + 528, gs := 0, pkts := 0 }
          (recordBurst (burstHeader 0xFFF s2.rdi s2.rdiB false false false false 0 0 16) (s2.serialRecord x)))) ∧
    (∀ l x rest at_, s.reg.rangeShot[l] = x :: rest → at_ = s.tickAt l x.frame x.start →
      let s2 : State := { s.reach at_ with reg.rangeShot := s.reg.rangeShot.set l rest }
      (s2.mayTransmit l = false → exec (.rangingBurst l) s = .next s2.updateWtr) ∧
      (s2.mayTransmit l = true → s2.onFibre at_ = false → l = s.lanes.prot.active → s2.eqdOverlap l at_ = false →
        ∃ (s3 : State) (h : List Byte), exec (.rangingBurst l) s = .next ((s3.noteEnd l x.frame (at_ + 528)).launch l x.start at_ true
            { lane := l, end_ := at_ + 528, gs := 0, pkts := 0 } (recordBurst h (s3.rangeRecord l x.frame))) ∧
          s3.us.bseq = s.us.bseq + 1 ∧ s3.reg.shotOut[l] = true ∧ s3.reg.rangeTries[l] = satInc 255 s.reg.rangeTries[l]))

/-! ### Upstream bursts (chapter 11) -/

/-- The burst engine (R16, R187, R216, R257, R258, R264, R266): the active grant table's oldest frame ends with its
entries, and the standby table's where the active one is empty;
the first burst that is not frozen freezes 90 µs before its start; an open protection slot closes 12 µs before; the
sealing job a core runs ends; a withdrawal is undone once no job of it runs; a bound burst without its entry is withdrawn at its start,
and one whose entry still stands and that may be sent is committed; the lane's transmitter is released 2 bt after the
burst. -/
def Obligations.BurstEngine : Prop :=
  ∀ (s : State) (g : Fin 8),
    (∀ f, (s.us.table.map (·.frame)).min? = some f → ∃ s1 s2 : State,
      s1 = (s.reach (s.tickAt s.lanes.prot.active (f + 1) 0)).resolveAll ∧
      s2 = ({ s1 with
        us.table := s1.us.table.filter fun e => f < e.frame
        reg.rangeShot := s1.reg.rangeShot.set s.lanes.prot.active
          ((s1.reg.rangeShot[s.lanes.prot.active]).filter fun x => f < x.frame) } : State).endStandby ∧
      exec .grantTableFrameEnd s = .next s2 ∧ (∀ e ∈ s2.us.table, f < e.frame)) ∧
    (∀ f, s.us.table = [] → (s.us.standby.map (·.frame)).min? = some f →
      exec .grantTableFrameEnd s = .next (s.reach (s.tickAt s.standby (f + 1) 0)).endStandby) ∧
    (∀ b, ((s.resolveGs g).gs g).bursts.find? (fun b => !b.frozen) = some b → exec (.burstFreeze g) s =
      .next ((((s.resolveGs g).reach ((s.resolveGs g).burstAt b - 90000)).freezeBurst g fun x => !x.frozen).rebuild g)) ∧
    (∀ b, (s.gs g).bursts.find? (fun b => b.slot && b.forecast && !b.slotClosed) = some b →
      exec (.protectionSlotClose g) s =
        .next (((s.reach (s.burstAt b - 12000)).closeSlot g fun b => b.slot && b.forecast && !b.slotClosed).rebuild g)) ∧
    (∀ (s1 : State) (ki : Bool) (iv : Nat), s1 = s.startJobs →
      (s1.cip.sealq.find? fun p => s1.runsOn (.seal p.1 p.2.1 p.2.2)) = some (g, ki, iv) →
      let mark (t : Take) : Take := if t.iv = iv ∧ t.ki = ki then { t with sealed := true } else t
      exec .packetSealDone s = .next (((({ s1 with cip.sealq := s1.cip.sealq.erase (g, ki, iv) } : State).freeCores
        (· == .seal g ki iv)).modGs g fun x => { x with
          bursts := x.bursts.map fun b => { b with takes := b.takes.map mark, slotTake := b.slotTake.map mark } }).startJobs)) ∧
    ((s.gs g).undo ≠ [] → exec (.withdrawal g) s = .next (s.completeUndo g)) ∧
    (∀ b0 at_, (s.gs g).bursts.find? (fun b => b.bound.isSome) = some b0 → at_ = s.burstAt b0 →
      let mine (b : Burst) : Bool := b.frame == b0.frame && b.start == b0.start
      let s1 := s.reach at_
      (s1.granted b0 = false → s1.eqdOverlap s.lanes.prot.active at_ = false → exec (.burstCommit g) s =
        .next ((s1.modGs g fun x => { x with
          bursts := updateFirst mine (fun b => { b with bound := none }) x.bursts }).withdrawKept g mine)) ∧
      (s1.granted b0 = true → s1.mayTransmit s.lanes.prot.active = true → s1.eqdOverlap s.lanes.prot.active at_ = false →
        s1.onFibre at_ = false → b0.frozen = true → b0.slotClosed = true → ∀ b, (s1.gs g).bursts.find? mine = some b →
        exec (.burstCommit g) s = .next ((((s1.modGs g fun x => { x with
          bursts := x.bursts.filter fun y => !mine y }).commit b).rebuild g).watchFill))) ∧
    (∀ b, s.us.sending = some b → exec .burstEnd s =
      .next { s.reach (b.end_ + 16) with
        pads.txdisLow := s.pads.txdisLow &&& ~~~(1#2 <<< b.lane.val), us.sending := none })

/-! ### Terminal time (chapter 12) -/

/-- The `TIME` commands of sessions, steps and rates, comparators and the calendar (R272, R275 to R277, R279, R285,
R292, R294 to R298): the report, which clears its counters, and the time; with no session open a HEAD session opened by the owner in
IN_SERVICE and a TENANT session by a tenant with `TIME` and lease 7 outside IN_SERVICE and SILENT; the open session
closed, `RATE` kept; a TENANT session stepped once by the amount given, TT staying in range, and given a target rate; a comparator armed for a target in reach, fired at once with `LATE` for one in the past, and
freed; a date read; the zone, within ±1440 minutes; an alarm set, or fired at once for a second that has passed. The `TIME` commands of the
outputs and captures (R286, R299 to R302, R304, R306): by the owner or the holder of lease 7, ALWAYS for `PPS_OUT`,
QUALIFIED for `GRID_REF_OUT`, a window of a free pulse output in reach, and its cancel; a capture input's edges; up to four capture records, oldest first; the parts of
`TE_EST`. -/
def Obligations.TimeCommands : Prop :=
  (∀ (s : State) (t : Ten) (n : SlotIx),
     (s.sends t n 0x0501 [(0, 1)] → s.prm1 t n 0 = 1 → exec (.timeStatus t n) s = .next (({ s with
       time := { s.time with outliers := 0, holdovers := 0, pulseLost := 0 } } : State).answer t n (timeStatus s))) ∧
     (s.sends t n 0x0502 [] → exec (.timeRead t n) s = .next (s.answer t n
       (ttBytes s.ttU ++ leBytes 6 (s.time.frcAt s.now)
         ++ leBytes 1 (b2n s.time.unset + 2 * b2n s.time.estimated) ++ leBytes 1 s.time.sstate.code
         ++ leBytes 2 s.time.gen.toNat))) ∧
     (s.sends t n 0x0503 [(0, 1)] → s.time.sstate = .none →
       (s.prm1 t n 0 = 1 → s.ownerAt t n = true → s.inService = true → exec (.timeSessionOpen t n) s = .next (s.openAnswer t n .head)) ∧
       (s.prm1 t n 0 = 2 → s.holdsAt t n 1 = true → s.leasedAt t n 7 = true → s.inService = false → s.silent = false →
         exec (.timeSessionOpen t n) s = .next (s.openAnswer t n (.tenant t)))) ∧
     (s.sends t n 0x0504 [] → s.time.sstate ≠ .none →
       exec (.timeSessionClose t n) s = .next (s.closeTime.answer t n (leBytes 2 s.time.gen.toNat)) ∧
       s.closeTime.time.sstate = .none ∧ s.closeTime.time.rate = s.time.rate) ∧
     (s.sends t n 0x0505 [(0, 1), (8, 10)] → s.prm1 t n 0 = 0 → s.time.sstate = .unstepped → (∃ u, s.time.source = .tenant u) →
       s.time.spent = false →
       let by_ : Int := toSigned 64 (s.prm t n 8 8) * 65536 + s.prm t n 16 2
       0 ≤ s.ttU + by_ → ((s.ttU : Int) + by_) / (65536 * 10 ^ 9) - s.time.utcOff < 146097 * 86400 →
       exec (.timeStep t n) s = .next ((s.stepTt by_).answer t n (leInt 8 (by_ / 65536) ++ leInt 2 (by_ % 65536)))) ∧
     (s.sends t n 0x0506 [(0, 5), (8, 8)] → s.prm1 t n 4 = 0 → s.prm t n 0 4 ≠ 2 ^ 31 →
       s.time.sstate = .locked → (∃ u, s.time.source = .tenant u) → exec (.timeRate t n) s = .next (({ s with
         time := { s.time with
           target := some (toSigned 32 (s.prm t n 0 4))
           lastCorr := if s.time.target.isNone then s.now else s.time.lastCorr } } : State).done t n Status.ok)) ∧
     (s.sends t n 0x0507 [(0, 2), (8, 8)] → ∀ i : Fin 16, s.prm1 t n 0 = i.val → s.time.cmps[i] = none →
       (s.prm1 t n 1 = 0 → s.ttNs < s.prm t n 8 8 → s.prm t n 8 8 ≤ s.ttNs + (2 ^ 47 - 1) → exec (.timeCmpArm t n) s =
         .next (({ s with time.cmps := s.time.cmps.set i (some ⟨t, s.prm t n 8 8, false⟩) } : State).answer t n
           (leBytes 1 i.val ++ [0]))) ∧
       (s.prm1 t n 1 ≤ 1 → s.prm t n 8 8 ≤ s.ttNs → exec (.timeCmpArm t n) s =
         .next ((s.fireCmp i true).answer t n (leBytes 1 i.val ++ [2])))) ∧
     (s.sends t n 0x0508 [(0, 1)] → ∀ i : Fin 16, s.prm1 t n 0 = i.val →
       (s.time.cmps[i] = none → exec (.timeCmpCancel t n) s = .next (s.answer t n [1])) ∧
       (∀ c, s.time.cmps[i] = some c → c.owner = t → exec (.timeCmpCancel t n) s =
         .next (({ s with time.cmps := s.time.cmps.set i none } : State).answer t n [0]))) ∧
     (s.sends t n 0x0509 [(0, 1)] → s.prm1 t n 0 = 0 → ∀ d, s.time.date s.ttNs 0 = some d →
       exec (.timeCalRead t n) s = .next (s.answer t n (d.bytes false 0 ++ leBytes 1 d.weekday ++ [0] ++ leBytes 2 d.dayOfYear
         ++ leBytes 1 (b2n s.time.unset + 2 * b2n s.time.estimated + 4 * b2n (s.time.leapKind != 0) + 8 * b2n d.sec60)))) ∧
     (s.sends t n 0x050A [(0, 2)] →
       (-1440 ≤ toSigned 16 (s.prm t n 0 2) → toSigned 16 (s.prm t n 0 2) ≤ 1440 → exec (.timeZone t n) s = .next
         (({ s with time.zones := s.time.zones.set t (toSigned 16 (s.prm t n 0 2)) } : State).done t n Status.ok)) ∧
       (toSigned 16 (s.prm t n 0 2) < -1440 → exec (.timeZone t n) s = .next (s.done t n Status.param))) ∧
     (s.sends t n 0x050B [(0, 2), (8, 8)] → ∀ i : Fin 4, s.prm1 t n 0 = i.val → s.prm1 t n 1 = 0 →
       (s.ttNs / 10 ^ 9 < s.prm t n 8 8 → exec (.timeAlarm t n) s = .next
         (({ s with time.alarms := s.time.alarms.set i (some (s.prm t n 8 8)) } : State).answer t n [0])) ∧
       (s.prm t n 8 8 ≤ s.ttNs / 10 ^ 9 → exec (.timeAlarm t n) s = .next ((s.fireAlarm i).answer t n [1])))) ∧
  (∀ (s : State) (t : Ten) (n : SlotIx),
     (s.sends t n 0x050C [(0, 1), (4, 4)] → s.mayDrive t n = true → s.prm1 t n 0 = 1 → 1 ≤ s.prm t n 4 4 →
       s.prm t n 4 4 ≤ 500000 → exec (.timePps t n) s = .next (({ s with
         time.pps := { s.time.pps with mode := .always, widthUs := s.prm t n 4 4 } } : State).done t n Status.ok)) ∧
     (s.sends t n 0x050D [(0, 1), (4, 14)] → s.mayDrive t n = true → s.prm1 t n 0 = 2 → 1000 ≤ s.prm t n 4 4 →
       s.prm t n 4 4 ≤ 100000000 → 1 ≤ s.prm t n 16 2 → exec (.timeGridRef t n) s = .next (({ s with
         time.grid := { s.time.grid with
           mode := .qualified, f := s.prm t n 4 4, t0 := s.prm t n 8 8, n := s.prm t n 16 2
           changed := true } } : State).done t n Status.ok)) ∧
     (s.sends t n 0x050E [(0, 3), (8, 16)] → s.mayDrive t n = true → s.prm1 t n 1 = 0 → s.prm1 t n 2 ≤ 1 →
       ∀ i : Fin 2, s.prm1 t n 0 = i.val → s.time.pulses[i].active = false → s.time.pulses[i].start = none →
       s.time.pulses[i].invert = bit (s.prm1 t n 2) 0 →
       let start := s.prm t n 8 8 / 8 * 8
       let stop := s.prm t n 16 8 / 8 * 8
       s.prm t n 8 8 ≤ s.prm t n 16 8 → start < stop → s.ttNs < start → s.prm t n 8 8 ≤ s.ttNs + (2 ^ 47 - 1) →
       exec (.timePulse t n) s = .next (({ s with
         time.pulses := s.time.pulses.set i
           { invert := bit (s.prm1 t n 2) 0, active := false, start := some start, stop := some stop } } : State).answer t n [0])) ∧
     (s.sends t n 0x050E [(0, 3)] → s.mayDrive t n = true → s.prm1 t n 1 = 3 → s.prm1 t n 2 ≤ 1 →
       ∀ i : Fin 2, s.prm1 t n 0 = i.val → ∀ a, s.time.pulses[i].start = some a → a ≠ s.ttNs / 8 * 8 →
       exec (.timePulse t n) s = .next (({ s with
         time.pulses := s.time.pulses.set i { s.time.pulses[i] with start := none, stop := none } } : State).answer t n [2])) ∧
     (s.sends t n 0x050F [(0, 2)] → ∀ i : Fin 4, s.prm1 t n 0 = i.val → s.prm1 t n 1 ≤ 3 →
       exec (.timeCaptureCfg t n) s = .next (({ s with
         time.caps := s.time.caps.set i { s.time.caps[i] with cfg := BitVec.ofNat 2 (s.prm1 t n 1) } } : State
       ).done t n Status.ok)) ∧
     (s.sends t n 0x0510 [(0, 1)] → ∀ i : Fin 4, s.prm1 t n 0 = i.val →
       ∃ data : List Byte, exec (.timeCaptureRead t n) s = .next (({ s with
           time.caps := s.time.caps.set i { s.time.caps[i] with fifo := s.time.caps[i].fifo.drop 4 } } : State).answer t n data) ∧
         data.length = 52 ∧ byteAt data 0 = min 4 s.time.caps[i].fifo.length ∧ leAt data 2 2 = s.time.caps[i].lost % 65536) ∧
     (s.sends t n 0x0511 [(0, 7)] → s.prm1 t n 6 = 0 → exec (.timeConfig t n) s = .next (({ s with
       time.cfg := { y0 := s.prm t n 0 2, d := s.prm t n 2 2, yTk := s.prm t n 4 2 } } : State).done t n Status.ok)))

/-- The events of terminal time (R271, R278 to R284, R288, R291, R292, R298, R300 to R302, R304): a comparator fires when TT
reaches its target and is then free, a parked target less than 2⁴⁶ ns ahead is armed, an alarm fires when TT reaches
its second; `PPS_OUT` pulses at the next second, never one already output, `GRID_REF_OUT` gives its next cycle's two
edges, and a pulse output rises and falls at its times; a first stamp steps TT by its error, one within 1 ms
is kept for the mean, the fourth beyond it in a row is a FAULT, and a locked session without a usable stamp for 10 ms
goes to HOLDOVER with `RATE` as it was; a tenant's rate moves towards its target by at most 5 ppm/s; a rebase changes no
time; a leap second moves the offset by one; an edge is recorded while the capture FIFO has room, and counted as lost
when it has none, and a pulse shorter than 4 ns leaves the state as it is. -/
def Obligations.TimeEvents : Prop :=
  ∀ s : State,
    (∀ (i : Fin 16) c, s.time.cmps[i] = some c → c.parked = false → s.domOn dPLL = true →
      0 ≤ toSigned 48 (((s.reachTt c.target).ttNs + 2 ^ 48 - c.target % 2 ^ 48) % 2 ^ 48) →
      exec (.comparatorFire i) s = .next ((s.reachTt c.target).fireCmp i false)) ∧
    (∃ s', exec .parkedTargetCheck s = .next s' ∧ ∀ (i : Fin 16) c, s.time.cmps[i] = some c →
      s'.time.cmps[i] = some { c with parked := c.parked && !decide (c.target < s.ttNs + 2 ^ 46) }) ∧
    (∀ (i : Fin 4) sec, s.time.alarms[i] = some sec → s.domOn dTKP = true →
      exec (.calendarAlarm i) s = .next ((s.reachTt (sec * 10 ^ 9)).fireAlarm i)) ∧
    (∀ sec, s.domOn dPLL = true → s.time.pps.mode = .always → s.time.pps.last = some sec →
      (s.ttNs + 999999999) / 10 ^ 9 ≤ sec + 1 → exec .ppsSecond s =
        .next ((s.reachTt ((sec + 1) * 10 ^ 9)).ppsPulse (sec + 1) ((sec + 1) * 10 ^ 9))) ∧
    (s.domOn dPLL = true → s.time.grid.mode = .always → s.time.grid.f ≠ 0 → s.nextCycle % s.time.grid.n ≠ 0 →
      ∃ s', exec .gridRefCycle s = .next s' ∧ s'.time.grid.cycle = some s.nextCycle ∧
        s'.out = s.out ++ [.timeEdge 1 true (s.time.grid.startOf s.nextCycle / 2),
          .timeEdge 1 false (s.time.grid.startOf s.nextCycle / 2 + 10 ^ 12 / s.time.grid.f / 2)] ∧
        s'.evt = s.evt) ∧
    (∀ (i : Fin 2) a, s.time.pulses[i].start = some a → s.domOn dPLL = true →
      exec (.pulseStart i) s = .next ((s.reachTt a).pulseRise i)) ∧
    (∀ (i : Fin 2) a, s.time.pulses[i].stop = some a → s.time.pulses[i].active = true → s.domOn dPLL = true →
      exec (.pulseStop i) s = .next ((s.reachTt a).pulseFall i)) ∧
    (s.time.leapKind = 1 → ∃ s', exec .leapSecond s = .next s' ∧ s'.time.utcOff = s.time.utcOff + 1 ∧ s'.time.leapKind = 0) ∧
    (∀ st e, s.time.stamp = some st → s.stampError st = some e → s.time.source = .head →
      (s.time.sstate = .unstepped → exec .timeStamp s =
        .next (({ s with time.stamp := none, time.lastStamp := s.now } : State).stepTt (-e))) ∧
      (s.time.sstate = .locked → e.natAbs ≤ 65536000000 → exec .timeStamp s = .next { s with
        time.stamp := none, time.lastStamp := s.now, time.errs := s.time.errs ++ [e], time.bad := 0 }) ∧
      (s.time.sstate = .locked → 65536000000 < e.natAbs → s.time.bad = 3 → ∃ s', exec .timeStamp s = .next s' ∧
        s'.time.sstate = .fault)) ∧
    (∀ u r, s.time.sstate = .locked → s.boot.core1Up = true → s.power.pstate ≠ .night → s.time.source = .tenant u →
      s.time.target = some r → ∃ s', exec .rateCorrection s = .next s' ∧ s'.time.lastCorr = s.now ∧
        s'.time.rate = slew s.time.rate r (s.now - s.time.lastCorr) ∧
        (s'.time.rate - s.time.rate).natAbs ≤ 5 * 2 ^ 40 * (s.now - s.time.lastCorr) / 10 ^ 15 ∧
        s'.time.sstate = .locked) ∧
    (s.time.source = .head → s.time.sstate = .locked → s.power.pstate ≠ .night →
      exec .holdoverEntry s = .next (s.reach (s.time.lastStamp + 10000000)).enterHoldover ∧
      (s.reach (s.time.lastStamp + 10000000)).enterHoldover.time.sstate = .holdover ∧
      (s.reach (s.time.lastStamp + 10000000)).enterHoldover.time.rate = s.time.rate) ∧
    (s.time.tk = none → ∃ s', exec .transformRebase s = .next s' ∧ s'.time.ttAt s.now = s.time.ttAt s.now ∧ s'.now = s.now) ∧
    (∀ (i : Fin 4) rising ph ns, ns < 4 → exec (.captureEdge i rising ph ns) s = .next s) ∧
    (∀ (i : Fin 4) rising ph ns, 4 ≤ ns → s.ballActs (.tsIn i) = true → s.time.caps[i].cfg.getLsbD (if rising then 0 else 1) = true →
      s.time.caps[i].lastEdge = none →
      (16 ≤ s.time.caps[i].fifo.length → exec (.captureEdge i rising ph ns) s = .next { s with
        time.caps := s.time.caps.set i { s.time.caps[i] with lost := satInc 65535 s.time.caps[i].lost, loss := true } }) ∧
      (s.time.caps[i].fifo.length < 16 → ∃ s' r, exec (.captureEdge i rising ph ns) s = .next s' ∧
        s'.time.caps[i].fifo = s.time.caps[i].fifo ++ [r] ∧ s'.time.caps[i].lost = s.time.caps[i].lost))

/-! ### Clock synthesis (chapter 13) -/

/-- The `CLOCK` commands (R310 to R313, R316, R319): the report, whose counters `CLEAR` clears; entries of the band
table read; entries written where the state permits and the table stays well formed; the dither's seed and amplitude,
a seed of zero being refused; the bandwidth; a relock, whose result waits for the search. Lock, loss, coast, relock
and DPLL-T (R308, R312, R314 to R320): a lost lock is counted and PLL-A coasts; a period outside 759 to 767 edges is a
loss of reference; at 16 good periods the loop re-closes for 1 ms, after which a search runs; an attempt that ends
without lock gives way to the next entry, after the last to a repeat in 100 ms; a measurement jumps or enters TRACK;
an update of TRACK stays within ±200 ppm; a crystal fault moves the supervisor to PD_AO's oscillator. -/
def Obligations.ClockSynthesis : Prop :=
  (∀ (s : State) (t : Ten) (n : SlotIx),
     (s.sends t n 0x0601 [(0, 1)] →
       (s.prm1 t n 0 = 0 → exec (.clockStatus t n) s = .next (s.answer t n (clockStatus s.clk))) ∧
       (s.prm1 t n 0 = 1 → ∃ s1 : State, exec (.clockStatus t n) s = .next (s1.answer t n (clockStatus s.clk)) ∧
         s1 = { s with clk := { s.clk with lolCount := 0, lorCount := 0, relocks := 0, holds := 0, steerLim := 0 } })) ∧
     (s.sends t n 0x0602 [(0, 2)] → ∀ i : Fin 32, s.prm1 t n 0 = i.val → s.prm1 t n 1 = 1 →
       exec (.clockBandRead t n) s = .next (s.answer t n (leBytes 8 s.clk.bands[i].toNat))) ∧
     (s.sends t n 0x0603 [(0, 3), (8, 8)] → ∀ i : Fin 32, s.prm1 t n 0 = i.val → s.prm1 t n 1 = 1 → s.prm1 t n 2 = 0 →
       bandsOk (bandsPut s.clk.bands i.val [BitVec.ofNat 64 (s.prm t n 8 8)]) = true →
       (s.inFactory = true ∨ s.thawed = true) → s.clk.searching = false → exec (.clockBandWrite t n) s = .next (({ s with
         clk.bands := bandsPut s.clk.bands i.val [BitVec.ofNat 64 (s.prm t n 8 8)] } : State).done t n Status.ok)) ∧
     (s.sends t n 0x0604 [(0, 6)] → s.prm t n 0 4 < 2 ^ 23 → (s.prm1 t n 4 = 1 ∨ s.prm1 t n 4 = 2) → s.prm1 t n 5 = 0 →
       (s.prm t n 0 4 ≠ 0 → exec (.clockDither t n) s = .next (({ s with
         clk := { s.clk with seed := s.prm t n 0 4, amp := s.prm1 t n 4 } } : State).done t n Status.ok)) ∧
       (s.prm t n 0 4 = 0 → exec (.clockDither t n) s = .next (s.done t n Status.badSeed))) ∧
     (s.sends t n 0x0605 [(0, 2)] → s.prm1 t n 0 ≤ 3 → s.prm1 t n 1 = 0 → exec (.clockDpllConfig t n) s =
       .next (({ s with clk.bw := s.prm1 t n 0 } : State).done t n Status.ok)) ∧
     (s.sends t n 0x0606 [] → (s.inFactory = true ∨ s.thawed = true) → s.clk.searching = false →
       exec (.clockRelock t n) s = .next (s.startRelock (some (t, n))))) ∧
  (∀ s : State,
     (s.domOn dPLL = true → s.clk.lock = true → exec .pllaLossOfLock s =
       .next ({ s with clk.lolCount := satInc 65535 s.clk.lolCount } : State).coast) ∧
     (∀ edges, s.domOn dPLL = true → s.clk.fallback = false → s.clk.relock = none →
       (759 ≤ edges → edges ≤ 767 → exec (.lossOfReference edges) s = .next s) ∧
       (edges < 759 ∨ 767 < edges → s.clk.refOk = true → exec (.lossOfReference edges) s = .next ({ s with
         clk := { s.clk with refOk := false, lorCount := satInc 65535 s.clk.lorCount } } : State).coast)) ∧
     (s.domOn dPLL = true → s.clk.coast = true → s.clk.relock = none → exec .refclkQualified s =
       .next { s with clk.refOk := true, clk.recloseBy := some (s.now + 1000000) }) ∧
     (s.domOn dPLL = true → s.clk.lock = false → s.clk.relock = none → s.clk.coast = true → s.clk.recloseBy ≠ none →
       ∃ s', exec .pllaLockAcquired s = .next s' ∧ s'.clk.lock = true ∧ s'.clk.coast = false ∧ s'.clk.recloseBy = none ∧
         (∀ d, s'.dom d = s.dom d)) ∧
     (∀ r i rest, s.domOn dPLL = true → s.clk.lock = false → s.clk.relock = some r → r.tries = i :: rest → r.by_ = none →
       ∃ s', exec .pllaLockAcquired s = .next s' ∧ s'.clk.lock = true ∧ s'.clk.entry = some i ∧ s'.clk.relock = none ∧
         ∀ d, s'.dom d = if d ∈ r.stopped ∧ s.dom d = .gated then .on else s.dom d) ∧
     (∀ d, s.clk.recloseBy = some d → exec .relockTimeout s = .next ((s.reach d).startRelock none)) ∧
     (∀ r d i j rest, s.clk.relock = some r → r.attemptBy = some d → r.tries = i :: j :: rest →
       exec .lockSearchAttemptTimeout s = .next { s.reach d with
         clk.relock := some { r with tries := j :: rest, attemptBy := some ((s.reach d).now + 300000) } }) ∧
     (∀ r d i, s.clk.relock = some r → r.attemptBy = some d → r.tries = [i] → r.by_ = none →
       exec .lockSearchAttemptTimeout s = .next { s.reach d with
         clk.relock := some { r with
           tries := [], attemptBy := none, retryAt := some ((s.reach d).now + 100000000), by_ := none } }) ∧
     (∀ r d, s.clk.relock = some r → r.retryAt = some d → exec .relockRetry s = .next ((s.reach d).search r)) ∧
     (∀ df, s.clk.lock = true → s.boot.core1Up = true → s.activeSync = true → s.clk.dpll = .acquire →
       (s.clk.jumped = true → df.natAbs ≤ 10 → ∃ s', exec (.dpllMeasurement df) s = .next s' ∧ s'.clk.dpll = .track) ∧
       (10 < df.natAbs → ∃ s', exec (.dpllMeasurement df) s = .next s' ∧ s'.clk.dpll = .acquire ∧ s'.clk.jumped = true ∧
         s'.clk.steer = max (-838861) (min 838861 (s.clk.steer - Int.tdiv (df * 250 * 2 ^ 24) (10 ^ 8))))) ∧
     (∀ phase, s.clk.dpll = .track → s.clk.lock = true → s.boot.core1Up = true → s.activeSync = true →
       ∃ s', exec (.dpllTrackUpdate phase) s = .next s' ∧ s'.clk.steer.natAbs ≤ 838861 ∧ s'.clk.dpll = .track ∧
         s'.clk.loopAt = s.now) ∧
     (exec .xtalFault s = .next (({ s with clk.fallback := true } : State).timeXtalFault.aoAssert 17 0)))

/-! ### Parsing and rules (chapter 14) -/

/-- The `RULES` commands (R331, R333, R339, R341, R343 to R347, R349): the report; profile and entry records applied
to STAGING in order until one is refused; a versioned commit, which makes STAGING CURRENT where nothing drains and
QUEUED where one does; a PAUSE commit, which waits at most 50 µs; a discard; an entry read from the shadow into the
partition; a lane in service, or the last one, asked to leave; a counter read and cleared; the slow path's deadline.
After a commit and a discard an automatic request that waited is tried again (R61). -/
def Obligations.RulesCommands : Prop :=
  ∀ (s : State) (t : Ten) (n : SlotIx),
    (s.sends t n 0x0901 [(0, 1)] → s.prm1 t n 0 = 0 → exec (.rulesStatus t n) s = .next (s.answer t n s.rulesStatus)) ∧
    (s.runs t n 0x0902 = true → s.recordsOk t n 216 5 = true → s.pars.pause = none → ∃ (p : Parser) (k : Nat) (st : Half),
      exec (.rulesProfile t n) s =
        .next (({ s with pars := p } : State).post t n st [BitVec.ofNat 8 k, tagByte p.staging]) ∧
      applyAll Parser.applyProfile s.pars (recordsOf 216 (s.params t n)) 0 = (p, k, st) ∧
      (st = Status.ok → k = (s.slot t n).bLen / 216)) ∧
    (s.runs t n 0x0903 = true → s.recordsOk t n 104 256 = true → s.pars.pause = none → ∃ (p : Parser) (k : Nat) (st : Half),
      exec (.rulesWrite t n) s = .next (({ s with pars := p } : State).post t n st (leBytes 2 k ++ [tagByte p.staging])) ∧
      applyAll Parser.applyRule s.pars (recordsOf 104 (s.params t n)) 0 = (p, k, st)) ∧
    (s.sends t n 0x0904 [(0, 2)] → s.prm1 t n 1 = 0 → s.pars.pause = none → ∀ tag, s.pars.staging = some tag →
      (s.prm1 t n 0 = 0 → s.pars.drain = none → exec (.rulesCommit t n) s = .next
        ((({ s with pars.staging := none } : State).makeCurrent tag).answer t n [BitVec.ofNat 8 tag.val, 0]).retryAuto) ∧
      (s.prm1 t n 0 = 0 → s.pars.drain ≠ none → s.pars.queued = none → exec (.rulesCommit t n) s = .next
        (({ s with pars := { s.pars with staging := none, queued := some tag } } : State).answer t n
          [BitVec.ofNat 8 tag.val, 1]).retryAuto) ∧
      (s.prm1 t n 0 = 0 → s.pars.drain ≠ none → s.pars.queued ≠ none → exec (.rulesCommit t n) s =
        .next (s.done t n Status.versionsFull).retryAuto) ∧
      (s.prm1 t n 0 = 1 → s.pars.drain = none → s.pars.queued = none → exec (.rulesCommit t n) s = .next ({ s with
        pars.pause := some { ten := t, slot := n, by_ := s.now + 50000, persist := false } } : State).retryAuto)) ∧
    (s.sends t n 0x0905 [] → s.pars.pause = none → ∀ tag, s.pars.staging = some tag → ∃ s1 : State,
      exec (.rulesDiscard t n) s = .next (s1.done t n Status.ok).retryAuto ∧ s1.pars.staging = none ∧ s1.pars.cur = s.pars.cur ∧
        ∀ r ∈ s1.pars.rules, r.vmask.getLsbD tag.val = false) ∧
    (s.sends t n 0x0906 [(0, 2), (4, 4)] → s.prm t n 0 2 ≤ 4095 → s.rangeOk t n (s.prm t n 4 4) 104 = true →
      exec (.rulesRead t n) s = .next ((s.partWrite t (s.prm t n 4 4) (s.pars.entryRecord (s.prm t n 0 2))).post t n Status.ok
        [BitVec.ofNat 8 (s.pars.vmaskOf (s.prm t n 0 2))] true)) ∧
    (s.sends t n 0x0907 [(0, 2)] → s.pars.pause = none → ∀ l : Fin 4, s.prm1 t n 0 = l.val →
      (s.prm1 t n 1 = 0 → s.pars.lanesIn[l] = true → s.pars.laneOut[l] = none → s.pars.lanesUp ≠ 1 →
        exec (.rulesLane t n) s = .next { s with pars := { s.pars with
          lanesIn := s.pars.lanesIn.set l false, laneOut := s.pars.laneOut.set l (some (some (t, n))) } }) ∧
      (s.prm1 t n 1 = 1 → s.pars.lanesIn[l] = true → s.pars.laneIn[l] = none →
        exec (.rulesLane t n) s = .next (s.answer t n s.pars.laneMask)) ∧
      (s.prm1 t n 1 = 0 → s.pars.lanesIn[l] = true → s.pars.laneOut[l] = none → s.pars.lanesUp = 1 →
        exec (.rulesLane t n) s = .next (s.done t n Status.state))) ∧
    (s.sends t n 0x0908 [(0, 4)] → s.prm1 t n 2 = 1 → s.prm1 t n 3 = 1 → s.prm t n 0 2 < 2048 → ∃ s1 : State,
      exec (.rulesCounters t n) s = .next (s1.answer t n (s.pars.counter (s.prm t n 0 2))) ∧
        s1.pars.counter (s.prm t n 0 2) = List.replicate 16 0 ∧
        ∀ i, i ≠ s.prm t n 0 2 → s1.pars.counter i = s.pars.counter i) ∧
    (s.sends t n 0x0909 [(0, 3)] → 50 ≤ s.prm t n 0 2 → s.prm t n 0 2 ≤ 2000 → s.prm1 t n 2 = 0 →
      exec (.rulesSlowConfig t n) s = .next (({ s with pars.slowDeadline := s.prm t n 0 2 } : State).done t n Status.ok))

/-- A frame through the parser (R325, R326, R330 to R332, R336, R342, R344 to R346): a FIFO takes a frame whole or
counts it; the parser gives the next one its number, CURRENT's tag and a lane; the lane's answer is the table's
action, or a drop after an error; with CC0 up a slow frame is decided in turn, and it is dropped at its deadline; a decided head is
released; a version drains once no frame bears its tag; a PAUSE commit takes over or is rolled back; a lane leaves
once empty and returns when it passes. -/
def Obligations.ParserRows : Prop :=
  ∀ s : State,
    (∀ src bytes oversize, s.domOn dPKT = true →
      (s.fifoFill src + bytes.length ≤ 16384 → exec (.ingressFrame src bytes oversize) s = .next (({ s with
        pars.fifo := s.pars.fifo.set src (s.pars.fifo[src] ++ [{ bytes := bytes, src := src, oversize := oversize }]) } : State
      ).touch.toNoon)) ∧
      (16384 < s.fifoFill src + bytes.length → exec (.ingressFrame src bytes oversize) s =
        .next (({ s with pars.inFull := inc32 s.pars.inFull } : State).touch.toNoon))) ∧
    (∀ src f rest prof key, s.nextIngress = some src → s.pars.fifo[src] = f :: rest →
      parse s.pars.profiles[s.pars.cur] { f with src := src } = .key false prof key →
      ∃ s', exec .parserTake s = .next s' ∧ s'.pars.fifo[src] = rest ∧ s'.pars.seqs[src] = s.pars.seqs[src] + 1 ∧
        s'.reorder src = s.reorder src ++ [{
          seq := s.pars.seqs[src] + 1, tag := s.pars.cur, frame := { f with src := src }, key := key, prof := prof
          n := s.pars.taken, at_ := .lane s.pars.nextLane }] ∧
        ∀ u, u ≠ src → s'.reorder u = s.reorder u) ∧
    (∀ l f, oldestFlight (s.inLane l) = some f →
      exec (.laneLookupDone l false false) s = .next (s.moveFlight f (.decided (s.pars.lookup f.tag f.prof f.key))) ∧
      exec (.laneLookupDone l false true) s =
        .next { s.moveFlight f .dropped with pars.entryErr := satInc 65535 s.pars.entryErr } ∧
      exec (.laneLookupDone l true false) s = .next ((s.moveFlight f .dropped).laneParity l)) ∧
    (∀ i rest f d, s.boot.core0Up = true → s.pars.slow = i :: rest → ((s.reorder i.src).find? fun f => f.n == i.n) = some f → f.at_ = .slow d →
      exec .slowPathDecide s = .next (({ s with pars.slow := rest } : State).moveFlight f
        (.decided (s.pars.lookup f.tag f.prof f.key)))) ∧
    (∀ f d, s.nextLate = some (f, d) → ∃ s1 : State, exec .slowDeadlineExpiry s =
        .next { s1 with pars.slowLate := inc32 s.pars.slowLate } ∧ s1 = (s.reach d).moveFlight f .dropped) ∧
    (s.pars.slowSecond = 0 → exec .slowPathSecond s =
      .next { s.reach s.pars.slowSecondBy with pars := { s.pars with
        slowSecond := 0, slowSecondBy := s.pars.slowSecondBy + 1000000000 } }) ∧
    (∀ src f rest, s.reorder src = f :: rest →
      (∀ a, f.at_ = .decided a → exec (.reorderRelease src) s =
        .next (({ s with pars.reorder := s.pars.reorder.set src rest } : State).actOn f.frame f.uq a)) ∧
      (f.at_ = .dropped → exec (.reorderRelease src) s = .next { s with pars.reorder := s.pars.reorder.set src rest }) ∧
      ((∃ l, f.at_ = .lane l) → exec (.reorderRelease src) s = .next s)) ∧
    (∀ tag, s.pars.drain = some tag →
      (s.inFlight tag = false → exec .versionDrain s = .next (s.freeDrained tag)) ∧
      (s.inFlight tag = true → exec .versionDrain s = .next s)) ∧
    (∀ p tag, s.pars.pause = some p → s.pars.staging = some tag → s.inFlight s.pars.cur = false → ∃ s1 : State,
      exec .pauseUpdateQuiesced s = .next (s1.pausePost p Status.ok [BitVec.ofNat 8 tag.val, 0]).retryAuto ∧ s1.pars.cur = tag ∧
        s1.pars.staging = none ∧ s1.pars.pause = none) ∧
    (∀ p, s.pars.pause = some p → p.orphan = false → s.hasLease p.ten 8 = true → ∃ s1 : State,
      exec .pauseUpdateTimeout s = .next (s1.post p.ten p.slot Status.pauseTimeout []).retryAuto ∧ s1.pars.cur = s.pars.cur ∧
        s1.pars.staging = s.pars.staging ∧ s1.pars.pause = none ∧ s1.pars.rules = s.pars.rules) ∧
    (∀ failed, exec (.entryScrub failed) s =
      .next { s with pars.entryErr := min 65535 (s.pars.entryErr + failed.length) }) ∧
    (∀ (l : Fin 4) t n, s.pars.laneOut[l] = some (some (t, n)) → s.inLane l = [] → exec (.laneOutEmpty l) s =
      .next ((({ s with pars.laneOut := s.pars.laneOut.set l none } : State).raise 0x62 (BitVec.ofNat 32 l.val)).post t n
        Status.ok s.pars.laneMask)) ∧
    (∀ (l : Fin 4) t n, s.pars.laneIn[l] = some (some (t, n)) →
      (exec (.laneMarkerOut l false) s =
        .next (({ s with pars.laneIn := s.pars.laneIn.set l none } : State).post t n Status.state [])) ∧
      (∃ s1 : State, exec (.laneMarkerOut l true) s = .next (s1.post t n Status.ok s1.pars.laneMask) ∧
        s1.pars.lanesIn = s.pars.lanesIn.set l true ∧ s1.pars.laneIn = s.pars.laneIn.set l none))

/-! ### Queues and ports (chapter 15) -/

/-- The `TRAFFIC` commands and the ports' rows (R351 to R371): the reports; a queue's settings, not
persisted, after which the builder looks at an upstream queue's grant stream; the buffers; a policer and its full buckets
written; a local port's hold placed for its duration, and its end; the sampler started, its period and
its reading; a record injected as a frame of source 3, and kept waiting while the FIFO has no room; frames copied from a
tenant port; a local port's next frame by band and
turn, padded to 60 bytes, only while the port may send. -/
def Obligations.TrafficCommands : Prop :=
  ∀ (s : State) (t : Ten) (n : SlotIx),
    (s.sends t n 0x0A01 [(0, 1)] → s.prm1 t n 0 = 0 → exec (.trafficStatus t n) s =
      .next (({ s with tm.hwmCells := s.upUsed + s.dnUsed } : State).answer t n s.trafficStatus)) ∧
    (s.sends t n 0x0A02 [(0, 6), (8, 16)] → ∀ i : Fin 184, byteAt (s.params t n) 0 = i.val →
      byteAt (s.params t n) 1 ≤ 1 → (queueParams (s.params t n)).ok i.val = true →
      let s1 := s.modQ i fun x => x.configure (queueParams (s.params t n)) s.now
      (64 ≤ i.val → exec (.trafficQueueCfg t n) s = .next (s1.done t n Status.ok)) ∧
      (∀ h : i.val < 64, exec (.trafficQueueCfg t n) s =
        .next ((s1.build (s.tm.map[(⟨i.val, h⟩ : Fin 64)]).gs).done t n Status.ok))) ∧
    (s.sends t n 0x0A03 [(0, 1)] → ∀ i : Fin 184, s.prm1 t n 0 = i.val → exec (.trafficQueueStatus t n) s =
      .next ((s.modQ i fun x => { x.tick s.now with hwmDepth := 0, hwmDelay := 0 }).answer t n (s.queueStatus i))) ∧
    (s.sends t n 0x0A04 [(0, 3), (4, 16)] → ∀ i : Fin 128, byteAt (s.params t n) 0 = i.val → byteAt (s.params t n) 1 = 0 →
      byteAt (s.params t n) 2 ≤ 3 → (policerParams (s.params t n)).ok = true → ∃ (p : Policer) (data : List Byte),
        exec (.trafficPolicer t n) s = .next
          (({ s with tm.policers := s.tm.policers.set i p } : State).answer t n data) ∧
        p.cfg = policerParams (s.params t n) ∧ p.tc = p.cfg.cbs * 8000000 ∧ p.tp = p.cfg.pbs * 8000000 ∧ p.at_ = s.now ∧
        p.green = s.tm.policers[i].green) ∧
    (s.sends t n 0x0A05 [(0, 7)] → 512 ≤ leAt (s.params t n) 0 2 → leAt (s.params t n) 0 2 ≤ 7680 →
      2 ≤ byteAt (s.params t n) 2 → byteAt (s.params t n) 2 ≤ 15 → 1 ≤ byteAt (s.params t n) 3 →
      byteAt (s.params t n) 3 < byteAt (s.params t n) 2 → 2 ≤ byteAt (s.params t n) 4 → byteAt (s.params t n) 4 ≤ 15 →
      1 ≤ byteAt (s.params t n) 5 → byteAt (s.params t n) 5 < byteAt (s.params t n) 4 → byteAt (s.params t n) 6 = 0 →
      exec (.trafficBuffer t n) s = .next (({ s with tm.buf := {
          upCells := leAt (s.params t n) 0 2, xoff := #v[byteAt (s.params t n) 2, byteAt (s.params t n) 4]
          xon := #v[byteAt (s.params t n) 3, byteAt (s.params t n) 5] } } : State).done t n Status.ok)) ∧
    (s.sends t n 0x0A06 [(0, 3), (4, 2)] → s.prm1 t n 2 ≤ 1 → ∀ l : Fin 2, s.prm1 t n 0 = 2 + l.val →
      exec (.trafficHold t n) s = .next (({ s with
        tm.holdPort := s.tm.holdPort.set l (holdOf s.now (s.prm t n 4 2) (bit (s.prm1 t n 2) 0)) } : State).done t n Status.ok)) ∧
    (s.sends t n 0x0A07 [(0, 10)] → s.prm1 t n 0 = 1 → s.prm1 t n 1 ≤ 8 →
      (∀ i, i < 8 → s.prm1 t n (2 + i) ≤ 183 ∨ s.prm1 t n (2 + i) = 0xFF) → ∃ s1 : State,
        exec (.trafficWatch t n) s = .next (s1.done t n Status.ok) ∧ s1.tm.sampler.running = true ∧
        s1.tm.sampler.k = s.prm1 t n 1 ∧ s1.tm.sampler.start = s.now ∧ s1.tm.sampler.ring = [] ∧
        s1.tm.queues = s.tm.queues) ∧
    (s.sends t n 0x0A08 [(0, 6), (8, 4)] → 1 ≤ s.prm t n 4 2 → s.prm t n 4 2 ≤ 4096 →
      s.rangeOk t n (s.prm t n 8 4) (8 * s.prm t n 4 2) = true →
      let r := s.tm.sampler.from (s.prm t n 0 4) (s.prm t n 4 2)
      exec (.trafficWatchRead t n) s = .next
        ((s.partWrite t (s.prm t n 8 4) (r.2.flatMap fun e => leBytes 8 e.toNat)).post t n Status.ok
          (leBytes 4 r.1 ++ leBytes 2 r.2.length ++ leBytes 1 s.tm.sampler.k ++ [0] ++ leBytes 4 s.tm.sampler.index
            ++ ttBytes s.tm.sampler.startTt) true) ∧ r.2.length ≤ s.prm t n 4 2) ∧
    (s.runs t n 0x0A09 = true → (s.slot t n).bulk = true → (s.slot t n).stop = none →
      (s.tm.inject.any fun x => x.1 == t && x.2.1 == n) = false → ∀ f next, recordAt (s.params t n) 0 = some (f, next) →
      (s.injectRoom f.length = false → ∃ s', exec (.trafficInject t n) s = .next s' ∧ (t, n, 0, 0) ∈ s'.tm.inject ∧
        s'.pars = s.pars ∧ s'.slot t n = s.slot t n) ∧
      (s.injectRoom f.length = true → (s.params t n).length ≤ next → ∃ s1 : State,
        s1 = (s.ingress { bytes := f, src := 3, ten := t }).toNoon ∧ exec (.trafficInject t n) s =
          .next (({ s1 with tm.inject := s1.tm.inject.filter fun x => x.1 != t || x.2.1 != n } : State).answer t n [1, 0]))) ∧
    (s.inHand t n 0x0A09 = true → ∀ off k, (s.tm.inject.find? fun x => x.1 == t && x.2.1 == n) = some (t, n, off, k) →
      exec (.injectOffer t n) s = .next (s.injectRun t n (s.params t n) 1100 off k)) ∧
    (s.sends t n 0x0A0A [(0, 10)] → 64 ≤ s.prm t n 4 4 → s.rangeOk t n (s.prm t n 0 4) (s.prm t n 4 4) = true → t ≠ 0 →
      (spiOf (s.ten t).cfg.transport).isSome = true → ∃ (s1 : State) (k w : Nat),
        s.copyPort t (s.prm t n 0 4) (s.prm t n 4 4) (s.prm1 t n 8) (s.prm1 t n 9) (s.portWaiting t) 0 0 = (s1, k, w) ∧
        w ≤ s.prm t n 4 4 ∧ ∃ s2 : State, exec (.trafficReceive t n) s = .next (s2.tellPort t) ∧
          s2.slot t n = (s1.post t n Status.ok (leBytes 2 k ++ leBytes 2 (min 65535 (s1.portWaiting t)) ++ leBytes 4 w) true).slot
            t n) ∧
    (∀ l : Fin 2, (s.portMaySend l = false → exec (.portEgressSelect l) s = .next s) ∧
      (∀ band q f rest, s.portMaySend l = true → s.egressChoice l = some (band, q) →
        (s.q (egressQid l (Fin.ofNat 32 q.val))).frames = f :: rest → ∃ s3 : State,
          exec (.portEgressSelect l) s = .next (s3.emit (.egress l (padTo 60 f.bytes))).watchFill ∧
          (s3.q (egressQid l (Fin.ofNat 32 q.val))).frames = rest ∧ s3.tm.rr = s.tm.rr.set (portPtr l band) (some q.val) ∧
          (s3.local_ l).busyTo = s.now + (s.local_ l).frameNs f.bytes.length)) ∧
    (∀ (l : Fin 2) (d : Nat), Hold.ends s.tm.holdPort[l] = some d → exec (.holdExpiry (Fin.ofNat 10 (8 + l.val))) s =
      .next { s.reach d with tm.holdPort := s.tm.holdPort.set l none }) ∧
    (s.tm.sampler.running = true → ∃ s', exec .watchPeriod s = .next s' ∧ s'.tm.sampler.period = s.tm.sampler.period + 1 ∧
      s'.tm.sampler.index = (s.tm.sampler.index + s.tm.sampler.qids.length) % 2 ^ 32 ∧ s'.tm.queues = s.tm.queues ∧
      s'.now = max s.now (s.tm.sampler.start + (s.tm.sampler.period + 1) * (64000 * 2 ^ s.tm.sampler.k)))

/-- The admission of a frame to a queue (R353, Table 15.2): a red frame is dropped and counted whatever the room; a
yellow one over the queue's yellow mark, any over its maximum, and any that finds no free cell or frame, each in its
counter; any other joins the tail with its admission time. -/
def Obligations.Admission : Prop :=
  ∀ (s : State) (i : Fin 184) (f : Frame),
    let d := s.depth i + f.cells
    let free := if i.val < 64 then s.tm.buf.upCells - s.upUsed else 8192 - s.tm.buf.upCells - s.dnUsed
    let x := s.q i
    (f.colour = .red → ((s.admitFrame i f).q i).redDrop = inc32 x.redDrop ∧ ((s.admitFrame i f).q i).frames = x.frames) ∧
    (f.colour = .yellow → x.cfg.ymax < d →
      ((s.admitFrame i f).q i).yDrop = inc32 x.yDrop ∧ ((s.admitFrame i f).q i).frames = x.frames) ∧
    (f.colour ≠ .red → (f.colour = .yellow → d ≤ x.cfg.ymax) →
      (x.cfg.qmax < d →
        ((s.admitFrame i f).q i).tailDrop = inc32 x.tailDrop ∧ ((s.admitFrame i f).q i).frames = x.frames) ∧
      (d ≤ x.cfg.qmax →
        ((free < f.cells ∨ 16384 ≤ s.buffered) →
          (s.admitFrame i f).tm.poolDrop = inc32 s.tm.poolDrop ∧ ((s.admitFrame i f).q i) = x) ∧
        (f.cells ≤ free → s.buffered < 16384 →
          ((s.admitFrame i f).q i).frames = x.frames ++ [{ f with at_ := s.now }] ∧
          ((s.admitFrame i f).q i).enq = inc32 x.enq ∧
          ∀ j, j ≠ i → (s.admitFrame i f).q j = s.q j)))

/-! ### Cipher, key store and non-volatile store (chapter 16) -/

/-- The `CIPHER` commands (R376, R384, R387, R390 to R393): a job is accepted under a slot the tenant may use, a seal
with the slot's salt and its next invocation value, which is below the ceiling and is never drawn again; a core leaves
service, its tenant job yielding, unless it is the last one, and one that is out and not broken starts its self-test. -/
def Obligations.CipherCommands : Prop :=
  ∀ (s : State) (t : Ten) (n : SlotIx),
    (s.sends t n 0x0B01 [] → exec (.cipherStatus t n) s = .next (s.answer t n s.cipherStatus)) ∧
    (∀ (i : Fin 64) ctr s1, s.drawSlot i = .got ctr s1 → ctr = s.keys.slots[i].ctr ∧ ctr < s.keys.slots[i].ceil ∧
      s1.keys.slots[i].ctr = ctr + 1) ∧
    (∀ i : Fin 64, 8 ≤ i.val → s.prm1 t n 0 = i.val → s.jobWaits t n = false → s.ioOk t n = true →
      (s.sends t n 0x0B02 [(0, 1), (4, 18)] → s.aadOk t n = true → s.keyCheck t (s.keyView t i.val) .encrypt = none →
        ∀ ctr s1, s.drawSlot i = .got ctr s1 → exec (.cipherGcmSeal t n) s =
          .next (s1.queueJob t n (.slot i) (s.keys.slots[i].salt ++ beBytes 8 ctr))) ∧
      (s.sends t n 0x0B03 [(0, 1), (4, 18), (24, 28)] → s.aadOk t n = true →
        s.keyCheck t (s.keyView t i.val) .decrypt = none → exec (.cipherGcmOpen t n) s = .next (s.queueJob t n (.slot i) [])) ∧
      (s.sends t n 0x0B04 [(0, 2), (4, 12)] → s.prm1 t n 1 = 0 → s.keyCheck t (s.keyView t i.val) .encrypt = none →
        ∀ ctr s1, s.drawSlot i = .got ctr s1 → exec (.cipherCtr t n) s =
          .next (s1.queueJob t n (.slot i) (s.keys.slots[i].salt ++ beBytes 8 ctr))) ∧
      (s.sends t n 0x0B04 [(0, 2), (4, 28)] → s.prm1 t n 1 = 1 → s.keyCheck t (s.keyView t i.val) .decrypt = none →
        exec (.cipherCtr t n) s = .next (s.queueJob t n (.slot i) [])) ∧
      (s.sends t n 0x0B02 [(0, 1), (4, 18)] → s.aadOk t n = true → ∀ st, s.keyCheck t (s.keyView t i.val) .encrypt = some st →
        exec (.cipherGcmSeal t n) s = .next (s.done t n st))) ∧
    (s.sends t n 0x0B05 [(0, 3), (4, 8)] → ∀ i : Fin 64, 8 ≤ i.val → s.prm1 t n 0 = i.val → s.prm1 t n 1 = 0 →
      8 ≤ s.prm1 t n 2 → s.prm1 t n 2 ≤ 16 → s.prm t n 8 4 ≤ 65536 → s.rangeOk t n (s.prm t n 4 4) (s.prm t n 8 4) = true →
      s.jobWaits t n = false → s.keyCheck t (s.keyView t i.val) .macMake = none →
      exec (.cipherCmac t n) s = .next (s.queueJob t n (.slot i) [])) ∧
    (s.sends t n 0x0B06 [(0, 2)] → ∀ c : Fin 2, s.prm1 t n 0 = c.val → s.cip.coreBy[c] = none →
      (s.prm1 t n 1 = 0 → s.cip.core[c] = true → s.coresIn ≠ 1 →
        let s1 : State := { s with cip.core := s.cip.core.set c false }
        let s2 := (if (s.cip.run[c]).any CoreWork.isJob then s1.setRun c none else s1).startJobs
        exec (.cipherCore t n) s = .next (s2.answer t n s2.coreMask)) ∧
      (s.prm1 t n 1 = 0 → s.cip.core[c] = true → s.coresIn = 1 → exec (.cipherCore t n) s = .next (s.done t n Status.state)) ∧
      (s.prm1 t n 1 = 1 → s.cip.core[c] = false → s.cip.broken[c] = false → exec (.cipherCore t n) s = .next { s with
        cip := { s.cip with testing := s.cip.testing.set c true, coreBy := s.cip.coreBy.set c (some (t, n)) } }))

/-- The engine's rows (R376, R379 to R383, R393, R395): the first tenant job that a core runs ends, counted, with its
result, and an open whose tag fails answers so and writes nothing; a KBUS operation loads a context and one that hangs zeroes it; a fault aborts the work of its core, the third within a second fences
the engine; a core that passes its test returns; a written ceiling applies, and a write that fails is counted and
repeated. -/
def Obligations.CipherRows : Prop :=
  ∀ s : State,
    (∀ j, s.jobsOn.runningJob = some j → j.orphan = false →
      let s1 := s.jobsOn.dropCJob j
      let s2 : State := { s1 with cip := { s1.cip with
        nJobs := inc32 s1.cip.nJobs, nBytes := s1.cip.nBytes + s1.prm j.ten j.slot 8 4 } }
      ((s1.slot j.ten j.slot).opcode = 0x0B02 → exec .cipherJobDone s = .next (s2.endSeal j).afterJob) ∧
      ((s1.slot j.ten j.slot).opcode = 0x0B03 → exec .cipherJobDone s = .next (s2.endOpen j).afterJob) ∧
      ((s1.slot j.ten j.slot).opcode = 0x0B04 → exec .cipherJobDone s = .next (s2.endCtr j).afterJob) ∧
      ((s1.slot j.ten j.slot).opcode = 0x0B05 → exec .cipherJobDone s = .next (s2.endCmac j).afterJob)) ∧
    (∀ j : Job, field (s.params j.ten j.slot) 36 16 ≠ beBytes 16 (Config.gcmTag j.key (field (s.params j.ten j.slot) 24 12)
        (s.jobAad j.ten j.slot) (s.jobInput j.ten j.slot)).toNat →
      s.endOpen j = s.answer j.ten j.slot [1, 0, 0, 0, 0, 0, 0, 0]) ∧
    (∀ c i u rest, s.cip.kbus = .load c (.slot i) u :: rest → s.keys.slots[i].state ≠ 0 → exec .kbusOpDone s =
      .next ({ s with cip := { s.cip with
        kbus := rest
        ctx := s.cip.ctx.set c (some { src := .slot i, key := s.keys.slots[i].key, ten := u, used := s.cip.uses })
        } } : State).startJobs) ∧
    (∀ c rest, s.cip.kbus = .zero c :: rest → ∃ s', exec .kbusWatchdog s = .next s' ∧ s'.cip.kbus = s.cip.kbus ∧
      s'.cip.kbusWd = satInc 65535 s.cip.kbusWd ∧ (∀ x, s'.cip.ctx[c] = some x → x.key = [])) ∧
    (∀ (c : Fin 2) w, s.cip.run[c] = some w → ∃ s1 : State,
      s1 = (s.countFault.faultWork w).raise 0x80 (BitVec.ofNat 32 (s.workCtx w)) ∧
      (s1.cip.faultsAt.length < 3 → exec (.cipherParityFault c) s = .next s1.afterJob) ∧
      (3 ≤ s1.cip.faultsAt.length → exec (.cipherParityFault c) s = .next s1.fence.afterJob)) ∧
    (∀ c : Fin 2, s.cip.testing[c] = true → ∃ s1 : State, s1 = { s with cip.testing := s.cip.testing.set c false } ∧
      exec (.cipherSelfTestDone c true) s = .next ((s1.coreReturns c).coreAnswer c true).startJobs ∧
      exec (.cipherSelfTestDone c false) s =
        .next (({ s1 with cip.broken := s1.cip.broken.set c true } : State).coreAnswer c false).startJobs) ∧
    (∀ (i : Fin 64) c, s.keys.slots[i].failed = false → s.keys.slots[i].pend = some c →
      (s.nvm.degraded.getLsbD 5 = false → exec (.ceilWriteDone i.val true) s =
        .next (s.modSlotKey i fun k => { k with ceil := c, pend := none }).recordWritten.noncesKept.retryAuto) ∧
      (exec (.ceilWriteDone i.val false) s = .next ({ s with
        cip.ceilFail := satInc 65535 s.cip.ceilFail
        keys.slots := s.keys.slots.set i { s.keys.slots[i] with failed := true } } : State).retryAuto)) ∧
    (∃ s', exec .ceilWriteRetry s = .next s' ∧ ∀ i : Fin 64, s'.keys.slots[i] = { s.keys.slots[i] with failed := false })

/-- The `KEYS` commands (R387, R389, R397 to R399): attributes for a tenant of the slot's mask; an import whose record
is whole, new and tagged by the key it names goes into its empty slot; a derivation into a free handle keeps its
parent's size and draws its salt; a destroyed slot is empty, with its counter kept. -/
def Obligations.KeysCommands : Prop :=
  ∀ (s : State) (t : Ten) (n : SlotIx),
    (s.sends t n 0x0C01 [(0, 1)] → ∀ i : Fin 64, 8 ≤ i.val → s.prm1 t n 0 = i.val →
      (s.keys.slots[i].tmask.getLsbD t.val = true → exec (.keysInfo t n) s =
        .next (s.answer t n (s.keyInfo (some { src := .slot i, attr := s.keys.slots[i] })))) ∧
      (s.keys.slots[i].tmask.getLsbD t.val = false → s.ownerAt t n = false →
        exec (.keysInfo t n) s = .next (s.done t n Status.authority))) ∧
    (s.sends t n 0x0C02 [(0, 1), (8, 8)] → s.prm1 t n 0 = 2 → s.prm t n 12 4 = 72 → s.rangeOk t n (s.prm t n 8 4) 72 = true →
      let r := s.importRecord t n
      let key := kdf 1 s.keys.kek [0x5A, 0x50, 0x4B, 0x49] (beBytes 8 Config.terminalId.toNat ++ [r.getD 0 0] ++ field r 8 4)
      importOk r = true → s.coresIn ≠ 0 → s.slotLoads 2 = true → s.recordCheck = none → ∀ i : Fin 64, byteAt r 0 = i.val →
      s.keys.slots[i].state = 0 → s.keys.slots[i].iseq < beAt r 8 4 →
      (field r 56 16 = beBytes 16 (Config.gcmTag key (field r 12 12) (field r 0 12) (field r 24 32)).toNat →
        exec (.keysImport t n) s = .next ((s.modSlotKey i fun k => k.install
          (keyOf (byteAt r 3 == 1) (ctrCrypt key (gcmBlock (field r 12 12)) (field r 24 32))) (byteAt r 3 == 1) (r.getD 1 0)
          (r.getD 2 0) (field r 4 4) (beAt r 8 4)).recordWritten.done t n Status.ok)) ∧
      (field r 56 16 ≠ beBytes 16 (Config.gcmTag key (field r 12 12) (field r 0 12) (field r 24 32)).toNat →
        exec (.keysImport t n) s = .next (s.done t n Status.authority))) ∧
    (s.sends t n 0x0C03 [(0, 6), (8, 48)] →
      let ps := s.params t n
      ∀ v e, s.keyView t (byteAt ps 0) = some v → s.keyCheck t (some v) .derive_ = none → keyRefOk (byteAt ps 0) = true →
      0x80 ≤ byteAt ps 1 → byteAt ps 1 ≤ 0x83 → byteAt ps 2 ≤ 31 → ps.getD 2 0 &&& ~~~(v.attr.flags &&& 0x07) = 0 →
      byteAt ps 3 = 0 → 1 ≤ byteAt ps 4 → byteAt ps 4 ≤ 16 → byteAt ps 5 ≤ 32 → s.coresIn ≠ 0 →
      s.freeHandle = some e → (s.handlesOf t).length < 4 → s.handleEntry t (byteAt ps 1 - 0x80) = none →
      exec (.keysDerive t n) s = .next ((s.drawn.setEntry e (some {
        key := kdf (if v.attr.big then 2 else 1) v.attr.key (field ps 8 (byteAt ps 4)) (field ps 24 (byteAt ps 5))
        salt := s.saltDraw, big := v.attr.big, flags := ps.getD 2 0, owner := some t
        handle := byteAt ps 1 - 0x80 })).answer t n ([BitVec.ofNat 8 (byteAt ps 1), 0, 0, 0] ++ s.saltDraw))) ∧
    (s.sends t n 0x0C04 [(0, 2)] → s.ownerAt t n = true → ∀ i : Fin 64, 8 ≤ i.val → s.prm1 t n 0 = i.val → s.prm1 t n 1 = 0 →
      s.recordCheck = none → s.keys.slots[i].state ≠ 0 → (∀ d ∈ s.cip.destroys, d.by_ ≠ some (t, n)) → ∃ s1 : State,
      exec (.keysDestroy t n) s = .next s1.settleDestroys ∧ s1.keys.slots[i].state = 0 ∧ s1.keys.slots[i].key = [] ∧
        s1.keys.slots[i].ctr = s.keys.slots[i].ctr ∧ s1.keys.slots[i].ceil = s.keys.slots[i].ceil ∧
        s1.cip.destroys = s.cip.destroys ++ [{ by_ := some (t, n), src := .slot i }] ∧
        ∀ j : Fin 64, j ≠ i → s1.keys.slots[j] = s.keys.slots[j])

/-- The non-volatile store (R403 to R409, R412): a read of up to 48 bytes, and one that ends before the first line that
fails, which is then suspect; an update started under its region's lease where none runs and the region is neither the
running image nor DEGRADED, and asked to stop by `ENS.ABORT`; the reports. A line whose read-back holds stands, one that
fails is written again, and at its second failure is remapped, or ends the update with `WORN` where no spare is free;
a partial line whose old contents fail ends the update with `TAG_FAIL` and is suspect. An automatic request that waited
is tried again after a line (R61). -/
def Obligations.StoreCommands : Prop :=
  ∀ (s : State) (t : Ten) (n : SlotIx),
    (∀ fixed bad, s.sends t n 0x0D01 [(0, 1), (4, 8)] →
      let r := byteAt (s.params t n) 0
      let a := regionBase r + leAt (s.params t n) 4 4
      let len := leAt (s.params t n) 8 4
      let s1 := ({ s with nvm.badTag := bad ++ s.nvm.badTag } : State).eccFixed fixed
      let stop := s1.nvm.stopsAt a (a + len)
      regionOk r = true → s.mayRead t n r = true → leAt (s.params t n) 4 4 % 4 = 0 → 1 ≤ len → len ≤ 48 →
      inRegion r (leAt (s.params t n) 4 4) len = true →
      (stop = a + len → exec (.ensRead t n fixed bad) s =
        .next (s1.answer t n (leBytes 4 len ++ [0, 0, 0, 0] ++ s.ens.getN a len))) ∧
      (stop < a + len → exec (.ensRead t n fixed bad) s = .next ((s1.markSuspect (stop / 64)).post t n Status.tag
        (leBytes 4 (s.ens.getN a (stop - a)).length ++ [0, 0, 0, 0] ++ s.ens.getN a (stop - a))))) ∧
    (s.sends t n 0x0D02 [(0, 1), (4, 12)] →
      let r := byteAt (s.params t n) 0
      let off := leAt (s.params t n) 4 4
      let len := leAt (s.params t n) 8 4
      let src := leAt (s.params t n) 12 4
      regionOk r = true → s.leasedAt t n (regionLease r) = true → off % 4 = 0 → len % 4 = 0 → 4 ≤ len → len ≤ 65536 →
      inRegion r off len = true → s.rangeOk t n src len = true → (s.slot t n).stop = none → s.runsImage r = false →
      (s.regionUpdates r = false → s.regionWorn r = false → exec (.ensWrite t n) s = .next { s with
        nvm.upd := s.nvm.upd ++ [{
          region := r, addr := regionBase r + off, data := s.partRead t src len, ten := t, slot := n }] }) ∧
      (s.regionUpdates r = true → exec (.ensWrite t n) s = .next (s.done t n Status.regionBusy)) ∧
      (s.regionUpdates r = false → s.regionWorn r = true → exec (.ensWrite t n) s = .next (s.done t n Status.worn))) ∧
    (s.sends t n 0x0D03 [(0, 1)] → ∀ u, regionOk (s.prm1 t n 0) = true →
      (s.leasedAt t n (regionLease (s.prm1 t n 0)) = true ∨ s.ownerAt t n = true) →
      s.updateOf (s.prm1 t n 0) = some u → u.aborter = none →
      exec (.ensAbort t n) s =
        .next (s.modUpd (s.prm1 t n 0) fun x => { x with aborter := some (t, n), stop := true })) ∧
    (s.sends t n 0x0D04 [] → exec (.ensStatus t n) s = .next (s.answer t n s.ensStatus)) ∧
    (s.sends t n 0x0D05 [(0, 1), (4, 4)] → regionOk (s.prm1 t n 0) = true → inRegion (s.prm1 t n 0) (s.prm t n 4 4) 1 = true →
      ∃ data : List Byte, exec (.ensLineInfo t n) s = .next (s.answer t n data) ∧ data.length = 8 ∧
        leAt data 0 4 = s.nvm.wearOf ((regionBase (s.prm1 t n 0) + s.prm t n 4 4) / 64) % 2 ^ 32) ∧
    (∀ r u ok fixed, s.domOn dNVM = true → s.updateOf r = some u →
      let s1 := s.eccFixed fixed
      let line := u.addr / 64
      (64 ≤ u.take ∨ (ok = true ∧ s.nvm.bad line = false) →
        exec (.ensLineWriteDone r true ok fixed) s = .next (s1.lineStands u).retryAuto ∧
        (u.again = false → exec (.ensLineWriteDone r false ok fixed) s =
          .next (s1.modUpd r fun v => { v with again := true }).retryAuto) ∧
        (u.again = true → (s1.remap line).nvm.remaps ≠ s.nvm.remaps → exec (.ensLineWriteDone r false ok fixed) s =
          .next ((s1.remap line).lineStands { u with remapped := u.remapped + 1 }).retryAuto) ∧
        (u.again = true → (s1.remap line).nvm.remaps = s.nvm.remaps → exec (.ensLineWriteDone r false ok fixed) s =
          .next ((s1.remap line).endUpdate u Status.worn).retryAuto)) ∧
      (u.take < 64 → ok = false ∨ s.nvm.bad line = true → ∀ verify,
        exec (.ensLineWriteDone r verify ok fixed) s = .next ((s1.markSuspect line).endUpdate u Status.tag).retryAuto))

/-! ### Lifecycle and thaw (chapter 17) -/

/-- The `SEC` commands and timers (R417, R418, R423 to R427): the report; a challenge, which gives the outstanding
nonce of the next 600 s, and none while the lockout runs; a token that passes every check and asks for SLUSH raises
the level, and one that fails a check is answered with the first one's status, counted, and changes no level; from SLUSH a freeze ends the trace session, from THAWED it leads to a chip
reset; `SEC.SEAL` in FACTORY stores the owner key and moves the lifecycle to SEALED; `SEC.RETIRE` in SEALED and FROZEN first
stops the transmitter; the level timer, the nonce's end and the lockout's end. -/
def Obligations.SecCommands : Prop :=
  ∀ (s : State) (t : Ten) (n : SlotIx),
    (s.sends t n 0x0E01 [] → exec (.secStatus t n) s = .next (s.answer t n s.secStatus)) ∧
    (s.sends t n 0x0E02 [] →
      (s.sec.lockBy = none → ∃ s1 : State, exec (.secThawChallenge t n) s = .next (s1.answer t n
          (leBytes 8 Config.terminalId.toNat ++ leBytes 16 s.draw ++ leBytes 1 s.lifecycleCode ++ leBytes 1 s.debugCode
            ++ leBytes 1 s.thawSigner)) ∧
        s1 = { s.drawn with sec.nonce := some (leBytes 16 s.draw, s.now + 600000000000) }) ∧
      (s.sec.lockBy ≠ none → exec (.secThawChallenge t n) s = .next (s.done t n Status.busy))) ∧
    (s.runs t n 0x0E03 = true → s.sec.thawing = none →
      (∀ c, ((s.tokenChecks (s.params t n)).find? fun c => c.1) = some c → ∃ s1 : State,
        exec (.secThaw t n) s = .next (s1.done t n c.2) ∧ s1.ao.dbg = s.ao.dbg ∧ s1.sec.nonce = none ∧
          s1.sec.fails = satInc 65535 s.sec.fails) ∧
      (((s.tokenChecks (s.params t n)).find? fun c => c.1) = none → byteAt (s.params t n) 5 = 1 → ∃ s1 : State,
        exec (.secThaw t n) s = .next (s1.answer t n [1]) ∧ s1.ao.dbg.level = 1 ∧ s1.ao.dbg.ten = some t ∧
          s1.sec.nonce = none ∧ s1.fuses = s.fuses)) ∧
    (s.sends t n 0x0E04 [] →
      (s.thawed = false → exec (.secFreeze t n) s =
        .next (({ s with ao.dbg := {}, sec.trace := false } : State).answer t n [0]).retryAuto) ∧
      (s.thawed = true → exec (.secFreeze t n) s =
        .next ((s.answer t n [0]).acceptEntry .chipReset false t).retryAuto)) ∧
    (s.runs t n 0x0E05 = true → (s.params t n).length = 72 → leAt (s.params t n) 0 8 = Config.terminalId.toNat →
      Config.onCurve (field (s.params t n) 8 64) = true →
      (s.inFactory = true → s.ao.dbg.level = 0 → s.ao.keyLock = false → ∃ s1 : State,
        exec (.secSeal t n) s = .next (s1.answer t n [1]) ∧ s1.fuses.life = .sealed ∧
          (∀ i : Fin 2, s1.fsec.keys[i] = some (field (s.params t n) 8 64)) ∧ s1.fsec.thaws = 0) ∧
      (s.inFactory = false → exec (.secSeal t n) s = .next (s.done t n Status.state))) ∧
    (s.sends t n 0x0E06 [(0, 9)] → s.prm t n 0 8 = Config.terminalId.toNat → s.prm1 t n 8 = 0xA5 → s.waitsFor t n = false →
      (s.fuses.life = .sealed → s.ao.dbg.level = 0 → s.reg.wait = none → exec (.secRetire t n) s =
        .next (s.startWait { ten := t, slot := n, rediscover := false, by_ := s.now + 4000000, retire := true })) ∧
      (s.fuses.life ≠ .sealed → exec (.secRetire t n) s = .next (s.done t n Status.state))) ∧
    (∀ d, s.ao.dbg.by_ = some d →
      (s.power.pstate ≠ .permafrost → s.thawed = true → exec .levelTimerExpiry s = .next ((s.reach d).chipReset 0x07 0x0F).retryAuto) ∧
      (s.power.pstate ≠ .permafrost → s.thawed = false →
        exec .levelTimerExpiry s = .next ({ s.reach d with ao.dbg := {}, sec.trace := false } : State).retryAuto)) ∧
    (∀ x d, s.sec.nonce = some (x, d) → exec .thawNonceExpiry s = .next { s.reach d with sec.nonce := none }) ∧
    (∀ d, s.sec.lockBy = some d → exec .thawLockoutEnd s = .next { s.reach d with sec.lockBy := none })

/-! ### Firn (chapter 18) -/

/-- The `FIRN` commands (R436, R437, R448, R452, R457, R460): a package whose header stands is
taken in hand, and at the row that ends the load one that passes every check of R436 is loaded under a handle, one with
no good signature is not; a model without jobs is unloaded by its loader; a run takes a number and a place among at most 8 jobs;
the engine leaves and, after its self-test, returns; the model key stored and erased. -/
def Obligations.FirnCommands : Prop :=
  ∀ (s : State) (t : Ten) (n : SlotIx),
    (s.sends t n 0x0F01 [(0, 1)] → s.prm1 t n 0 = 0 → exec (.firnStatus t n) s = .next (s.answer t n s.firnStatus)) ∧
    (s.sends t n 0x0F02 [(0, 1), (4, 4)] → ∀ i : Fin 8, s.prm1 t n 0 = i.val →
      let off := s.prm t n 4 4
      let p := s.pkgRead off (leAt (s.pkgRead off 256) 8 4)
      let x := modelOf t p
      off % 64 = 0 → off < 0x300000 → s.updateOf 2 = none → s.pkgTags off (min 256 (0x300000 - off)) = true →
      headerOk (s.pkgRead off 256) (0x300000 - off) = true → s.pkgTags off p.length = true →
      let s1 : State := { s with firn.loading := none }
      (s.modelLoading = false → (s.slot t n).ghost = false →
        exec (.firnModelLoad t n) s = .next { s with firn.loading := some (t, n) }) ∧
      (s.firn.loading = some (t, n) → s.pkgSigned p = true → x.bad = none → s.fmodel i = none → s.firn.fits x = true →
        exec (.firnModelLoad t n) s = .next ((s1.loadModel i x).answer t n (loadData i.val x.hdr (2 ^ 32 - 1)))) ∧
      (s.firn.loading = some (t, n) → s.pkgSigned p = false →
        exec (.firnModelLoad t n) s = .next (s1.done t n Status.signature))) ∧
    (s.sends t n 0x0F03 [(0, 1)] → ∀ (i : Fin 8) x, s.prm1 t n 0 = i.val → s.fmodel i = some x → x.loader = t →
      ((∀ j ∈ s.firn.jobs, j.handle ≠ i) → exec (.firnModelUnload t n) s = .next ((s.dropModel i).done t n Status.ok)) ∧
      ((∃ j ∈ s.firn.jobs, j.handle = i) → exec (.firnModelUnload t n) s = .next (s.done t n Status.busy))) ∧
    (s.sends t n 0x0F04 [(0, 1)] → ∀ (i : Fin 8) x, s.prm1 t n 0 = i.val → s.fmodel i = some x →
      exec (.firnModelInfo t n) s = .next (s.answer t n x.info)) ∧
    (s.sends t n 0x0F05 [(0, 1), (4, 2), (8, 8)] → ∀ (i : Fin 8) x, s.prm1 t n 0 = i.val → s.fmodel i = some x →
      s.runOk t n x = true → (∀ j ∈ s.firn.jobs, j.ten ≠ t ∨ j.slot ≠ n ∨ j.orphan = true) →
      (s.firn.jobs.length < 8 → exec (.firnRun t n) s = .next (s.submit t n i)) ∧
      (8 ≤ s.firn.jobs.length → exec (.firnRun t n) s = .next (s.done t n Status.busy))) ∧
    (s.sends t n 0x0F06 [(0, 1)] → s.firn.outBy = none → s.firn.testBy = none →
      (s.prm1 t n 0 = 0 → s.firn.inService = true → exec (.firnEngine t n) s = .next (s.engineOut t n)) ∧
      (s.prm1 t n 0 = 1 → s.firn.inService = false → s.firn.failed = false → exec (.firnEngine t n) s =
        .next { s with firn := { s.firn with testing := true, testBy := some (t, n) } })) ∧
    (s.sends t n 0x0F07 [(0, 1)] → s.prm1 t n 0 = 1 → s.configBusy = false → exec (.firnModelKey t n) s =
      .next (({ s with store.modelKey := none } : State).persisted.answer t n (List.replicate 8 0)))

/-- The engine's rows (R449, R450, R452 to R455, R457): the job first in the order becomes resident with its input in
a work area of zeros; a layer ends its estimate and 64 cycles after its start, after which the job stops if it is asked
to, is copied out after its last layer, or makes way for the next one; a
copied output posts the result; a watchdog ends its job, and the third within 10 s takes the engine out; an SRAM error
of one bit is counted, one of two ends the jobs it concerns; a self-test that passes returns the engine to service. -/
def Obligations.FirnRows : Prop :=
  ∀ s : State,
    (∀ j x, s.smallestTag s.mayReside = some j → s.domOn dINF = true → s.fmodel j.handle = some x →
      exec (.firnJobResident j.num) s = .next ((s.modJob j.num fun y => { y with
        resident := true, work := Memory.putN [] x.inOff (s.partRead j.ten j.inOff x.inLen) }).firnNext)) ∧
    (∀ num start j x, s.firn.run = some (num, start) → s.fjob num = some j → s.fmodel j.handle = some x →
      exec .firnLayerBoundary s = .next ((s.endLayer j x start).afterLayer num x.layers.length).retryAuto ∧
      (s.endLayer j x start).now = max s.now (start + s.firnNs (layerCycles (s.nextLayer j) + 64)) ∧
      exec .firnLayerWatchdog s = (let cyc := 2 * layerCycles (s.nextLayer j) + 8192
        let s1 := (s.reach (start + s.firnNs cyc)).layerTime start cyc
        let recent := s1.now :: s1.firn.wdtAt.filter fun at_ => s1.now < at_ + 10000000000
        let s2 : State := { s1 with firn := { s1.firn with wdt := satInc 65535 s1.firn.wdt, wdtAt := recent } }
        let s3 := (s2.abortJob { j with runNs := j.runNs + (s1.now - start) } 2).raise 0x92 (BitVec.ofNat 32 num)
        .next (if 3 ≤ recent.length then s3.engineTest else s3).firnNext.retryAuto)) ∧
    (∀ num layers j, s.fjob num = some j →
      (∀ r, s.jobStop j = some r → s.afterLayer num layers = (s.abortJob j r).firnNext) ∧
      (s.jobStop j = none → layers ≤ j.layer → s.afterLayer num layers = { s with firn.copying := some num }) ∧
      (s.jobStop j = none → j.layer < layers → s.afterLayer num layers = s.engineLeft.firnNext)) ∧
    (∀ num j x, s.firn.copying = some num → s.fjob num = some j → s.fmodel j.handle = some x → j.orphan = false →
      ∃ s1 : State, s1 = ((s.partWrite j.ten j.outOff (j.work.getN x.outOff x.outLen)).dropJob j).answer j.ten j.slot
          (j.result s.now 0) ∧
        exec .firnOutputCopied s = .next ((({ s1 with
          firn.completed := min (2 ^ 32 - 1) (s1.firn.completed + 1) } : State).raise 0x90
            (BitVec.ofNat 32 num)).firnTouch.engineLeft.firnSettled.firnNext.retryAuto)) ∧
    (∀ area, s.sramArea area = true → s.domOn dINF = true → 
      exec (.firnSramError area true) s = .next ({ s with firn.eccCorr := satInc 65535 s.firn.eccCorr } : State).retryAuto ∧
      (s.firn.run = none → exec (.firnSramError area false) s =
        .next (((s.sramJobs area).foldl (fun (s : State) j => s.abortJob j 3)
          { s with firn.eccUncorr := satInc 65535 s.firn.eccUncorr }).staleConstants area).firnNext.retryAuto)) ∧
    (s.firn.testing = true → ∀ t n, s.firn.testBy = some (t, n) → ∃ s1 s2 : State,
      s1 = { s with firn := { s.firn with testing := false, testBy := none, inService := true, failed := false } } ∧
      s2 = { s with firn := { s.firn with testing := false, testBy := none, inService := false, failed := true } } ∧
      exec (.firnSelfTestDone true) s = .next (s1.answer t n [1]).firnNext ∧
      exec (.firnSelfTestDone false) s = .next (s2.done t n Status.state).firnNext)

/-! ### Announcement audio and teleprotection (chapter 19) -/

/-- The `AUDIO` and `TPS` commands (R463, R472, R474, R475, R482, R484): the reports; the sampling frequency, while
every port is closed, and a closed port's settings; a port opened to MUTED and closed, PD_AUD switched on first where
it is off (the command's row is then looked at again: the model's choice, log entry 319, on R56); a start armed for a time ahead, and one cancelled; a TPS port's opening armed where
its tributary is configured in both directions, and cancelled. -/
def Obligations.AudioCommands : Prop :=
  ∀ (s : State) (t : Ten) (n : SlotIx),
    (s.sends t n 0x1001 [(0, 1)] → s.prm1 t n 0 = 0 → exec (.audioStatus t n) s = .next (s.answer t n s.audioStatus)) ∧
    (s.sends t n 0x1002 [(0, 2)] → s.prm1 t n 0 ≤ 4 → s.prm1 t n 1 = 0 →
      ((∀ p : Fin 3, (s.port p).st = .closed) → ∃ s1 : State, exec (.audioConfig t n) s = .next (s1.done t n Status.ok) ∧
        s1.aud.fs = s.prm1 t n 0 ∧ s1.aud.slip = s.aud.slip ∧ s1.aud.ports = s.aud.ports) ∧
      ((∃ p : Fin 3, (s.port p).st ≠ .closed) → exec (.audioConfig t n) s = .next (s.done t n Status.state))) ∧
    (s.sends t n 0x1003 [(0, 6)] → ∀ p : Fin 3, s.prm1 t n 0 = p.val → s.leasedAt t n (p.val + 1) = true →
      s.portPrmOk t n = true → bit (s.prm1 t n 4) 1 = false →
      ((s.port p).st = .closed → exec (.audioPort t n) s =
        .next ((s.modPort p fun x => { x with cfg := s.portCfg t n }).done t n Status.ok)) ∧
      ((s.port p).st ≠ .closed → exec (.audioPort t n) s = .next (s.done t n Status.state))) ∧
    (s.sends t n 0x1004 [(0, 2)] → ∀ p : Fin 3, s.prm1 t n 0 = p.val →
      (s.leasedAt t n (p.val + 1) = false → exec (.audioOpen t n) s = .next (s.done t n Status.lease).retryAuto) ∧
      (s.leasedAt t n (p.val + 1) = true → s.prm1 t n 1 = 1 → (s.port p).st = .closed → s.mayOpen p = true →
        (s.dom dAUD = .off → exec (.audioOpen t n) s = .next (s.wakeDomains [dAUD]).retryAuto) ∧
        (s.dom dAUD ≠ .off → ∃ s1 : State,
          exec (.audioOpen t n) s = .next (s1.answer t n (leBytes 1 (s1.port p).st.code)).retryAuto ∧ s1 = s.openPort p)) ∧
      (s.leasedAt t n (p.val + 1) = true → s.prm1 t n 1 = 0 → (s.port p).st = .muted → ∃ s1 : State,
        exec (.audioOpen t n) s = .next (s1.answer t n [0]).retryAuto ∧ (s1.port p).st = .closed ∧ (s1.port p).start = none ∧
          (s1.port p).stop = none)) ∧
    (s.sends t n 0x1005 [(0, 2), (8, 8)] → ∀ p : Fin 3, s.prm1 t n 0 = p.val → s.prm1 t n 1 = 1 →
      s.leasedAt t n (p.val + 1) = true → (s.port p).st = .muted → (s.port p).shutting = false → (s.port p).start = none →
      (s.port p).startDue = false → s.ttNs < s.portTt p (s.prm t n 8 8) → s.prm t n 8 8 ≤ s.ttNs + (2 ^ 47 - 1) →
      exec (.audioSchedule t n) s =
        .next ((s.modPort p fun x => { x with start := some (s.prm t n 8 8), stop := none }).answer t n [0])) ∧
    (s.sends t n 0x1101 [(0, 2)] → ∀ p : Fin 2, s.prm1 t n 0 = p.val → s.prm1 t n 1 = 0 →
      exec (.tpsStatus t n) s = .next (s.answer t n (s.tpsStatus p))) ∧
    (∀ p : Fin 2, s.prm1 t n 0 = p.val → s.leasedAt t n (p.val + 4) = true →
      (s.sends t n 0x1102 [(0, 2), (8, 8)] → s.prm1 t n 1 = 1 → s.tpsBoth p = true → (s.tpsPort p).openAt = none →
        (s.tpsPort p).open_ = false → s.prm t n 8 8 ≤ s.ttNs + (2 ^ 47 - 1) → s.tickPast p (s.prm t n 8 8) = false →
        (s.dom dAUD = .off → exec (.tpsSchedule t n) s = .next (s.wakeDomains [dAUD]).retryAuto) ∧
        (s.dom dAUD ≠ .off → exec (.tpsSchedule t n) s = .next ((s.modTps p fun y => { y with
          openAt := some (s.prm t n 8 8), closeAt := none }).answer t n [0]).retryAuto)) ∧
      (s.sends t n 0x1102 [(0, 2)] → s.prm1 t n 1 = 3 → ∀ a, (s.tpsPort p).openAt = some a → exec (.tpsSchedule t n) s =
        .next ((s.modTps p fun y => { y with openAt := none, closeAt := none }).answer t n [2]).retryAuto))

/-- The rows of audio and teleprotection (R462, R465, R466, R468, R469, R473, R474, R476, R480, R481): tributary
containers of the active lane are checked and taken; a full slip buffer gives up its oldest block; a scheduled start
or stop acts at its sample boundary, a gate that waits too long ramps; the input locks on two B preambles
192 frames apart at most 1000 ppm off, and is lost at 8 bad preambles or 10 ms above 2000 ppm; a channel-status block; an
output's frame and a locked input's pair at a sample boundary; the majority of a received bit's samples joins the mapper, and a bit leaves the destuffer in 15, 16 or 17 ticks by its fill; an upstream
tributary's close gives its container. -/
def Obligations.AudioRows : Prop :=
  ∀ s : State,
    (∀ l bytes, l = s.lanes.prot.active → s.domOn dFRM = true → (s.chan l).delinTrib bytes = .whole → ∃ s1 : State,
      s1 = s.modChan l (fun c => c.afterTrib bytes .whole) ∧
      ((s1.roleOf (kRh bytes)).isSome = true → kType bytes = 1 → (s1.aud.down[(0 : Fin 3)]).any (·.down) = true →
        (tcrcOk bytes = false → exec (.audioContainer l bytes) s =
          .next (s1.countDs l fun n => { n with tribCrc := inc32 n.tribCrc })) ∧
        (tcrcOk bytes = true → s.domOn dAUD = true → annOk ((bytes.drop 6).take (kLen bytes - 4)) = true →
          exec (.audioContainer l bytes) s = .next (({ s1 with aud.tribRx := inc32 s1.aud.tribRx } : State).annGap
            (beAt ((bytes.drop 6).take (kLen bytes - 4)) 0 2) (annBlock ((bytes.drop 6).take (kLen bytes - 4)))))) ∧
      (∀ p : Fin 2, (s1.roleOf (kRh bytes)).isSome = true → kType bytes = p.val + 2 →
        (s1.aud.down[tribOf p]).any (·.down) = true → tcrcOk bytes = true →
        ((bytes.drop 6).take (kLen bytes - 4)).length = 2 + tpsBytes (s1.tpsNDown p) →
        (s1.tpsPort p).seqIn ≠ some (byteAt ((bytes.drop 6).take (kLen bytes - 4)) 1) →
        ∃ s2 : State, s2 = s1.tpsTake p ((bytes.drop 6).take (kLen bytes - 4)) ∧
          (s.domOn dAUD = true → exec (.tpsContainer l bytes) s = .next s2) ∧
          (s.domOn dAUD = false → exec (.tpsContainer l bytes) s = .next (s2.modTps p fun x => { x with seqIn := none })))) ∧
    (∀ blk, s.aud.slip.blocks.length = 3 → (s.slipWrite blk).aud.slip.blocks = s.aud.slip.blocks.drop 1 ++ [blk] ∧
      (s.slipWrite blk).aud.slipDrop = inc32 s.aud.slipDrop) ∧
    (∀ x rest, s.domOn dAUD = true → s.aud.slip.filling = false → s.aud.slip.blocks = x :: rest →
      ∃ s', exec (.audioBlockBoundary false) s = .next s' ∧ s'.aud.slip.blocks = rest ∧ s'.aud.slip.play = some x ∧
        s'.aud.slipRep = s.aud.slipRep ∧
        ∀ p : Fin 2, (s.port (Fin.ofNat 3 p.val)).cfg.monitor = false → (s'.port (Fin.ofNat 3 p.val)).pos = 0) ∧
    (∀ p a, (s.port p).start = some a → s.domOn dAUD = true →
      exec (.audioStartBoundary p) s = .next ((s.reachTt (s.portTt p a)).startPort p false)) ∧
    (∀ p a, (s.port p).start = none → (s.port p).stop = some a → s.domOn dAUD = true →
      exec (.audioStopBoundary p) s = .next ((s.reachTt (s.portTt p a)).stopPort p).retryAuto) ∧
    (∀ p d, (s.port p).gateBy = some d → exec (.gateTimeout p) s = .next ((s.reach d).gateTimeout p)) ∧
    (∀ apart ppm, (s.domOn dAUD = true → apart = 192 → ppm.natAbs ≤ 1000 →
        exec (.audioInputLock apart ppm) s = .next { s with aud.lock := true }) ∧
      (apart ≠ 192 ∨ 1000 < ppm.natAbs → exec (.audioInputLock apart ppm) s = .next s)) ∧
    (∀ bad ppm ns, (8 ≤ bad ∨ (2000 < ppm.natAbs ∧ 10000000 ≤ ns) →
        exec (.audioInputLoss bad ppm ns) s = .next { s with aud.lock := false }) ∧
      (bad < 8 → (ppm.natAbs ≤ 2000 ∨ ns < 10000000) → exec (.audioInputLoss bad ppm ns) s = .next s)) ∧
    (∀ cs, s.domOn dAUD = true → s.aud.lock = true → ∃ s', exec (.audioInputBlock cs) s = .next s' ∧
      s'.aud.cs = field cs 0 5 ∧ s'.aud.nonPcm = (byteAt cs 0 % 4 != 0)) ∧
    (∀ p : Fin 2, ∀ pair parity invalid, s.domOn dAUD = true → (s.port (Fin.ofNat 3 p.val)).st ≠ .closed →
      exec (.sampleBoundary (Fin.ofNat 3 p.val) pair parity invalid) s = .next (s.outSample p) ∧
      ∃ a b, (s.outSample p).out = s.out ++ [.audio p ((s.port (Fin.ofNat 3 p.val)).frame == 0) a b]) ∧
    (∀ pair parity invalid, s.domOn dAUD = true → s.aud.lock = true →
      exec (.sampleBoundary 2 pair parity invalid) s = .next (s.inPair pair parity invalid)) ∧
    (∀ p : Fin 2, ∀ b : BitVec 3, s.domOn dAUD = true → (s.tpsPort p).open_ = true →
      (s.tpsPort p).rx.length < 4 * s.tpsN p + 64 → exec (.tpsRxdBit p b) s =
        .next (s.modTps p fun x => { x with rx := x.rx ++ [majority b[0] b[1] b[2]] })) ∧
    (∀ (p : Fin 2) b rest, s.domOn dAUD = true → (s.tpsPort p).open_ = true → (s.tpsPort p).txGo = true →
      (s.tpsPort p).tx = b :: rest → ∃ s' k, exec (.tpsTxdBitStart p) s = .next s' ∧ s'.out = s.out ++ [.tps p b k] ∧
        (s'.tpsPort p).tx = rest ∧ 15 ≤ k ∧ k ≤ 17 ∧
        (3 * s.tpsNDown p + 12 < (s.tpsPort p).tx.length → k = 15)) ∧
    (∀ t : Fin 3, s.domOn dFRM = true → s.domOn dPKT = true → exec (.upstreamTribClose (BitVec.ofNat 8 (t.val + 1))) s =
      .next (if t = 0 then (s.tribApply t).closeAudio else (s.tribApply t).closeTpsFrame (Fin.ofNat 2 (t.val - 1))))

/-! ### Invariants -/

/-- The machine right after reset (R93, R413; the memories' fill is log entry 7): no command waits, the wake
of the power-on start runs, every memory is in its canonical form, no tenant session is open, the lifecycle is FACTORY. -/
def Obligations.ResetState : Prop :=
  State.reset.pending = [] ∧ State.reset.MemOk ∧ State.reset.boot.phase = .waking ∧ (∀ t, (State.reset.ten t).st = .detached) ∧
  State.reset.fuses.life = .factory

/-- The lifecycle moves from FACTORY to SEALED to RETIRED and never back (R413): no step of any kind lowers it. -/
def Obligations.LifecycleNeverMovesBack : Prop :=
  ∀ s s' : State, step s = .next s' → s.fuses.life.order ≤ s'.fuses.life.order

/-- `MIN_SVN` is never lowered (R101): no step of any kind lowers it. -/
def Obligations.MinSvnNeverLowered : Prop :=
  ∀ s s' : State, step s = .next s' → s.icb.minSvn ≤ s'.icb.minSvn

/-- Every step keeps every memory of the terminal in its canonical form: the tenant area, the non-volatile store, the
recovery buffer, and the work area of every Firn job (the form itself is the model's, log entry 7). -/
def Obligations.MemoriesStayCanonical : Prop :=
  ∀ s s' : State, s.MemOk → step s = .next s' → s'.MemOk
end

