-- ==== Sys2Proof/Laws/Bytes.lean ====
section
/-!
SUPPORT. Byte strings: lengths, fields of a string put together, and numbers written and read back in both byte orders
(R6, R7).
-/

namespace Sys2Proof.Machine

@[simp] theorem leBytes_length (n v : Nat) : (leBytes n v).length = n := by
  induction n generalizing v with
  | zero => rfl
  | succ n ih => simp [leBytes, ih]

@[simp] theorem beBytes_length (n v : Nat) : (beBytes n v).length = n := by simp [beBytes]

@[simp] theorem top64_length (v : BitVec 128) : (top64 v).length = 8 := by simp [top64]

@[simp] theorem field_length (bs : List Byte) (off n : Nat) : (field bs off n).length = n := by simp [field]

/-- A number written in n bytes reads back modulo 256ⁿ. -/
theorem leNat_leBytes (n v : Nat) : leNat (leBytes n v) = v % 256 ^ n := by
  induction n generalizing v with
  | zero => simp [leBytes, leNat, Nat.mod_one]
  | succ n ih =>
    simp only [leBytes, leNat, ih, BitVec.toNat_ofNat]
    have e : v % 256 ^ (n + 1) = v % 256 + 256 * (v / 256 % 256 ^ n) := by
      rw [Nat.pow_succ', Nat.mod_mul]
    rw [e]

theorem beNat_beBytes (n v : Nat) : beNat (beBytes n v) = v % 256 ^ n := by
  simp [beNat, beBytes, leNat_leBytes]

/-- A field that begins a string. -/
theorem field_append_left (a b : List Byte) : field (a ++ b) 0 a.length = a := by
  apply List.ext_getElem (by simp)
  intro i h1 h2
  simp [field, List.getElem?_append_left h2, List.getElem?_eq_getElem h2]

/-- A field that follows a prefix of known length. -/
theorem field_append_right (a b : List Byte) : field (a ++ b) a.length b.length = b := by
  apply List.ext_getElem (by simp)
  intro i h1 h2
  simp [field, h2]

/-- A field's byte. -/
theorem field_getD (bs : List Byte) (off n i : Nat) (h : i < n) : (field bs off n).getD i 0 = bs.getD (off + i) 0 := by
  simp [field, h]

/-- A flag's number is at most one. -/
theorem b2n_le (b : Bool) : b2n b ≤ 1 := by cases b <;> decide

/-- A saturating count never exceeds its last value, and never falls. -/
theorem satInc_le (top v : Nat) : satInc top v ≤ max top (v + 1) := by
  unfold satInc satTo
  split <;> omega

end Sys2Proof.Machine
end

