-- ==== Sys2Proof/Laws/Memory.lean ====
section
/-!
SUPPORT. The sparse memories: a read after a write, and that every operation that changes a memory keeps its canonical
form (log entry 7), with and without a bound on the addresses.
-/

namespace Sys2Proof.Machine

/-! ### Reads -/

@[simp] theorem Memory.get_nil (a : Nat) : Memory.get [] a = 0 := rfl

theorem Memory.get_cons (k : Nat) (b : Byte) (m : Memory) (a : Nat) :
    Memory.get ((k, b) :: m) a = if k = a then b else Memory.get m a := rfl

@[simp] theorem Memory.getN_length (m : Memory) (a n : Nat) : (m.getN a n).length = n := by
  simp [Memory.getN]

theorem Memory.get_filter (p : Host.Cell → Bool) (m : Memory) (a : Nat) (keep : ∀ c : Host.Cell, c.1 = a → p c = true) :
    Memory.get (m.filter p) a = m.get a := by
  induction m with
  | nil => rfl
  | cons c m ih =>
    obtain ⟨k, b⟩ := c
    by_cases h : p (k, b) = true
    · simp [h, Memory.get_cons, ih]
    · have hk : k ≠ a := fun e => h (keep _ e)
      simp [h, Memory.get_cons, ih, hk]

theorem Memory.get_filter_gone (p : Host.Cell → Bool) (m : Memory) (a : Nat) (gone : ∀ c : Host.Cell, c.1 = a → p c = false) :
    Memory.get (m.filter p) a = 0 := by
  induction m with
  | nil => rfl
  | cons c m ih =>
    obtain ⟨k, b⟩ := c
    by_cases h : p (k, b) = true
    · have hk : k ≠ a := fun e => by simp [gone (k, b) e] at h
      simp [h, Memory.get_cons, ih, hk]
    · simp [h, ih]

theorem Memory.get_insert (m : Memory) (a : Nat) (v : Byte) (x : Nat) (free : ∀ c ∈ m, c.1 ≠ a) :
    Memory.get (m.insert a v) x = if a = x then v else m.get x := by
  induction m with
  | nil => simp [Memory.insert, Memory.get]
  | cons c m ih =>
    obtain ⟨k, b⟩ := c
    have hk : k ≠ a := free (k, b) (by simp)
    unfold Memory.insert
    split
    · simp [Memory.get]
    · simp only [Memory.get, ih fun c hc => free c (by simp [hc])]
      by_cases ha : a = x
      · subst ha; simp [hk]
      · simp [ha]

/-- A read after a write: the byte written at its address, every other byte as before. -/
theorem Memory.get_put (m : Memory) (a : Nat) (v : Byte) (x : Nat) :
    Memory.get (m.put a v) x = if a = x then v else m.get x := by
  unfold Memory.put
  split
  · rename_i hv
    by_cases h : a = x
    · subst h; subst hv
      simp only [if_true]
      exact Memory.get_filter_gone _ _ _ (by intro c hc; simp [hc])
    · rw [if_neg h]
      exact Memory.get_filter _ _ _ (by intro c hc; simp [hc]; omega)
  · rw [Memory.get_insert _ _ _ _ fun c hc => by simpa using (List.mem_filter.1 hc).2]
    by_cases h : a = x
    · simp [h]
    · rw [if_neg h, if_neg h]
      exact Memory.get_filter _ _ _ (by intro c hc; simp [hc]; omega)

/-- A read after a run of writes. -/
theorem Memory.get_putN (m : Memory) (a : Nat) (bs : List Byte) (x : Nat) :
    Memory.get (m.putN a bs) x = if a ≤ x ∧ x < a + bs.length then bs.getD (x - a) 0 else m.get x := by
  induction bs generalizing m a with
  | nil =>
    have h : ¬(a ≤ x ∧ x < a + ([] : List Byte).length) := by simp
    rw [if_neg h]; rfl
  | cons b bs ih =>
    unfold Memory.putN
    rw [ih, Memory.get_put]
    simp only [List.length_cons]
    by_cases h1 : a + 1 ≤ x ∧ x < a + 1 + bs.length
    · have h2 : a ≤ x ∧ x < a + (bs.length + 1) := by omega
      obtain ⟨k, hk⟩ : ∃ k, x - a = k + 1 := ⟨x - a - 1, by omega⟩
      have hk' : x - (a + 1) = k := by omega
      rw [if_pos h1, if_pos h2, hk, hk']
      simp
    · rw [if_neg h1]
      by_cases h2 : a = x
      · subst h2
        simp
      · have h3 : ¬(a ≤ x ∧ x < a + (bs.length + 1)) := by omega
        rw [if_neg h2, if_neg h3]

/-- A read after a clear. -/
theorem Memory.get_clear (m : Memory) (a n x : Nat) :
    Memory.get (m.clear a n) x = if a ≤ x ∧ x < a + n then 0 else m.get x := by
  unfold Memory.clear
  split
  · rename_i h
    exact Memory.get_filter_gone _ _ _ (by intro c hc; simp [hc, h])
  · rename_i h
    exact Memory.get_filter _ _ _ (by intro c hc; simp [hc]; omega)

/-! ### The canonical form -/

theorem Memory.canon_nil : Memory.canon [] := ⟨.nil, by simp⟩

/-- The form with a bound is the form and the bound. -/
theorem Memory.wf_iff (bound : Nat) (m : Memory) : m.wf bound ↔ m.canon ∧ ∀ c ∈ m, c.1 < bound := by
  constructor
  · rintro ⟨h, k⟩
    exact ⟨⟨h, fun c hc => (k c hc).1⟩, fun c hc => (k c hc).2⟩
  · rintro ⟨⟨h, k⟩, b⟩
    exact ⟨h, fun c hc => ⟨k c hc, b c hc⟩⟩

theorem Memory.canon_filter (p : Host.Cell → Bool) {m : Memory} (h : m.canon) : Memory.canon (m.filter p) :=
  ⟨h.1.filter p, fun c hc => h.2 c (List.mem_of_mem_filter hc)⟩

theorem Memory.mem_insert (m : Memory) (a : Nat) (v : Byte) (c : Host.Cell) :
    c ∈ Memory.insert m a v ↔ c = (a, v) ∨ c ∈ m := by
  induction m with
  | nil => simp [Memory.insert]
  | cons d m ih =>
    obtain ⟨k, b⟩ := d
    unfold Memory.insert
    split
    · simp
    · simp only [List.mem_cons, ih]
      tauto

theorem Memory.canon_insert {m : Memory} (h : m.canon) (a : Nat) (v : Byte) (hv : v ≠ 0) (free : ∀ c ∈ m, c.1 ≠ a) :
    (m.insert a v).canon := by
  refine ⟨?_, ?_⟩
  · induction m with
    | nil => simp [Memory.insert]
    | cons d m ih =>
      obtain ⟨k, b⟩ := d
      have hp := List.pairwise_cons.1 h.1
      unfold Memory.insert
      split
      · rename_i hk
        refine List.pairwise_cons.2 ⟨?_, h.1⟩
        intro c hc
        rcases List.mem_cons.1 hc with rfl | hc
        · exact hk
        · exact Nat.lt_trans hk (hp.1 c hc)
      · rename_i hk
        have hka : k ≠ a := free (k, b) (by simp)
        refine List.pairwise_cons.2 ⟨?_, ih ⟨hp.2, fun c hc => h.2 c (by simp [hc])⟩ fun c hc => free c (by simp [hc])⟩
        intro c hc
        rcases (Memory.mem_insert m a v c).1 hc with rfl | hc
        · show k < a
          omega
        · exact hp.1 c hc
  · intro c hc
    rcases (Memory.mem_insert m a v c).1 hc with rfl | hc
    · exact hv
    · exact h.2 c hc

theorem Memory.canon_put {m : Memory} (h : m.canon) (a : Nat) (v : Byte) : (m.put a v).canon := by
  unfold Memory.put
  split
  · exact Memory.canon_filter _ h
  · rename_i hv
    exact Memory.canon_insert (Memory.canon_filter _ h) a v hv fun c hc => by
      simpa using (List.mem_filter.1 hc).2

theorem Memory.canon_putN {m : Memory} (h : m.canon) (a : Nat) (bs : List Byte) : (m.putN a bs).canon := by
  induction bs generalizing m a with
  | nil => exact h
  | cons b bs ih => exact ih (Memory.canon_put h a b) (a + 1)

theorem Memory.canon_clear {m : Memory} (h : m.canon) (a n : Nat) : (m.clear a n).canon := Memory.canon_filter _ h

/-- The tenant area after new partition sizes keeps the form. -/
theorem movedSram_canon {m : Memory} (h : m.canon) (old new : Vector Nat 8) : (movedSram m old new).canon := by
  unfold movedSram
  generalize allTen = us
  induction us generalizing m with
  | nil => exact h
  | cons u us ih =>
    simp only [List.foldl_cons]
    split
    · exact ih (Memory.canon_clear h _ _)
    · exact ih (Memory.canon_clear h _ _)

/-! ### The form with a bound -/

theorem Memory.wf_put {b : Nat} {m : Memory} (h : m.wf b) (a : Nat) (v : Byte) (ha : a < b) : (m.put a v).wf b := by
  obtain ⟨hc, hb⟩ := (Memory.wf_iff b m).1 h
  refine (Memory.wf_iff b _).2 ⟨Memory.canon_put hc a v, ?_⟩
  intro c hm
  unfold Memory.put at hm
  split at hm
  · exact hb c (List.mem_of_mem_filter hm)
  · rcases (Memory.mem_insert _ a v c).1 hm with rfl | hm
    · exact ha
    · exact hb c (List.mem_of_mem_filter hm)

theorem Memory.wf_putN {b : Nat} {m : Memory} (h : m.wf b) (a : Nat) (bs : List Byte) (ha : a + bs.length ≤ b) :
    (m.putN a bs).wf b := by
  induction bs generalizing m a with
  | nil => exact h
  | cons x bs ih =>
    simp only [List.length_cons] at ha
    exact ih (Memory.wf_put h a x (by omega)) (a + 1) (by omega)

theorem Memory.wf_clear {b : Nat} {m : Memory} (h : m.wf b) (a n : Nat) : (m.clear a n).wf b := by
  obtain ⟨hc, hb⟩ := (Memory.wf_iff b m).1 h
  exact (Memory.wf_iff b _).2 ⟨Memory.canon_clear hc a n, fun c hm => hb c (List.mem_of_mem_filter hm)⟩

/-! ### The machine's memories -/

/-- Every memory of the machine right after reset is in its canonical form. -/
theorem State.reset_memOk : State.reset.MemOk :=
  ⟨Memory.canon_nil, Memory.canon_nil, Memory.canon_nil, by simp [State.reset]⟩

/-- Bytes written are the bytes read there. -/
theorem Memory.getN_putN (m : Memory) (a : Nat) (bs : List Byte) : (m.putN a bs).getN a bs.length = bs := by
  apply List.ext_getElem (by simp)
  intro i h1 h2
  simp [Memory.getN, Memory.get_putN, h2]

/-- Bytes written into a partition are the bytes read there. -/
theorem State.partRead_partWrite (s : State) (t : Ten) (off : Nat) (bs : List Byte) :
    (s.partWrite t off bs).partRead t off bs.length = bs := Memory.getN_putN s.sram _ bs

/-- A partition write keeps the form. -/
theorem State.partWrite_memOk {s : State} (h : s.MemOk) (t : Ten) (off : Nat) (bs : List Byte) :
    (s.partWrite t off bs).MemOk :=
  ⟨Memory.canon_putN h.sram _ _, h.ens, h.buf, h.work⟩

end Sys2Proof.Machine
end

