-- ==== Sys2Proof/Laws/Post.lean ====
section
/-!
SUPPORT. What a result does to the state (R124): the tenants' slots, the notices, the idle timer of DUSK, and nothing
else.
-/

namespace Sys2Proof.Machine

/-- The state reached by posting results: tenants, what left the terminal, the upstream messages, the idle timer of
DUSK, and, for a notice frame, the local lanes and the cipher contexts may differ. -/
def State.PostsTo (s s' : State) : Prop :=
  ∃ ten out us dusk locals uses ctx, s' =
    { s with tenants := ten, out := out, us := us, power.idle.dusk := dusk, lanes.locals := locals,
             cip := { s.cip with uses := uses, ctx := ctx } }

theorem State.PostsTo.refl (s : State) : s.PostsTo s :=
  ⟨s.tenants, s.out, s.us, s.power.idle.dusk, s.lanes.locals, s.cip.uses, s.cip.ctx, rfl⟩

theorem State.PostsTo.trans {a b c : State} (h : a.PostsTo b) (k : b.PostsTo c) : a.PostsTo c := by
  obtain ⟨_, _, _, _, _, _, _, rfl⟩ := h
  obtain ⟨t, o, u, d, l, n, c, rfl⟩ := k
  exact ⟨t, o, u, d, l, n, c, rfl⟩

theorem State.PostsTo.foldl {s0 s : State} {α : Type} {f : State → α → State} {l : List α} (h : s0.PostsTo s)
    (hf : ∀ x a, s0.PostsTo x → s0.PostsTo (f x a)) : s0.PostsTo (l.foldl f s) := by
  induction l generalizing s with
  | nil => exact h
  | cons a l ih => exact ih (hf s a h)

theorem State.modTen_posts (s : State) (t : Ten) (f : Tenant → Tenant) : s.PostsTo (s.modTen t f) :=
  ⟨_, s.out, s.us, s.power.idle.dusk, s.lanes.locals, s.cip.uses, s.cip.ctx, rfl⟩

theorem State.modSlot_posts (s : State) (t : Ten) (n : SlotIx) (f : Slot → Slot) : s.PostsTo (s.modSlot t n f) :=
  ⟨_, s.out, s.us, s.power.idle.dusk, s.lanes.locals, s.cip.uses, s.cip.ctx, rfl⟩

theorem State.emit_posts (s : State) (e : Emission) : s.PostsTo (s.emit e) :=
  ⟨s.tenants, _, s.us, s.power.idle.dusk, s.lanes.locals, s.cip.uses, s.cip.ctx, rfl⟩

theorem State.touch_posts (s : State) : s.PostsTo s.touch := ⟨s.tenants, s.out, s.us, _, s.lanes.locals, s.cip.uses, s.cip.ctx, rfl⟩

theorem State.queueLmm_posts (s : State) (type : Byte) (body : List Byte) : s.PostsTo (s.queueLmm type body) := by
  unfold State.queueLmm
  extract_lets u
  split <;> exact ⟨s.tenants, s.out, _, s.power.idle.dusk, s.lanes.locals, s.cip.uses, s.cip.ctx, rfl⟩

theorem State.macOut_posts (s : State) (l : Fin 2) (f : MacFrame) : s.PostsTo (s.macOut l f) :=
  ⟨s.tenants, _, s.us, s.power.idle.dusk, _, s.cip.uses, s.cip.ctx, rfl⟩

theorem State.macSend_posts (s : State) (l : Fin 2) (f : MacFrame) : s.PostsTo (s.macSend l f) := by
  unfold State.macSend
  extract_lets x
  split
  · exact .refl s
  · split
    · exact ⟨s.tenants, s.out, s.us, s.power.idle.dusk, _, s.cip.uses, s.cip.ctx, rfl⟩
    · exact s.macOut_posts l f

theorem State.firmUse_posts (s : State) (e : Fin 32) : s.PostsTo (s.firmUse e) := by
  unfold State.firmUse
  extract_lets n own
  split
  · exact ⟨s.tenants, s.out, s.us, s.power.idle.dusk, s.lanes.locals, _, _, rfl⟩
  · exact .refl s

theorem State.sendNotice_posts (s : State) (t : Ten) : s.PostsTo (s.sendNotice t) := by
  unfold State.sendNotice
  extract_lets x
  split
  · split
    · exact ((State.firmUse_posts _ _).trans (State.macSend_posts _ _ _)).trans (State.modTen_posts _ _ _)
    · exact .refl s
  · split
    · exact (State.queueLmm_posts _ _ _).trans (State.modTen_posts _ _ _)
    · exact .refl s

theorem State.notify_posts (s : State) (t : Ten) : s.PostsTo (s.notify t) := by
  unfold State.notify
  split
  · exact State.sendNotice_posts s t
  · exact .refl s

theorem State.postRaw_posts (s : State) (t : Ten) (n : SlotIx) (st : Half) (data : List Byte) (b : Bool) :
    s.PostsTo (s.postRaw t n st data b) := by
  unfold State.postRaw
  extract_lets s1
  have h : s.PostsTo s1 := (State.modSlot_posts _ _ _ _).trans (State.touch_posts _)
  split
  · exact h
  · exact h.trans (State.notify_posts _ _)

theorem State.post_posts (s : State) (t : Ten) (n : SlotIx) (st : Half) (data : List Byte) (b : Bool) :
    s.PostsTo (s.post t n st data b) := by
  unfold State.post
  refine State.PostsTo.foldl (State.postRaw_posts s t n st data b) fun x m h => ?_
  split
  · exact h.trans (State.postRaw_posts _ _ _ _ _ _)
  · exact h

theorem State.done_posts (s : State) (t : Ten) (n : SlotIx) (st : Half) : s.PostsTo (s.done t n st) :=
  State.post_posts s t n st [] false

theorem State.answer_posts (s : State) (t : Ten) (n : SlotIx) (data : List Byte) : s.PostsTo (s.answer t n data) :=
  State.post_posts s t n _ data false

/-- A command of the mailbox that fails a check posts and does nothing else. -/
theorem State.guard_cases (s : State) (t : Ten) (n : SlotIx) (checks : List (Bool × Half)) (k : State → State) :
    s.PostsTo (s.guard t n checks k) ∨ s.guard t n checks k = k s := by
  unfold State.guard
  split
  · exact .inl (State.done_posts s t n _)
  · exact .inr rfl

/-- A mailbox command in a slot that runs it is its body (log entry 8). -/
theorem commandBy_runs {op : Nat} {t : Ten} {n : SlotIx} {s : State} {body : State → State} (h : s.runs t n op = true) :
    commandBy op t n s body = .next (body s) := by simp [commandBy, h]

/-- A mailbox command in a slot that runs it, its reserved parameter bytes zero, is its body (R8, R525). -/
theorem command_runs {op : Nat} {used : List (Nat × Nat)} {t : Ten} {n : SlotIx} {s : State} {body : State → State}
    (h : s.runs t n op = true) (k : s.stray t n used = false) : command op used t n s body = .next (body s) := by
  simp [command, commandBy, h, k]

/-- Checks of which none fails let the command go on. -/
theorem State.guard_ok {s : State} {t : Ten} {n : SlotIx} {l : List (Bool × Half)} {k : State → State}
    (h : ∀ c ∈ l, c.1 = false) : s.guard t n l k = k s := by
  unfold State.guard
  rw [List.find?_eq_none.2]
  intro c hc
  simp [h c hc]

end Sys2Proof.Machine
end

