-- ==== Sys2Proof/Laws/State.lean ====
section
/-!
SUPPORT. The updates of a state by field: each update leaves every field it does not name, and a read of what it wrote
gives what was written. No proof needs to unfold a record update.
-/

namespace Sys2Proof.Machine

/-! ### Fields an update leaves -/


@[simp] theorem State.emit_pending (s : State) (e : Emission) : (s.emit e).pending = s.pending := rfl
@[simp] theorem State.emit_now (s : State) (e : Emission) : (s.emit e).now = s.now := rfl
@[simp] theorem State.emit_rand (s : State) (e : Emission) : (s.emit e).rand = s.rand := rfl
@[simp] theorem State.emit_free (s : State) (e : Emission) : (s.emit e).free = s.free := rfl
@[simp] theorem State.emit_ao (s : State) (e : Emission) : (s.emit e).ao = s.ao := rfl
@[simp] theorem State.emit_pads (s : State) (e : Emission) : (s.emit e).pads = s.pads := rfl
@[simp] theorem State.emit_tw (s : State) (e : Emission) : (s.emit e).tw = s.tw := rfl
@[simp] theorem State.emit_power (s : State) (e : Emission) : (s.emit e).power = s.power := rfl
@[simp] theorem State.emit_boot (s : State) (e : Emission) : (s.emit e).boot = s.boot := rfl
@[simp] theorem State.emit_icb (s : State) (e : Emission) : (s.emit e).icb = s.icb := rfl
@[simp] theorem State.emit_tenants (s : State) (e : Emission) : (s.emit e).tenants = s.tenants := rfl
@[simp] theorem State.emit_store (s : State) (e : Emission) : (s.emit e).store = s.store := rfl
@[simp] theorem State.emit_mbx (s : State) (e : Emission) : (s.emit e).mbx = s.mbx := rfl
@[simp] theorem State.emit_evt (s : State) (e : Emission) : (s.emit e).evt = s.evt := rfl
@[simp] theorem State.emit_sram (s : State) (e : Emission) : (s.emit e).sram = s.sram := rfl
@[simp] theorem State.emit_time (s : State) (e : Emission) : (s.emit e).time = s.time := rfl
@[simp] theorem State.emit_clk (s : State) (e : Emission) : (s.emit e).clk = s.clk := rfl
@[simp] theorem State.emit_lanes (s : State) (e : Emission) : (s.emit e).lanes = s.lanes := rfl
@[simp] theorem State.emit_fr (s : State) (e : Emission) : (s.emit e).fr = s.fr := rfl
@[simp] theorem State.emit_reg (s : State) (e : Emission) : (s.emit e).reg = s.reg := rfl
@[simp] theorem State.emit_us (s : State) (e : Emission) : (s.emit e).us = s.us := rfl
@[simp] theorem State.emit_pars (s : State) (e : Emission) : (s.emit e).pars = s.pars := rfl
@[simp] theorem State.emit_tm (s : State) (e : Emission) : (s.emit e).tm = s.tm := rfl
@[simp] theorem State.emit_cip (s : State) (e : Emission) : (s.emit e).cip = s.cip := rfl
@[simp] theorem State.emit_keys (s : State) (e : Emission) : (s.emit e).keys = s.keys := rfl
@[simp] theorem State.emit_ens (s : State) (e : Emission) : (s.emit e).ens = s.ens := rfl
@[simp] theorem State.emit_nvm (s : State) (e : Emission) : (s.emit e).nvm = s.nvm := rfl
@[simp] theorem State.emit_sec (s : State) (e : Emission) : (s.emit e).sec = s.sec := rfl
@[simp] theorem State.emit_fuses (s : State) (e : Emission) : (s.emit e).fuses = s.fuses := rfl
@[simp] theorem State.emit_fsec (s : State) (e : Emission) : (s.emit e).fsec = s.fsec := rfl
@[simp] theorem State.emit_firn (s : State) (e : Emission) : (s.emit e).firn = s.firn := rfl
@[simp] theorem State.emit_aud (s : State) (e : Emission) : (s.emit e).aud = s.aud := rfl

@[simp] theorem State.reach_pending (s : State) (at_ : Nat) : (s.reach at_).pending = s.pending := rfl
@[simp] theorem State.reach_rand (s : State) (at_ : Nat) : (s.reach at_).rand = s.rand := rfl
@[simp] theorem State.reach_free (s : State) (at_ : Nat) : (s.reach at_).free = s.free := rfl
@[simp] theorem State.reach_out (s : State) (at_ : Nat) : (s.reach at_).out = s.out := rfl
@[simp] theorem State.reach_ao (s : State) (at_ : Nat) : (s.reach at_).ao = s.ao := rfl
@[simp] theorem State.reach_pads (s : State) (at_ : Nat) : (s.reach at_).pads = s.pads := rfl
@[simp] theorem State.reach_tw (s : State) (at_ : Nat) : (s.reach at_).tw = s.tw := rfl
@[simp] theorem State.reach_power (s : State) (at_ : Nat) : (s.reach at_).power = s.power := rfl
@[simp] theorem State.reach_boot (s : State) (at_ : Nat) : (s.reach at_).boot = s.boot := rfl
@[simp] theorem State.reach_icb (s : State) (at_ : Nat) : (s.reach at_).icb = s.icb := rfl
@[simp] theorem State.reach_tenants (s : State) (at_ : Nat) : (s.reach at_).tenants = s.tenants := rfl
@[simp] theorem State.reach_store (s : State) (at_ : Nat) : (s.reach at_).store = s.store := rfl
@[simp] theorem State.reach_mbx (s : State) (at_ : Nat) : (s.reach at_).mbx = s.mbx := rfl
@[simp] theorem State.reach_evt (s : State) (at_ : Nat) : (s.reach at_).evt = s.evt := rfl
@[simp] theorem State.reach_sram (s : State) (at_ : Nat) : (s.reach at_).sram = s.sram := rfl
@[simp] theorem State.reach_time (s : State) (at_ : Nat) : (s.reach at_).time = s.time := rfl
@[simp] theorem State.reach_clk (s : State) (at_ : Nat) : (s.reach at_).clk = s.clk := rfl
@[simp] theorem State.reach_lanes (s : State) (at_ : Nat) : (s.reach at_).lanes = s.lanes := rfl
@[simp] theorem State.reach_fr (s : State) (at_ : Nat) : (s.reach at_).fr = s.fr := rfl
@[simp] theorem State.reach_reg (s : State) (at_ : Nat) : (s.reach at_).reg = s.reg := rfl
@[simp] theorem State.reach_us (s : State) (at_ : Nat) : (s.reach at_).us = s.us := rfl
@[simp] theorem State.reach_pars (s : State) (at_ : Nat) : (s.reach at_).pars = s.pars := rfl
@[simp] theorem State.reach_tm (s : State) (at_ : Nat) : (s.reach at_).tm = s.tm := rfl
@[simp] theorem State.reach_cip (s : State) (at_ : Nat) : (s.reach at_).cip = s.cip := rfl
@[simp] theorem State.reach_keys (s : State) (at_ : Nat) : (s.reach at_).keys = s.keys := rfl
@[simp] theorem State.reach_ens (s : State) (at_ : Nat) : (s.reach at_).ens = s.ens := rfl
@[simp] theorem State.reach_nvm (s : State) (at_ : Nat) : (s.reach at_).nvm = s.nvm := rfl
@[simp] theorem State.reach_sec (s : State) (at_ : Nat) : (s.reach at_).sec = s.sec := rfl
@[simp] theorem State.reach_fuses (s : State) (at_ : Nat) : (s.reach at_).fuses = s.fuses := rfl
@[simp] theorem State.reach_fsec (s : State) (at_ : Nat) : (s.reach at_).fsec = s.fsec := rfl
@[simp] theorem State.reach_firn (s : State) (at_ : Nat) : (s.reach at_).firn = s.firn := rfl
@[simp] theorem State.reach_aud (s : State) (at_ : Nat) : (s.reach at_).aud = s.aud := rfl

@[simp] theorem State.drawn_pending (s : State) : (s.drawn).pending = s.pending := rfl
@[simp] theorem State.drawn_now (s : State) : (s.drawn).now = s.now := rfl
@[simp] theorem State.drawn_free (s : State) : (s.drawn).free = s.free := rfl
@[simp] theorem State.drawn_out (s : State) : (s.drawn).out = s.out := rfl
@[simp] theorem State.drawn_ao (s : State) : (s.drawn).ao = s.ao := rfl
@[simp] theorem State.drawn_pads (s : State) : (s.drawn).pads = s.pads := rfl
@[simp] theorem State.drawn_tw (s : State) : (s.drawn).tw = s.tw := rfl
@[simp] theorem State.drawn_power (s : State) : (s.drawn).power = s.power := rfl
@[simp] theorem State.drawn_boot (s : State) : (s.drawn).boot = s.boot := rfl
@[simp] theorem State.drawn_icb (s : State) : (s.drawn).icb = s.icb := rfl
@[simp] theorem State.drawn_tenants (s : State) : (s.drawn).tenants = s.tenants := rfl
@[simp] theorem State.drawn_store (s : State) : (s.drawn).store = s.store := rfl
@[simp] theorem State.drawn_mbx (s : State) : (s.drawn).mbx = s.mbx := rfl
@[simp] theorem State.drawn_evt (s : State) : (s.drawn).evt = s.evt := rfl
@[simp] theorem State.drawn_sram (s : State) : (s.drawn).sram = s.sram := rfl
@[simp] theorem State.drawn_time (s : State) : (s.drawn).time = s.time := rfl
@[simp] theorem State.drawn_clk (s : State) : (s.drawn).clk = s.clk := rfl
@[simp] theorem State.drawn_lanes (s : State) : (s.drawn).lanes = s.lanes := rfl
@[simp] theorem State.drawn_fr (s : State) : (s.drawn).fr = s.fr := rfl
@[simp] theorem State.drawn_reg (s : State) : (s.drawn).reg = s.reg := rfl
@[simp] theorem State.drawn_us (s : State) : (s.drawn).us = s.us := rfl
@[simp] theorem State.drawn_pars (s : State) : (s.drawn).pars = s.pars := rfl
@[simp] theorem State.drawn_tm (s : State) : (s.drawn).tm = s.tm := rfl
@[simp] theorem State.drawn_cip (s : State) : (s.drawn).cip = s.cip := rfl
@[simp] theorem State.drawn_keys (s : State) : (s.drawn).keys = s.keys := rfl
@[simp] theorem State.drawn_ens (s : State) : (s.drawn).ens = s.ens := rfl
@[simp] theorem State.drawn_nvm (s : State) : (s.drawn).nvm = s.nvm := rfl
@[simp] theorem State.drawn_sec (s : State) : (s.drawn).sec = s.sec := rfl
@[simp] theorem State.drawn_fuses (s : State) : (s.drawn).fuses = s.fuses := rfl
@[simp] theorem State.drawn_fsec (s : State) : (s.drawn).fsec = s.fsec := rfl
@[simp] theorem State.drawn_firn (s : State) : (s.drawn).firn = s.firn := rfl
@[simp] theorem State.drawn_aud (s : State) : (s.drawn).aud = s.aud := rfl

@[simp] theorem State.freed_pending (s : State) : (s.freed).pending = s.pending := rfl
@[simp] theorem State.freed_now (s : State) : (s.freed).now = s.now := rfl
@[simp] theorem State.freed_rand (s : State) : (s.freed).rand = s.rand := rfl
@[simp] theorem State.freed_out (s : State) : (s.freed).out = s.out := rfl
@[simp] theorem State.freed_ao (s : State) : (s.freed).ao = s.ao := rfl
@[simp] theorem State.freed_pads (s : State) : (s.freed).pads = s.pads := rfl
@[simp] theorem State.freed_tw (s : State) : (s.freed).tw = s.tw := rfl
@[simp] theorem State.freed_power (s : State) : (s.freed).power = s.power := rfl
@[simp] theorem State.freed_boot (s : State) : (s.freed).boot = s.boot := rfl
@[simp] theorem State.freed_icb (s : State) : (s.freed).icb = s.icb := rfl
@[simp] theorem State.freed_tenants (s : State) : (s.freed).tenants = s.tenants := rfl
@[simp] theorem State.freed_store (s : State) : (s.freed).store = s.store := rfl
@[simp] theorem State.freed_mbx (s : State) : (s.freed).mbx = s.mbx := rfl
@[simp] theorem State.freed_evt (s : State) : (s.freed).evt = s.evt := rfl
@[simp] theorem State.freed_sram (s : State) : (s.freed).sram = s.sram := rfl
@[simp] theorem State.freed_time (s : State) : (s.freed).time = s.time := rfl
@[simp] theorem State.freed_clk (s : State) : (s.freed).clk = s.clk := rfl
@[simp] theorem State.freed_lanes (s : State) : (s.freed).lanes = s.lanes := rfl
@[simp] theorem State.freed_fr (s : State) : (s.freed).fr = s.fr := rfl
@[simp] theorem State.freed_reg (s : State) : (s.freed).reg = s.reg := rfl
@[simp] theorem State.freed_us (s : State) : (s.freed).us = s.us := rfl
@[simp] theorem State.freed_pars (s : State) : (s.freed).pars = s.pars := rfl
@[simp] theorem State.freed_tm (s : State) : (s.freed).tm = s.tm := rfl
@[simp] theorem State.freed_cip (s : State) : (s.freed).cip = s.cip := rfl
@[simp] theorem State.freed_keys (s : State) : (s.freed).keys = s.keys := rfl
@[simp] theorem State.freed_ens (s : State) : (s.freed).ens = s.ens := rfl
@[simp] theorem State.freed_nvm (s : State) : (s.freed).nvm = s.nvm := rfl
@[simp] theorem State.freed_sec (s : State) : (s.freed).sec = s.sec := rfl
@[simp] theorem State.freed_fuses (s : State) : (s.freed).fuses = s.fuses := rfl
@[simp] theorem State.freed_fsec (s : State) : (s.freed).fsec = s.fsec := rfl
@[simp] theorem State.freed_firn (s : State) : (s.freed).firn = s.firn := rfl
@[simp] theorem State.freed_aud (s : State) : (s.freed).aud = s.aud := rfl

@[simp] theorem State.setTen_pending (s : State) (t : Ten) (x : Tenant) : (s.setTen t x).pending = s.pending := rfl
@[simp] theorem State.setTen_now (s : State) (t : Ten) (x : Tenant) : (s.setTen t x).now = s.now := rfl
@[simp] theorem State.setTen_rand (s : State) (t : Ten) (x : Tenant) : (s.setTen t x).rand = s.rand := rfl
@[simp] theorem State.setTen_free (s : State) (t : Ten) (x : Tenant) : (s.setTen t x).free = s.free := rfl
@[simp] theorem State.setTen_out (s : State) (t : Ten) (x : Tenant) : (s.setTen t x).out = s.out := rfl
@[simp] theorem State.setTen_ao (s : State) (t : Ten) (x : Tenant) : (s.setTen t x).ao = s.ao := rfl
@[simp] theorem State.setTen_pads (s : State) (t : Ten) (x : Tenant) : (s.setTen t x).pads = s.pads := rfl
@[simp] theorem State.setTen_tw (s : State) (t : Ten) (x : Tenant) : (s.setTen t x).tw = s.tw := rfl
@[simp] theorem State.setTen_power (s : State) (t : Ten) (x : Tenant) : (s.setTen t x).power = s.power := rfl
@[simp] theorem State.setTen_boot (s : State) (t : Ten) (x : Tenant) : (s.setTen t x).boot = s.boot := rfl
@[simp] theorem State.setTen_icb (s : State) (t : Ten) (x : Tenant) : (s.setTen t x).icb = s.icb := rfl
@[simp] theorem State.setTen_store (s : State) (t : Ten) (x : Tenant) : (s.setTen t x).store = s.store := rfl
@[simp] theorem State.setTen_mbx (s : State) (t : Ten) (x : Tenant) : (s.setTen t x).mbx = s.mbx := rfl
@[simp] theorem State.setTen_evt (s : State) (t : Ten) (x : Tenant) : (s.setTen t x).evt = s.evt := rfl
@[simp] theorem State.setTen_sram (s : State) (t : Ten) (x : Tenant) : (s.setTen t x).sram = s.sram := rfl
@[simp] theorem State.setTen_time (s : State) (t : Ten) (x : Tenant) : (s.setTen t x).time = s.time := rfl
@[simp] theorem State.setTen_clk (s : State) (t : Ten) (x : Tenant) : (s.setTen t x).clk = s.clk := rfl
@[simp] theorem State.setTen_lanes (s : State) (t : Ten) (x : Tenant) : (s.setTen t x).lanes = s.lanes := rfl
@[simp] theorem State.setTen_fr (s : State) (t : Ten) (x : Tenant) : (s.setTen t x).fr = s.fr := rfl
@[simp] theorem State.setTen_reg (s : State) (t : Ten) (x : Tenant) : (s.setTen t x).reg = s.reg := rfl
@[simp] theorem State.setTen_us (s : State) (t : Ten) (x : Tenant) : (s.setTen t x).us = s.us := rfl
@[simp] theorem State.setTen_pars (s : State) (t : Ten) (x : Tenant) : (s.setTen t x).pars = s.pars := rfl
@[simp] theorem State.setTen_tm (s : State) (t : Ten) (x : Tenant) : (s.setTen t x).tm = s.tm := rfl
@[simp] theorem State.setTen_cip (s : State) (t : Ten) (x : Tenant) : (s.setTen t x).cip = s.cip := rfl
@[simp] theorem State.setTen_keys (s : State) (t : Ten) (x : Tenant) : (s.setTen t x).keys = s.keys := rfl
@[simp] theorem State.setTen_ens (s : State) (t : Ten) (x : Tenant) : (s.setTen t x).ens = s.ens := rfl
@[simp] theorem State.setTen_nvm (s : State) (t : Ten) (x : Tenant) : (s.setTen t x).nvm = s.nvm := rfl
@[simp] theorem State.setTen_sec (s : State) (t : Ten) (x : Tenant) : (s.setTen t x).sec = s.sec := rfl
@[simp] theorem State.setTen_fuses (s : State) (t : Ten) (x : Tenant) : (s.setTen t x).fuses = s.fuses := rfl
@[simp] theorem State.setTen_fsec (s : State) (t : Ten) (x : Tenant) : (s.setTen t x).fsec = s.fsec := rfl
@[simp] theorem State.setTen_firn (s : State) (t : Ten) (x : Tenant) : (s.setTen t x).firn = s.firn := rfl
@[simp] theorem State.setTen_aud (s : State) (t : Ten) (x : Tenant) : (s.setTen t x).aud = s.aud := rfl

@[simp] theorem State.modTen_pending (s : State) (t : Ten) (f : Tenant → Tenant) : (s.modTen t f).pending = s.pending := rfl
@[simp] theorem State.modTen_now (s : State) (t : Ten) (f : Tenant → Tenant) : (s.modTen t f).now = s.now := rfl
@[simp] theorem State.modTen_rand (s : State) (t : Ten) (f : Tenant → Tenant) : (s.modTen t f).rand = s.rand := rfl
@[simp] theorem State.modTen_free (s : State) (t : Ten) (f : Tenant → Tenant) : (s.modTen t f).free = s.free := rfl
@[simp] theorem State.modTen_out (s : State) (t : Ten) (f : Tenant → Tenant) : (s.modTen t f).out = s.out := rfl
@[simp] theorem State.modTen_ao (s : State) (t : Ten) (f : Tenant → Tenant) : (s.modTen t f).ao = s.ao := rfl
@[simp] theorem State.modTen_pads (s : State) (t : Ten) (f : Tenant → Tenant) : (s.modTen t f).pads = s.pads := rfl
@[simp] theorem State.modTen_tw (s : State) (t : Ten) (f : Tenant → Tenant) : (s.modTen t f).tw = s.tw := rfl
@[simp] theorem State.modTen_power (s : State) (t : Ten) (f : Tenant → Tenant) : (s.modTen t f).power = s.power := rfl
@[simp] theorem State.modTen_boot (s : State) (t : Ten) (f : Tenant → Tenant) : (s.modTen t f).boot = s.boot := rfl
@[simp] theorem State.modTen_icb (s : State) (t : Ten) (f : Tenant → Tenant) : (s.modTen t f).icb = s.icb := rfl
@[simp] theorem State.modTen_store (s : State) (t : Ten) (f : Tenant → Tenant) : (s.modTen t f).store = s.store := rfl
@[simp] theorem State.modTen_mbx (s : State) (t : Ten) (f : Tenant → Tenant) : (s.modTen t f).mbx = s.mbx := rfl
@[simp] theorem State.modTen_evt (s : State) (t : Ten) (f : Tenant → Tenant) : (s.modTen t f).evt = s.evt := rfl
@[simp] theorem State.modTen_sram (s : State) (t : Ten) (f : Tenant → Tenant) : (s.modTen t f).sram = s.sram := rfl
@[simp] theorem State.modTen_time (s : State) (t : Ten) (f : Tenant → Tenant) : (s.modTen t f).time = s.time := rfl
@[simp] theorem State.modTen_clk (s : State) (t : Ten) (f : Tenant → Tenant) : (s.modTen t f).clk = s.clk := rfl
@[simp] theorem State.modTen_lanes (s : State) (t : Ten) (f : Tenant → Tenant) : (s.modTen t f).lanes = s.lanes := rfl
@[simp] theorem State.modTen_fr (s : State) (t : Ten) (f : Tenant → Tenant) : (s.modTen t f).fr = s.fr := rfl
@[simp] theorem State.modTen_reg (s : State) (t : Ten) (f : Tenant → Tenant) : (s.modTen t f).reg = s.reg := rfl
@[simp] theorem State.modTen_us (s : State) (t : Ten) (f : Tenant → Tenant) : (s.modTen t f).us = s.us := rfl
@[simp] theorem State.modTen_pars (s : State) (t : Ten) (f : Tenant → Tenant) : (s.modTen t f).pars = s.pars := rfl
@[simp] theorem State.modTen_tm (s : State) (t : Ten) (f : Tenant → Tenant) : (s.modTen t f).tm = s.tm := rfl
@[simp] theorem State.modTen_cip (s : State) (t : Ten) (f : Tenant → Tenant) : (s.modTen t f).cip = s.cip := rfl
@[simp] theorem State.modTen_keys (s : State) (t : Ten) (f : Tenant → Tenant) : (s.modTen t f).keys = s.keys := rfl
@[simp] theorem State.modTen_ens (s : State) (t : Ten) (f : Tenant → Tenant) : (s.modTen t f).ens = s.ens := rfl
@[simp] theorem State.modTen_nvm (s : State) (t : Ten) (f : Tenant → Tenant) : (s.modTen t f).nvm = s.nvm := rfl
@[simp] theorem State.modTen_sec (s : State) (t : Ten) (f : Tenant → Tenant) : (s.modTen t f).sec = s.sec := rfl
@[simp] theorem State.modTen_fuses (s : State) (t : Ten) (f : Tenant → Tenant) : (s.modTen t f).fuses = s.fuses := rfl
@[simp] theorem State.modTen_fsec (s : State) (t : Ten) (f : Tenant → Tenant) : (s.modTen t f).fsec = s.fsec := rfl
@[simp] theorem State.modTen_firn (s : State) (t : Ten) (f : Tenant → Tenant) : (s.modTen t f).firn = s.firn := rfl
@[simp] theorem State.modTen_aud (s : State) (t : Ten) (f : Tenant → Tenant) : (s.modTen t f).aud = s.aud := rfl

@[simp] theorem State.setSlot_pending (s : State) (t : Ten) (n : SlotIx) (y : Slot) : (s.setSlot t n y).pending = s.pending := rfl
@[simp] theorem State.setSlot_now (s : State) (t : Ten) (n : SlotIx) (y : Slot) : (s.setSlot t n y).now = s.now := rfl
@[simp] theorem State.setSlot_rand (s : State) (t : Ten) (n : SlotIx) (y : Slot) : (s.setSlot t n y).rand = s.rand := rfl
@[simp] theorem State.setSlot_free (s : State) (t : Ten) (n : SlotIx) (y : Slot) : (s.setSlot t n y).free = s.free := rfl
@[simp] theorem State.setSlot_out (s : State) (t : Ten) (n : SlotIx) (y : Slot) : (s.setSlot t n y).out = s.out := rfl
@[simp] theorem State.setSlot_ao (s : State) (t : Ten) (n : SlotIx) (y : Slot) : (s.setSlot t n y).ao = s.ao := rfl
@[simp] theorem State.setSlot_pads (s : State) (t : Ten) (n : SlotIx) (y : Slot) : (s.setSlot t n y).pads = s.pads := rfl
@[simp] theorem State.setSlot_tw (s : State) (t : Ten) (n : SlotIx) (y : Slot) : (s.setSlot t n y).tw = s.tw := rfl
@[simp] theorem State.setSlot_power (s : State) (t : Ten) (n : SlotIx) (y : Slot) : (s.setSlot t n y).power = s.power := rfl
@[simp] theorem State.setSlot_boot (s : State) (t : Ten) (n : SlotIx) (y : Slot) : (s.setSlot t n y).boot = s.boot := rfl
@[simp] theorem State.setSlot_icb (s : State) (t : Ten) (n : SlotIx) (y : Slot) : (s.setSlot t n y).icb = s.icb := rfl
@[simp] theorem State.setSlot_store (s : State) (t : Ten) (n : SlotIx) (y : Slot) : (s.setSlot t n y).store = s.store := rfl
@[simp] theorem State.setSlot_mbx (s : State) (t : Ten) (n : SlotIx) (y : Slot) : (s.setSlot t n y).mbx = s.mbx := rfl
@[simp] theorem State.setSlot_evt (s : State) (t : Ten) (n : SlotIx) (y : Slot) : (s.setSlot t n y).evt = s.evt := rfl
@[simp] theorem State.setSlot_sram (s : State) (t : Ten) (n : SlotIx) (y : Slot) : (s.setSlot t n y).sram = s.sram := rfl
@[simp] theorem State.setSlot_time (s : State) (t : Ten) (n : SlotIx) (y : Slot) : (s.setSlot t n y).time = s.time := rfl
@[simp] theorem State.setSlot_clk (s : State) (t : Ten) (n : SlotIx) (y : Slot) : (s.setSlot t n y).clk = s.clk := rfl
@[simp] theorem State.setSlot_lanes (s : State) (t : Ten) (n : SlotIx) (y : Slot) : (s.setSlot t n y).lanes = s.lanes := rfl
@[simp] theorem State.setSlot_fr (s : State) (t : Ten) (n : SlotIx) (y : Slot) : (s.setSlot t n y).fr = s.fr := rfl
@[simp] theorem State.setSlot_reg (s : State) (t : Ten) (n : SlotIx) (y : Slot) : (s.setSlot t n y).reg = s.reg := rfl
@[simp] theorem State.setSlot_us (s : State) (t : Ten) (n : SlotIx) (y : Slot) : (s.setSlot t n y).us = s.us := rfl
@[simp] theorem State.setSlot_pars (s : State) (t : Ten) (n : SlotIx) (y : Slot) : (s.setSlot t n y).pars = s.pars := rfl
@[simp] theorem State.setSlot_tm (s : State) (t : Ten) (n : SlotIx) (y : Slot) : (s.setSlot t n y).tm = s.tm := rfl
@[simp] theorem State.setSlot_cip (s : State) (t : Ten) (n : SlotIx) (y : Slot) : (s.setSlot t n y).cip = s.cip := rfl
@[simp] theorem State.setSlot_keys (s : State) (t : Ten) (n : SlotIx) (y : Slot) : (s.setSlot t n y).keys = s.keys := rfl
@[simp] theorem State.setSlot_ens (s : State) (t : Ten) (n : SlotIx) (y : Slot) : (s.setSlot t n y).ens = s.ens := rfl
@[simp] theorem State.setSlot_nvm (s : State) (t : Ten) (n : SlotIx) (y : Slot) : (s.setSlot t n y).nvm = s.nvm := rfl
@[simp] theorem State.setSlot_sec (s : State) (t : Ten) (n : SlotIx) (y : Slot) : (s.setSlot t n y).sec = s.sec := rfl
@[simp] theorem State.setSlot_fuses (s : State) (t : Ten) (n : SlotIx) (y : Slot) : (s.setSlot t n y).fuses = s.fuses := rfl
@[simp] theorem State.setSlot_fsec (s : State) (t : Ten) (n : SlotIx) (y : Slot) : (s.setSlot t n y).fsec = s.fsec := rfl
@[simp] theorem State.setSlot_firn (s : State) (t : Ten) (n : SlotIx) (y : Slot) : (s.setSlot t n y).firn = s.firn := rfl
@[simp] theorem State.setSlot_aud (s : State) (t : Ten) (n : SlotIx) (y : Slot) : (s.setSlot t n y).aud = s.aud := rfl

@[simp] theorem State.modSlot_pending (s : State) (t : Ten) (n : SlotIx) (f : Slot → Slot) : (s.modSlot t n f).pending = s.pending := rfl
@[simp] theorem State.modSlot_now (s : State) (t : Ten) (n : SlotIx) (f : Slot → Slot) : (s.modSlot t n f).now = s.now := rfl
@[simp] theorem State.modSlot_rand (s : State) (t : Ten) (n : SlotIx) (f : Slot → Slot) : (s.modSlot t n f).rand = s.rand := rfl
@[simp] theorem State.modSlot_free (s : State) (t : Ten) (n : SlotIx) (f : Slot → Slot) : (s.modSlot t n f).free = s.free := rfl
@[simp] theorem State.modSlot_out (s : State) (t : Ten) (n : SlotIx) (f : Slot → Slot) : (s.modSlot t n f).out = s.out := rfl
@[simp] theorem State.modSlot_ao (s : State) (t : Ten) (n : SlotIx) (f : Slot → Slot) : (s.modSlot t n f).ao = s.ao := rfl
@[simp] theorem State.modSlot_pads (s : State) (t : Ten) (n : SlotIx) (f : Slot → Slot) : (s.modSlot t n f).pads = s.pads := rfl
@[simp] theorem State.modSlot_tw (s : State) (t : Ten) (n : SlotIx) (f : Slot → Slot) : (s.modSlot t n f).tw = s.tw := rfl
@[simp] theorem State.modSlot_power (s : State) (t : Ten) (n : SlotIx) (f : Slot → Slot) : (s.modSlot t n f).power = s.power := rfl
@[simp] theorem State.modSlot_boot (s : State) (t : Ten) (n : SlotIx) (f : Slot → Slot) : (s.modSlot t n f).boot = s.boot := rfl
@[simp] theorem State.modSlot_icb (s : State) (t : Ten) (n : SlotIx) (f : Slot → Slot) : (s.modSlot t n f).icb = s.icb := rfl
@[simp] theorem State.modSlot_store (s : State) (t : Ten) (n : SlotIx) (f : Slot → Slot) : (s.modSlot t n f).store = s.store := rfl
@[simp] theorem State.modSlot_mbx (s : State) (t : Ten) (n : SlotIx) (f : Slot → Slot) : (s.modSlot t n f).mbx = s.mbx := rfl
@[simp] theorem State.modSlot_evt (s : State) (t : Ten) (n : SlotIx) (f : Slot → Slot) : (s.modSlot t n f).evt = s.evt := rfl
@[simp] theorem State.modSlot_sram (s : State) (t : Ten) (n : SlotIx) (f : Slot → Slot) : (s.modSlot t n f).sram = s.sram := rfl
@[simp] theorem State.modSlot_time (s : State) (t : Ten) (n : SlotIx) (f : Slot → Slot) : (s.modSlot t n f).time = s.time := rfl
@[simp] theorem State.modSlot_clk (s : State) (t : Ten) (n : SlotIx) (f : Slot → Slot) : (s.modSlot t n f).clk = s.clk := rfl
@[simp] theorem State.modSlot_lanes (s : State) (t : Ten) (n : SlotIx) (f : Slot → Slot) : (s.modSlot t n f).lanes = s.lanes := rfl
@[simp] theorem State.modSlot_fr (s : State) (t : Ten) (n : SlotIx) (f : Slot → Slot) : (s.modSlot t n f).fr = s.fr := rfl
@[simp] theorem State.modSlot_reg (s : State) (t : Ten) (n : SlotIx) (f : Slot → Slot) : (s.modSlot t n f).reg = s.reg := rfl
@[simp] theorem State.modSlot_us (s : State) (t : Ten) (n : SlotIx) (f : Slot → Slot) : (s.modSlot t n f).us = s.us := rfl
@[simp] theorem State.modSlot_pars (s : State) (t : Ten) (n : SlotIx) (f : Slot → Slot) : (s.modSlot t n f).pars = s.pars := rfl
@[simp] theorem State.modSlot_tm (s : State) (t : Ten) (n : SlotIx) (f : Slot → Slot) : (s.modSlot t n f).tm = s.tm := rfl
@[simp] theorem State.modSlot_cip (s : State) (t : Ten) (n : SlotIx) (f : Slot → Slot) : (s.modSlot t n f).cip = s.cip := rfl
@[simp] theorem State.modSlot_keys (s : State) (t : Ten) (n : SlotIx) (f : Slot → Slot) : (s.modSlot t n f).keys = s.keys := rfl
@[simp] theorem State.modSlot_ens (s : State) (t : Ten) (n : SlotIx) (f : Slot → Slot) : (s.modSlot t n f).ens = s.ens := rfl
@[simp] theorem State.modSlot_nvm (s : State) (t : Ten) (n : SlotIx) (f : Slot → Slot) : (s.modSlot t n f).nvm = s.nvm := rfl
@[simp] theorem State.modSlot_sec (s : State) (t : Ten) (n : SlotIx) (f : Slot → Slot) : (s.modSlot t n f).sec = s.sec := rfl
@[simp] theorem State.modSlot_fuses (s : State) (t : Ten) (n : SlotIx) (f : Slot → Slot) : (s.modSlot t n f).fuses = s.fuses := rfl
@[simp] theorem State.modSlot_fsec (s : State) (t : Ten) (n : SlotIx) (f : Slot → Slot) : (s.modSlot t n f).fsec = s.fsec := rfl
@[simp] theorem State.modSlot_firn (s : State) (t : Ten) (n : SlotIx) (f : Slot → Slot) : (s.modSlot t n f).firn = s.firn := rfl
@[simp] theorem State.modSlot_aud (s : State) (t : Ten) (n : SlotIx) (f : Slot → Slot) : (s.modSlot t n f).aud = s.aud := rfl

@[simp] theorem State.partWrite_pending (s : State) (t : Ten) (off : Nat) (bs : List Byte) : (s.partWrite t off bs).pending = s.pending := rfl
@[simp] theorem State.partWrite_now (s : State) (t : Ten) (off : Nat) (bs : List Byte) : (s.partWrite t off bs).now = s.now := rfl
@[simp] theorem State.partWrite_rand (s : State) (t : Ten) (off : Nat) (bs : List Byte) : (s.partWrite t off bs).rand = s.rand := rfl
@[simp] theorem State.partWrite_free (s : State) (t : Ten) (off : Nat) (bs : List Byte) : (s.partWrite t off bs).free = s.free := rfl
@[simp] theorem State.partWrite_out (s : State) (t : Ten) (off : Nat) (bs : List Byte) : (s.partWrite t off bs).out = s.out := rfl
@[simp] theorem State.partWrite_ao (s : State) (t : Ten) (off : Nat) (bs : List Byte) : (s.partWrite t off bs).ao = s.ao := rfl
@[simp] theorem State.partWrite_pads (s : State) (t : Ten) (off : Nat) (bs : List Byte) : (s.partWrite t off bs).pads = s.pads := rfl
@[simp] theorem State.partWrite_tw (s : State) (t : Ten) (off : Nat) (bs : List Byte) : (s.partWrite t off bs).tw = s.tw := rfl
@[simp] theorem State.partWrite_power (s : State) (t : Ten) (off : Nat) (bs : List Byte) : (s.partWrite t off bs).power = s.power := rfl
@[simp] theorem State.partWrite_boot (s : State) (t : Ten) (off : Nat) (bs : List Byte) : (s.partWrite t off bs).boot = s.boot := rfl
@[simp] theorem State.partWrite_icb (s : State) (t : Ten) (off : Nat) (bs : List Byte) : (s.partWrite t off bs).icb = s.icb := rfl
@[simp] theorem State.partWrite_tenants (s : State) (t : Ten) (off : Nat) (bs : List Byte) : (s.partWrite t off bs).tenants = s.tenants := rfl
@[simp] theorem State.partWrite_store (s : State) (t : Ten) (off : Nat) (bs : List Byte) : (s.partWrite t off bs).store = s.store := rfl
@[simp] theorem State.partWrite_mbx (s : State) (t : Ten) (off : Nat) (bs : List Byte) : (s.partWrite t off bs).mbx = s.mbx := rfl
@[simp] theorem State.partWrite_evt (s : State) (t : Ten) (off : Nat) (bs : List Byte) : (s.partWrite t off bs).evt = s.evt := rfl
@[simp] theorem State.partWrite_time (s : State) (t : Ten) (off : Nat) (bs : List Byte) : (s.partWrite t off bs).time = s.time := rfl
@[simp] theorem State.partWrite_clk (s : State) (t : Ten) (off : Nat) (bs : List Byte) : (s.partWrite t off bs).clk = s.clk := rfl
@[simp] theorem State.partWrite_lanes (s : State) (t : Ten) (off : Nat) (bs : List Byte) : (s.partWrite t off bs).lanes = s.lanes := rfl
@[simp] theorem State.partWrite_fr (s : State) (t : Ten) (off : Nat) (bs : List Byte) : (s.partWrite t off bs).fr = s.fr := rfl
@[simp] theorem State.partWrite_reg (s : State) (t : Ten) (off : Nat) (bs : List Byte) : (s.partWrite t off bs).reg = s.reg := rfl
@[simp] theorem State.partWrite_us (s : State) (t : Ten) (off : Nat) (bs : List Byte) : (s.partWrite t off bs).us = s.us := rfl
@[simp] theorem State.partWrite_pars (s : State) (t : Ten) (off : Nat) (bs : List Byte) : (s.partWrite t off bs).pars = s.pars := rfl
@[simp] theorem State.partWrite_tm (s : State) (t : Ten) (off : Nat) (bs : List Byte) : (s.partWrite t off bs).tm = s.tm := rfl
@[simp] theorem State.partWrite_cip (s : State) (t : Ten) (off : Nat) (bs : List Byte) : (s.partWrite t off bs).cip = s.cip := rfl
@[simp] theorem State.partWrite_keys (s : State) (t : Ten) (off : Nat) (bs : List Byte) : (s.partWrite t off bs).keys = s.keys := rfl
@[simp] theorem State.partWrite_ens (s : State) (t : Ten) (off : Nat) (bs : List Byte) : (s.partWrite t off bs).ens = s.ens := rfl
@[simp] theorem State.partWrite_nvm (s : State) (t : Ten) (off : Nat) (bs : List Byte) : (s.partWrite t off bs).nvm = s.nvm := rfl
@[simp] theorem State.partWrite_sec (s : State) (t : Ten) (off : Nat) (bs : List Byte) : (s.partWrite t off bs).sec = s.sec := rfl
@[simp] theorem State.partWrite_fuses (s : State) (t : Ten) (off : Nat) (bs : List Byte) : (s.partWrite t off bs).fuses = s.fuses := rfl
@[simp] theorem State.partWrite_fsec (s : State) (t : Ten) (off : Nat) (bs : List Byte) : (s.partWrite t off bs).fsec = s.fsec := rfl
@[simp] theorem State.partWrite_firn (s : State) (t : Ten) (off : Nat) (bs : List Byte) : (s.partWrite t off bs).firn = s.firn := rfl
@[simp] theorem State.partWrite_aud (s : State) (t : Ten) (off : Nat) (bs : List Byte) : (s.partWrite t off bs).aud = s.aud := rfl

@[simp] theorem State.setDom_pending (s : State) (d : Dom) (x : DomState) : (s.setDom d x).pending = s.pending := rfl
@[simp] theorem State.setDom_now (s : State) (d : Dom) (x : DomState) : (s.setDom d x).now = s.now := rfl
@[simp] theorem State.setDom_rand (s : State) (d : Dom) (x : DomState) : (s.setDom d x).rand = s.rand := rfl
@[simp] theorem State.setDom_free (s : State) (d : Dom) (x : DomState) : (s.setDom d x).free = s.free := rfl
@[simp] theorem State.setDom_out (s : State) (d : Dom) (x : DomState) : (s.setDom d x).out = s.out := rfl
@[simp] theorem State.setDom_ao (s : State) (d : Dom) (x : DomState) : (s.setDom d x).ao = s.ao := rfl
@[simp] theorem State.setDom_pads (s : State) (d : Dom) (x : DomState) : (s.setDom d x).pads = s.pads := rfl
@[simp] theorem State.setDom_tw (s : State) (d : Dom) (x : DomState) : (s.setDom d x).tw = s.tw := rfl
@[simp] theorem State.setDom_boot (s : State) (d : Dom) (x : DomState) : (s.setDom d x).boot = s.boot := rfl
@[simp] theorem State.setDom_icb (s : State) (d : Dom) (x : DomState) : (s.setDom d x).icb = s.icb := rfl
@[simp] theorem State.setDom_tenants (s : State) (d : Dom) (x : DomState) : (s.setDom d x).tenants = s.tenants := rfl
@[simp] theorem State.setDom_store (s : State) (d : Dom) (x : DomState) : (s.setDom d x).store = s.store := rfl
@[simp] theorem State.setDom_mbx (s : State) (d : Dom) (x : DomState) : (s.setDom d x).mbx = s.mbx := rfl
@[simp] theorem State.setDom_evt (s : State) (d : Dom) (x : DomState) : (s.setDom d x).evt = s.evt := rfl
@[simp] theorem State.setDom_sram (s : State) (d : Dom) (x : DomState) : (s.setDom d x).sram = s.sram := rfl
@[simp] theorem State.setDom_time (s : State) (d : Dom) (x : DomState) : (s.setDom d x).time = s.time := rfl
@[simp] theorem State.setDom_clk (s : State) (d : Dom) (x : DomState) : (s.setDom d x).clk = s.clk := rfl
@[simp] theorem State.setDom_lanes (s : State) (d : Dom) (x : DomState) : (s.setDom d x).lanes = s.lanes := rfl
@[simp] theorem State.setDom_fr (s : State) (d : Dom) (x : DomState) : (s.setDom d x).fr = s.fr := rfl
@[simp] theorem State.setDom_reg (s : State) (d : Dom) (x : DomState) : (s.setDom d x).reg = s.reg := rfl
@[simp] theorem State.setDom_us (s : State) (d : Dom) (x : DomState) : (s.setDom d x).us = s.us := rfl
@[simp] theorem State.setDom_pars (s : State) (d : Dom) (x : DomState) : (s.setDom d x).pars = s.pars := rfl
@[simp] theorem State.setDom_tm (s : State) (d : Dom) (x : DomState) : (s.setDom d x).tm = s.tm := rfl
@[simp] theorem State.setDom_cip (s : State) (d : Dom) (x : DomState) : (s.setDom d x).cip = s.cip := rfl
@[simp] theorem State.setDom_keys (s : State) (d : Dom) (x : DomState) : (s.setDom d x).keys = s.keys := rfl
@[simp] theorem State.setDom_ens (s : State) (d : Dom) (x : DomState) : (s.setDom d x).ens = s.ens := rfl
@[simp] theorem State.setDom_nvm (s : State) (d : Dom) (x : DomState) : (s.setDom d x).nvm = s.nvm := rfl
@[simp] theorem State.setDom_sec (s : State) (d : Dom) (x : DomState) : (s.setDom d x).sec = s.sec := rfl
@[simp] theorem State.setDom_fuses (s : State) (d : Dom) (x : DomState) : (s.setDom d x).fuses = s.fuses := rfl
@[simp] theorem State.setDom_fsec (s : State) (d : Dom) (x : DomState) : (s.setDom d x).fsec = s.fsec := rfl
@[simp] theorem State.setDom_firn (s : State) (d : Dom) (x : DomState) : (s.setDom d x).firn = s.firn := rfl
@[simp] theorem State.setDom_aud (s : State) (d : Dom) (x : DomState) : (s.setDom d x).aud = s.aud := rfl

@[simp] theorem State.modSource_pending (s : State) (i : Fin 256) (f : Source → Source) : (s.modSource i f).pending = s.pending := rfl
@[simp] theorem State.modSource_now (s : State) (i : Fin 256) (f : Source → Source) : (s.modSource i f).now = s.now := rfl
@[simp] theorem State.modSource_rand (s : State) (i : Fin 256) (f : Source → Source) : (s.modSource i f).rand = s.rand := rfl
@[simp] theorem State.modSource_free (s : State) (i : Fin 256) (f : Source → Source) : (s.modSource i f).free = s.free := rfl
@[simp] theorem State.modSource_out (s : State) (i : Fin 256) (f : Source → Source) : (s.modSource i f).out = s.out := rfl
@[simp] theorem State.modSource_ao (s : State) (i : Fin 256) (f : Source → Source) : (s.modSource i f).ao = s.ao := rfl
@[simp] theorem State.modSource_pads (s : State) (i : Fin 256) (f : Source → Source) : (s.modSource i f).pads = s.pads := rfl
@[simp] theorem State.modSource_tw (s : State) (i : Fin 256) (f : Source → Source) : (s.modSource i f).tw = s.tw := rfl
@[simp] theorem State.modSource_power (s : State) (i : Fin 256) (f : Source → Source) : (s.modSource i f).power = s.power := rfl
@[simp] theorem State.modSource_boot (s : State) (i : Fin 256) (f : Source → Source) : (s.modSource i f).boot = s.boot := rfl
@[simp] theorem State.modSource_icb (s : State) (i : Fin 256) (f : Source → Source) : (s.modSource i f).icb = s.icb := rfl
@[simp] theorem State.modSource_tenants (s : State) (i : Fin 256) (f : Source → Source) : (s.modSource i f).tenants = s.tenants := rfl
@[simp] theorem State.modSource_store (s : State) (i : Fin 256) (f : Source → Source) : (s.modSource i f).store = s.store := rfl
@[simp] theorem State.modSource_mbx (s : State) (i : Fin 256) (f : Source → Source) : (s.modSource i f).mbx = s.mbx := rfl
@[simp] theorem State.modSource_sram (s : State) (i : Fin 256) (f : Source → Source) : (s.modSource i f).sram = s.sram := rfl
@[simp] theorem State.modSource_time (s : State) (i : Fin 256) (f : Source → Source) : (s.modSource i f).time = s.time := rfl
@[simp] theorem State.modSource_clk (s : State) (i : Fin 256) (f : Source → Source) : (s.modSource i f).clk = s.clk := rfl
@[simp] theorem State.modSource_lanes (s : State) (i : Fin 256) (f : Source → Source) : (s.modSource i f).lanes = s.lanes := rfl
@[simp] theorem State.modSource_fr (s : State) (i : Fin 256) (f : Source → Source) : (s.modSource i f).fr = s.fr := rfl
@[simp] theorem State.modSource_reg (s : State) (i : Fin 256) (f : Source → Source) : (s.modSource i f).reg = s.reg := rfl
@[simp] theorem State.modSource_us (s : State) (i : Fin 256) (f : Source → Source) : (s.modSource i f).us = s.us := rfl
@[simp] theorem State.modSource_pars (s : State) (i : Fin 256) (f : Source → Source) : (s.modSource i f).pars = s.pars := rfl
@[simp] theorem State.modSource_tm (s : State) (i : Fin 256) (f : Source → Source) : (s.modSource i f).tm = s.tm := rfl
@[simp] theorem State.modSource_cip (s : State) (i : Fin 256) (f : Source → Source) : (s.modSource i f).cip = s.cip := rfl
@[simp] theorem State.modSource_keys (s : State) (i : Fin 256) (f : Source → Source) : (s.modSource i f).keys = s.keys := rfl
@[simp] theorem State.modSource_ens (s : State) (i : Fin 256) (f : Source → Source) : (s.modSource i f).ens = s.ens := rfl
@[simp] theorem State.modSource_nvm (s : State) (i : Fin 256) (f : Source → Source) : (s.modSource i f).nvm = s.nvm := rfl
@[simp] theorem State.modSource_sec (s : State) (i : Fin 256) (f : Source → Source) : (s.modSource i f).sec = s.sec := rfl
@[simp] theorem State.modSource_fuses (s : State) (i : Fin 256) (f : Source → Source) : (s.modSource i f).fuses = s.fuses := rfl
@[simp] theorem State.modSource_fsec (s : State) (i : Fin 256) (f : Source → Source) : (s.modSource i f).fsec = s.fsec := rfl
@[simp] theorem State.modSource_firn (s : State) (i : Fin 256) (f : Source → Source) : (s.modSource i f).firn = s.firn := rfl
@[simp] theorem State.modSource_aud (s : State) (i : Fin 256) (f : Source → Source) : (s.modSource i f).aud = s.aud := rfl

@[simp] theorem State.touch_pending (s : State) : (s.touch).pending = s.pending := rfl
@[simp] theorem State.touch_now (s : State) : (s.touch).now = s.now := rfl
@[simp] theorem State.touch_rand (s : State) : (s.touch).rand = s.rand := rfl
@[simp] theorem State.touch_free (s : State) : (s.touch).free = s.free := rfl
@[simp] theorem State.touch_out (s : State) : (s.touch).out = s.out := rfl
@[simp] theorem State.touch_ao (s : State) : (s.touch).ao = s.ao := rfl
@[simp] theorem State.touch_pads (s : State) : (s.touch).pads = s.pads := rfl
@[simp] theorem State.touch_tw (s : State) : (s.touch).tw = s.tw := rfl
@[simp] theorem State.touch_boot (s : State) : (s.touch).boot = s.boot := rfl
@[simp] theorem State.touch_icb (s : State) : (s.touch).icb = s.icb := rfl
@[simp] theorem State.touch_tenants (s : State) : (s.touch).tenants = s.tenants := rfl
@[simp] theorem State.touch_store (s : State) : (s.touch).store = s.store := rfl
@[simp] theorem State.touch_mbx (s : State) : (s.touch).mbx = s.mbx := rfl
@[simp] theorem State.touch_evt (s : State) : (s.touch).evt = s.evt := rfl
@[simp] theorem State.touch_sram (s : State) : (s.touch).sram = s.sram := rfl
@[simp] theorem State.touch_time (s : State) : (s.touch).time = s.time := rfl
@[simp] theorem State.touch_clk (s : State) : (s.touch).clk = s.clk := rfl
@[simp] theorem State.touch_lanes (s : State) : (s.touch).lanes = s.lanes := rfl
@[simp] theorem State.touch_fr (s : State) : (s.touch).fr = s.fr := rfl
@[simp] theorem State.touch_reg (s : State) : (s.touch).reg = s.reg := rfl
@[simp] theorem State.touch_us (s : State) : (s.touch).us = s.us := rfl
@[simp] theorem State.touch_pars (s : State) : (s.touch).pars = s.pars := rfl
@[simp] theorem State.touch_tm (s : State) : (s.touch).tm = s.tm := rfl
@[simp] theorem State.touch_cip (s : State) : (s.touch).cip = s.cip := rfl
@[simp] theorem State.touch_keys (s : State) : (s.touch).keys = s.keys := rfl
@[simp] theorem State.touch_ens (s : State) : (s.touch).ens = s.ens := rfl
@[simp] theorem State.touch_nvm (s : State) : (s.touch).nvm = s.nvm := rfl
@[simp] theorem State.touch_sec (s : State) : (s.touch).sec = s.sec := rfl
@[simp] theorem State.touch_fuses (s : State) : (s.touch).fuses = s.fuses := rfl
@[simp] theorem State.touch_fsec (s : State) : (s.touch).fsec = s.fsec := rfl
@[simp] theorem State.touch_firn (s : State) : (s.touch).firn = s.firn := rfl
@[simp] theorem State.touch_aud (s : State) : (s.touch).aud = s.aud := rfl

@[simp] theorem State.dropLease_pending (s : State) (id : Nat) : (s.dropLease id).pending = s.pending := rfl
@[simp] theorem State.dropLease_now (s : State) (id : Nat) : (s.dropLease id).now = s.now := rfl
@[simp] theorem State.dropLease_rand (s : State) (id : Nat) : (s.dropLease id).rand = s.rand := rfl
@[simp] theorem State.dropLease_free (s : State) (id : Nat) : (s.dropLease id).free = s.free := rfl
@[simp] theorem State.dropLease_out (s : State) (id : Nat) : (s.dropLease id).out = s.out := rfl
@[simp] theorem State.dropLease_ao (s : State) (id : Nat) : (s.dropLease id).ao = s.ao := rfl
@[simp] theorem State.dropLease_pads (s : State) (id : Nat) : (s.dropLease id).pads = s.pads := rfl
@[simp] theorem State.dropLease_tw (s : State) (id : Nat) : (s.dropLease id).tw = s.tw := rfl
@[simp] theorem State.dropLease_power (s : State) (id : Nat) : (s.dropLease id).power = s.power := rfl
@[simp] theorem State.dropLease_boot (s : State) (id : Nat) : (s.dropLease id).boot = s.boot := rfl
@[simp] theorem State.dropLease_icb (s : State) (id : Nat) : (s.dropLease id).icb = s.icb := rfl
@[simp] theorem State.dropLease_tenants (s : State) (id : Nat) : (s.dropLease id).tenants = s.tenants := rfl
@[simp] theorem State.dropLease_store (s : State) (id : Nat) : (s.dropLease id).store = s.store := rfl
@[simp] theorem State.dropLease_evt (s : State) (id : Nat) : (s.dropLease id).evt = s.evt := rfl
@[simp] theorem State.dropLease_sram (s : State) (id : Nat) : (s.dropLease id).sram = s.sram := rfl
@[simp] theorem State.dropLease_time (s : State) (id : Nat) : (s.dropLease id).time = s.time := rfl
@[simp] theorem State.dropLease_clk (s : State) (id : Nat) : (s.dropLease id).clk = s.clk := rfl
@[simp] theorem State.dropLease_lanes (s : State) (id : Nat) : (s.dropLease id).lanes = s.lanes := rfl
@[simp] theorem State.dropLease_fr (s : State) (id : Nat) : (s.dropLease id).fr = s.fr := rfl
@[simp] theorem State.dropLease_reg (s : State) (id : Nat) : (s.dropLease id).reg = s.reg := rfl
@[simp] theorem State.dropLease_us (s : State) (id : Nat) : (s.dropLease id).us = s.us := rfl
@[simp] theorem State.dropLease_pars (s : State) (id : Nat) : (s.dropLease id).pars = s.pars := rfl
@[simp] theorem State.dropLease_tm (s : State) (id : Nat) : (s.dropLease id).tm = s.tm := rfl
@[simp] theorem State.dropLease_cip (s : State) (id : Nat) : (s.dropLease id).cip = s.cip := rfl
@[simp] theorem State.dropLease_keys (s : State) (id : Nat) : (s.dropLease id).keys = s.keys := rfl
@[simp] theorem State.dropLease_ens (s : State) (id : Nat) : (s.dropLease id).ens = s.ens := rfl
@[simp] theorem State.dropLease_nvm (s : State) (id : Nat) : (s.dropLease id).nvm = s.nvm := rfl
@[simp] theorem State.dropLease_sec (s : State) (id : Nat) : (s.dropLease id).sec = s.sec := rfl
@[simp] theorem State.dropLease_fuses (s : State) (id : Nat) : (s.dropLease id).fuses = s.fuses := rfl
@[simp] theorem State.dropLease_fsec (s : State) (id : Nat) : (s.dropLease id).fsec = s.fsec := rfl
@[simp] theorem State.dropLease_firn (s : State) (id : Nat) : (s.dropLease id).firn = s.firn := rfl
@[simp] theorem State.dropLease_aud (s : State) (id : Nat) : (s.dropLease id).aud = s.aud := rfl

@[simp] theorem State.modPhy_pending (s : State) (i : Fin 4) (f : Phy → Phy) : (s.modPhy i f).pending = s.pending := rfl
@[simp] theorem State.modPhy_now (s : State) (i : Fin 4) (f : Phy → Phy) : (s.modPhy i f).now = s.now := rfl
@[simp] theorem State.modPhy_rand (s : State) (i : Fin 4) (f : Phy → Phy) : (s.modPhy i f).rand = s.rand := rfl
@[simp] theorem State.modPhy_free (s : State) (i : Fin 4) (f : Phy → Phy) : (s.modPhy i f).free = s.free := rfl
@[simp] theorem State.modPhy_out (s : State) (i : Fin 4) (f : Phy → Phy) : (s.modPhy i f).out = s.out := rfl
@[simp] theorem State.modPhy_ao (s : State) (i : Fin 4) (f : Phy → Phy) : (s.modPhy i f).ao = s.ao := rfl
@[simp] theorem State.modPhy_pads (s : State) (i : Fin 4) (f : Phy → Phy) : (s.modPhy i f).pads = s.pads := rfl
@[simp] theorem State.modPhy_tw (s : State) (i : Fin 4) (f : Phy → Phy) : (s.modPhy i f).tw = s.tw := rfl
@[simp] theorem State.modPhy_power (s : State) (i : Fin 4) (f : Phy → Phy) : (s.modPhy i f).power = s.power := rfl
@[simp] theorem State.modPhy_boot (s : State) (i : Fin 4) (f : Phy → Phy) : (s.modPhy i f).boot = s.boot := rfl
@[simp] theorem State.modPhy_icb (s : State) (i : Fin 4) (f : Phy → Phy) : (s.modPhy i f).icb = s.icb := rfl
@[simp] theorem State.modPhy_tenants (s : State) (i : Fin 4) (f : Phy → Phy) : (s.modPhy i f).tenants = s.tenants := rfl
@[simp] theorem State.modPhy_store (s : State) (i : Fin 4) (f : Phy → Phy) : (s.modPhy i f).store = s.store := rfl
@[simp] theorem State.modPhy_mbx (s : State) (i : Fin 4) (f : Phy → Phy) : (s.modPhy i f).mbx = s.mbx := rfl
@[simp] theorem State.modPhy_evt (s : State) (i : Fin 4) (f : Phy → Phy) : (s.modPhy i f).evt = s.evt := rfl
@[simp] theorem State.modPhy_sram (s : State) (i : Fin 4) (f : Phy → Phy) : (s.modPhy i f).sram = s.sram := rfl
@[simp] theorem State.modPhy_time (s : State) (i : Fin 4) (f : Phy → Phy) : (s.modPhy i f).time = s.time := rfl
@[simp] theorem State.modPhy_clk (s : State) (i : Fin 4) (f : Phy → Phy) : (s.modPhy i f).clk = s.clk := rfl
@[simp] theorem State.modPhy_fr (s : State) (i : Fin 4) (f : Phy → Phy) : (s.modPhy i f).fr = s.fr := rfl
@[simp] theorem State.modPhy_reg (s : State) (i : Fin 4) (f : Phy → Phy) : (s.modPhy i f).reg = s.reg := rfl
@[simp] theorem State.modPhy_us (s : State) (i : Fin 4) (f : Phy → Phy) : (s.modPhy i f).us = s.us := rfl
@[simp] theorem State.modPhy_pars (s : State) (i : Fin 4) (f : Phy → Phy) : (s.modPhy i f).pars = s.pars := rfl
@[simp] theorem State.modPhy_tm (s : State) (i : Fin 4) (f : Phy → Phy) : (s.modPhy i f).tm = s.tm := rfl
@[simp] theorem State.modPhy_cip (s : State) (i : Fin 4) (f : Phy → Phy) : (s.modPhy i f).cip = s.cip := rfl
@[simp] theorem State.modPhy_keys (s : State) (i : Fin 4) (f : Phy → Phy) : (s.modPhy i f).keys = s.keys := rfl
@[simp] theorem State.modPhy_ens (s : State) (i : Fin 4) (f : Phy → Phy) : (s.modPhy i f).ens = s.ens := rfl
@[simp] theorem State.modPhy_nvm (s : State) (i : Fin 4) (f : Phy → Phy) : (s.modPhy i f).nvm = s.nvm := rfl
@[simp] theorem State.modPhy_sec (s : State) (i : Fin 4) (f : Phy → Phy) : (s.modPhy i f).sec = s.sec := rfl
@[simp] theorem State.modPhy_fuses (s : State) (i : Fin 4) (f : Phy → Phy) : (s.modPhy i f).fuses = s.fuses := rfl
@[simp] theorem State.modPhy_fsec (s : State) (i : Fin 4) (f : Phy → Phy) : (s.modPhy i f).fsec = s.fsec := rfl
@[simp] theorem State.modPhy_firn (s : State) (i : Fin 4) (f : Phy → Phy) : (s.modPhy i f).firn = s.firn := rfl
@[simp] theorem State.modPhy_aud (s : State) (i : Fin 4) (f : Phy → Phy) : (s.modPhy i f).aud = s.aud := rfl

@[simp] theorem State.modLocal_pending (s : State) (l : Fin 2) (f : LocalLane → LocalLane) : (s.modLocal l f).pending = s.pending := rfl
@[simp] theorem State.modLocal_now (s : State) (l : Fin 2) (f : LocalLane → LocalLane) : (s.modLocal l f).now = s.now := rfl
@[simp] theorem State.modLocal_rand (s : State) (l : Fin 2) (f : LocalLane → LocalLane) : (s.modLocal l f).rand = s.rand := rfl
@[simp] theorem State.modLocal_free (s : State) (l : Fin 2) (f : LocalLane → LocalLane) : (s.modLocal l f).free = s.free := rfl
@[simp] theorem State.modLocal_out (s : State) (l : Fin 2) (f : LocalLane → LocalLane) : (s.modLocal l f).out = s.out := rfl
@[simp] theorem State.modLocal_ao (s : State) (l : Fin 2) (f : LocalLane → LocalLane) : (s.modLocal l f).ao = s.ao := rfl
@[simp] theorem State.modLocal_pads (s : State) (l : Fin 2) (f : LocalLane → LocalLane) : (s.modLocal l f).pads = s.pads := rfl
@[simp] theorem State.modLocal_tw (s : State) (l : Fin 2) (f : LocalLane → LocalLane) : (s.modLocal l f).tw = s.tw := rfl
@[simp] theorem State.modLocal_power (s : State) (l : Fin 2) (f : LocalLane → LocalLane) : (s.modLocal l f).power = s.power := rfl
@[simp] theorem State.modLocal_boot (s : State) (l : Fin 2) (f : LocalLane → LocalLane) : (s.modLocal l f).boot = s.boot := rfl
@[simp] theorem State.modLocal_icb (s : State) (l : Fin 2) (f : LocalLane → LocalLane) : (s.modLocal l f).icb = s.icb := rfl
@[simp] theorem State.modLocal_tenants (s : State) (l : Fin 2) (f : LocalLane → LocalLane) : (s.modLocal l f).tenants = s.tenants := rfl
@[simp] theorem State.modLocal_store (s : State) (l : Fin 2) (f : LocalLane → LocalLane) : (s.modLocal l f).store = s.store := rfl
@[simp] theorem State.modLocal_mbx (s : State) (l : Fin 2) (f : LocalLane → LocalLane) : (s.modLocal l f).mbx = s.mbx := rfl
@[simp] theorem State.modLocal_evt (s : State) (l : Fin 2) (f : LocalLane → LocalLane) : (s.modLocal l f).evt = s.evt := rfl
@[simp] theorem State.modLocal_sram (s : State) (l : Fin 2) (f : LocalLane → LocalLane) : (s.modLocal l f).sram = s.sram := rfl
@[simp] theorem State.modLocal_time (s : State) (l : Fin 2) (f : LocalLane → LocalLane) : (s.modLocal l f).time = s.time := rfl
@[simp] theorem State.modLocal_clk (s : State) (l : Fin 2) (f : LocalLane → LocalLane) : (s.modLocal l f).clk = s.clk := rfl
@[simp] theorem State.modLocal_fr (s : State) (l : Fin 2) (f : LocalLane → LocalLane) : (s.modLocal l f).fr = s.fr := rfl
@[simp] theorem State.modLocal_reg (s : State) (l : Fin 2) (f : LocalLane → LocalLane) : (s.modLocal l f).reg = s.reg := rfl
@[simp] theorem State.modLocal_us (s : State) (l : Fin 2) (f : LocalLane → LocalLane) : (s.modLocal l f).us = s.us := rfl
@[simp] theorem State.modLocal_pars (s : State) (l : Fin 2) (f : LocalLane → LocalLane) : (s.modLocal l f).pars = s.pars := rfl
@[simp] theorem State.modLocal_tm (s : State) (l : Fin 2) (f : LocalLane → LocalLane) : (s.modLocal l f).tm = s.tm := rfl
@[simp] theorem State.modLocal_cip (s : State) (l : Fin 2) (f : LocalLane → LocalLane) : (s.modLocal l f).cip = s.cip := rfl
@[simp] theorem State.modLocal_keys (s : State) (l : Fin 2) (f : LocalLane → LocalLane) : (s.modLocal l f).keys = s.keys := rfl
@[simp] theorem State.modLocal_ens (s : State) (l : Fin 2) (f : LocalLane → LocalLane) : (s.modLocal l f).ens = s.ens := rfl
@[simp] theorem State.modLocal_nvm (s : State) (l : Fin 2) (f : LocalLane → LocalLane) : (s.modLocal l f).nvm = s.nvm := rfl
@[simp] theorem State.modLocal_sec (s : State) (l : Fin 2) (f : LocalLane → LocalLane) : (s.modLocal l f).sec = s.sec := rfl
@[simp] theorem State.modLocal_fuses (s : State) (l : Fin 2) (f : LocalLane → LocalLane) : (s.modLocal l f).fuses = s.fuses := rfl
@[simp] theorem State.modLocal_fsec (s : State) (l : Fin 2) (f : LocalLane → LocalLane) : (s.modLocal l f).fsec = s.fsec := rfl
@[simp] theorem State.modLocal_firn (s : State) (l : Fin 2) (f : LocalLane → LocalLane) : (s.modLocal l f).firn = s.firn := rfl
@[simp] theorem State.modLocal_aud (s : State) (l : Fin 2) (f : LocalLane → LocalLane) : (s.modLocal l f).aud = s.aud := rfl

@[simp] theorem State.modChan_pending (s : State) (l : Fin 2) (f : Chan → Chan) : (s.modChan l f).pending = s.pending := rfl
@[simp] theorem State.modChan_now (s : State) (l : Fin 2) (f : Chan → Chan) : (s.modChan l f).now = s.now := rfl
@[simp] theorem State.modChan_rand (s : State) (l : Fin 2) (f : Chan → Chan) : (s.modChan l f).rand = s.rand := rfl
@[simp] theorem State.modChan_free (s : State) (l : Fin 2) (f : Chan → Chan) : (s.modChan l f).free = s.free := rfl
@[simp] theorem State.modChan_out (s : State) (l : Fin 2) (f : Chan → Chan) : (s.modChan l f).out = s.out := rfl
@[simp] theorem State.modChan_ao (s : State) (l : Fin 2) (f : Chan → Chan) : (s.modChan l f).ao = s.ao := rfl
@[simp] theorem State.modChan_pads (s : State) (l : Fin 2) (f : Chan → Chan) : (s.modChan l f).pads = s.pads := rfl
@[simp] theorem State.modChan_tw (s : State) (l : Fin 2) (f : Chan → Chan) : (s.modChan l f).tw = s.tw := rfl
@[simp] theorem State.modChan_power (s : State) (l : Fin 2) (f : Chan → Chan) : (s.modChan l f).power = s.power := rfl
@[simp] theorem State.modChan_boot (s : State) (l : Fin 2) (f : Chan → Chan) : (s.modChan l f).boot = s.boot := rfl
@[simp] theorem State.modChan_icb (s : State) (l : Fin 2) (f : Chan → Chan) : (s.modChan l f).icb = s.icb := rfl
@[simp] theorem State.modChan_tenants (s : State) (l : Fin 2) (f : Chan → Chan) : (s.modChan l f).tenants = s.tenants := rfl
@[simp] theorem State.modChan_store (s : State) (l : Fin 2) (f : Chan → Chan) : (s.modChan l f).store = s.store := rfl
@[simp] theorem State.modChan_mbx (s : State) (l : Fin 2) (f : Chan → Chan) : (s.modChan l f).mbx = s.mbx := rfl
@[simp] theorem State.modChan_evt (s : State) (l : Fin 2) (f : Chan → Chan) : (s.modChan l f).evt = s.evt := rfl
@[simp] theorem State.modChan_sram (s : State) (l : Fin 2) (f : Chan → Chan) : (s.modChan l f).sram = s.sram := rfl
@[simp] theorem State.modChan_time (s : State) (l : Fin 2) (f : Chan → Chan) : (s.modChan l f).time = s.time := rfl
@[simp] theorem State.modChan_clk (s : State) (l : Fin 2) (f : Chan → Chan) : (s.modChan l f).clk = s.clk := rfl
@[simp] theorem State.modChan_lanes (s : State) (l : Fin 2) (f : Chan → Chan) : (s.modChan l f).lanes = s.lanes := rfl
@[simp] theorem State.modChan_reg (s : State) (l : Fin 2) (f : Chan → Chan) : (s.modChan l f).reg = s.reg := rfl
@[simp] theorem State.modChan_us (s : State) (l : Fin 2) (f : Chan → Chan) : (s.modChan l f).us = s.us := rfl
@[simp] theorem State.modChan_pars (s : State) (l : Fin 2) (f : Chan → Chan) : (s.modChan l f).pars = s.pars := rfl
@[simp] theorem State.modChan_tm (s : State) (l : Fin 2) (f : Chan → Chan) : (s.modChan l f).tm = s.tm := rfl
@[simp] theorem State.modChan_cip (s : State) (l : Fin 2) (f : Chan → Chan) : (s.modChan l f).cip = s.cip := rfl
@[simp] theorem State.modChan_keys (s : State) (l : Fin 2) (f : Chan → Chan) : (s.modChan l f).keys = s.keys := rfl
@[simp] theorem State.modChan_ens (s : State) (l : Fin 2) (f : Chan → Chan) : (s.modChan l f).ens = s.ens := rfl
@[simp] theorem State.modChan_nvm (s : State) (l : Fin 2) (f : Chan → Chan) : (s.modChan l f).nvm = s.nvm := rfl
@[simp] theorem State.modChan_sec (s : State) (l : Fin 2) (f : Chan → Chan) : (s.modChan l f).sec = s.sec := rfl
@[simp] theorem State.modChan_fuses (s : State) (l : Fin 2) (f : Chan → Chan) : (s.modChan l f).fuses = s.fuses := rfl
@[simp] theorem State.modChan_fsec (s : State) (l : Fin 2) (f : Chan → Chan) : (s.modChan l f).fsec = s.fsec := rfl
@[simp] theorem State.modChan_firn (s : State) (l : Fin 2) (f : Chan → Chan) : (s.modChan l f).firn = s.firn := rfl
@[simp] theorem State.modChan_aud (s : State) (l : Fin 2) (f : Chan → Chan) : (s.modChan l f).aud = s.aud := rfl

@[simp] theorem State.modGs_pending (s : State) (g : Fin 8) (f : Stream → Stream) : (s.modGs g f).pending = s.pending := rfl
@[simp] theorem State.modGs_now (s : State) (g : Fin 8) (f : Stream → Stream) : (s.modGs g f).now = s.now := rfl
@[simp] theorem State.modGs_rand (s : State) (g : Fin 8) (f : Stream → Stream) : (s.modGs g f).rand = s.rand := rfl
@[simp] theorem State.modGs_free (s : State) (g : Fin 8) (f : Stream → Stream) : (s.modGs g f).free = s.free := rfl
@[simp] theorem State.modGs_out (s : State) (g : Fin 8) (f : Stream → Stream) : (s.modGs g f).out = s.out := rfl
@[simp] theorem State.modGs_ao (s : State) (g : Fin 8) (f : Stream → Stream) : (s.modGs g f).ao = s.ao := rfl
@[simp] theorem State.modGs_pads (s : State) (g : Fin 8) (f : Stream → Stream) : (s.modGs g f).pads = s.pads := rfl
@[simp] theorem State.modGs_tw (s : State) (g : Fin 8) (f : Stream → Stream) : (s.modGs g f).tw = s.tw := rfl
@[simp] theorem State.modGs_power (s : State) (g : Fin 8) (f : Stream → Stream) : (s.modGs g f).power = s.power := rfl
@[simp] theorem State.modGs_boot (s : State) (g : Fin 8) (f : Stream → Stream) : (s.modGs g f).boot = s.boot := rfl
@[simp] theorem State.modGs_icb (s : State) (g : Fin 8) (f : Stream → Stream) : (s.modGs g f).icb = s.icb := rfl
@[simp] theorem State.modGs_tenants (s : State) (g : Fin 8) (f : Stream → Stream) : (s.modGs g f).tenants = s.tenants := rfl
@[simp] theorem State.modGs_store (s : State) (g : Fin 8) (f : Stream → Stream) : (s.modGs g f).store = s.store := rfl
@[simp] theorem State.modGs_mbx (s : State) (g : Fin 8) (f : Stream → Stream) : (s.modGs g f).mbx = s.mbx := rfl
@[simp] theorem State.modGs_evt (s : State) (g : Fin 8) (f : Stream → Stream) : (s.modGs g f).evt = s.evt := rfl
@[simp] theorem State.modGs_sram (s : State) (g : Fin 8) (f : Stream → Stream) : (s.modGs g f).sram = s.sram := rfl
@[simp] theorem State.modGs_time (s : State) (g : Fin 8) (f : Stream → Stream) : (s.modGs g f).time = s.time := rfl
@[simp] theorem State.modGs_clk (s : State) (g : Fin 8) (f : Stream → Stream) : (s.modGs g f).clk = s.clk := rfl
@[simp] theorem State.modGs_lanes (s : State) (g : Fin 8) (f : Stream → Stream) : (s.modGs g f).lanes = s.lanes := rfl
@[simp] theorem State.modGs_fr (s : State) (g : Fin 8) (f : Stream → Stream) : (s.modGs g f).fr = s.fr := rfl
@[simp] theorem State.modGs_reg (s : State) (g : Fin 8) (f : Stream → Stream) : (s.modGs g f).reg = s.reg := rfl
@[simp] theorem State.modGs_pars (s : State) (g : Fin 8) (f : Stream → Stream) : (s.modGs g f).pars = s.pars := rfl
@[simp] theorem State.modGs_tm (s : State) (g : Fin 8) (f : Stream → Stream) : (s.modGs g f).tm = s.tm := rfl
@[simp] theorem State.modGs_cip (s : State) (g : Fin 8) (f : Stream → Stream) : (s.modGs g f).cip = s.cip := rfl
@[simp] theorem State.modGs_keys (s : State) (g : Fin 8) (f : Stream → Stream) : (s.modGs g f).keys = s.keys := rfl
@[simp] theorem State.modGs_ens (s : State) (g : Fin 8) (f : Stream → Stream) : (s.modGs g f).ens = s.ens := rfl
@[simp] theorem State.modGs_nvm (s : State) (g : Fin 8) (f : Stream → Stream) : (s.modGs g f).nvm = s.nvm := rfl
@[simp] theorem State.modGs_sec (s : State) (g : Fin 8) (f : Stream → Stream) : (s.modGs g f).sec = s.sec := rfl
@[simp] theorem State.modGs_fuses (s : State) (g : Fin 8) (f : Stream → Stream) : (s.modGs g f).fuses = s.fuses := rfl
@[simp] theorem State.modGs_fsec (s : State) (g : Fin 8) (f : Stream → Stream) : (s.modGs g f).fsec = s.fsec := rfl
@[simp] theorem State.modGs_firn (s : State) (g : Fin 8) (f : Stream → Stream) : (s.modGs g f).firn = s.firn := rfl
@[simp] theorem State.modGs_aud (s : State) (g : Fin 8) (f : Stream → Stream) : (s.modGs g f).aud = s.aud := rfl

@[simp] theorem State.modQ_pending (s : State) (i : Fin 184) (f : Queue → Queue) : (s.modQ i f).pending = s.pending := rfl
@[simp] theorem State.modQ_now (s : State) (i : Fin 184) (f : Queue → Queue) : (s.modQ i f).now = s.now := rfl
@[simp] theorem State.modQ_rand (s : State) (i : Fin 184) (f : Queue → Queue) : (s.modQ i f).rand = s.rand := rfl
@[simp] theorem State.modQ_free (s : State) (i : Fin 184) (f : Queue → Queue) : (s.modQ i f).free = s.free := rfl
@[simp] theorem State.modQ_out (s : State) (i : Fin 184) (f : Queue → Queue) : (s.modQ i f).out = s.out := rfl
@[simp] theorem State.modQ_ao (s : State) (i : Fin 184) (f : Queue → Queue) : (s.modQ i f).ao = s.ao := rfl
@[simp] theorem State.modQ_pads (s : State) (i : Fin 184) (f : Queue → Queue) : (s.modQ i f).pads = s.pads := rfl
@[simp] theorem State.modQ_tw (s : State) (i : Fin 184) (f : Queue → Queue) : (s.modQ i f).tw = s.tw := rfl
@[simp] theorem State.modQ_power (s : State) (i : Fin 184) (f : Queue → Queue) : (s.modQ i f).power = s.power := rfl
@[simp] theorem State.modQ_boot (s : State) (i : Fin 184) (f : Queue → Queue) : (s.modQ i f).boot = s.boot := rfl
@[simp] theorem State.modQ_icb (s : State) (i : Fin 184) (f : Queue → Queue) : (s.modQ i f).icb = s.icb := rfl
@[simp] theorem State.modQ_tenants (s : State) (i : Fin 184) (f : Queue → Queue) : (s.modQ i f).tenants = s.tenants := rfl
@[simp] theorem State.modQ_store (s : State) (i : Fin 184) (f : Queue → Queue) : (s.modQ i f).store = s.store := rfl
@[simp] theorem State.modQ_mbx (s : State) (i : Fin 184) (f : Queue → Queue) : (s.modQ i f).mbx = s.mbx := rfl
@[simp] theorem State.modQ_evt (s : State) (i : Fin 184) (f : Queue → Queue) : (s.modQ i f).evt = s.evt := rfl
@[simp] theorem State.modQ_sram (s : State) (i : Fin 184) (f : Queue → Queue) : (s.modQ i f).sram = s.sram := rfl
@[simp] theorem State.modQ_time (s : State) (i : Fin 184) (f : Queue → Queue) : (s.modQ i f).time = s.time := rfl
@[simp] theorem State.modQ_clk (s : State) (i : Fin 184) (f : Queue → Queue) : (s.modQ i f).clk = s.clk := rfl
@[simp] theorem State.modQ_lanes (s : State) (i : Fin 184) (f : Queue → Queue) : (s.modQ i f).lanes = s.lanes := rfl
@[simp] theorem State.modQ_fr (s : State) (i : Fin 184) (f : Queue → Queue) : (s.modQ i f).fr = s.fr := rfl
@[simp] theorem State.modQ_reg (s : State) (i : Fin 184) (f : Queue → Queue) : (s.modQ i f).reg = s.reg := rfl
@[simp] theorem State.modQ_us (s : State) (i : Fin 184) (f : Queue → Queue) : (s.modQ i f).us = s.us := rfl
@[simp] theorem State.modQ_pars (s : State) (i : Fin 184) (f : Queue → Queue) : (s.modQ i f).pars = s.pars := rfl
@[simp] theorem State.modQ_cip (s : State) (i : Fin 184) (f : Queue → Queue) : (s.modQ i f).cip = s.cip := rfl
@[simp] theorem State.modQ_keys (s : State) (i : Fin 184) (f : Queue → Queue) : (s.modQ i f).keys = s.keys := rfl
@[simp] theorem State.modQ_ens (s : State) (i : Fin 184) (f : Queue → Queue) : (s.modQ i f).ens = s.ens := rfl
@[simp] theorem State.modQ_nvm (s : State) (i : Fin 184) (f : Queue → Queue) : (s.modQ i f).nvm = s.nvm := rfl
@[simp] theorem State.modQ_sec (s : State) (i : Fin 184) (f : Queue → Queue) : (s.modQ i f).sec = s.sec := rfl
@[simp] theorem State.modQ_fuses (s : State) (i : Fin 184) (f : Queue → Queue) : (s.modQ i f).fuses = s.fuses := rfl
@[simp] theorem State.modQ_fsec (s : State) (i : Fin 184) (f : Queue → Queue) : (s.modQ i f).fsec = s.fsec := rfl
@[simp] theorem State.modQ_firn (s : State) (i : Fin 184) (f : Queue → Queue) : (s.modQ i f).firn = s.firn := rfl
@[simp] theorem State.modQ_aud (s : State) (i : Fin 184) (f : Queue → Queue) : (s.modQ i f).aud = s.aud := rfl

@[simp] theorem State.modSlotKey_pending (s : State) (i : Fin 64) (f : KeySlot → KeySlot) : (s.modSlotKey i f).pending = s.pending := rfl
@[simp] theorem State.modSlotKey_now (s : State) (i : Fin 64) (f : KeySlot → KeySlot) : (s.modSlotKey i f).now = s.now := rfl
@[simp] theorem State.modSlotKey_rand (s : State) (i : Fin 64) (f : KeySlot → KeySlot) : (s.modSlotKey i f).rand = s.rand := rfl
@[simp] theorem State.modSlotKey_free (s : State) (i : Fin 64) (f : KeySlot → KeySlot) : (s.modSlotKey i f).free = s.free := rfl
@[simp] theorem State.modSlotKey_out (s : State) (i : Fin 64) (f : KeySlot → KeySlot) : (s.modSlotKey i f).out = s.out := rfl
@[simp] theorem State.modSlotKey_ao (s : State) (i : Fin 64) (f : KeySlot → KeySlot) : (s.modSlotKey i f).ao = s.ao := rfl
@[simp] theorem State.modSlotKey_pads (s : State) (i : Fin 64) (f : KeySlot → KeySlot) : (s.modSlotKey i f).pads = s.pads := rfl
@[simp] theorem State.modSlotKey_tw (s : State) (i : Fin 64) (f : KeySlot → KeySlot) : (s.modSlotKey i f).tw = s.tw := rfl
@[simp] theorem State.modSlotKey_power (s : State) (i : Fin 64) (f : KeySlot → KeySlot) : (s.modSlotKey i f).power = s.power := rfl
@[simp] theorem State.modSlotKey_boot (s : State) (i : Fin 64) (f : KeySlot → KeySlot) : (s.modSlotKey i f).boot = s.boot := rfl
@[simp] theorem State.modSlotKey_icb (s : State) (i : Fin 64) (f : KeySlot → KeySlot) : (s.modSlotKey i f).icb = s.icb := rfl
@[simp] theorem State.modSlotKey_tenants (s : State) (i : Fin 64) (f : KeySlot → KeySlot) : (s.modSlotKey i f).tenants = s.tenants := rfl
@[simp] theorem State.modSlotKey_store (s : State) (i : Fin 64) (f : KeySlot → KeySlot) : (s.modSlotKey i f).store = s.store := rfl
@[simp] theorem State.modSlotKey_mbx (s : State) (i : Fin 64) (f : KeySlot → KeySlot) : (s.modSlotKey i f).mbx = s.mbx := rfl
@[simp] theorem State.modSlotKey_evt (s : State) (i : Fin 64) (f : KeySlot → KeySlot) : (s.modSlotKey i f).evt = s.evt := rfl
@[simp] theorem State.modSlotKey_sram (s : State) (i : Fin 64) (f : KeySlot → KeySlot) : (s.modSlotKey i f).sram = s.sram := rfl
@[simp] theorem State.modSlotKey_time (s : State) (i : Fin 64) (f : KeySlot → KeySlot) : (s.modSlotKey i f).time = s.time := rfl
@[simp] theorem State.modSlotKey_clk (s : State) (i : Fin 64) (f : KeySlot → KeySlot) : (s.modSlotKey i f).clk = s.clk := rfl
@[simp] theorem State.modSlotKey_lanes (s : State) (i : Fin 64) (f : KeySlot → KeySlot) : (s.modSlotKey i f).lanes = s.lanes := rfl
@[simp] theorem State.modSlotKey_fr (s : State) (i : Fin 64) (f : KeySlot → KeySlot) : (s.modSlotKey i f).fr = s.fr := rfl
@[simp] theorem State.modSlotKey_reg (s : State) (i : Fin 64) (f : KeySlot → KeySlot) : (s.modSlotKey i f).reg = s.reg := rfl
@[simp] theorem State.modSlotKey_us (s : State) (i : Fin 64) (f : KeySlot → KeySlot) : (s.modSlotKey i f).us = s.us := rfl
@[simp] theorem State.modSlotKey_pars (s : State) (i : Fin 64) (f : KeySlot → KeySlot) : (s.modSlotKey i f).pars = s.pars := rfl
@[simp] theorem State.modSlotKey_tm (s : State) (i : Fin 64) (f : KeySlot → KeySlot) : (s.modSlotKey i f).tm = s.tm := rfl
@[simp] theorem State.modSlotKey_cip (s : State) (i : Fin 64) (f : KeySlot → KeySlot) : (s.modSlotKey i f).cip = s.cip := rfl
@[simp] theorem State.modSlotKey_ens (s : State) (i : Fin 64) (f : KeySlot → KeySlot) : (s.modSlotKey i f).ens = s.ens := rfl
@[simp] theorem State.modSlotKey_nvm (s : State) (i : Fin 64) (f : KeySlot → KeySlot) : (s.modSlotKey i f).nvm = s.nvm := rfl
@[simp] theorem State.modSlotKey_sec (s : State) (i : Fin 64) (f : KeySlot → KeySlot) : (s.modSlotKey i f).sec = s.sec := rfl
@[simp] theorem State.modSlotKey_fuses (s : State) (i : Fin 64) (f : KeySlot → KeySlot) : (s.modSlotKey i f).fuses = s.fuses := rfl
@[simp] theorem State.modSlotKey_fsec (s : State) (i : Fin 64) (f : KeySlot → KeySlot) : (s.modSlotKey i f).fsec = s.fsec := rfl
@[simp] theorem State.modSlotKey_firn (s : State) (i : Fin 64) (f : KeySlot → KeySlot) : (s.modSlotKey i f).firn = s.firn := rfl
@[simp] theorem State.modSlotKey_aud (s : State) (i : Fin 64) (f : KeySlot → KeySlot) : (s.modSlotKey i f).aud = s.aud := rfl

@[simp] theorem State.modUpd_pending (s : State) (r : Nat) (f : EnsUpd → EnsUpd) : (s.modUpd r f).pending = s.pending := rfl
@[simp] theorem State.modUpd_now (s : State) (r : Nat) (f : EnsUpd → EnsUpd) : (s.modUpd r f).now = s.now := rfl
@[simp] theorem State.modUpd_rand (s : State) (r : Nat) (f : EnsUpd → EnsUpd) : (s.modUpd r f).rand = s.rand := rfl
@[simp] theorem State.modUpd_free (s : State) (r : Nat) (f : EnsUpd → EnsUpd) : (s.modUpd r f).free = s.free := rfl
@[simp] theorem State.modUpd_out (s : State) (r : Nat) (f : EnsUpd → EnsUpd) : (s.modUpd r f).out = s.out := rfl
@[simp] theorem State.modUpd_ao (s : State) (r : Nat) (f : EnsUpd → EnsUpd) : (s.modUpd r f).ao = s.ao := rfl
@[simp] theorem State.modUpd_pads (s : State) (r : Nat) (f : EnsUpd → EnsUpd) : (s.modUpd r f).pads = s.pads := rfl
@[simp] theorem State.modUpd_tw (s : State) (r : Nat) (f : EnsUpd → EnsUpd) : (s.modUpd r f).tw = s.tw := rfl
@[simp] theorem State.modUpd_power (s : State) (r : Nat) (f : EnsUpd → EnsUpd) : (s.modUpd r f).power = s.power := rfl
@[simp] theorem State.modUpd_boot (s : State) (r : Nat) (f : EnsUpd → EnsUpd) : (s.modUpd r f).boot = s.boot := rfl
@[simp] theorem State.modUpd_icb (s : State) (r : Nat) (f : EnsUpd → EnsUpd) : (s.modUpd r f).icb = s.icb := rfl
@[simp] theorem State.modUpd_tenants (s : State) (r : Nat) (f : EnsUpd → EnsUpd) : (s.modUpd r f).tenants = s.tenants := rfl
@[simp] theorem State.modUpd_store (s : State) (r : Nat) (f : EnsUpd → EnsUpd) : (s.modUpd r f).store = s.store := rfl
@[simp] theorem State.modUpd_mbx (s : State) (r : Nat) (f : EnsUpd → EnsUpd) : (s.modUpd r f).mbx = s.mbx := rfl
@[simp] theorem State.modUpd_evt (s : State) (r : Nat) (f : EnsUpd → EnsUpd) : (s.modUpd r f).evt = s.evt := rfl
@[simp] theorem State.modUpd_sram (s : State) (r : Nat) (f : EnsUpd → EnsUpd) : (s.modUpd r f).sram = s.sram := rfl
@[simp] theorem State.modUpd_time (s : State) (r : Nat) (f : EnsUpd → EnsUpd) : (s.modUpd r f).time = s.time := rfl
@[simp] theorem State.modUpd_clk (s : State) (r : Nat) (f : EnsUpd → EnsUpd) : (s.modUpd r f).clk = s.clk := rfl
@[simp] theorem State.modUpd_lanes (s : State) (r : Nat) (f : EnsUpd → EnsUpd) : (s.modUpd r f).lanes = s.lanes := rfl
@[simp] theorem State.modUpd_fr (s : State) (r : Nat) (f : EnsUpd → EnsUpd) : (s.modUpd r f).fr = s.fr := rfl
@[simp] theorem State.modUpd_reg (s : State) (r : Nat) (f : EnsUpd → EnsUpd) : (s.modUpd r f).reg = s.reg := rfl
@[simp] theorem State.modUpd_us (s : State) (r : Nat) (f : EnsUpd → EnsUpd) : (s.modUpd r f).us = s.us := rfl
@[simp] theorem State.modUpd_pars (s : State) (r : Nat) (f : EnsUpd → EnsUpd) : (s.modUpd r f).pars = s.pars := rfl
@[simp] theorem State.modUpd_tm (s : State) (r : Nat) (f : EnsUpd → EnsUpd) : (s.modUpd r f).tm = s.tm := rfl
@[simp] theorem State.modUpd_cip (s : State) (r : Nat) (f : EnsUpd → EnsUpd) : (s.modUpd r f).cip = s.cip := rfl
@[simp] theorem State.modUpd_keys (s : State) (r : Nat) (f : EnsUpd → EnsUpd) : (s.modUpd r f).keys = s.keys := rfl
@[simp] theorem State.modUpd_ens (s : State) (r : Nat) (f : EnsUpd → EnsUpd) : (s.modUpd r f).ens = s.ens := rfl
@[simp] theorem State.modUpd_sec (s : State) (r : Nat) (f : EnsUpd → EnsUpd) : (s.modUpd r f).sec = s.sec := rfl
@[simp] theorem State.modUpd_fuses (s : State) (r : Nat) (f : EnsUpd → EnsUpd) : (s.modUpd r f).fuses = s.fuses := rfl
@[simp] theorem State.modUpd_fsec (s : State) (r : Nat) (f : EnsUpd → EnsUpd) : (s.modUpd r f).fsec = s.fsec := rfl
@[simp] theorem State.modUpd_firn (s : State) (r : Nat) (f : EnsUpd → EnsUpd) : (s.modUpd r f).firn = s.firn := rfl
@[simp] theorem State.modUpd_aud (s : State) (r : Nat) (f : EnsUpd → EnsUpd) : (s.modUpd r f).aud = s.aud := rfl

@[simp] theorem State.modJob_pending (s : State) (num : Nat) (f : FJob → FJob) : (s.modJob num f).pending = s.pending := rfl
@[simp] theorem State.modJob_now (s : State) (num : Nat) (f : FJob → FJob) : (s.modJob num f).now = s.now := rfl
@[simp] theorem State.modJob_rand (s : State) (num : Nat) (f : FJob → FJob) : (s.modJob num f).rand = s.rand := rfl
@[simp] theorem State.modJob_free (s : State) (num : Nat) (f : FJob → FJob) : (s.modJob num f).free = s.free := rfl
@[simp] theorem State.modJob_out (s : State) (num : Nat) (f : FJob → FJob) : (s.modJob num f).out = s.out := rfl
@[simp] theorem State.modJob_ao (s : State) (num : Nat) (f : FJob → FJob) : (s.modJob num f).ao = s.ao := rfl
@[simp] theorem State.modJob_pads (s : State) (num : Nat) (f : FJob → FJob) : (s.modJob num f).pads = s.pads := rfl
@[simp] theorem State.modJob_tw (s : State) (num : Nat) (f : FJob → FJob) : (s.modJob num f).tw = s.tw := rfl
@[simp] theorem State.modJob_power (s : State) (num : Nat) (f : FJob → FJob) : (s.modJob num f).power = s.power := rfl
@[simp] theorem State.modJob_boot (s : State) (num : Nat) (f : FJob → FJob) : (s.modJob num f).boot = s.boot := rfl
@[simp] theorem State.modJob_icb (s : State) (num : Nat) (f : FJob → FJob) : (s.modJob num f).icb = s.icb := rfl
@[simp] theorem State.modJob_tenants (s : State) (num : Nat) (f : FJob → FJob) : (s.modJob num f).tenants = s.tenants := rfl
@[simp] theorem State.modJob_store (s : State) (num : Nat) (f : FJob → FJob) : (s.modJob num f).store = s.store := rfl
@[simp] theorem State.modJob_mbx (s : State) (num : Nat) (f : FJob → FJob) : (s.modJob num f).mbx = s.mbx := rfl
@[simp] theorem State.modJob_evt (s : State) (num : Nat) (f : FJob → FJob) : (s.modJob num f).evt = s.evt := rfl
@[simp] theorem State.modJob_sram (s : State) (num : Nat) (f : FJob → FJob) : (s.modJob num f).sram = s.sram := rfl
@[simp] theorem State.modJob_time (s : State) (num : Nat) (f : FJob → FJob) : (s.modJob num f).time = s.time := rfl
@[simp] theorem State.modJob_clk (s : State) (num : Nat) (f : FJob → FJob) : (s.modJob num f).clk = s.clk := rfl
@[simp] theorem State.modJob_lanes (s : State) (num : Nat) (f : FJob → FJob) : (s.modJob num f).lanes = s.lanes := rfl
@[simp] theorem State.modJob_fr (s : State) (num : Nat) (f : FJob → FJob) : (s.modJob num f).fr = s.fr := rfl
@[simp] theorem State.modJob_reg (s : State) (num : Nat) (f : FJob → FJob) : (s.modJob num f).reg = s.reg := rfl
@[simp] theorem State.modJob_us (s : State) (num : Nat) (f : FJob → FJob) : (s.modJob num f).us = s.us := rfl
@[simp] theorem State.modJob_pars (s : State) (num : Nat) (f : FJob → FJob) : (s.modJob num f).pars = s.pars := rfl
@[simp] theorem State.modJob_tm (s : State) (num : Nat) (f : FJob → FJob) : (s.modJob num f).tm = s.tm := rfl
@[simp] theorem State.modJob_cip (s : State) (num : Nat) (f : FJob → FJob) : (s.modJob num f).cip = s.cip := rfl
@[simp] theorem State.modJob_keys (s : State) (num : Nat) (f : FJob → FJob) : (s.modJob num f).keys = s.keys := rfl
@[simp] theorem State.modJob_ens (s : State) (num : Nat) (f : FJob → FJob) : (s.modJob num f).ens = s.ens := rfl
@[simp] theorem State.modJob_nvm (s : State) (num : Nat) (f : FJob → FJob) : (s.modJob num f).nvm = s.nvm := rfl
@[simp] theorem State.modJob_sec (s : State) (num : Nat) (f : FJob → FJob) : (s.modJob num f).sec = s.sec := rfl
@[simp] theorem State.modJob_fuses (s : State) (num : Nat) (f : FJob → FJob) : (s.modJob num f).fuses = s.fuses := rfl
@[simp] theorem State.modJob_fsec (s : State) (num : Nat) (f : FJob → FJob) : (s.modJob num f).fsec = s.fsec := rfl
@[simp] theorem State.modJob_aud (s : State) (num : Nat) (f : FJob → FJob) : (s.modJob num f).aud = s.aud := rfl

@[simp] theorem State.modPort_pending (s : State) (p : Fin 3) (f : APort → APort) : (s.modPort p f).pending = s.pending := rfl
@[simp] theorem State.modPort_now (s : State) (p : Fin 3) (f : APort → APort) : (s.modPort p f).now = s.now := rfl
@[simp] theorem State.modPort_rand (s : State) (p : Fin 3) (f : APort → APort) : (s.modPort p f).rand = s.rand := rfl
@[simp] theorem State.modPort_free (s : State) (p : Fin 3) (f : APort → APort) : (s.modPort p f).free = s.free := rfl
@[simp] theorem State.modPort_out (s : State) (p : Fin 3) (f : APort → APort) : (s.modPort p f).out = s.out := rfl
@[simp] theorem State.modPort_ao (s : State) (p : Fin 3) (f : APort → APort) : (s.modPort p f).ao = s.ao := rfl
@[simp] theorem State.modPort_pads (s : State) (p : Fin 3) (f : APort → APort) : (s.modPort p f).pads = s.pads := rfl
@[simp] theorem State.modPort_tw (s : State) (p : Fin 3) (f : APort → APort) : (s.modPort p f).tw = s.tw := rfl
@[simp] theorem State.modPort_power (s : State) (p : Fin 3) (f : APort → APort) : (s.modPort p f).power = s.power := rfl
@[simp] theorem State.modPort_boot (s : State) (p : Fin 3) (f : APort → APort) : (s.modPort p f).boot = s.boot := rfl
@[simp] theorem State.modPort_icb (s : State) (p : Fin 3) (f : APort → APort) : (s.modPort p f).icb = s.icb := rfl
@[simp] theorem State.modPort_tenants (s : State) (p : Fin 3) (f : APort → APort) : (s.modPort p f).tenants = s.tenants := rfl
@[simp] theorem State.modPort_store (s : State) (p : Fin 3) (f : APort → APort) : (s.modPort p f).store = s.store := rfl
@[simp] theorem State.modPort_mbx (s : State) (p : Fin 3) (f : APort → APort) : (s.modPort p f).mbx = s.mbx := rfl
@[simp] theorem State.modPort_evt (s : State) (p : Fin 3) (f : APort → APort) : (s.modPort p f).evt = s.evt := rfl
@[simp] theorem State.modPort_sram (s : State) (p : Fin 3) (f : APort → APort) : (s.modPort p f).sram = s.sram := rfl
@[simp] theorem State.modPort_time (s : State) (p : Fin 3) (f : APort → APort) : (s.modPort p f).time = s.time := rfl
@[simp] theorem State.modPort_clk (s : State) (p : Fin 3) (f : APort → APort) : (s.modPort p f).clk = s.clk := rfl
@[simp] theorem State.modPort_lanes (s : State) (p : Fin 3) (f : APort → APort) : (s.modPort p f).lanes = s.lanes := rfl
@[simp] theorem State.modPort_fr (s : State) (p : Fin 3) (f : APort → APort) : (s.modPort p f).fr = s.fr := rfl
@[simp] theorem State.modPort_reg (s : State) (p : Fin 3) (f : APort → APort) : (s.modPort p f).reg = s.reg := rfl
@[simp] theorem State.modPort_us (s : State) (p : Fin 3) (f : APort → APort) : (s.modPort p f).us = s.us := rfl
@[simp] theorem State.modPort_pars (s : State) (p : Fin 3) (f : APort → APort) : (s.modPort p f).pars = s.pars := rfl
@[simp] theorem State.modPort_tm (s : State) (p : Fin 3) (f : APort → APort) : (s.modPort p f).tm = s.tm := rfl
@[simp] theorem State.modPort_cip (s : State) (p : Fin 3) (f : APort → APort) : (s.modPort p f).cip = s.cip := rfl
@[simp] theorem State.modPort_keys (s : State) (p : Fin 3) (f : APort → APort) : (s.modPort p f).keys = s.keys := rfl
@[simp] theorem State.modPort_ens (s : State) (p : Fin 3) (f : APort → APort) : (s.modPort p f).ens = s.ens := rfl
@[simp] theorem State.modPort_nvm (s : State) (p : Fin 3) (f : APort → APort) : (s.modPort p f).nvm = s.nvm := rfl
@[simp] theorem State.modPort_sec (s : State) (p : Fin 3) (f : APort → APort) : (s.modPort p f).sec = s.sec := rfl
@[simp] theorem State.modPort_fuses (s : State) (p : Fin 3) (f : APort → APort) : (s.modPort p f).fuses = s.fuses := rfl
@[simp] theorem State.modPort_fsec (s : State) (p : Fin 3) (f : APort → APort) : (s.modPort p f).fsec = s.fsec := rfl
@[simp] theorem State.modPort_firn (s : State) (p : Fin 3) (f : APort → APort) : (s.modPort p f).firn = s.firn := rfl

@[simp] theorem State.modTps_pending (s : State) (p : Fin 2) (f : Tps → Tps) : (s.modTps p f).pending = s.pending := rfl
@[simp] theorem State.modTps_now (s : State) (p : Fin 2) (f : Tps → Tps) : (s.modTps p f).now = s.now := rfl
@[simp] theorem State.modTps_rand (s : State) (p : Fin 2) (f : Tps → Tps) : (s.modTps p f).rand = s.rand := rfl
@[simp] theorem State.modTps_free (s : State) (p : Fin 2) (f : Tps → Tps) : (s.modTps p f).free = s.free := rfl
@[simp] theorem State.modTps_out (s : State) (p : Fin 2) (f : Tps → Tps) : (s.modTps p f).out = s.out := rfl
@[simp] theorem State.modTps_ao (s : State) (p : Fin 2) (f : Tps → Tps) : (s.modTps p f).ao = s.ao := rfl
@[simp] theorem State.modTps_pads (s : State) (p : Fin 2) (f : Tps → Tps) : (s.modTps p f).pads = s.pads := rfl
@[simp] theorem State.modTps_tw (s : State) (p : Fin 2) (f : Tps → Tps) : (s.modTps p f).tw = s.tw := rfl
@[simp] theorem State.modTps_power (s : State) (p : Fin 2) (f : Tps → Tps) : (s.modTps p f).power = s.power := rfl
@[simp] theorem State.modTps_boot (s : State) (p : Fin 2) (f : Tps → Tps) : (s.modTps p f).boot = s.boot := rfl
@[simp] theorem State.modTps_icb (s : State) (p : Fin 2) (f : Tps → Tps) : (s.modTps p f).icb = s.icb := rfl
@[simp] theorem State.modTps_tenants (s : State) (p : Fin 2) (f : Tps → Tps) : (s.modTps p f).tenants = s.tenants := rfl
@[simp] theorem State.modTps_store (s : State) (p : Fin 2) (f : Tps → Tps) : (s.modTps p f).store = s.store := rfl
@[simp] theorem State.modTps_mbx (s : State) (p : Fin 2) (f : Tps → Tps) : (s.modTps p f).mbx = s.mbx := rfl
@[simp] theorem State.modTps_evt (s : State) (p : Fin 2) (f : Tps → Tps) : (s.modTps p f).evt = s.evt := rfl
@[simp] theorem State.modTps_sram (s : State) (p : Fin 2) (f : Tps → Tps) : (s.modTps p f).sram = s.sram := rfl
@[simp] theorem State.modTps_time (s : State) (p : Fin 2) (f : Tps → Tps) : (s.modTps p f).time = s.time := rfl
@[simp] theorem State.modTps_clk (s : State) (p : Fin 2) (f : Tps → Tps) : (s.modTps p f).clk = s.clk := rfl
@[simp] theorem State.modTps_lanes (s : State) (p : Fin 2) (f : Tps → Tps) : (s.modTps p f).lanes = s.lanes := rfl
@[simp] theorem State.modTps_fr (s : State) (p : Fin 2) (f : Tps → Tps) : (s.modTps p f).fr = s.fr := rfl
@[simp] theorem State.modTps_reg (s : State) (p : Fin 2) (f : Tps → Tps) : (s.modTps p f).reg = s.reg := rfl
@[simp] theorem State.modTps_us (s : State) (p : Fin 2) (f : Tps → Tps) : (s.modTps p f).us = s.us := rfl
@[simp] theorem State.modTps_pars (s : State) (p : Fin 2) (f : Tps → Tps) : (s.modTps p f).pars = s.pars := rfl
@[simp] theorem State.modTps_tm (s : State) (p : Fin 2) (f : Tps → Tps) : (s.modTps p f).tm = s.tm := rfl
@[simp] theorem State.modTps_cip (s : State) (p : Fin 2) (f : Tps → Tps) : (s.modTps p f).cip = s.cip := rfl
@[simp] theorem State.modTps_keys (s : State) (p : Fin 2) (f : Tps → Tps) : (s.modTps p f).keys = s.keys := rfl
@[simp] theorem State.modTps_ens (s : State) (p : Fin 2) (f : Tps → Tps) : (s.modTps p f).ens = s.ens := rfl
@[simp] theorem State.modTps_nvm (s : State) (p : Fin 2) (f : Tps → Tps) : (s.modTps p f).nvm = s.nvm := rfl
@[simp] theorem State.modTps_sec (s : State) (p : Fin 2) (f : Tps → Tps) : (s.modTps p f).sec = s.sec := rfl
@[simp] theorem State.modTps_fuses (s : State) (p : Fin 2) (f : Tps → Tps) : (s.modTps p f).fuses = s.fuses := rfl
@[simp] theorem State.modTps_fsec (s : State) (p : Fin 2) (f : Tps → Tps) : (s.modTps p f).fsec = s.fsec := rfl
@[simp] theorem State.modTps_firn (s : State) (p : Fin 2) (f : Tps → Tps) : (s.modTps p f).firn = s.firn := rfl

@[simp] theorem State.raise_pending (s : State) (i : Fin 256) (data : Word) : (s.raise i data).pending = s.pending := by unfold State.raise; split <;> rfl
@[simp] theorem State.raise_now (s : State) (i : Fin 256) (data : Word) : (s.raise i data).now = s.now := by unfold State.raise; split <;> rfl
@[simp] theorem State.raise_rand (s : State) (i : Fin 256) (data : Word) : (s.raise i data).rand = s.rand := by unfold State.raise; split <;> rfl
@[simp] theorem State.raise_free (s : State) (i : Fin 256) (data : Word) : (s.raise i data).free = s.free := by unfold State.raise; split <;> rfl
@[simp] theorem State.raise_out (s : State) (i : Fin 256) (data : Word) : (s.raise i data).out = s.out := by unfold State.raise; split <;> rfl
@[simp] theorem State.raise_ao (s : State) (i : Fin 256) (data : Word) : (s.raise i data).ao = s.ao := by unfold State.raise; split <;> rfl
@[simp] theorem State.raise_pads (s : State) (i : Fin 256) (data : Word) : (s.raise i data).pads = s.pads := by unfold State.raise; split <;> rfl
@[simp] theorem State.raise_tw (s : State) (i : Fin 256) (data : Word) : (s.raise i data).tw = s.tw := by unfold State.raise; split <;> rfl
@[simp] theorem State.raise_power (s : State) (i : Fin 256) (data : Word) : (s.raise i data).power = s.power := by unfold State.raise; split <;> rfl
@[simp] theorem State.raise_boot (s : State) (i : Fin 256) (data : Word) : (s.raise i data).boot = s.boot := by unfold State.raise; split <;> rfl
@[simp] theorem State.raise_icb (s : State) (i : Fin 256) (data : Word) : (s.raise i data).icb = s.icb := by unfold State.raise; split <;> rfl
@[simp] theorem State.raise_tenants (s : State) (i : Fin 256) (data : Word) : (s.raise i data).tenants = s.tenants := by unfold State.raise; split <;> rfl
@[simp] theorem State.raise_store (s : State) (i : Fin 256) (data : Word) : (s.raise i data).store = s.store := by unfold State.raise; split <;> rfl
@[simp] theorem State.raise_mbx (s : State) (i : Fin 256) (data : Word) : (s.raise i data).mbx = s.mbx := by unfold State.raise; split <;> rfl
@[simp] theorem State.raise_sram (s : State) (i : Fin 256) (data : Word) : (s.raise i data).sram = s.sram := by unfold State.raise; split <;> rfl
@[simp] theorem State.raise_time (s : State) (i : Fin 256) (data : Word) : (s.raise i data).time = s.time := by unfold State.raise; split <;> rfl
@[simp] theorem State.raise_clk (s : State) (i : Fin 256) (data : Word) : (s.raise i data).clk = s.clk := by unfold State.raise; split <;> rfl
@[simp] theorem State.raise_lanes (s : State) (i : Fin 256) (data : Word) : (s.raise i data).lanes = s.lanes := by unfold State.raise; split <;> rfl
@[simp] theorem State.raise_fr (s : State) (i : Fin 256) (data : Word) : (s.raise i data).fr = s.fr := by unfold State.raise; split <;> rfl
@[simp] theorem State.raise_reg (s : State) (i : Fin 256) (data : Word) : (s.raise i data).reg = s.reg := by unfold State.raise; split <;> rfl
@[simp] theorem State.raise_us (s : State) (i : Fin 256) (data : Word) : (s.raise i data).us = s.us := by unfold State.raise; split <;> rfl
@[simp] theorem State.raise_pars (s : State) (i : Fin 256) (data : Word) : (s.raise i data).pars = s.pars := by unfold State.raise; split <;> rfl
@[simp] theorem State.raise_tm (s : State) (i : Fin 256) (data : Word) : (s.raise i data).tm = s.tm := by unfold State.raise; split <;> rfl
@[simp] theorem State.raise_cip (s : State) (i : Fin 256) (data : Word) : (s.raise i data).cip = s.cip := by unfold State.raise; split <;> rfl
@[simp] theorem State.raise_keys (s : State) (i : Fin 256) (data : Word) : (s.raise i data).keys = s.keys := by unfold State.raise; split <;> rfl
@[simp] theorem State.raise_ens (s : State) (i : Fin 256) (data : Word) : (s.raise i data).ens = s.ens := by unfold State.raise; split <;> rfl
@[simp] theorem State.raise_nvm (s : State) (i : Fin 256) (data : Word) : (s.raise i data).nvm = s.nvm := by unfold State.raise; split <;> rfl
@[simp] theorem State.raise_sec (s : State) (i : Fin 256) (data : Word) : (s.raise i data).sec = s.sec := by unfold State.raise; split <;> rfl
@[simp] theorem State.raise_fuses (s : State) (i : Fin 256) (data : Word) : (s.raise i data).fuses = s.fuses := by unfold State.raise; split <;> rfl
@[simp] theorem State.raise_fsec (s : State) (i : Fin 256) (data : Word) : (s.raise i data).fsec = s.fsec := by unfold State.raise; split <;> rfl
@[simp] theorem State.raise_firn (s : State) (i : Fin 256) (data : Word) : (s.raise i data).firn = s.firn := by unfold State.raise; split <;> rfl
@[simp] theorem State.raise_aud (s : State) (i : Fin 256) (data : Word) : (s.raise i data).aud = s.aud := by unfold State.raise; split <;> rfl

@[simp] theorem State.direct_pending (s : State) (c : Half) (ts : List Ten) (d : Nat) : (s.direct c ts d).pending = s.pending := by unfold State.direct; extract_lets; split <;> rfl
@[simp] theorem State.direct_now (s : State) (c : Half) (ts : List Ten) (d : Nat) : (s.direct c ts d).now = s.now := by unfold State.direct; extract_lets; split <;> rfl
@[simp] theorem State.direct_rand (s : State) (c : Half) (ts : List Ten) (d : Nat) : (s.direct c ts d).rand = s.rand := by unfold State.direct; extract_lets; split <;> rfl
@[simp] theorem State.direct_free (s : State) (c : Half) (ts : List Ten) (d : Nat) : (s.direct c ts d).free = s.free := by unfold State.direct; extract_lets; split <;> rfl
@[simp] theorem State.direct_out (s : State) (c : Half) (ts : List Ten) (d : Nat) : (s.direct c ts d).out = s.out := by unfold State.direct; extract_lets; split <;> rfl
@[simp] theorem State.direct_ao (s : State) (c : Half) (ts : List Ten) (d : Nat) : (s.direct c ts d).ao = s.ao := by unfold State.direct; extract_lets; split <;> rfl
@[simp] theorem State.direct_pads (s : State) (c : Half) (ts : List Ten) (d : Nat) : (s.direct c ts d).pads = s.pads := by unfold State.direct; extract_lets; split <;> rfl
@[simp] theorem State.direct_tw (s : State) (c : Half) (ts : List Ten) (d : Nat) : (s.direct c ts d).tw = s.tw := by unfold State.direct; extract_lets; split <;> rfl
@[simp] theorem State.direct_power (s : State) (c : Half) (ts : List Ten) (d : Nat) : (s.direct c ts d).power = s.power := by unfold State.direct; extract_lets; split <;> rfl
@[simp] theorem State.direct_boot (s : State) (c : Half) (ts : List Ten) (d : Nat) : (s.direct c ts d).boot = s.boot := by unfold State.direct; extract_lets; split <;> rfl
@[simp] theorem State.direct_icb (s : State) (c : Half) (ts : List Ten) (d : Nat) : (s.direct c ts d).icb = s.icb := by unfold State.direct; extract_lets; split <;> rfl
@[simp] theorem State.direct_tenants (s : State) (c : Half) (ts : List Ten) (d : Nat) : (s.direct c ts d).tenants = s.tenants := by unfold State.direct; extract_lets; split <;> rfl
@[simp] theorem State.direct_store (s : State) (c : Half) (ts : List Ten) (d : Nat) : (s.direct c ts d).store = s.store := by unfold State.direct; extract_lets; split <;> rfl
@[simp] theorem State.direct_mbx (s : State) (c : Half) (ts : List Ten) (d : Nat) : (s.direct c ts d).mbx = s.mbx := by unfold State.direct; extract_lets; split <;> rfl
@[simp] theorem State.direct_sram (s : State) (c : Half) (ts : List Ten) (d : Nat) : (s.direct c ts d).sram = s.sram := by unfold State.direct; extract_lets; split <;> rfl
@[simp] theorem State.direct_time (s : State) (c : Half) (ts : List Ten) (d : Nat) : (s.direct c ts d).time = s.time := by unfold State.direct; extract_lets; split <;> rfl
@[simp] theorem State.direct_clk (s : State) (c : Half) (ts : List Ten) (d : Nat) : (s.direct c ts d).clk = s.clk := by unfold State.direct; extract_lets; split <;> rfl
@[simp] theorem State.direct_lanes (s : State) (c : Half) (ts : List Ten) (d : Nat) : (s.direct c ts d).lanes = s.lanes := by unfold State.direct; extract_lets; split <;> rfl
@[simp] theorem State.direct_fr (s : State) (c : Half) (ts : List Ten) (d : Nat) : (s.direct c ts d).fr = s.fr := by unfold State.direct; extract_lets; split <;> rfl
@[simp] theorem State.direct_reg (s : State) (c : Half) (ts : List Ten) (d : Nat) : (s.direct c ts d).reg = s.reg := by unfold State.direct; extract_lets; split <;> rfl
@[simp] theorem State.direct_us (s : State) (c : Half) (ts : List Ten) (d : Nat) : (s.direct c ts d).us = s.us := by unfold State.direct; extract_lets; split <;> rfl
@[simp] theorem State.direct_pars (s : State) (c : Half) (ts : List Ten) (d : Nat) : (s.direct c ts d).pars = s.pars := by unfold State.direct; extract_lets; split <;> rfl
@[simp] theorem State.direct_tm (s : State) (c : Half) (ts : List Ten) (d : Nat) : (s.direct c ts d).tm = s.tm := by unfold State.direct; extract_lets; split <;> rfl
@[simp] theorem State.direct_cip (s : State) (c : Half) (ts : List Ten) (d : Nat) : (s.direct c ts d).cip = s.cip := by unfold State.direct; extract_lets; split <;> rfl
@[simp] theorem State.direct_keys (s : State) (c : Half) (ts : List Ten) (d : Nat) : (s.direct c ts d).keys = s.keys := by unfold State.direct; extract_lets; split <;> rfl
@[simp] theorem State.direct_ens (s : State) (c : Half) (ts : List Ten) (d : Nat) : (s.direct c ts d).ens = s.ens := by unfold State.direct; extract_lets; split <;> rfl
@[simp] theorem State.direct_nvm (s : State) (c : Half) (ts : List Ten) (d : Nat) : (s.direct c ts d).nvm = s.nvm := by unfold State.direct; extract_lets; split <;> rfl
@[simp] theorem State.direct_sec (s : State) (c : Half) (ts : List Ten) (d : Nat) : (s.direct c ts d).sec = s.sec := by unfold State.direct; extract_lets; split <;> rfl
@[simp] theorem State.direct_fuses (s : State) (c : Half) (ts : List Ten) (d : Nat) : (s.direct c ts d).fuses = s.fuses := by unfold State.direct; extract_lets; split <;> rfl
@[simp] theorem State.direct_fsec (s : State) (c : Half) (ts : List Ten) (d : Nat) : (s.direct c ts d).fsec = s.fsec := by unfold State.direct; extract_lets; split <;> rfl
@[simp] theorem State.direct_firn (s : State) (c : Half) (ts : List Ten) (d : Nat) : (s.direct c ts d).firn = s.firn := by unfold State.direct; extract_lets; split <;> rfl
@[simp] theorem State.direct_aud (s : State) (c : Half) (ts : List Ten) (d : Nat) : (s.direct c ts d).aud = s.aud := by unfold State.direct; extract_lets; split <;> rfl

/-! ### Fields a result leaves (R124) -/

theorem State.PostsTo.pending {s s' : State} (h : s.PostsTo s') : s'.pending = s.pending := by obtain ⟨_, _, _, _, _, _, _, rfl⟩ := h; rfl
theorem State.PostsTo.now {s s' : State} (h : s.PostsTo s') : s'.now = s.now := by obtain ⟨_, _, _, _, _, _, _, rfl⟩ := h; rfl
theorem State.PostsTo.rand {s s' : State} (h : s.PostsTo s') : s'.rand = s.rand := by obtain ⟨_, _, _, _, _, _, _, rfl⟩ := h; rfl
theorem State.PostsTo.free {s s' : State} (h : s.PostsTo s') : s'.free = s.free := by obtain ⟨_, _, _, _, _, _, _, rfl⟩ := h; rfl
theorem State.PostsTo.ao {s s' : State} (h : s.PostsTo s') : s'.ao = s.ao := by obtain ⟨_, _, _, _, _, _, _, rfl⟩ := h; rfl
theorem State.PostsTo.pads {s s' : State} (h : s.PostsTo s') : s'.pads = s.pads := by obtain ⟨_, _, _, _, _, _, _, rfl⟩ := h; rfl
theorem State.PostsTo.tw {s s' : State} (h : s.PostsTo s') : s'.tw = s.tw := by obtain ⟨_, _, _, _, _, _, _, rfl⟩ := h; rfl
theorem State.PostsTo.boot {s s' : State} (h : s.PostsTo s') : s'.boot = s.boot := by obtain ⟨_, _, _, _, _, _, _, rfl⟩ := h; rfl
theorem State.PostsTo.icb {s s' : State} (h : s.PostsTo s') : s'.icb = s.icb := by obtain ⟨_, _, _, _, _, _, _, rfl⟩ := h; rfl
theorem State.PostsTo.store {s s' : State} (h : s.PostsTo s') : s'.store = s.store := by obtain ⟨_, _, _, _, _, _, _, rfl⟩ := h; rfl
theorem State.PostsTo.mbx {s s' : State} (h : s.PostsTo s') : s'.mbx = s.mbx := by obtain ⟨_, _, _, _, _, _, _, rfl⟩ := h; rfl
theorem State.PostsTo.evt {s s' : State} (h : s.PostsTo s') : s'.evt = s.evt := by obtain ⟨_, _, _, _, _, _, _, rfl⟩ := h; rfl
theorem State.PostsTo.sram {s s' : State} (h : s.PostsTo s') : s'.sram = s.sram := by obtain ⟨_, _, _, _, _, _, _, rfl⟩ := h; rfl
theorem State.PostsTo.time {s s' : State} (h : s.PostsTo s') : s'.time = s.time := by obtain ⟨_, _, _, _, _, _, _, rfl⟩ := h; rfl
theorem State.PostsTo.clk {s s' : State} (h : s.PostsTo s') : s'.clk = s.clk := by obtain ⟨_, _, _, _, _, _, _, rfl⟩ := h; rfl
theorem State.PostsTo.lanes_phy {s s' : State} (h : s.PostsTo s') : s'.lanes.phy = s.lanes.phy := by obtain ⟨_, _, _, _, _, _, _, rfl⟩ := h; rfl
theorem State.PostsTo.lanes_prot {s s' : State} (h : s.PostsTo s') : s'.lanes.prot = s.lanes.prot := by obtain ⟨_, _, _, _, _, _, _, rfl⟩ := h; rfl
theorem State.PostsTo.fr {s s' : State} (h : s.PostsTo s') : s'.fr = s.fr := by obtain ⟨_, _, _, _, _, _, _, rfl⟩ := h; rfl
theorem State.PostsTo.reg {s s' : State} (h : s.PostsTo s') : s'.reg = s.reg := by obtain ⟨_, _, _, _, _, _, _, rfl⟩ := h; rfl
theorem State.PostsTo.pars {s s' : State} (h : s.PostsTo s') : s'.pars = s.pars := by obtain ⟨_, _, _, _, _, _, _, rfl⟩ := h; rfl
theorem State.PostsTo.tm {s s' : State} (h : s.PostsTo s') : s'.tm = s.tm := by obtain ⟨_, _, _, _, _, _, _, rfl⟩ := h; rfl
theorem State.PostsTo.cip_bank {s s' : State} (h : s.PostsTo s') : s'.cip.bank = s.cip.bank := by obtain ⟨_, _, _, _, _, _, _, rfl⟩ := h; rfl
theorem State.PostsTo.cip_kbus {s s' : State} (h : s.PostsTo s') : s'.cip.kbus = s.cip.kbus := by obtain ⟨_, _, _, _, _, _, _, rfl⟩ := h; rfl
theorem State.PostsTo.cip_core {s s' : State} (h : s.PostsTo s') : s'.cip.core = s.cip.core := by obtain ⟨_, _, _, _, _, _, _, rfl⟩ := h; rfl
theorem State.PostsTo.cip_fenced {s s' : State} (h : s.PostsTo s') : s'.cip.fenced = s.cip.fenced := by obtain ⟨_, _, _, _, _, _, _, rfl⟩ := h; rfl
theorem State.PostsTo.cip_decq {s s' : State} (h : s.PostsTo s') : s'.cip.decq = s.cip.decq := by obtain ⟨_, _, _, _, _, _, _, rfl⟩ := h; rfl
theorem State.PostsTo.cip_sealq {s s' : State} (h : s.PostsTo s') : s'.cip.sealq = s.cip.sealq := by obtain ⟨_, _, _, _, _, _, _, rfl⟩ := h; rfl
theorem State.PostsTo.cip_jobs {s s' : State} (h : s.PostsTo s') : s'.cip.jobs = s.cip.jobs := by obtain ⟨_, _, _, _, _, _, _, rfl⟩ := h; rfl
theorem State.PostsTo.cip_run {s s' : State} (h : s.PostsTo s') : s'.cip.run = s.cip.run := by obtain ⟨_, _, _, _, _, _, _, rfl⟩ := h; rfl
theorem State.PostsTo.keys {s s' : State} (h : s.PostsTo s') : s'.keys = s.keys := by obtain ⟨_, _, _, _, _, _, _, rfl⟩ := h; rfl
theorem State.PostsTo.ens {s s' : State} (h : s.PostsTo s') : s'.ens = s.ens := by obtain ⟨_, _, _, _, _, _, _, rfl⟩ := h; rfl
theorem State.PostsTo.nvm {s s' : State} (h : s.PostsTo s') : s'.nvm = s.nvm := by obtain ⟨_, _, _, _, _, _, _, rfl⟩ := h; rfl
theorem State.PostsTo.sec {s s' : State} (h : s.PostsTo s') : s'.sec = s.sec := by obtain ⟨_, _, _, _, _, _, _, rfl⟩ := h; rfl
theorem State.PostsTo.fuses {s s' : State} (h : s.PostsTo s') : s'.fuses = s.fuses := by obtain ⟨_, _, _, _, _, _, _, rfl⟩ := h; rfl
theorem State.PostsTo.fsec {s s' : State} (h : s.PostsTo s') : s'.fsec = s.fsec := by obtain ⟨_, _, _, _, _, _, _, rfl⟩ := h; rfl
theorem State.PostsTo.firn {s s' : State} (h : s.PostsTo s') : s'.firn = s.firn := by obtain ⟨_, _, _, _, _, _, _, rfl⟩ := h; rfl
theorem State.PostsTo.aud {s s' : State} (h : s.PostsTo s') : s'.aud = s.aud := by obtain ⟨_, _, _, _, _, _, _, rfl⟩ := h; rfl

@[simp] theorem State.queueLmm_pending (s : State) (type : Byte) (body : List Byte) : (s.queueLmm type body).pending = s.pending := (s.queueLmm_posts type body).pending
@[simp] theorem State.queueLmm_now (s : State) (type : Byte) (body : List Byte) : (s.queueLmm type body).now = s.now := (s.queueLmm_posts type body).now
@[simp] theorem State.queueLmm_rand (s : State) (type : Byte) (body : List Byte) : (s.queueLmm type body).rand = s.rand := (s.queueLmm_posts type body).rand
@[simp] theorem State.queueLmm_free (s : State) (type : Byte) (body : List Byte) : (s.queueLmm type body).free = s.free := (s.queueLmm_posts type body).free
@[simp] theorem State.queueLmm_ao (s : State) (type : Byte) (body : List Byte) : (s.queueLmm type body).ao = s.ao := (s.queueLmm_posts type body).ao
@[simp] theorem State.queueLmm_pads (s : State) (type : Byte) (body : List Byte) : (s.queueLmm type body).pads = s.pads := (s.queueLmm_posts type body).pads
@[simp] theorem State.queueLmm_tw (s : State) (type : Byte) (body : List Byte) : (s.queueLmm type body).tw = s.tw := (s.queueLmm_posts type body).tw
@[simp] theorem State.queueLmm_boot (s : State) (type : Byte) (body : List Byte) : (s.queueLmm type body).boot = s.boot := (s.queueLmm_posts type body).boot
@[simp] theorem State.queueLmm_icb (s : State) (type : Byte) (body : List Byte) : (s.queueLmm type body).icb = s.icb := (s.queueLmm_posts type body).icb
@[simp] theorem State.queueLmm_store (s : State) (type : Byte) (body : List Byte) : (s.queueLmm type body).store = s.store := (s.queueLmm_posts type body).store
@[simp] theorem State.queueLmm_mbx (s : State) (type : Byte) (body : List Byte) : (s.queueLmm type body).mbx = s.mbx := (s.queueLmm_posts type body).mbx
@[simp] theorem State.queueLmm_evt (s : State) (type : Byte) (body : List Byte) : (s.queueLmm type body).evt = s.evt := (s.queueLmm_posts type body).evt
@[simp] theorem State.queueLmm_sram (s : State) (type : Byte) (body : List Byte) : (s.queueLmm type body).sram = s.sram := (s.queueLmm_posts type body).sram
@[simp] theorem State.queueLmm_time (s : State) (type : Byte) (body : List Byte) : (s.queueLmm type body).time = s.time := (s.queueLmm_posts type body).time
@[simp] theorem State.queueLmm_clk (s : State) (type : Byte) (body : List Byte) : (s.queueLmm type body).clk = s.clk := (s.queueLmm_posts type body).clk
@[simp] theorem State.queueLmm_lanes_phy (s : State) (type : Byte) (body : List Byte) : (s.queueLmm type body).lanes.phy = s.lanes.phy := (s.queueLmm_posts type body).lanes_phy
@[simp] theorem State.queueLmm_lanes_prot (s : State) (type : Byte) (body : List Byte) : (s.queueLmm type body).lanes.prot = s.lanes.prot := (s.queueLmm_posts type body).lanes_prot
@[simp] theorem State.queueLmm_fr (s : State) (type : Byte) (body : List Byte) : (s.queueLmm type body).fr = s.fr := (s.queueLmm_posts type body).fr
@[simp] theorem State.queueLmm_reg (s : State) (type : Byte) (body : List Byte) : (s.queueLmm type body).reg = s.reg := (s.queueLmm_posts type body).reg
@[simp] theorem State.queueLmm_pars (s : State) (type : Byte) (body : List Byte) : (s.queueLmm type body).pars = s.pars := (s.queueLmm_posts type body).pars
@[simp] theorem State.queueLmm_tm (s : State) (type : Byte) (body : List Byte) : (s.queueLmm type body).tm = s.tm := (s.queueLmm_posts type body).tm
@[simp] theorem State.queueLmm_cip_bank (s : State) (type : Byte) (body : List Byte) : (s.queueLmm type body).cip.bank = s.cip.bank := (s.queueLmm_posts type body).cip_bank
@[simp] theorem State.queueLmm_cip_kbus (s : State) (type : Byte) (body : List Byte) : (s.queueLmm type body).cip.kbus = s.cip.kbus := (s.queueLmm_posts type body).cip_kbus
@[simp] theorem State.queueLmm_cip_core (s : State) (type : Byte) (body : List Byte) : (s.queueLmm type body).cip.core = s.cip.core := (s.queueLmm_posts type body).cip_core
@[simp] theorem State.queueLmm_cip_fenced (s : State) (type : Byte) (body : List Byte) : (s.queueLmm type body).cip.fenced = s.cip.fenced := (s.queueLmm_posts type body).cip_fenced
@[simp] theorem State.queueLmm_cip_decq (s : State) (type : Byte) (body : List Byte) : (s.queueLmm type body).cip.decq = s.cip.decq := (s.queueLmm_posts type body).cip_decq
@[simp] theorem State.queueLmm_cip_sealq (s : State) (type : Byte) (body : List Byte) : (s.queueLmm type body).cip.sealq = s.cip.sealq := (s.queueLmm_posts type body).cip_sealq
@[simp] theorem State.queueLmm_cip_jobs (s : State) (type : Byte) (body : List Byte) : (s.queueLmm type body).cip.jobs = s.cip.jobs := (s.queueLmm_posts type body).cip_jobs
@[simp] theorem State.queueLmm_cip_run (s : State) (type : Byte) (body : List Byte) : (s.queueLmm type body).cip.run = s.cip.run := (s.queueLmm_posts type body).cip_run
@[simp] theorem State.queueLmm_keys (s : State) (type : Byte) (body : List Byte) : (s.queueLmm type body).keys = s.keys := (s.queueLmm_posts type body).keys
@[simp] theorem State.queueLmm_ens (s : State) (type : Byte) (body : List Byte) : (s.queueLmm type body).ens = s.ens := (s.queueLmm_posts type body).ens
@[simp] theorem State.queueLmm_nvm (s : State) (type : Byte) (body : List Byte) : (s.queueLmm type body).nvm = s.nvm := (s.queueLmm_posts type body).nvm
@[simp] theorem State.queueLmm_sec (s : State) (type : Byte) (body : List Byte) : (s.queueLmm type body).sec = s.sec := (s.queueLmm_posts type body).sec
@[simp] theorem State.queueLmm_fuses (s : State) (type : Byte) (body : List Byte) : (s.queueLmm type body).fuses = s.fuses := (s.queueLmm_posts type body).fuses
@[simp] theorem State.queueLmm_fsec (s : State) (type : Byte) (body : List Byte) : (s.queueLmm type body).fsec = s.fsec := (s.queueLmm_posts type body).fsec
@[simp] theorem State.queueLmm_firn (s : State) (type : Byte) (body : List Byte) : (s.queueLmm type body).firn = s.firn := (s.queueLmm_posts type body).firn
@[simp] theorem State.queueLmm_aud (s : State) (type : Byte) (body : List Byte) : (s.queueLmm type body).aud = s.aud := (s.queueLmm_posts type body).aud

@[simp] theorem State.sendNotice_pending (s : State) (t : Ten) : (s.sendNotice t).pending = s.pending := (s.sendNotice_posts t).pending
@[simp] theorem State.sendNotice_now (s : State) (t : Ten) : (s.sendNotice t).now = s.now := (s.sendNotice_posts t).now
@[simp] theorem State.sendNotice_rand (s : State) (t : Ten) : (s.sendNotice t).rand = s.rand := (s.sendNotice_posts t).rand
@[simp] theorem State.sendNotice_free (s : State) (t : Ten) : (s.sendNotice t).free = s.free := (s.sendNotice_posts t).free
@[simp] theorem State.sendNotice_ao (s : State) (t : Ten) : (s.sendNotice t).ao = s.ao := (s.sendNotice_posts t).ao
@[simp] theorem State.sendNotice_pads (s : State) (t : Ten) : (s.sendNotice t).pads = s.pads := (s.sendNotice_posts t).pads
@[simp] theorem State.sendNotice_tw (s : State) (t : Ten) : (s.sendNotice t).tw = s.tw := (s.sendNotice_posts t).tw
@[simp] theorem State.sendNotice_boot (s : State) (t : Ten) : (s.sendNotice t).boot = s.boot := (s.sendNotice_posts t).boot
@[simp] theorem State.sendNotice_icb (s : State) (t : Ten) : (s.sendNotice t).icb = s.icb := (s.sendNotice_posts t).icb
@[simp] theorem State.sendNotice_store (s : State) (t : Ten) : (s.sendNotice t).store = s.store := (s.sendNotice_posts t).store
@[simp] theorem State.sendNotice_mbx (s : State) (t : Ten) : (s.sendNotice t).mbx = s.mbx := (s.sendNotice_posts t).mbx
@[simp] theorem State.sendNotice_evt (s : State) (t : Ten) : (s.sendNotice t).evt = s.evt := (s.sendNotice_posts t).evt
@[simp] theorem State.sendNotice_sram (s : State) (t : Ten) : (s.sendNotice t).sram = s.sram := (s.sendNotice_posts t).sram
@[simp] theorem State.sendNotice_time (s : State) (t : Ten) : (s.sendNotice t).time = s.time := (s.sendNotice_posts t).time
@[simp] theorem State.sendNotice_clk (s : State) (t : Ten) : (s.sendNotice t).clk = s.clk := (s.sendNotice_posts t).clk
@[simp] theorem State.sendNotice_lanes_phy (s : State) (t : Ten) : (s.sendNotice t).lanes.phy = s.lanes.phy := (s.sendNotice_posts t).lanes_phy
@[simp] theorem State.sendNotice_lanes_prot (s : State) (t : Ten) : (s.sendNotice t).lanes.prot = s.lanes.prot := (s.sendNotice_posts t).lanes_prot
@[simp] theorem State.sendNotice_fr (s : State) (t : Ten) : (s.sendNotice t).fr = s.fr := (s.sendNotice_posts t).fr
@[simp] theorem State.sendNotice_reg (s : State) (t : Ten) : (s.sendNotice t).reg = s.reg := (s.sendNotice_posts t).reg
@[simp] theorem State.sendNotice_pars (s : State) (t : Ten) : (s.sendNotice t).pars = s.pars := (s.sendNotice_posts t).pars
@[simp] theorem State.sendNotice_tm (s : State) (t : Ten) : (s.sendNotice t).tm = s.tm := (s.sendNotice_posts t).tm
@[simp] theorem State.sendNotice_cip_bank (s : State) (t : Ten) : (s.sendNotice t).cip.bank = s.cip.bank := (s.sendNotice_posts t).cip_bank
@[simp] theorem State.sendNotice_cip_kbus (s : State) (t : Ten) : (s.sendNotice t).cip.kbus = s.cip.kbus := (s.sendNotice_posts t).cip_kbus
@[simp] theorem State.sendNotice_cip_core (s : State) (t : Ten) : (s.sendNotice t).cip.core = s.cip.core := (s.sendNotice_posts t).cip_core
@[simp] theorem State.sendNotice_cip_fenced (s : State) (t : Ten) : (s.sendNotice t).cip.fenced = s.cip.fenced := (s.sendNotice_posts t).cip_fenced
@[simp] theorem State.sendNotice_cip_decq (s : State) (t : Ten) : (s.sendNotice t).cip.decq = s.cip.decq := (s.sendNotice_posts t).cip_decq
@[simp] theorem State.sendNotice_cip_sealq (s : State) (t : Ten) : (s.sendNotice t).cip.sealq = s.cip.sealq := (s.sendNotice_posts t).cip_sealq
@[simp] theorem State.sendNotice_cip_jobs (s : State) (t : Ten) : (s.sendNotice t).cip.jobs = s.cip.jobs := (s.sendNotice_posts t).cip_jobs
@[simp] theorem State.sendNotice_cip_run (s : State) (t : Ten) : (s.sendNotice t).cip.run = s.cip.run := (s.sendNotice_posts t).cip_run
@[simp] theorem State.sendNotice_keys (s : State) (t : Ten) : (s.sendNotice t).keys = s.keys := (s.sendNotice_posts t).keys
@[simp] theorem State.sendNotice_ens (s : State) (t : Ten) : (s.sendNotice t).ens = s.ens := (s.sendNotice_posts t).ens
@[simp] theorem State.sendNotice_nvm (s : State) (t : Ten) : (s.sendNotice t).nvm = s.nvm := (s.sendNotice_posts t).nvm
@[simp] theorem State.sendNotice_sec (s : State) (t : Ten) : (s.sendNotice t).sec = s.sec := (s.sendNotice_posts t).sec
@[simp] theorem State.sendNotice_fuses (s : State) (t : Ten) : (s.sendNotice t).fuses = s.fuses := (s.sendNotice_posts t).fuses
@[simp] theorem State.sendNotice_fsec (s : State) (t : Ten) : (s.sendNotice t).fsec = s.fsec := (s.sendNotice_posts t).fsec
@[simp] theorem State.sendNotice_firn (s : State) (t : Ten) : (s.sendNotice t).firn = s.firn := (s.sendNotice_posts t).firn
@[simp] theorem State.sendNotice_aud (s : State) (t : Ten) : (s.sendNotice t).aud = s.aud := (s.sendNotice_posts t).aud

@[simp] theorem State.notify_pending (s : State) (t : Ten) : (s.notify t).pending = s.pending := (s.notify_posts t).pending
@[simp] theorem State.notify_now (s : State) (t : Ten) : (s.notify t).now = s.now := (s.notify_posts t).now
@[simp] theorem State.notify_rand (s : State) (t : Ten) : (s.notify t).rand = s.rand := (s.notify_posts t).rand
@[simp] theorem State.notify_free (s : State) (t : Ten) : (s.notify t).free = s.free := (s.notify_posts t).free
@[simp] theorem State.notify_ao (s : State) (t : Ten) : (s.notify t).ao = s.ao := (s.notify_posts t).ao
@[simp] theorem State.notify_pads (s : State) (t : Ten) : (s.notify t).pads = s.pads := (s.notify_posts t).pads
@[simp] theorem State.notify_tw (s : State) (t : Ten) : (s.notify t).tw = s.tw := (s.notify_posts t).tw
@[simp] theorem State.notify_boot (s : State) (t : Ten) : (s.notify t).boot = s.boot := (s.notify_posts t).boot
@[simp] theorem State.notify_icb (s : State) (t : Ten) : (s.notify t).icb = s.icb := (s.notify_posts t).icb
@[simp] theorem State.notify_store (s : State) (t : Ten) : (s.notify t).store = s.store := (s.notify_posts t).store
@[simp] theorem State.notify_mbx (s : State) (t : Ten) : (s.notify t).mbx = s.mbx := (s.notify_posts t).mbx
@[simp] theorem State.notify_evt (s : State) (t : Ten) : (s.notify t).evt = s.evt := (s.notify_posts t).evt
@[simp] theorem State.notify_sram (s : State) (t : Ten) : (s.notify t).sram = s.sram := (s.notify_posts t).sram
@[simp] theorem State.notify_time (s : State) (t : Ten) : (s.notify t).time = s.time := (s.notify_posts t).time
@[simp] theorem State.notify_clk (s : State) (t : Ten) : (s.notify t).clk = s.clk := (s.notify_posts t).clk
@[simp] theorem State.notify_lanes_phy (s : State) (t : Ten) : (s.notify t).lanes.phy = s.lanes.phy := (s.notify_posts t).lanes_phy
@[simp] theorem State.notify_lanes_prot (s : State) (t : Ten) : (s.notify t).lanes.prot = s.lanes.prot := (s.notify_posts t).lanes_prot
@[simp] theorem State.notify_fr (s : State) (t : Ten) : (s.notify t).fr = s.fr := (s.notify_posts t).fr
@[simp] theorem State.notify_reg (s : State) (t : Ten) : (s.notify t).reg = s.reg := (s.notify_posts t).reg
@[simp] theorem State.notify_pars (s : State) (t : Ten) : (s.notify t).pars = s.pars := (s.notify_posts t).pars
@[simp] theorem State.notify_tm (s : State) (t : Ten) : (s.notify t).tm = s.tm := (s.notify_posts t).tm
@[simp] theorem State.notify_cip_bank (s : State) (t : Ten) : (s.notify t).cip.bank = s.cip.bank := (s.notify_posts t).cip_bank
@[simp] theorem State.notify_cip_kbus (s : State) (t : Ten) : (s.notify t).cip.kbus = s.cip.kbus := (s.notify_posts t).cip_kbus
@[simp] theorem State.notify_cip_core (s : State) (t : Ten) : (s.notify t).cip.core = s.cip.core := (s.notify_posts t).cip_core
@[simp] theorem State.notify_cip_fenced (s : State) (t : Ten) : (s.notify t).cip.fenced = s.cip.fenced := (s.notify_posts t).cip_fenced
@[simp] theorem State.notify_cip_decq (s : State) (t : Ten) : (s.notify t).cip.decq = s.cip.decq := (s.notify_posts t).cip_decq
@[simp] theorem State.notify_cip_sealq (s : State) (t : Ten) : (s.notify t).cip.sealq = s.cip.sealq := (s.notify_posts t).cip_sealq
@[simp] theorem State.notify_cip_jobs (s : State) (t : Ten) : (s.notify t).cip.jobs = s.cip.jobs := (s.notify_posts t).cip_jobs
@[simp] theorem State.notify_cip_run (s : State) (t : Ten) : (s.notify t).cip.run = s.cip.run := (s.notify_posts t).cip_run
@[simp] theorem State.notify_keys (s : State) (t : Ten) : (s.notify t).keys = s.keys := (s.notify_posts t).keys
@[simp] theorem State.notify_ens (s : State) (t : Ten) : (s.notify t).ens = s.ens := (s.notify_posts t).ens
@[simp] theorem State.notify_nvm (s : State) (t : Ten) : (s.notify t).nvm = s.nvm := (s.notify_posts t).nvm
@[simp] theorem State.notify_sec (s : State) (t : Ten) : (s.notify t).sec = s.sec := (s.notify_posts t).sec
@[simp] theorem State.notify_fuses (s : State) (t : Ten) : (s.notify t).fuses = s.fuses := (s.notify_posts t).fuses
@[simp] theorem State.notify_fsec (s : State) (t : Ten) : (s.notify t).fsec = s.fsec := (s.notify_posts t).fsec
@[simp] theorem State.notify_firn (s : State) (t : Ten) : (s.notify t).firn = s.firn := (s.notify_posts t).firn
@[simp] theorem State.notify_aud (s : State) (t : Ten) : (s.notify t).aud = s.aud := (s.notify_posts t).aud

@[simp] theorem State.post_pending (s : State) (t : Ten) (n : SlotIx) (st : Half) (data : List Byte) (b : Bool) : (s.post t n st data b).pending = s.pending := (s.post_posts t n st data b).pending
@[simp] theorem State.post_now (s : State) (t : Ten) (n : SlotIx) (st : Half) (data : List Byte) (b : Bool) : (s.post t n st data b).now = s.now := (s.post_posts t n st data b).now
@[simp] theorem State.post_rand (s : State) (t : Ten) (n : SlotIx) (st : Half) (data : List Byte) (b : Bool) : (s.post t n st data b).rand = s.rand := (s.post_posts t n st data b).rand
@[simp] theorem State.post_free (s : State) (t : Ten) (n : SlotIx) (st : Half) (data : List Byte) (b : Bool) : (s.post t n st data b).free = s.free := (s.post_posts t n st data b).free
@[simp] theorem State.post_ao (s : State) (t : Ten) (n : SlotIx) (st : Half) (data : List Byte) (b : Bool) : (s.post t n st data b).ao = s.ao := (s.post_posts t n st data b).ao
@[simp] theorem State.post_pads (s : State) (t : Ten) (n : SlotIx) (st : Half) (data : List Byte) (b : Bool) : (s.post t n st data b).pads = s.pads := (s.post_posts t n st data b).pads
@[simp] theorem State.post_tw (s : State) (t : Ten) (n : SlotIx) (st : Half) (data : List Byte) (b : Bool) : (s.post t n st data b).tw = s.tw := (s.post_posts t n st data b).tw
@[simp] theorem State.post_boot (s : State) (t : Ten) (n : SlotIx) (st : Half) (data : List Byte) (b : Bool) : (s.post t n st data b).boot = s.boot := (s.post_posts t n st data b).boot
@[simp] theorem State.post_icb (s : State) (t : Ten) (n : SlotIx) (st : Half) (data : List Byte) (b : Bool) : (s.post t n st data b).icb = s.icb := (s.post_posts t n st data b).icb
@[simp] theorem State.post_store (s : State) (t : Ten) (n : SlotIx) (st : Half) (data : List Byte) (b : Bool) : (s.post t n st data b).store = s.store := (s.post_posts t n st data b).store
@[simp] theorem State.post_mbx (s : State) (t : Ten) (n : SlotIx) (st : Half) (data : List Byte) (b : Bool) : (s.post t n st data b).mbx = s.mbx := (s.post_posts t n st data b).mbx
@[simp] theorem State.post_evt (s : State) (t : Ten) (n : SlotIx) (st : Half) (data : List Byte) (b : Bool) : (s.post t n st data b).evt = s.evt := (s.post_posts t n st data b).evt
@[simp] theorem State.post_sram (s : State) (t : Ten) (n : SlotIx) (st : Half) (data : List Byte) (b : Bool) : (s.post t n st data b).sram = s.sram := (s.post_posts t n st data b).sram
@[simp] theorem State.post_time (s : State) (t : Ten) (n : SlotIx) (st : Half) (data : List Byte) (b : Bool) : (s.post t n st data b).time = s.time := (s.post_posts t n st data b).time
@[simp] theorem State.post_clk (s : State) (t : Ten) (n : SlotIx) (st : Half) (data : List Byte) (b : Bool) : (s.post t n st data b).clk = s.clk := (s.post_posts t n st data b).clk
@[simp] theorem State.post_lanes_phy (s : State) (t : Ten) (n : SlotIx) (st : Half) (data : List Byte) (b : Bool) : (s.post t n st data b).lanes.phy = s.lanes.phy := (s.post_posts t n st data b).lanes_phy
@[simp] theorem State.post_lanes_prot (s : State) (t : Ten) (n : SlotIx) (st : Half) (data : List Byte) (b : Bool) : (s.post t n st data b).lanes.prot = s.lanes.prot := (s.post_posts t n st data b).lanes_prot
@[simp] theorem State.post_fr (s : State) (t : Ten) (n : SlotIx) (st : Half) (data : List Byte) (b : Bool) : (s.post t n st data b).fr = s.fr := (s.post_posts t n st data b).fr
@[simp] theorem State.post_reg (s : State) (t : Ten) (n : SlotIx) (st : Half) (data : List Byte) (b : Bool) : (s.post t n st data b).reg = s.reg := (s.post_posts t n st data b).reg
@[simp] theorem State.post_pars (s : State) (t : Ten) (n : SlotIx) (st : Half) (data : List Byte) (b : Bool) : (s.post t n st data b).pars = s.pars := (s.post_posts t n st data b).pars
@[simp] theorem State.post_tm (s : State) (t : Ten) (n : SlotIx) (st : Half) (data : List Byte) (b : Bool) : (s.post t n st data b).tm = s.tm := (s.post_posts t n st data b).tm
@[simp] theorem State.post_cip_bank (s : State) (t : Ten) (n : SlotIx) (st : Half) (data : List Byte) (b : Bool) : (s.post t n st data b).cip.bank = s.cip.bank := (s.post_posts t n st data b).cip_bank
@[simp] theorem State.post_cip_kbus (s : State) (t : Ten) (n : SlotIx) (st : Half) (data : List Byte) (b : Bool) : (s.post t n st data b).cip.kbus = s.cip.kbus := (s.post_posts t n st data b).cip_kbus
@[simp] theorem State.post_cip_core (s : State) (t : Ten) (n : SlotIx) (st : Half) (data : List Byte) (b : Bool) : (s.post t n st data b).cip.core = s.cip.core := (s.post_posts t n st data b).cip_core
@[simp] theorem State.post_cip_fenced (s : State) (t : Ten) (n : SlotIx) (st : Half) (data : List Byte) (b : Bool) : (s.post t n st data b).cip.fenced = s.cip.fenced := (s.post_posts t n st data b).cip_fenced
@[simp] theorem State.post_cip_decq (s : State) (t : Ten) (n : SlotIx) (st : Half) (data : List Byte) (b : Bool) : (s.post t n st data b).cip.decq = s.cip.decq := (s.post_posts t n st data b).cip_decq
@[simp] theorem State.post_cip_sealq (s : State) (t : Ten) (n : SlotIx) (st : Half) (data : List Byte) (b : Bool) : (s.post t n st data b).cip.sealq = s.cip.sealq := (s.post_posts t n st data b).cip_sealq
@[simp] theorem State.post_cip_jobs (s : State) (t : Ten) (n : SlotIx) (st : Half) (data : List Byte) (b : Bool) : (s.post t n st data b).cip.jobs = s.cip.jobs := (s.post_posts t n st data b).cip_jobs
@[simp] theorem State.post_cip_run (s : State) (t : Ten) (n : SlotIx) (st : Half) (data : List Byte) (b : Bool) : (s.post t n st data b).cip.run = s.cip.run := (s.post_posts t n st data b).cip_run
@[simp] theorem State.post_keys (s : State) (t : Ten) (n : SlotIx) (st : Half) (data : List Byte) (b : Bool) : (s.post t n st data b).keys = s.keys := (s.post_posts t n st data b).keys
@[simp] theorem State.post_ens (s : State) (t : Ten) (n : SlotIx) (st : Half) (data : List Byte) (b : Bool) : (s.post t n st data b).ens = s.ens := (s.post_posts t n st data b).ens
@[simp] theorem State.post_nvm (s : State) (t : Ten) (n : SlotIx) (st : Half) (data : List Byte) (b : Bool) : (s.post t n st data b).nvm = s.nvm := (s.post_posts t n st data b).nvm
@[simp] theorem State.post_sec (s : State) (t : Ten) (n : SlotIx) (st : Half) (data : List Byte) (b : Bool) : (s.post t n st data b).sec = s.sec := (s.post_posts t n st data b).sec
@[simp] theorem State.post_fuses (s : State) (t : Ten) (n : SlotIx) (st : Half) (data : List Byte) (b : Bool) : (s.post t n st data b).fuses = s.fuses := (s.post_posts t n st data b).fuses
@[simp] theorem State.post_fsec (s : State) (t : Ten) (n : SlotIx) (st : Half) (data : List Byte) (b : Bool) : (s.post t n st data b).fsec = s.fsec := (s.post_posts t n st data b).fsec
@[simp] theorem State.post_firn (s : State) (t : Ten) (n : SlotIx) (st : Half) (data : List Byte) (b : Bool) : (s.post t n st data b).firn = s.firn := (s.post_posts t n st data b).firn
@[simp] theorem State.post_aud (s : State) (t : Ten) (n : SlotIx) (st : Half) (data : List Byte) (b : Bool) : (s.post t n st data b).aud = s.aud := (s.post_posts t n st data b).aud

@[simp] theorem State.done_pending (s : State) (t : Ten) (n : SlotIx) (st : Half) : (s.done t n st).pending = s.pending := (s.done_posts t n st).pending
@[simp] theorem State.done_now (s : State) (t : Ten) (n : SlotIx) (st : Half) : (s.done t n st).now = s.now := (s.done_posts t n st).now
@[simp] theorem State.done_rand (s : State) (t : Ten) (n : SlotIx) (st : Half) : (s.done t n st).rand = s.rand := (s.done_posts t n st).rand
@[simp] theorem State.done_free (s : State) (t : Ten) (n : SlotIx) (st : Half) : (s.done t n st).free = s.free := (s.done_posts t n st).free
@[simp] theorem State.done_ao (s : State) (t : Ten) (n : SlotIx) (st : Half) : (s.done t n st).ao = s.ao := (s.done_posts t n st).ao
@[simp] theorem State.done_pads (s : State) (t : Ten) (n : SlotIx) (st : Half) : (s.done t n st).pads = s.pads := (s.done_posts t n st).pads
@[simp] theorem State.done_tw (s : State) (t : Ten) (n : SlotIx) (st : Half) : (s.done t n st).tw = s.tw := (s.done_posts t n st).tw
@[simp] theorem State.done_boot (s : State) (t : Ten) (n : SlotIx) (st : Half) : (s.done t n st).boot = s.boot := (s.done_posts t n st).boot
@[simp] theorem State.done_icb (s : State) (t : Ten) (n : SlotIx) (st : Half) : (s.done t n st).icb = s.icb := (s.done_posts t n st).icb
@[simp] theorem State.done_store (s : State) (t : Ten) (n : SlotIx) (st : Half) : (s.done t n st).store = s.store := (s.done_posts t n st).store
@[simp] theorem State.done_mbx (s : State) (t : Ten) (n : SlotIx) (st : Half) : (s.done t n st).mbx = s.mbx := (s.done_posts t n st).mbx
@[simp] theorem State.done_evt (s : State) (t : Ten) (n : SlotIx) (st : Half) : (s.done t n st).evt = s.evt := (s.done_posts t n st).evt
@[simp] theorem State.done_sram (s : State) (t : Ten) (n : SlotIx) (st : Half) : (s.done t n st).sram = s.sram := (s.done_posts t n st).sram
@[simp] theorem State.done_time (s : State) (t : Ten) (n : SlotIx) (st : Half) : (s.done t n st).time = s.time := (s.done_posts t n st).time
@[simp] theorem State.done_clk (s : State) (t : Ten) (n : SlotIx) (st : Half) : (s.done t n st).clk = s.clk := (s.done_posts t n st).clk
@[simp] theorem State.done_lanes_phy (s : State) (t : Ten) (n : SlotIx) (st : Half) : (s.done t n st).lanes.phy = s.lanes.phy := (s.done_posts t n st).lanes_phy
@[simp] theorem State.done_lanes_prot (s : State) (t : Ten) (n : SlotIx) (st : Half) : (s.done t n st).lanes.prot = s.lanes.prot := (s.done_posts t n st).lanes_prot
@[simp] theorem State.done_fr (s : State) (t : Ten) (n : SlotIx) (st : Half) : (s.done t n st).fr = s.fr := (s.done_posts t n st).fr
@[simp] theorem State.done_reg (s : State) (t : Ten) (n : SlotIx) (st : Half) : (s.done t n st).reg = s.reg := (s.done_posts t n st).reg
@[simp] theorem State.done_pars (s : State) (t : Ten) (n : SlotIx) (st : Half) : (s.done t n st).pars = s.pars := (s.done_posts t n st).pars
@[simp] theorem State.done_tm (s : State) (t : Ten) (n : SlotIx) (st : Half) : (s.done t n st).tm = s.tm := (s.done_posts t n st).tm
@[simp] theorem State.done_cip_bank (s : State) (t : Ten) (n : SlotIx) (st : Half) : (s.done t n st).cip.bank = s.cip.bank := (s.done_posts t n st).cip_bank
@[simp] theorem State.done_cip_kbus (s : State) (t : Ten) (n : SlotIx) (st : Half) : (s.done t n st).cip.kbus = s.cip.kbus := (s.done_posts t n st).cip_kbus
@[simp] theorem State.done_cip_core (s : State) (t : Ten) (n : SlotIx) (st : Half) : (s.done t n st).cip.core = s.cip.core := (s.done_posts t n st).cip_core
@[simp] theorem State.done_cip_fenced (s : State) (t : Ten) (n : SlotIx) (st : Half) : (s.done t n st).cip.fenced = s.cip.fenced := (s.done_posts t n st).cip_fenced
@[simp] theorem State.done_cip_decq (s : State) (t : Ten) (n : SlotIx) (st : Half) : (s.done t n st).cip.decq = s.cip.decq := (s.done_posts t n st).cip_decq
@[simp] theorem State.done_cip_sealq (s : State) (t : Ten) (n : SlotIx) (st : Half) : (s.done t n st).cip.sealq = s.cip.sealq := (s.done_posts t n st).cip_sealq
@[simp] theorem State.done_cip_jobs (s : State) (t : Ten) (n : SlotIx) (st : Half) : (s.done t n st).cip.jobs = s.cip.jobs := (s.done_posts t n st).cip_jobs
@[simp] theorem State.done_cip_run (s : State) (t : Ten) (n : SlotIx) (st : Half) : (s.done t n st).cip.run = s.cip.run := (s.done_posts t n st).cip_run
@[simp] theorem State.done_keys (s : State) (t : Ten) (n : SlotIx) (st : Half) : (s.done t n st).keys = s.keys := (s.done_posts t n st).keys
@[simp] theorem State.done_ens (s : State) (t : Ten) (n : SlotIx) (st : Half) : (s.done t n st).ens = s.ens := (s.done_posts t n st).ens
@[simp] theorem State.done_nvm (s : State) (t : Ten) (n : SlotIx) (st : Half) : (s.done t n st).nvm = s.nvm := (s.done_posts t n st).nvm
@[simp] theorem State.done_sec (s : State) (t : Ten) (n : SlotIx) (st : Half) : (s.done t n st).sec = s.sec := (s.done_posts t n st).sec
@[simp] theorem State.done_fuses (s : State) (t : Ten) (n : SlotIx) (st : Half) : (s.done t n st).fuses = s.fuses := (s.done_posts t n st).fuses
@[simp] theorem State.done_fsec (s : State) (t : Ten) (n : SlotIx) (st : Half) : (s.done t n st).fsec = s.fsec := (s.done_posts t n st).fsec
@[simp] theorem State.done_firn (s : State) (t : Ten) (n : SlotIx) (st : Half) : (s.done t n st).firn = s.firn := (s.done_posts t n st).firn
@[simp] theorem State.done_aud (s : State) (t : Ten) (n : SlotIx) (st : Half) : (s.done t n st).aud = s.aud := (s.done_posts t n st).aud

@[simp] theorem State.answer_pending (s : State) (t : Ten) (n : SlotIx) (data : List Byte) : (s.answer t n data).pending = s.pending := (s.answer_posts t n data).pending
@[simp] theorem State.answer_now (s : State) (t : Ten) (n : SlotIx) (data : List Byte) : (s.answer t n data).now = s.now := (s.answer_posts t n data).now
@[simp] theorem State.answer_rand (s : State) (t : Ten) (n : SlotIx) (data : List Byte) : (s.answer t n data).rand = s.rand := (s.answer_posts t n data).rand
@[simp] theorem State.answer_free (s : State) (t : Ten) (n : SlotIx) (data : List Byte) : (s.answer t n data).free = s.free := (s.answer_posts t n data).free
@[simp] theorem State.answer_ao (s : State) (t : Ten) (n : SlotIx) (data : List Byte) : (s.answer t n data).ao = s.ao := (s.answer_posts t n data).ao
@[simp] theorem State.answer_pads (s : State) (t : Ten) (n : SlotIx) (data : List Byte) : (s.answer t n data).pads = s.pads := (s.answer_posts t n data).pads
@[simp] theorem State.answer_tw (s : State) (t : Ten) (n : SlotIx) (data : List Byte) : (s.answer t n data).tw = s.tw := (s.answer_posts t n data).tw
@[simp] theorem State.answer_boot (s : State) (t : Ten) (n : SlotIx) (data : List Byte) : (s.answer t n data).boot = s.boot := (s.answer_posts t n data).boot
@[simp] theorem State.answer_icb (s : State) (t : Ten) (n : SlotIx) (data : List Byte) : (s.answer t n data).icb = s.icb := (s.answer_posts t n data).icb
@[simp] theorem State.answer_store (s : State) (t : Ten) (n : SlotIx) (data : List Byte) : (s.answer t n data).store = s.store := (s.answer_posts t n data).store
@[simp] theorem State.answer_mbx (s : State) (t : Ten) (n : SlotIx) (data : List Byte) : (s.answer t n data).mbx = s.mbx := (s.answer_posts t n data).mbx
@[simp] theorem State.answer_evt (s : State) (t : Ten) (n : SlotIx) (data : List Byte) : (s.answer t n data).evt = s.evt := (s.answer_posts t n data).evt
@[simp] theorem State.answer_sram (s : State) (t : Ten) (n : SlotIx) (data : List Byte) : (s.answer t n data).sram = s.sram := (s.answer_posts t n data).sram
@[simp] theorem State.answer_time (s : State) (t : Ten) (n : SlotIx) (data : List Byte) : (s.answer t n data).time = s.time := (s.answer_posts t n data).time
@[simp] theorem State.answer_clk (s : State) (t : Ten) (n : SlotIx) (data : List Byte) : (s.answer t n data).clk = s.clk := (s.answer_posts t n data).clk
@[simp] theorem State.answer_lanes_phy (s : State) (t : Ten) (n : SlotIx) (data : List Byte) : (s.answer t n data).lanes.phy = s.lanes.phy := (s.answer_posts t n data).lanes_phy
@[simp] theorem State.answer_lanes_prot (s : State) (t : Ten) (n : SlotIx) (data : List Byte) : (s.answer t n data).lanes.prot = s.lanes.prot := (s.answer_posts t n data).lanes_prot
@[simp] theorem State.answer_fr (s : State) (t : Ten) (n : SlotIx) (data : List Byte) : (s.answer t n data).fr = s.fr := (s.answer_posts t n data).fr
@[simp] theorem State.answer_reg (s : State) (t : Ten) (n : SlotIx) (data : List Byte) : (s.answer t n data).reg = s.reg := (s.answer_posts t n data).reg
@[simp] theorem State.answer_pars (s : State) (t : Ten) (n : SlotIx) (data : List Byte) : (s.answer t n data).pars = s.pars := (s.answer_posts t n data).pars
@[simp] theorem State.answer_tm (s : State) (t : Ten) (n : SlotIx) (data : List Byte) : (s.answer t n data).tm = s.tm := (s.answer_posts t n data).tm
@[simp] theorem State.answer_cip_bank (s : State) (t : Ten) (n : SlotIx) (data : List Byte) : (s.answer t n data).cip.bank = s.cip.bank := (s.answer_posts t n data).cip_bank
@[simp] theorem State.answer_cip_kbus (s : State) (t : Ten) (n : SlotIx) (data : List Byte) : (s.answer t n data).cip.kbus = s.cip.kbus := (s.answer_posts t n data).cip_kbus
@[simp] theorem State.answer_cip_core (s : State) (t : Ten) (n : SlotIx) (data : List Byte) : (s.answer t n data).cip.core = s.cip.core := (s.answer_posts t n data).cip_core
@[simp] theorem State.answer_cip_fenced (s : State) (t : Ten) (n : SlotIx) (data : List Byte) : (s.answer t n data).cip.fenced = s.cip.fenced := (s.answer_posts t n data).cip_fenced
@[simp] theorem State.answer_cip_decq (s : State) (t : Ten) (n : SlotIx) (data : List Byte) : (s.answer t n data).cip.decq = s.cip.decq := (s.answer_posts t n data).cip_decq
@[simp] theorem State.answer_cip_sealq (s : State) (t : Ten) (n : SlotIx) (data : List Byte) : (s.answer t n data).cip.sealq = s.cip.sealq := (s.answer_posts t n data).cip_sealq
@[simp] theorem State.answer_cip_jobs (s : State) (t : Ten) (n : SlotIx) (data : List Byte) : (s.answer t n data).cip.jobs = s.cip.jobs := (s.answer_posts t n data).cip_jobs
@[simp] theorem State.answer_cip_run (s : State) (t : Ten) (n : SlotIx) (data : List Byte) : (s.answer t n data).cip.run = s.cip.run := (s.answer_posts t n data).cip_run
@[simp] theorem State.answer_keys (s : State) (t : Ten) (n : SlotIx) (data : List Byte) : (s.answer t n data).keys = s.keys := (s.answer_posts t n data).keys
@[simp] theorem State.answer_ens (s : State) (t : Ten) (n : SlotIx) (data : List Byte) : (s.answer t n data).ens = s.ens := (s.answer_posts t n data).ens
@[simp] theorem State.answer_nvm (s : State) (t : Ten) (n : SlotIx) (data : List Byte) : (s.answer t n data).nvm = s.nvm := (s.answer_posts t n data).nvm
@[simp] theorem State.answer_sec (s : State) (t : Ten) (n : SlotIx) (data : List Byte) : (s.answer t n data).sec = s.sec := (s.answer_posts t n data).sec
@[simp] theorem State.answer_fuses (s : State) (t : Ten) (n : SlotIx) (data : List Byte) : (s.answer t n data).fuses = s.fuses := (s.answer_posts t n data).fuses
@[simp] theorem State.answer_fsec (s : State) (t : Ten) (n : SlotIx) (data : List Byte) : (s.answer t n data).fsec = s.fsec := (s.answer_posts t n data).fsec
@[simp] theorem State.answer_firn (s : State) (t : Ten) (n : SlotIx) (data : List Byte) : (s.answer t n data).firn = s.firn := (s.answer_posts t n data).firn
@[simp] theorem State.answer_aud (s : State) (t : Ten) (n : SlotIx) (data : List Byte) : (s.answer t n data).aud = s.aud := (s.answer_posts t n data).aud
theorem State.PostsTo.power_pstate {s s' : State} (h : s.PostsTo s') : s'.power.pstate = s.power.pstate := by obtain ⟨_, _, _, _, _, _, _, rfl⟩ := h; rfl
theorem State.PostsTo.power_dom {s s' : State} (h : s.PostsTo s') : s'.power.dom = s.power.dom := by obtain ⟨_, _, _, _, _, _, _, rfl⟩ := h; rfl
theorem State.PostsTo.power_wake {s s' : State} (h : s.PostsTo s') : s'.power.wake = s.power.wake := by obtain ⟨_, _, _, _, _, _, _, rfl⟩ := h; rfl
theorem State.PostsTo.power_wakeQueue {s s' : State} (h : s.PostsTo s') : s'.power.wakeQueue = s.power.wakeQueue := by obtain ⟨_, _, _, _, _, _, _, rfl⟩ := h; rfl
theorem State.PostsTo.power_cfg {s s' : State} (h : s.PostsTo s') : s'.power.cfg = s.power.cfg := by obtain ⟨_, _, _, _, _, _, _, rfl⟩ := h; rfl
theorem State.PostsTo.power_probing {s s' : State} (h : s.PostsTo s') : s'.power.probing = s.power.probing := by obtain ⟨_, _, _, _, _, _, _, rfl⟩ := h; rfl
theorem State.PostsTo.power_entry {s s' : State} (h : s.PostsTo s') : s'.power.entry = s.power.entry := by obtain ⟨_, _, _, _, _, _, _, rfl⟩ := h; rfl
theorem State.PostsTo.power_pmic {s s' : State} (h : s.PostsTo s') : s'.power.pmic = s.power.pmic := by obtain ⟨_, _, _, _, _, _, _, rfl⟩ := h; rfl
theorem State.PostsTo.power_night {s s' : State} (h : s.PostsTo s') : s'.power.night = s.power.night := by obtain ⟨_, _, _, _, _, _, _, rfl⟩ := h; rfl
theorem State.PostsTo.power_lw {s s' : State} (h : s.PostsTo s') : s'.power.lw = s.power.lw := by obtain ⟨_, _, _, _, _, _, _, rfl⟩ := h; rfl
theorem State.PostsTo.power_nightFails {s s' : State} (h : s.PostsTo s') : s'.power.nightFails = s.power.nightFails := by obtain ⟨_, _, _, _, _, _, _, rfl⟩ := h; rfl
theorem State.PostsTo.power_firnFull {s s' : State} (h : s.PostsTo s') : s'.power.firnFull = s.power.firnFull := by obtain ⟨_, _, _, _, _, _, _, rfl⟩ := h; rfl
theorem State.PostsTo.power_boostAuto {s s' : State} (h : s.PostsTo s') : s'.power.boostAuto = s.power.boostAuto := by obtain ⟨_, _, _, _, _, _, _, rfl⟩ := h; rfl
theorem State.PostsTo.power_thermalHold {s s' : State} (h : s.PostsTo s') : s'.power.thermalHold = s.power.thermalHold := by obtain ⟨_, _, _, _, _, _, _, rfl⟩ := h; rfl
theorem State.PostsTo.power_tj {s s' : State} (h : s.PostsTo s') : s'.power.tj = s.power.tj := by obtain ⟨_, _, _, _, _, _, _, rfl⟩ := h; rfl

/-! ### Reads of what an update wrote -/

theorem State.setTen_ten (s : State) (t : Ten) (x : Tenant) (u : Ten) :
    (s.setTen t x).ten u = if t = u then x else s.ten u := by
  simp [State.setTen, State.ten, Vector.getElem_set, Fin.ext_iff]

theorem State.modTen_ten (s : State) (t : Ten) (f : Tenant → Tenant) (u : Ten) :
    (s.modTen t f).ten u = if t = u then f (s.ten t) else s.ten u := by
  simp [State.modTen, State.setTen, State.ten, Vector.getElem_set, Fin.ext_iff]

theorem State.setDom_dom (s : State) (d : Dom) (x : DomState) (e : Dom) :
    (s.setDom d x).dom e = if d = e then x else s.dom e := by
  simp [State.setDom, State.dom, Vector.getElem_set, Fin.ext_iff]

theorem State.modSource_source (s : State) (i : Fin 256) (f : Source → Source) (j : Fin 256) :
    (s.modSource i f).source j = if i = j then f (s.source i) else s.source j := by
  simp [State.modSource, State.source, Vector.getElem_set, Fin.ext_iff]

theorem State.modPhy_phy (s : State) (i : Fin 4) (f : Phy → Phy) (j : Fin 4) :
    (s.modPhy i f).phy j = if i = j then f (s.phy i) else s.phy j := by
  simp [State.modPhy, State.phy, Vector.getElem_set, Fin.ext_iff]

theorem State.modLocal_local_ (s : State) (i : Fin 2) (f : LocalLane → LocalLane) (j : Fin 2) :
    (s.modLocal i f).local_ j = if i = j then f (s.local_ i) else s.local_ j := by
  simp [State.modLocal, State.local_, Vector.getElem_set, Fin.ext_iff]

theorem State.modChan_chan (s : State) (i : Fin 2) (f : Chan → Chan) (j : Fin 2) :
    (s.modChan i f).chan j = if i = j then f (s.chan i) else s.chan j := by
  simp [State.modChan, State.chan, Vector.getElem_set, Fin.ext_iff]

theorem State.modGs_gs (s : State) (i : Fin 8) (f : Stream → Stream) (j : Fin 8) :
    (s.modGs i f).gs j = if i = j then f (s.gs i) else s.gs j := by
  simp [State.modGs, State.gs, Vector.getElem_set, Fin.ext_iff]

theorem State.modQ_q (s : State) (i : Fin 184) (f : Queue → Queue) (j : Fin 184) :
    (s.modQ i f).q j = if i = j then f (s.q i) else s.q j := by
  simp [State.modQ, State.q, Vector.getElem_set, Fin.ext_iff]

theorem State.modPort_port (s : State) (i : Fin 3) (f : APort → APort) (j : Fin 3) :
    (s.modPort i f).port j = if i = j then f (s.port i) else s.port j := by
  simp [State.modPort, State.port, Vector.getElem_set, Fin.ext_iff]

theorem State.modTps_tpsPort (s : State) (i : Fin 2) (f : Tps → Tps) (j : Fin 2) :
    (s.modTps i f).tpsPort j = if i = j then f (s.tpsPort i) else s.tpsPort j := by
  simp [State.modTps, State.tpsPort, Vector.getElem_set, Fin.ext_iff]

theorem State.modSlot_slot (s : State) (t : Ten) (n : SlotIx) (f : Slot → Slot) (u : Ten) (m : SlotIx) :
    (s.modSlot t n f).slot u m = if t = u ∧ n = m then f (s.slot t n) else s.slot u m := by
  simp only [State.modSlot, State.setSlot, State.slot, State.modTen_ten]
  by_cases h : t = u
  · subst h
    by_cases k : n = m
    · subst k; simp [Tenant.setSlot]
    · have k' : ¬n.val = m.val := fun e => k (Fin.ext e)
      simp [Tenant.setSlot, k, k']
  · simp [h]

end Sys2Proof.Machine
end

