-- ==== Sys2Proof/Laws/Upholds.lean ====
section
/-!
SUPPORT. What every step upholds, as one relation between the state before and a state after: the life cycle does not move
back, the least version does not fall, the memories keep their canonical form. The files beside this one show it of each
operation the meanings share; a meaning is a composition of those, so its proof cites them and unfolds none of them.
-/

namespace Sys2Proof.Machine

/-- From `s0` to `s`: the life cycle is not further back, the least version is no lower, and memories that were canonical
still are. Each clause is one of the package's invariants; one relation lets one lemma per operation serve all of them. -/
structure State.Upholds (s0 s : State) : Prop where
  /-- The life cycle does not move back. -/
  life : s0.fuses.life.order ≤ s.fuses.life.order
  /-- The least version does not fall. -/
  svn : s0.icb.minSvn ≤ s.icb.minSvn
  /-- The memories stay canonical. -/
  mem : s0.MemOk → s.MemOk

theorem State.Upholds.refl (s : State) : s.Upholds s := ⟨Nat.le_refl _, Nat.le_refl _, id⟩

/-- A change of state on top of what is upheld already. -/
theorem State.Upholds.change {s0 s t : State} (h : s0.Upholds s) (hf : s.fuses.life.order ≤ t.fuses.life.order)
    (hi : s.icb.minSvn ≤ t.icb.minSvn) (hm : s.MemOk → t.MemOk) : s0.Upholds t :=
  ⟨h.life.trans hf, h.svn.trans hi, fun m => hm (h.mem m)⟩

theorem State.Upholds.trans {a b c : State} (h : a.Upholds b) (k : b.Upholds c) : a.Upholds c :=
  h.change k.life k.svn k.mem

theorem State.Upholds.ite {s0 a b : State} {c : Prop} [Decidable c] (ha : s0.Upholds a) (hb : s0.Upholds b) :
    s0.Upholds (if c then a else b) := by split <;> assumption

theorem State.Upholds.foldl {s0 s : State} {α : Type} {f : State → α → State} {l : List α} (h : s0.Upholds s)
    (hf : ∀ x a, s0.Upholds x → s0.Upholds (f x a)) : s0.Upholds (l.foldl f s) := by
  induction l generalizing s with
  | nil => exact h
  | cons a l ih => exact ih (hf s a h)

/-- A state that has the fields the relation speaks of in common with one that is upheld. -/
theorem State.Upholds.same {s0 s t : State} (h : s0.Upholds s) (hf : t.fuses = s.fuses)
    (hi : t.icb.minSvn = s.icb.minSvn) (he : t.ens = s.ens) (hs : t.sram = s.sram)
    (hb : t.boot.rcv.buf = s.boot.rcv.buf) (hj : t.firn.jobs = s.firn.jobs) : s0.Upholds t :=
  h.change (by simp [hf]) (by simp [hi]) fun m =>
    ⟨by simpa [hs] using m.sram, by simpa [he] using m.ens, by simpa [hb] using m.buf, by simpa [hj] using m.work⟩

/-- A record update of any other fields: the six premises are `rfl`. -/
theorem State.Upholds.upd {s0 s : State} (h : s0.Upholds s) {pending now rand free out ao pads tw power boot icb tenants
    store mbx evt sram time clk lanes fr reg us pars tm cip keys ens nvm sec fuses fsec firn aud} (hf : fuses = s.fuses)
    (hi : icb.minSvn = s.icb.minSvn) (he : ens = s.ens) (hs : sram = s.sram) (hb : boot.rcv.buf = s.boot.rcv.buf)
    (hj : firn.jobs = s.firn.jobs) :
    s0.Upholds (State.mk pending now rand free out ao pads tw power boot icb tenants store mbx evt sram time clk lanes fr reg
      us pars tm cip keys ens nvm sec fuses fsec firn aud) :=
  h.same hf hi he hs hb hj

/-- The same where the scratch memory is emptied. -/
theorem State.Upholds.noMem {s0 s : State} (h : s0.Upholds s) {pending now rand free out ao pads tw power boot icb tenants
    store mbx evt time clk lanes fr reg us pars tm cip keys ens nvm sec fuses fsec firn aud} (hf : fuses = s.fuses)
    (hi : icb.minSvn = s.icb.minSvn) (he : ens = s.ens) (hb : boot.rcv.buf = s.boot.rcv.buf)
    (hj : firn.jobs = s.firn.jobs) :
    s0.Upholds (State.mk pending now rand free out ao pads tw power boot icb tenants store mbx evt [] time clk lanes fr reg
      us pars tm cip keys ens nvm sec fuses fsec firn aud) := by
  subst hf he
  exact h.change (Nat.le_refl _) (by simp [hi]) fun m =>
    ⟨Memory.canon_nil, m.ens, by simpa [hb] using m.buf, by simpa [hj] using m.work⟩

end Sys2Proof.Machine
end

