-- ==== Sys2Proof/Laws/UpholdsUnits.lean ====
section
/-!
SUPPORT. What every step upholds (`State.Upholds`), operation by operation: the units: the random source, outputs,
tenants and events (Ops), the traffic manager, the key banks, the burst and the ensemble units, audio, the parser,
time, the clock and FIRN.
-/

namespace Sys2Proof.Machine

variable {s0 : State}

/-! ### TimeBase -/

theorem State.reachTt_upholds (s : State) (ns : Nat) (hu : s0.Upholds s) :
    s0.Upholds (State.reachTt s ns) := by
  unfold State.reachTt
  exact .upd hu rfl rfl rfl rfl rfl rfl

theorem State.idle_upholds (s : State) (hu : s0.Upholds s) :
    s0.Upholds (State.idle s) := by
  unfold State.idle
  exact .upd hu rfl rfl rfl rfl rfl rfl


/-! ### Ops -/

theorem State.drawn_upholds (s : State) (hu : s0.Upholds s) :
    s0.Upholds (State.drawn s) := by
  unfold State.drawn
  exact .upd hu rfl rfl rfl rfl rfl rfl

theorem State.freed_upholds (s : State) (hu : s0.Upholds s) :
    s0.Upholds (State.freed s) := by
  unfold State.freed
  exact .upd hu rfl rfl rfl rfl rfl rfl

theorem State.emit_upholds (s : State) (e : Emission) (hu : s0.Upholds s) :
    s0.Upholds (State.emit s e) := by
  unfold State.emit
  exact .upd hu rfl rfl rfl rfl rfl rfl

theorem State.reach_upholds (s : State) (t : Nat) (hu : s0.Upholds s) :
    s0.Upholds (State.reach s t) := by
  unfold State.reach
  exact .upd hu rfl rfl rfl rfl rfl rfl

theorem State.setTen_upholds (s : State) (t : Ten) (x : Tenant) (hu : s0.Upholds s) :
    s0.Upholds (State.setTen s t x) := by
  unfold State.setTen
  exact .upd hu rfl rfl rfl rfl rfl rfl

theorem State.modTen_upholds (s : State) (t : Ten) (f : Tenant → Tenant) (hu : s0.Upholds s) :
    s0.Upholds (State.modTen s t f) := by
  unfold State.modTen
  repeat' (first | with_reducible assumption | with_reducible apply State.setTen_upholds)

theorem State.setSlot_upholds (s : State) (t : Ten) (n : SlotIx) (y : Slot) (hu : s0.Upholds s) :
    s0.Upholds (State.setSlot s t n y) := by
  unfold State.setSlot
  repeat' (first | with_reducible assumption | with_reducible apply State.modTen_upholds)

theorem State.modSlot_upholds (s : State) (t : Ten) (n : SlotIx) (f : Slot → Slot) (hu : s0.Upholds s) :
    s0.Upholds (State.modSlot s t n f) := by
  unfold State.modSlot
  repeat' (first | with_reducible assumption | with_reducible apply State.setSlot_upholds)

theorem State.partWrite_upholds (s : State) (t : Ten) (off : Nat) (bs : List Byte) (hu : s0.Upholds s) :
    s0.Upholds (s.partWrite t off bs) :=
  hu.change (Nat.le_refl _) (Nat.le_refl _) fun m => s.partWrite_memOk m t off bs

theorem State.setDom_upholds (s : State) (d : Dom) (x : DomState) (hu : s0.Upholds s) :
    s0.Upholds (State.setDom s d x) := by
  unfold State.setDom
  dsimp only
  exact .upd hu rfl rfl rfl rfl rfl rfl

theorem State.setDoms_upholds (s : State) (ds : List Dom) (x : DomState) (hu : s0.Upholds s) :
    s0.Upholds (State.setDoms s ds x) := by
  unfold State.setDoms
  repeat' (first | with_reducible assumption | (intro _ _ _) | with_reducible refine State.Upholds.foldl ?_ ?_
                 | with_reducible apply State.setDom_upholds)

theorem State.modSource_upholds (s : State) (i : Fin 256) (f : Source → Source) (hu : s0.Upholds s) :
    s0.Upholds (State.modSource s i f) := by
  unfold State.modSource
  dsimp only
  exact .upd hu rfl rfl rfl rfl rfl rfl

theorem State.raise_upholds (s : State) (i : Fin 256) (data : Word) (hu : s0.Upholds s) :
    s0.Upholds (State.raise s i data) := by
  unfold State.raise
  repeat' (first | with_reducible assumption | with_reducible refine State.Upholds.ite ?_ ?_
                 | with_reducible apply State.modSource_upholds)

theorem State.direct_upholds (s : State) (code : Half) (targets : List Ten) (data : Nat) (hu : s0.Upholds s) :
    s0.Upholds (State.direct s code targets data) := by
  unfold State.direct
  dsimp only
  repeat' (first | with_reducible assumption | with_reducible refine State.Upholds.ite ?_ ?_
                 | with_reducible refine State.Upholds.upd ?_ rfl rfl rfl rfl rfl rfl)

theorem State.queueLmm_upholds (s : State) (type : Byte) (body : List Byte) (hu : s0.Upholds s) :
    s0.Upholds (State.queueLmm s type body) := by
  unfold State.queueLmm
  dsimp only
  repeat' (first | with_reducible assumption | with_reducible refine State.Upholds.ite ?_ ?_ | split
                 | with_reducible refine State.Upholds.upd ?_ rfl rfl rfl rfl rfl rfl)

theorem State.requeueLmm_upholds (s : State) (x : LmmOut) (hu : s0.Upholds s) :
    s0.Upholds (State.requeueLmm s x) := by
  unfold State.requeueLmm
  dsimp only
  exact .upd hu rfl rfl rfl rfl rfl rfl

theorem State.coreEvent_upholds (s : State) (i : Fin 256) (l : Latch) (hu : s0.Upholds s) :
    s0.Upholds (s.coreEvent i l) := by
  unfold State.coreEvent
  exact .upd hu rfl rfl rfl rfl rfl rfl

theorem State.macOut_upholds (s : State) (l : Fin 2) (f : MacFrame) (hu : s0.Upholds s) : s0.Upholds (s.macOut l f) := by
  unfold State.macOut
  exact .upd (State.emit_upholds _ _ hu) rfl rfl rfl rfl rfl rfl

theorem State.macSend_upholds (s : State) (l : Fin 2) (f : MacFrame) (hu : s0.Upholds s) : s0.Upholds (s.macSend l f) := by
  unfold State.macSend
  exact .ite hu (.ite (.upd hu rfl rfl rfl rfl rfl rfl) (State.macOut_upholds _ _ _ hu))

theorem State.firmUse_upholds (s : State) (e : Fin 32) (hu : s0.Upholds s) : s0.Upholds (s.firmUse e) := by
  unfold State.firmUse
  extract_lets n own
  split
  · exact .upd hu rfl rfl rfl rfl rfl rfl
  · exact hu

theorem State.sendNotice_upholds (s : State) (t : Ten) (hu : s0.Upholds s) :
    s0.Upholds (State.sendNotice s t) := by
  unfold State.sendNotice
  dsimp only
  repeat' (first | with_reducible assumption | with_reducible refine State.Upholds.ite ?_ ?_
                 | with_reducible apply State.modTen_upholds | with_reducible apply State.macSend_upholds
                 | with_reducible apply State.firmUse_upholds | with_reducible apply State.queueLmm_upholds | split)

theorem State.notify_upholds (s : State) (t : Ten) (hu : s0.Upholds s) :
    s0.Upholds (State.notify s t) := by
  unfold State.notify
  repeat' (first | with_reducible assumption | with_reducible refine State.Upholds.ite ?_ ?_
                 | with_reducible apply State.sendNotice_upholds)

theorem State.flagTen_upholds (s : State) (t : Ten) (get : Win → Bool) (f : Win → Win) (hu : s0.Upholds s) :
    s0.Upholds (State.flagTen s t get f) := by
  unfold State.flagTen
  repeat' (first | with_reducible assumption | with_reducible refine State.Upholds.ite ?_ ?_
                 | with_reducible apply State.notify_upholds | with_reducible apply State.modTen_upholds)

theorem State.touch_upholds (s : State) (hu : s0.Upholds s) :
    s0.Upholds (State.touch s) := by
  unfold State.touch
  dsimp only
  exact .upd hu rfl rfl rfl rfl rfl rfl

theorem State.postRaw_upholds (s : State) (t : Ten) (n : SlotIx) (st : Half) (data : List Byte) (bulkOut : Bool)
    (hu : s0.Upholds s) :
    s0.Upholds (State.postRaw s t n st data bulkOut) := by
  unfold State.postRaw
  dsimp only
  repeat' (first | with_reducible assumption | with_reducible refine State.Upholds.ite ?_ ?_
                 | with_reducible apply State.modSlot_upholds
                 | with_reducible apply State.notify_upholds | with_reducible apply State.touch_upholds)

theorem State.post_upholds (s : State) (t : Ten) (n : SlotIx) (st : Half) (data : List Byte)
    (bulkOut : optParam Bool false) (hu : s0.Upholds s) :
    s0.Upholds (State.post s t n st data bulkOut) := by
  unfold State.post
  refine .foldl (State.postRaw_upholds _ _ _ _ _ _ hu) fun x m hx => .ite (State.postRaw_upholds _ _ _ _ _ _ hx) hx

theorem State.done_upholds (s : State) (t : Ten) (n : SlotIx) (st : Half) (hu : s0.Upholds s) :
    s0.Upholds (State.done s t n st) := by
  unfold State.done
  repeat' (first | with_reducible assumption | with_reducible apply State.post_upholds)

theorem State.answer_upholds (s : State) (t : Ten) (n : SlotIx) (data : List Byte) (hu : s0.Upholds s) :
    s0.Upholds (State.answer s t n data) := by
  unfold State.answer
  repeat' (first | with_reducible assumption | with_reducible apply State.post_upholds)

theorem State.dropLease_upholds (s : State) (id : Nat) (hu : s0.Upholds s) :
    s0.Upholds (State.dropLease s id) := by
  unfold State.dropLease
  dsimp only
  exact .upd hu rfl rfl rfl rfl rfl rfl


/-! ### TrafficUnit -/

theorem State.modQ_upholds (s : State) (i : Fin 184) (f : Queue → Queue) (hu : s0.Upholds s) :
    s0.Upholds (State.modQ s i f) := by
  unfold State.modQ
  dsimp only
  exact .upd hu rfl rfl rfl rfl rfl rfl

theorem State.noteDrop_upholds (s : State) (i : Fin 184) (hu : s0.Upholds s) :
    s0.Upholds (State.noteDrop s i) := by
  unfold State.noteDrop
  dsimp only
  repeat' (first | with_reducible assumption | split
                 | with_reducible refine State.Upholds.upd ?_ rfl rfl rfl rfl rfl rfl)

theorem State.watchFill_upholds (s : State) (hu : s0.Upholds s) :
    s0.Upholds (State.watchFill s) := by
  unfold State.watchFill
  dsimp only
  repeat' (first | with_reducible assumption | with_reducible refine State.Upholds.ite ?_ ?_
                 | with_reducible apply State.raise_upholds
                 | with_reducible refine State.Upholds.upd ?_ rfl rfl rfl rfl rfl rfl)

theorem State.tellPort_upholds (s : State) (t : Ten) (hu : s0.Upholds s) :
    s0.Upholds (State.tellPort s t) := by
  unfold State.tellPort
  dsimp only
  repeat' (first | with_reducible assumption | with_reducible refine State.Upholds.ite ?_ ?_
                 | with_reducible apply State.direct_upholds
                 | with_reducible refine State.Upholds.upd ?_ rfl rfl rfl rfl rfl rfl)

theorem State.enqueue_upholds (s : State) (i : Fin 184) (f : Frame) (hu : s0.Upholds s) :
    s0.Upholds (State.enqueue s i f) := by
  unfold State.enqueue
  dsimp only
  repeat' (first | with_reducible assumption | with_reducible apply State.modQ_upholds
                 | with_reducible apply State.watchFill_upholds)

theorem State.admitFrame_upholds (s : State) (i : Fin 184) (f : Frame) (hu : s0.Upholds s) :
    s0.Upholds (State.admitFrame s i f) := by
  unfold State.admitFrame
  dsimp only
  repeat' (first | with_reducible assumption | with_reducible apply State.enqueue_upholds
                 | with_reducible apply State.noteDrop_upholds | with_reducible apply State.modQ_upholds | split
                 | with_reducible refine State.Upholds.upd ?_ rfl rfl rfl rfl rfl rfl)

theorem State.leave_upholds (s : State) (i : Fin 184) (f : Frame) (hu : s0.Upholds s) :
    s0.Upholds (State.leave s i f) := by
  unfold State.leave
  dsimp only
  repeat' (first | with_reducible assumption | with_reducible refine State.Upholds.ite ?_ ?_
                 | with_reducible apply State.modQ_upholds | with_reducible apply State.raise_upholds | split)

theorem State.flushQ_upholds (s : State) (i : Fin 184) (hu : s0.Upholds s) :
    s0.Upholds (State.flushQ s i) := by
  unfold State.flushQ
  dsimp only
  repeat' (first | with_reducible assumption | with_reducible apply State.modQ_upholds)

theorem State.flushPort_upholds (s : State) (t : Ten) (hu : s0.Upholds s) :
    s0.Upholds (State.flushPort s t) := by
  unfold State.flushPort
  dsimp only
  repeat' (first | with_reducible assumption | (intro _ _ _) | with_reducible refine State.Upholds.ite ?_ ?_
                 | with_reducible refine State.Upholds.foldl ?_ ?_ | with_reducible apply State.flushQ_upholds
                 | with_reducible refine State.Upholds.upd ?_ rfl rfl rfl rfl rfl rfl)

theorem State.flushEgress_upholds (s : State) (l : Fin 2) (hu : s0.Upholds s) :
    s0.Upholds (State.flushEgress s l) := by
  unfold State.flushEgress
  dsimp only
  repeat' (first | with_reducible assumption | (intro _ _ _) | with_reducible refine State.Upholds.foldl ?_ ?_
                 | with_reducible apply State.flushQ_upholds | with_reducible apply State.raise_upholds
                 | with_reducible refine State.Upholds.upd ?_ rfl rfl rfl rfl rfl rfl)

theorem State.powerFlush_upholds (s : State) (hu : s0.Upholds s) :
    s0.Upholds (State.powerFlush s) := by
  unfold State.powerFlush
  dsimp only
  exact .upd hu rfl rfl rfl rfl rfl rfl


theorem State.police_upholds (s : State) (i : Fin 128) (f : Frame) (hu : s0.Upholds s) :
    s0.Upholds (s.police i f).1 := by
  unfold State.police
  dsimp only
  repeat' (first | with_reducible assumption | split
                 | with_reducible refine State.Upholds.upd ?_ rfl rfl rfl rfl rfl rfl)

/-! ### CipherUnit -/

theorem State.setEntry_upholds (s : State) (e : Fin 32) (k : Option BankKey) (hu : s0.Upholds s) :
    s0.Upholds (State.setEntry s e k) := by
  unfold State.setEntry
  dsimp only
  repeat' (first | with_reducible assumption | with_reducible refine State.Upholds.ite ?_ ?_
                 | with_reducible refine State.Upholds.upd ?_ rfl rfl rfl rfl rfl rfl)

theorem State.dropEntries_upholds (s : State) (es : List (Fin 32)) (hu : s0.Upholds s) :
    s0.Upholds (State.dropEntries s es) := by
  unfold State.dropEntries
  repeat' (first | with_reducible assumption | (intro _ _ _) | with_reducible refine State.Upholds.foldl ?_ ?_
                 | with_reducible apply State.setEntry_upholds)

theorem State.dropLineKeys_upholds (s : State) (hu : s0.Upholds s) :
    s0.Upholds (State.dropLineKeys s) := by
  unfold State.dropLineKeys
  dsimp only
  repeat' (first | with_reducible assumption | with_reducible apply State.dropEntries_upholds
                 | with_reducible refine State.Upholds.upd ?_ rfl rfl rfl rfl rfl rfl)

theorem State.dropContexts_upholds (s : State) (hu : s0.Upholds s) :
    s0.Upholds (State.dropContexts s) := by
  unfold State.dropContexts
  dsimp only
  exact .upd hu rfl rfl rfl rfl rfl rfl

theorem State.reloadKeys_upholds (s : State) (hu : s0.Upholds s) :
    s0.Upholds (State.reloadKeys s) := by
  unfold State.reloadKeys
  repeat' (first | with_reducible assumption | (intro _ _ _) | with_reducible refine State.Upholds.ite ?_ ?_
                 | with_reducible refine State.Upholds.foldl ?_ ?_ | with_reducible apply State.setEntry_upholds)

theorem State.zeroiseAll_upholds (s : State) (hu : s0.Upholds s) :
    s0.Upholds (State.zeroiseAll s) := by
  unfold State.zeroiseAll
  dsimp only
  repeat' (first | with_reducible assumption | with_reducible apply State.dropContexts_upholds
                 | with_reducible refine State.Upholds.upd ?_ rfl rfl rfl rfl rfl rfl)

theorem State.modSlotKey_upholds (s : State) (i : Fin 64) (f : KeySlot → KeySlot) (hu : s0.Upholds s) :
    s0.Upholds (State.modSlotKey s i f) := by
  unfold State.modSlotKey
  dsimp only
  exact .upd hu rfl rfl rfl rfl rfl rfl

theorem State.bootNonces_upholds (s : State) (hu : s0.Upholds s) :
    s0.Upholds (State.bootNonces s) := by
  unfold State.bootNonces
  dsimp only
  exact .upd hu rfl rfl rfl rfl rfl rfl

theorem State.loadCtx_upholds (s : State) (c : Fin 16) (src : KeySrc) (t : Ten) (hu : s0.Upholds s) :
    s0.Upholds (State.loadCtx s c src t) := by
  unfold State.loadCtx
  dsimp only
  exact .upd hu rfl rfl rfl rfl rfl rfl

theorem State.kbusDone_upholds (s : State) (hu : s0.Upholds s) :
    s0.Upholds (State.kbusDone s) := by
  unfold State.kbusDone
  dsimp only
  repeat' (first | with_reducible assumption | split
                 | with_reducible refine State.Upholds.upd ?_ rfl rfl rfl rfl rfl rfl)

theorem State.zeroCtxOf_upholds (s : State) (src : KeySrc) (hu : s0.Upholds s) :
    s0.Upholds (State.zeroCtxOf s src) := by
  unfold State.zeroCtxOf
  dsimp only
  exact .upd hu rfl rfl rfl rfl rfl rfl


theorem State.updateEnded_upholds (s : State) (r : Nat) (st : Half) (hu : s0.Upholds s) :
    s0.Upholds (State.updateEnded s r st) := State.raise_upholds _ _ _ hu

theorem State.recordWritten_upholds (s : State) (hu : s0.Upholds s) : s0.Upholds s.recordWritten :=
  State.updateEnded_upholds _ _ _ hu

theorem State.setRun_upholds (s : State) (c : Fin 2) (w : Option CoreWork) (hu : s0.Upholds s) :
    s0.Upholds (s.setRun c w) := by
  unfold State.setRun
  exact .upd hu rfl rfl rfl rfl rfl rfl

theorem State.freeCores_upholds (s : State) (f : CoreWork → Bool) (hu : s0.Upholds s) : s0.Upholds (s.freeCores f) := by
  unfold State.freeCores
  exact .upd hu rfl rfl rfl rfl rfl rfl

theorem State.assign_upholds (n : Nat) (s : State) (hu : s0.Upholds s) : s0.Upholds (s.assign n) := by
  induction n generalizing s with
  | zero => exact hu
  | succ n ih =>
    unfold State.assign
    split
    · exact ih _ (State.setRun_upholds _ _ _ hu)
    · exact hu

theorem State.drawEntry_upholds (s : State) (e : Fin 32) (hu : s0.Upholds s) {n : Nat} {s1 : State}
    (hd : s.drawEntry e = some (n, s1)) : s0.Upholds s1 := by
  unfold State.drawEntry at hd
  split at hd
  · cases hd
  · split at hd
    · cases hd
    · obtain ⟨-, rfl⟩ := Prod.mk.inj (Option.some.inj hd)
      have h1 : ∀ v, s0.Upholds { s with cip := { s.cip with bank := v } } := fun _ => .upd hu rfl rfl rfl rfl rfl rfl
      split
      · exact State.raise_upholds _ _ _ (h1 _)
      · exact h1 _

theorem State.drawSlot_upholds (s : State) (i : Fin 64) (hu : s0.Upholds s) {n : Nat} {s1 : State}
    (hd : s.drawSlot i = .got n s1) : s0.Upholds s1 := by
  unfold State.drawSlot at hd
  extract_lets k last s2 at hd
  have h2 : s0.Upholds s2 := State.modSlotKey_upholds _ _ _ hu
  split at hd
  · cases hd
  · split at hd
    · cases hd
    · obtain ⟨-, rfl⟩ := Drawn.got.inj hd
      split
      · exact State.recordWritten_upholds _ (State.raise_upholds _ _ _ h2)
      · exact h2

theorem State.modCJob_upholds (s : State) (j : Job) (f : Job → Job) (hu : s0.Upholds s) :
    s0.Upholds (State.modCJob s j f) := by
  unfold State.modCJob
  exact .upd hu rfl rfl rfl rfl rfl rfl

theorem State.dropCJob_upholds (s : State) (j : Job) (hu : s0.Upholds s) :
    s0.Upholds (State.dropCJob s j) := by
  unfold State.dropCJob
  exact State.freeCores_upholds _ _ (.upd hu rfl rfl rfl rfl rfl rfl)

theorem State.failJob_upholds (s : State) (j : Job) (st : Half) (hu : s0.Upholds s) :
    s0.Upholds (State.failJob s j st) := by
  unfold State.failJob
  have h1 := State.dropCJob_upholds s j hu
  exact .ite h1 (State.done_upholds _ _ _ _ h1)

theorem State.pump_upholds (n : Nat) : ∀ s : State, s0.Upholds s → s0.Upholds (s.pump n) := by
  induction n with
  | zero => intro s hu; exact hu
  | succ n ih =>
    intro s hu
    unfold State.pump
    split
    · refine .ite (ih _ (State.setRun_upholds _ _ _ hu)) (.ite (ih _ (State.failJob_upholds _ _ _ hu)) ?_)
      split
      · exact .ite hu (ih _ (.upd (State.setRun_upholds _ _ _ (State.modCJob_upholds _ _ _ hu)) rfl rfl rfl rfl rfl rfl))
      · split
        · exact .ite (State.loadCtx_upholds _ _ _ _ hu) hu
        · exact hu
    · exact hu

theorem State.startJobs_upholds (s : State) (hu : s0.Upholds s) : s0.Upholds s.startJobs :=
  State.pump_upholds _ _ (State.assign_upholds _ _ hu)

/-! ### BurstUnit -/

theorem State.modChan_upholds (s : State) (l : Fin 2) (f : Chan → Chan) (hu : s0.Upholds s) :
    s0.Upholds (State.modChan s l f) := by
  unfold State.modChan
  dsimp only
  exact .upd hu rfl rfl rfl rfl rfl rfl

theorem State.modGs_upholds (s : State) (g : Fin 8) (f : Stream → Stream) (hu : s0.Upholds s) :
    s0.Upholds (State.modGs s g f) := by
  unfold State.modGs
  dsimp only
  exact .upd hu rfl rfl rfl rfl rfl rfl

theorem State.dropSeals_upholds (s : State) (hu : s0.Upholds s) :
    s0.Upholds (State.dropSeals s) := by
  unfold State.dropSeals
  dsimp only
  exact .upd hu rfl rfl rfl rfl rfl rfl

theorem State.dropBursts_upholds (s : State) (g : Fin 8) (gone : List Burst) (keep : Bool) (hu : s0.Upholds s) :
    s0.Upholds (State.dropBursts s g gone keep) := by
  unfold State.dropBursts
  dsimp only
  repeat' (first | with_reducible assumption | (intro _ _ _) | with_reducible refine State.Upholds.foldl ?_ ?_
                 | with_reducible apply State.requeueLmm_upholds | with_reducible apply State.dropSeals_upholds
                 | with_reducible apply State.modGs_upholds)

theorem State.withdrawFrom_upholds (s : State) (g : Fin 8) (p : Burst → Bool) (keep : Bool) (hu : s0.Upholds s) :
    s0.Upholds (State.withdrawFrom s g p keep) := by
  unfold State.withdrawFrom
  dsimp only
  repeat' (first | with_reducible assumption | with_reducible apply State.modGs_upholds
                 | with_reducible apply State.dropBursts_upholds)

theorem State.withdrawGs_upholds (s : State) (g : Fin 8) (hu : s0.Upholds s) :
    s0.Upholds (State.withdrawGs s g) := by
  unfold State.withdrawGs
  repeat' (first | with_reducible assumption | with_reducible apply State.modGs_upholds
                 | with_reducible apply State.withdrawFrom_upholds)

theorem State.withdrawAll_upholds (s : State) (hu : s0.Upholds s) :
    s0.Upholds (State.withdrawAll s) := by
  unfold State.withdrawAll
  repeat' (first | with_reducible assumption | (intro _ _ _) | with_reducible refine State.Upholds.foldl ?_ ?_
                 | with_reducible apply State.withdrawGs_upholds)

theorem State.withdrawTakes_upholds (s : State) (g : Fin 8) (p : Burst → Bool) (keep : Nat) (hu : s0.Upholds s) :
    s0.Upholds (State.withdrawTakes s g p keep) := by
  unfold State.withdrawTakes
  dsimp only
  repeat' (first | with_reducible assumption | with_reducible apply State.modGs_upholds
                 | with_reducible apply State.dropBursts_upholds | split)

theorem State.returnTo_upholds (s : State) (ts : List Take) (q : Fin 64) (hu : s0.Upholds s) :
    s0.Upholds (State.returnTo s ts q) := by
  unfold State.returnTo
  dsimp only
  repeat' (first | with_reducible assumption | with_reducible apply State.modQ_upholds | split)

theorem State.undo_upholds (s : State) (g : Fin 8) (hu : s0.Upholds s) :
    s0.Upholds (State.undo s g) := by
  unfold State.undo
  dsimp only
  repeat' (first | with_reducible assumption | (intro _ _ _) | with_reducible refine State.Upholds.ite ?_ ?_
                 | with_reducible refine State.Upholds.foldl ?_ ?_ | with_reducible apply State.modGs_upholds
                 | with_reducible apply State.returnTo_upholds
                 | with_reducible refine State.Upholds.upd ?_ rfl rfl rfl rfl rfl rfl)

theorem State.emptyTable_upholds (s : State) (hu : s0.Upholds s) :
    s0.Upholds (State.emptyTable s) := by
  unfold State.emptyTable
  dsimp only
  exact .upd hu rfl rfl rfl rfl rfl rfl

theorem State.takeInto_upholds (s : State) (b : Burst) (later : List Burst) (band : Fin 4) (q : Fin 64)
    (hu : s0.Upholds s) {s1 : State} {b1 : Burst} {l1 : List Burst}
    (ht : s.takeInto b later band q = some (s1, b1, l1)) : s0.Upholds s1 := by
  unfold State.takeInto at ht
  extract_lets x at ht
  split at ht
  · obtain ⟨rfl, -⟩ := Prod.mk.inj (Option.some.inj ht)
    exact .upd (State.modQ_upholds _ _ _ (State.drawEntry_upholds _ _ hu ‹_›)) rfl rfl rfl rfl rfl rfl
  · cases ht

theorem State.fillBurst_upholds (n : Nat) : ∀ (s : State) (b : Burst) (later : List Burst), s0.Upholds s →
    s0.Upholds (s.fillBurst b later n).1 := by
  induction n with
  | zero => intro s b later hu; exact hu
  | succ n ih =>
    intro s b later hu
    unfold State.fillBurst
    split
    · exact hu
    · split
      · exact hu
      · exact ih _ _ _ (State.takeInto_upholds _ _ _ _ _ hu ‹_›)

theorem State.fillSlot_upholds (s : State) (b : Burst) (hu : s0.Upholds s) : s0.Upholds (s.fillSlot b).1 := by
  unfold State.fillSlot
  split
  · split
    · exact hu
    · extract_lets x
      split
      · exact hu
      · exact .upd (State.modQ_upholds _ _ _ hu) rfl rfl rfl rfl rfl rfl
  · exact hu

theorem State.allotSlot_upholds (s : State) (b : Burst) (hu : s0.Upholds s) : s0.Upholds (s.allotSlot b).1 := by
  unfold State.allotSlot
  split
  · split
    · exact State.drawEntry_upholds _ _ hu ‹_›
    · exact hu
  · exact hu

theorem State.work_upholds (s : State) (b : Burst) (later : List Burst) (hu : s0.Upholds s) :
    s0.Upholds (s.work b later).1 := by
  have h1 : s0.Upholds (s.allotSlot b).1 := State.allotSlot_upholds _ _ hu
  unfold State.work
  dsimp only
  split
  · have h2 := State.fillSlot_upholds _ (s.allotSlot b).2 h1
    split
    · exact h2
    · exact State.fillBurst_upholds _ _ _ _ h2
  · split
    · exact h1
    · exact State.fillBurst_upholds _ _ _ _ h1

theorem State.workAll_upholds (n : Nat) : ∀ (s : State) (bs : List Burst), s0.Upholds s → s0.Upholds
    (s.workAll n bs).1 := by
  induction n with
  | zero => intro s bs hu; exact hu
  | succ n ih =>
    intro s bs hu
    cases bs with
    | nil => exact hu
    | cons b bs => exact ih _ _ (State.work_upholds s b bs hu)

theorem State.build_upholds (s : State) (g : Fin 8) (hu : s0.Upholds s) : s0.Upholds (s.build g) := by
  unfold State.build
  extract_lets x
  split
  · exact hu
  · exact State.startJobs_upholds _ (State.modGs_upholds _ _ _ (State.workAll_upholds _ _ _ hu))

theorem State.buildAll_upholds (s : State) (hu : s0.Upholds s) :
    s0.Upholds (State.buildAll s) := by
  unfold State.buildAll
  repeat' (first | with_reducible assumption | (intro _ _ _) | with_reducible refine State.Upholds.foldl ?_ ?_
                 | with_reducible apply State.build_upholds)

theorem State.assemble_upholds (s : State) (b : Burst) (hu : s0.Upholds s) :
    s0.Upholds (State.assemble s b) := by
  unfold State.assemble
  dsimp only
  repeat' (first | with_reducible assumption | with_reducible apply State.modGs_upholds)

theorem State.forecast_upholds (s : State) (g : Fin 8) (hu : s0.Upholds s) :
    s0.Upholds (State.forecast s g) := by
  unfold State.forecast
  dsimp only
  repeat' (first | with_reducible assumption | (intro _ _ _) | with_reducible refine State.Upholds.ite ?_ ?_
                 | with_reducible refine State.Upholds.foldl ?_ ?_ | with_reducible apply State.assemble_upholds)

theorem State.rebuild_upholds (s : State) (g : Fin 8) (hu : s0.Upholds s) :
    s0.Upholds (State.rebuild s g) := by
  unfold State.rebuild
  repeat' (first | with_reducible assumption | with_reducible refine State.Upholds.ite ?_ ?_
                 | with_reducible apply State.build_upholds | with_reducible apply State.forecast_upholds)

theorem State.completeUndo_upholds (s : State) (g : Fin 8) (hu : s0.Upholds s) :
    s0.Upholds (State.completeUndo s g) := by
  unfold State.completeUndo
  repeat' (first | with_reducible assumption | with_reducible apply State.rebuild_upholds
                 | with_reducible apply State.undo_upholds)

theorem State.withdrawKept_upholds (s : State) (g : Fin 8) (p : Burst → Bool) (hu : s0.Upholds s) :
    s0.Upholds (State.withdrawKept s g p) := by
  unfold State.withdrawKept
  repeat' (first | with_reducible assumption | with_reducible apply State.rebuild_upholds
                 | with_reducible apply State.withdrawFrom_upholds)

theorem State.checkKi_upholds (s : State) (hu : s0.Upholds s) :
    s0.Upholds (State.checkKi s) := by
  unfold State.checkKi
  dsimp only
  repeat' (first | with_reducible assumption | (intro _ _ _) | with_reducible refine State.Upholds.ite ?_ ?_
                 | with_reducible refine State.Upholds.foldl ?_ ?_ | with_reducible apply State.withdrawKept_upholds
                 | with_reducible apply State.modGs_upholds)

theorem State.resolveGs_upholds (s : State) (g : Fin 8) (hu : s0.Upholds s) :
    s0.Upholds (State.resolveGs s g) := by
  unfold State.resolveGs
  dsimp only
  repeat' (first | with_reducible assumption | with_reducible refine State.Upholds.ite ?_ ?_
                 | with_reducible apply State.modGs_upholds | with_reducible apply State.rebuild_upholds
                 | with_reducible apply State.withdrawFrom_upholds | with_reducible apply State.withdrawKept_upholds
                 | split)

theorem State.resolveAll_upholds (s : State) (hu : s0.Upholds s) :
    s0.Upholds (State.resolveAll s) := by
  unfold State.resolveAll
  repeat' (first | with_reducible assumption | (intro _ _ _) | with_reducible refine State.Upholds.foldl ?_ ?_
                 | with_reducible apply State.resolveGs_upholds)

/-! ### EnsUnit -/

theorem State.markSuspect_upholds (s : State) (line : Nat) (hu : s0.Upholds s) :
    s0.Upholds (State.markSuspect s line) := by
  unfold State.markSuspect
  dsimp only
  repeat' (first | with_reducible assumption | with_reducible refine State.Upholds.ite ?_ ?_
                 | with_reducible apply State.raise_upholds
                 | with_reducible refine State.Upholds.upd ?_ rfl rfl rfl rfl rfl rfl)

theorem State.nvm_upholds (s : State) (x : Ens) (hu : s0.Upholds s) : s0.Upholds { s with nvm := x } :=
  .upd hu rfl rfl rfl rfl rfl rfl

theorem State.spareWatch_upholds (s : State) (b : Fin 4) (hu : s0.Upholds s) : s0.Upholds (s.spareWatch b) := by
  unfold State.spareWatch
  exact .ite (State.raise_upholds _ _ _ (State.nvm_upholds _ _ hu)) hu

theorem State.remap_upholds (s : State) (line : Nat) (hu : s0.Upholds s) :
    s0.Upholds (State.remap s line) := by
  unfold State.remap
  extract_lets b r
  refine .ite (State.spareWatch_upholds _ _ (State.nvm_upholds s (s.nvm.remapped line 6) hu)) (.ite hu ?_)
  exact State.raise_upholds _ _ _ (State.nvm_upholds s _ hu)

theorem State.writeLine_upholds (s : State) (line : Nat) (bs : List Byte) (hu : s0.Upholds s) :
    s0.Upholds (s.writeLine line bs) := by
  have h1 : ∀ v, s0.Upholds { s with ens := s.ens.putN (64 * line) bs, nvm := v } := fun _ =>
    hu.change (Nat.le_refl _) (Nat.le_refl _) fun m => ⟨m.sram, Memory.canon_putN m.ens _ _, m.buf, m.work⟩
  unfold State.writeLine
  dsimp only
  split
  · exact State.remap_upholds _ _ (h1 _)
  · exact h1 _

theorem State.writeLines_upholds (n : Nat) (s : State) (line : Nat) (bs : List Byte) (hu : s0.Upholds s) :
    s0.Upholds (s.writeLines n line bs) := by
  induction n generalizing s line bs with
  | zero => exact hu
  | succ n ih =>
    unfold State.writeLines
    exact .ite hu (ih _ _ _ (State.writeLine_upholds _ _ _ hu))

theorem State.persisted_upholds (s : State) (hu : s0.Upholds s) :
    s0.Upholds (State.persisted s) := by
  unfold State.persisted
  repeat' (first | with_reducible assumption | with_reducible apply State.updateEnded_upholds)

theorem State.revocationOver_upholds (s : State) (id : Nat) (hu : s0.Upholds s) : s0.Upholds (s.revocationOver id) := by
  unfold State.revocationOver
  exact .ite hu (.upd hu rfl rfl rfl rfl rfl rfl)

theorem State.endUpdate_upholds (s : State) (u : EnsUpd) (st : Half) (hu : s0.Upholds s) :
    s0.Upholds (State.endUpdate s u st) := by
  unfold State.endUpdate
  extract_lets _ s1 data faulted final s2 s3
  have h1 : s0.Upholds s1 := State.revocationOver_upholds _ _ (State.nvm_upholds _ _ hu)
  have h2 : s0.Upholds s2 := .ite h1 (State.post_upholds _ _ _ _ _ _ h1)
  have h3 : s0.Upholds s3 := by
    unfold s3
    split
    · exact .ite (State.answer_upholds _ _ _ _ h2) (State.done_upholds _ _ _ _ h2)
    · exact h2
  exact State.updateEnded_upholds _ _ _ h3

theorem State.stopUpdate_upholds (s : State) (r : Nat) (hu : s0.Upholds s) :
    s0.Upholds (State.stopUpdate s r) := by
  unfold State.stopUpdate
  dsimp only
  exact .upd hu rfl rfl rfl rfl rfl rfl

theorem State.cutUpdates_upholds (s : State) (hu : s0.Upholds s) : s0.Upholds s.cutUpdates := by
  unfold State.cutUpdates
  extract_lets s1
  refine State.nvm_upholds _ _ (.foldl hu fun x u hx => ?_)
  extract_lets line n due y z
  have hz : s0.Upholds z := .ite (State.nvm_upholds _ _ (State.freed_upholds _ hx)) (State.freed_upholds _ hx)
  split
  · exact hz
  · exact hz.change (Nat.le_refl _) (Nat.le_refl _) fun m => ⟨m.sram, Memory.canon_putN m.ens _ _, m.buf, m.work⟩
  · exact State.nvm_upholds _ _ hz

theorem State.journalBoot_upholds (s : State) (hu : s0.Upholds s) :
    s0.Upholds (State.journalBoot s) := by
  unfold State.journalBoot
  extract_lets _ _ close
  have h : ∀ x f, s0.Upholds (close x f) := fun _ _ => .upd hu rfl rfl rfl rfl rfl rfl
  split
  · exact h _ _
  · split
    · exact hu
    · exact h _ _
    · exact State.spareWatch_upholds _ _ (h _ _)
    · exact h _ _

/-! ### AudUnit -/

theorem State.modPort_upholds (s : State) (p : Fin 3) (f : APort → APort) (hu : s0.Upholds s) :
    s0.Upholds (State.modPort s p f) := by
  unfold State.modPort
  dsimp only
  exact .upd hu rfl rfl rfl rfl rfl rfl

theorem State.modTps_upholds (s : State) (n : Fin 2) (f : Tps → Tps) (hu : s0.Upholds s) :
    s0.Upholds (State.modTps s n f) := by
  unfold State.modTps
  dsimp only
  exact .upd hu rfl rfl rfl rfl rfl rfl

theorem State.slipWrite_upholds (s : State) (blk : List Pair) (hu : s0.Upholds s) :
    s0.Upholds (State.slipWrite s blk) := by
  unfold State.slipWrite
  dsimp only
  repeat' (first | with_reducible assumption | with_reducible refine State.Upholds.ite ?_ ?_
                 | with_reducible apply State.raise_upholds
                 | with_reducible refine State.Upholds.upd ?_ rfl rfl rfl rfl rfl rfl)

theorem State.monWrite_upholds (s : State) (blk : List Pair) (hu : s0.Upholds s) :
    s0.Upholds (State.monWrite s blk) := by
  unfold State.monWrite
  dsimp only
  repeat' (first | with_reducible assumption | split
                 | with_reducible refine State.Upholds.upd ?_ rfl rfl rfl rfl rfl rfl)

theorem State.openGate_upholds (s : State) (p : Fin 3) (hu : s0.Upholds s) :
    s0.Upholds (State.openGate s p) := by
  unfold State.openGate
  repeat' (first | with_reducible assumption | with_reducible apply State.modPort_upholds)

theorem State.closeGate_upholds (s : State) (p : Fin 3) (hu : s0.Upholds s) :
    s0.Upholds (State.closeGate s p) := by
  unfold State.closeGate
  repeat' (first | with_reducible assumption | with_reducible apply State.modPort_upholds)

theorem State.gateDone_upholds (s : State) (p : Fin 3) (hu : s0.Upholds s) :
    s0.Upholds (State.gateDone s p) := by
  unfold State.gateDone
  dsimp only
  repeat' (first | with_reducible assumption | with_reducible refine State.Upholds.ite ?_ ?_
                 | with_reducible apply State.raise_upholds | with_reducible apply State.modPort_upholds
                 | with_reducible apply State.openGate_upholds)

theorem State.gateTimeout_upholds (s : State) (p : Fin 3) (hu : s0.Upholds s) :
    s0.Upholds (State.gateTimeout s p) := by
  unfold State.gateTimeout
  dsimp only
  repeat' (first | with_reducible assumption | with_reducible refine State.Upholds.ite ?_ ?_
                 | with_reducible apply State.modPort_upholds | with_reducible apply State.raise_upholds
                 | with_reducible refine State.Upholds.upd ?_ rfl rfl rfl rfl rfl rfl)

theorem State.startPort_upholds (s : State) (p : Fin 3) (late : Bool) (hu : s0.Upholds s) :
    s0.Upholds (State.startPort s p late) := by
  unfold State.startPort
  dsimp only
  repeat' (first | with_reducible assumption | with_reducible apply State.modPort_upholds
                 | with_reducible apply State.openGate_upholds | split)

theorem State.stopPort_upholds (s : State) (p : Fin 3) (hu : s0.Upholds s) :
    s0.Upholds (State.stopPort s p) := by
  unfold State.stopPort
  dsimp only
  repeat' (first | with_reducible assumption | with_reducible apply State.modPort_upholds
                 | with_reducible apply State.closeGate_upholds | split)

theorem State.audTouch_upholds (s : State) (hu : s0.Upholds s) :
    s0.Upholds (State.audTouch s) := by
  unfold State.audTouch
  dsimp only
  exact .upd hu rfl rfl rfl rfl rfl rfl

theorem State.closePort_upholds (s : State) (p : Fin 3) (hu : s0.Upholds s) :
    s0.Upholds (State.closePort s p) := by
  unfold State.closePort
  dsimp only
  repeat' (first | with_reducible assumption | with_reducible apply State.modPort_upholds
                 | with_reducible apply State.audTouch_upholds | with_reducible apply State.closeGate_upholds
                 | split)

theorem State.rampPort_upholds (s : State) (p : Fin 3) (hu : s0.Upholds s) :
    s0.Upholds (State.rampPort s p) := by
  unfold State.rampPort
  dsimp only
  repeat' (first | with_reducible assumption | with_reducible apply State.modPort_upholds
                 | with_reducible apply State.audTouch_upholds | with_reducible apply State.gateDone_upholds | split)

theorem State.cutPort_upholds (s : State) (p : Fin 3) (hu : s0.Upholds s) :
    s0.Upholds (State.cutPort s p) := by
  unfold State.cutPort
  dsimp only
  repeat' (first | with_reducible assumption | with_reducible apply State.modPort_upholds)

theorem State.closeTps_upholds (s : State) (n : Fin 2) (hu : s0.Upholds s) :
    s0.Upholds (State.closeTps s n) := by
  unfold State.closeTps
  dsimp only
  repeat' (first | with_reducible assumption | with_reducible apply State.audTouch_upholds
                 | with_reducible apply State.modTps_upholds)

theorem State.openTps_upholds (s : State) (n : Fin 2) (late : Bool) (hu : s0.Upholds s) :
    s0.Upholds (State.openTps s n late) := by
  unfold State.openTps
  dsimp only
  repeat' (first | with_reducible assumption | with_reducible apply State.modTps_upholds)

theorem State.tpsDefect_upholds (s : State) (n : Fin 2) (on : Bool) (hu : s0.Upholds s) :
    s0.Upholds (State.tpsDefect s n on) := by
  unfold State.tpsDefect
  dsimp only
  repeat' (first | with_reducible assumption | with_reducible refine State.Upholds.ite ?_ ?_
                 | with_reducible apply State.modTps_upholds | with_reducible apply State.raise_upholds)

theorem State.tpsLof_upholds (s : State) (hu : s0.Upholds s) :
    s0.Upholds (State.tpsLof s) := by
  unfold State.tpsLof
  repeat' (first | with_reducible assumption | (intro _ _ _) | with_reducible refine State.Upholds.ite ?_ ?_
                 | with_reducible refine State.Upholds.foldl ?_ ?_ | with_reducible apply State.tpsDefect_upholds
                 | with_reducible apply State.modTps_upholds)

theorem State.tpsFrame_upholds (s : State) (n : Fin 2) (hu : s0.Upholds s) :
    s0.Upholds (State.tpsFrame s n) := by
  unfold State.tpsFrame
  dsimp only
  repeat' (first | with_reducible assumption | with_reducible refine State.Upholds.ite ?_ ?_
                 | with_reducible apply State.modTps_upholds | with_reducible apply State.tpsDefect_upholds)

theorem State.tribFrame_upholds (s : State) (hu : s0.Upholds s) :
    s0.Upholds (State.tribFrame s) := by
  unfold State.tribFrame
  dsimp only
  repeat' (first | with_reducible assumption | (intro _ _ _) | with_reducible refine State.Upholds.ite ?_ ?_
                 | with_reducible refine State.Upholds.foldl ?_ ?_ | with_reducible apply State.tpsFrame_upholds
                 | with_reducible apply State.modTps_upholds
                 | with_reducible refine State.Upholds.upd ?_ rfl rfl rfl rfl rfl rfl)

theorem State.removeTps_upholds (s : State) (n : Fin 2) (hu : s0.Upholds s) :
    s0.Upholds (State.removeTps s n) := by
  unfold State.removeTps
  dsimp only
  repeat' (first | with_reducible assumption | with_reducible refine State.Upholds.ite ?_ ?_
                 | with_reducible apply State.closeTps_upholds)

theorem State.tribClear_upholds (s : State) (hu : s0.Upholds s) :
    s0.Upholds (State.tribClear s) := by
  unfold State.tribClear
  dsimp only
  repeat' (first | with_reducible assumption | (intro _ _ _) | with_reducible refine State.Upholds.foldl ?_ ?_
                 | with_reducible apply State.removeTps_upholds
                 | with_reducible refine State.Upholds.upd ?_ rfl rfl rfl rfl rfl rfl)

theorem State.closeLease_upholds (s : State) (id : Nat) (hu : s0.Upholds s) :
    s0.Upholds (State.closeLease s id) := by
  unfold State.closeLease
  repeat' (first | with_reducible assumption | with_reducible refine State.Upholds.ite ?_ ?_
                 | with_reducible apply State.rampPort_upholds | with_reducible apply State.closeTps_upholds)

theorem State.audOff_upholds (s : State) (hu : s0.Upholds s) :
    s0.Upholds (State.audOff s) := by
  unfold State.audOff
  dsimp only
  repeat' (first | with_reducible assumption | (intro _ _ _) | with_reducible refine State.Upholds.foldl ?_ ?_
                 | with_reducible apply State.cutPort_upholds | with_reducible apply State.closeTps_upholds
                 | with_reducible refine State.Upholds.upd ?_ rfl rfl rfl rfl rfl rfl)

theorem State.recheckPort_upholds (s : State) (p : Fin 3) (hu : s0.Upholds s) :
    s0.Upholds (State.recheckPort s p) := by
  unfold State.recheckPort
  dsimp only
  repeat' (first | with_reducible assumption | with_reducible refine State.Upholds.ite ?_ ?_
                 | with_reducible apply State.modPort_upholds | with_reducible apply State.startPort_upholds
                 | with_reducible apply State.stopPort_upholds
                 | with_reducible refine State.Upholds.upd ?_ rfl rfl rfl rfl rfl rfl)

theorem State.recheckTps_upholds (s : State) (n : Fin 2) (hu : s0.Upholds s) :
    s0.Upholds (State.recheckTps s n) := by
  unfold State.recheckTps
  dsimp only
  repeat' (first | with_reducible assumption | with_reducible refine State.Upholds.ite ?_ ?_
                 | with_reducible apply State.modTps_upholds | with_reducible apply State.openTps_upholds
                 | with_reducible apply State.closeTps_upholds
                 | with_reducible refine State.Upholds.upd ?_ rfl rfl rfl rfl rfl rfl)

theorem State.rephase_upholds (s : State) (p : Fin 3) (hu : s0.Upholds s) : s0.Upholds (s.rephase p) := by
  unfold State.rephase
  exact .ite hu (State.modPort_upholds _ _ _ (State.freed_upholds _ hu))

theorem State.audStep_upholds (s : State) (hu : s0.Upholds s) :
    s0.Upholds (State.audStep s) := by
  unfold State.audStep
  dsimp only
  repeat' (first | with_reducible assumption | (intro _ _ _) | with_reducible refine State.Upholds.foldl ?_ ?_
                 | with_reducible apply State.rephase_upholds | with_reducible apply State.recheckPort_upholds
                 | with_reducible apply State.recheckTps_upholds)

theorem State.mapTrib_upholds (s : State) (q : Fin 64) (ttype : Nat) (body : List Byte) (hu : s0.Upholds s) :
    s0.Upholds (State.mapTrib s q ttype body) := by
  unfold State.mapTrib
  dsimp only
  repeat' (first | with_reducible assumption | with_reducible apply State.admitFrame_upholds
                 | with_reducible apply State.build_upholds)

/-! ### ParserUnit -/

theorem State.ingress_upholds (s : State) (f : Frame) (hu : s0.Upholds s) :
    s0.Upholds (State.ingress s f) := by
  unfold State.ingress
  dsimp only
  repeat' (first | with_reducible assumption | with_reducible refine State.Upholds.ite ?_ ?_
                 | with_reducible refine State.Upholds.upd ?_ rfl rfl rfl rfl rfl rfl)

theorem State.afterAdmit_upholds (s : State) (i : Fin 184) (hu : s0.Upholds s) :
    s0.Upholds (State.afterAdmit s i) := by
  unfold State.afterAdmit
  repeat' (first | with_reducible assumption | with_reducible refine State.Upholds.ite ?_ ?_
                 | with_reducible apply State.build_upholds | with_reducible apply State.tellPort_upholds | split)

theorem State.actOn_upholds (s : State) (f : Frame) (uq : BitVec 64) (a : Nat) (hu : s0.Upholds s) :
    s0.Upholds (s.actOn f uq a) := by
  unfold State.actOn
  extract_lets _ s1
  have h1 : s0.Upholds s1 := State.Upholds.ite (.upd hu rfl rfl rfl rfl rfl rfl) hu
  clear_value s1
  split
  · exact h1
  · exact .upd h1 rfl rfl rfl rfl rfl rfl
  · exact .upd h1 rfl rfl rfl rfl rfl rfl
  · exact .upd h1 rfl rfl rfl rfl rfl rfl
  · exact .upd h1 rfl rfl rfl rfl rfl rfl
  · refine State.afterAdmit_upholds _ _ (State.admitFrame_upholds _ _ _ ?_)
    cases aPolice a with
    | true => exact State.police_upholds _ _ _ h1
    | false => exact h1

theorem State.discardStaging_upholds (s : State) (hu : s0.Upholds s) :
    s0.Upholds (State.discardStaging s) := by
  unfold State.discardStaging
  dsimp only
  repeat' (first | with_reducible assumption | split
                 | with_reducible refine State.Upholds.upd ?_ rfl rfl rfl rfl rfl rfl)

theorem State.persistVersion_upholds (s : State) (hu : s0.Upholds s) :
    s0.Upholds (State.persistVersion s) := by
  unfold State.persistVersion
  dsimp only
  repeat' (first | with_reducible assumption | with_reducible refine State.Upholds.ite ?_ ?_
                 | with_reducible apply State.persisted_upholds
                 | with_reducible refine State.Upholds.upd ?_ rfl rfl rfl rfl rfl rfl)

theorem State.makeCurrent_upholds (s : State) (tag : Fin 4) (hu : s0.Upholds s) :
    s0.Upholds (State.makeCurrent s tag) := by
  unfold State.makeCurrent
  dsimp only
  repeat' (first | with_reducible assumption | with_reducible apply State.persistVersion_upholds
                 | with_reducible apply State.raise_upholds
                 | with_reducible refine State.Upholds.upd ?_ rfl rfl rfl rfl rfl rfl)

theorem State.freeDrained_upholds (s : State) (tag : Fin 4) (hu : s0.Upholds s) :
    s0.Upholds (State.freeDrained s tag) := by
  unfold State.freeDrained
  dsimp only
  repeat' (first | with_reducible assumption | with_reducible apply State.raise_upholds
                 | with_reducible apply State.makeCurrent_upholds | split
                 | with_reducible refine State.Upholds.upd ?_ rfl rfl rfl rfl rfl rfl)

theorem State.stopParser_upholds (s : State) (hu : s0.Upholds s) :
    s0.Upholds (State.stopParser s) := by
  unfold State.stopParser
  dsimp only
  repeat' (first | with_reducible assumption | with_reducible apply State.freeDrained_upholds | split
                 | with_reducible refine State.Upholds.upd ?_ rfl rfl rfl rfl rfl rfl)

theorem State.lostShadow_upholds (s : State) (hu : s0.Upholds s) :
    s0.Upholds (State.lostShadow s) := by
  unfold State.lostShadow
  dsimp only
  exact .upd hu rfl rfl rfl rfl rfl rfl


/-! ### TimeUnit -/

theorem State.openTime_upholds (s : State) (src : SSource) (hu : s0.Upholds s) :
    s0.Upholds (State.openTime s src) := by
  unfold State.openTime
  dsimp only
  repeat' (first | with_reducible assumption | with_reducible apply State.raise_upholds
                 | with_reducible refine State.Upholds.upd ?_ rfl rfl rfl rfl rfl rfl)

theorem State.time_upholds (s : State) (x : TimeUnit) (hu : s0.Upholds s) : s0.Upholds { s with time := x } :=
  .upd hu rfl rfl rfl rfl rfl rfl

theorem State.leftHoldover_upholds (s : State) (was : SState) (hu : s0.Upholds s) : s0.Upholds (s.leftHoldover was) := by
  unfold State.leftHoldover
  exact .ite (State.raise_upholds _ _ _ hu) hu

theorem State.closeTime_upholds (s : State) (hu : s0.Upholds s) :
    s0.Upholds (State.closeTime s) := by
  unfold State.closeTime
  exact .ite hu (State.raise_upholds _ _ _ (State.leftHoldover_upholds _ _ (State.time_upholds _ _ hu)))

theorem State.openHead_upholds (s : State) (hu : s0.Upholds s) :
    s0.Upholds (State.openHead s) := by
  unfold State.openHead
  repeat' (first | with_reducible assumption | with_reducible apply State.openTime_upholds
                 | with_reducible apply State.closeTime_upholds)

theorem State.enterHoldover_upholds (s : State) (hu : s0.Upholds s) :
    s0.Upholds (State.enterHoldover s) := by
  unfold State.enterHoldover
  dsimp only
  repeat' (first | with_reducible assumption | with_reducible apply State.raise_upholds
                 | with_reducible refine State.Upholds.upd ?_ rfl rfl rfl rfl rfl rfl)

theorem State.timeDereg_upholds (s : State) (hu : s0.Upholds s) :
    s0.Upholds (State.timeDereg s) := by
  unfold State.timeDereg
  dsimp only
  repeat' (first | with_reducible assumption | with_reducible refine State.Upholds.ite ?_ ?_
                 | with_reducible apply State.enterHoldover_upholds
                 | with_reducible refine State.Upholds.upd ?_ rfl rfl rfl rfl rfl rfl)

theorem State.faultTime_upholds (s : State) (e : ℤ) (hu : s0.Upholds s) :
    s0.Upholds (State.faultTime s e) := by
  unfold State.faultTime
  exact State.raise_upholds _ _ _ (State.leftHoldover_upholds _ _ (State.time_upholds _ _ hu))

theorem State.endTenantTime_upholds (s : State) (t : Option Ten) (hu : s0.Upholds s) :
    s0.Upholds (State.endTenantTime s t) := by
  unfold State.endTenantTime
  repeat' (first | with_reducible assumption | with_reducible refine State.Upholds.ite ?_ ?_
                 | with_reducible apply State.closeTime_upholds | split)

theorem State.timeEndOf_upholds (s : State) (t : Ten) (hu : s0.Upholds s) :
    s0.Upholds (State.timeEndOf s t) := by
  unfold State.timeEndOf
  dsimp only
  repeat' (first | with_reducible assumption | with_reducible apply State.endTenantTime_upholds
                 | with_reducible refine State.Upholds.upd ?_ rfl rfl rfl rfl rfl rfl)

theorem State.timeToGlacier_upholds (s : State) (hu : s0.Upholds s) :
    s0.Upholds (State.timeToGlacier s) := by
  unfold State.timeToGlacier
  dsimp only
  repeat' (first | with_reducible assumption | with_reducible apply State.closeTime_upholds
                 | with_reducible apply State.freed_upholds | split
                 | with_reducible refine State.Upholds.upd ?_ rfl rfl rfl rfl rfl rfl)

theorem State.timeToFrost_upholds (s : State) (hu : s0.Upholds s) :
    s0.Upholds (State.timeToFrost s) := by
  unfold State.timeToFrost
  dsimp only
  repeat' (first | with_reducible assumption | with_reducible apply State.closeTime_upholds
                 | with_reducible refine State.Upholds.upd ?_ rfl rfl rfl rfl rfl rfl)

theorem State.timeFromGlacier_upholds (s : State) (hu : s0.Upholds s) :
    s0.Upholds (State.timeFromGlacier s) := by
  unfold State.timeFromGlacier
  dsimp only
  repeat' (first | with_reducible assumption | split
                 | with_reducible refine State.Upholds.upd ?_ rfl rfl rfl rfl rfl rfl)

theorem State.timeXtalFault_upholds (s : State) (hu : s0.Upholds s) :
    s0.Upholds (State.timeXtalFault s) := by
  unfold State.timeXtalFault
  dsimp only
  repeat' (first | with_reducible assumption | with_reducible refine State.Upholds.ite ?_ ?_
                 | with_reducible refine State.Upholds.upd ?_ rfl rfl rfl rfl rfl rfl)

theorem State.timeFromNight_upholds (s : State) (missed : Nat) (hu : s0.Upholds s) :
    s0.Upholds (State.timeFromNight s missed) := by
  unfold State.timeFromNight
  dsimp only
  exact .upd hu rfl rfl rfl rfl rfl rfl


/-! ### ClockUnit -/

theorem State.dpllLoss_upholds (s : State) (hu : s0.Upholds s) :
    s0.Upholds (State.dpllLoss s) := by
  unfold State.dpllLoss
  dsimp only
  repeat' (first | with_reducible assumption | with_reducible refine State.Upholds.ite ?_ ?_ | split
                 | with_reducible refine State.Upholds.upd ?_ rfl rfl rfl rfl rfl rfl)

theorem State.dpllSample_upholds (s : State) (hu : s0.Upholds s) :
    s0.Upholds (State.dpllSample s) := by
  unfold State.dpllSample
  dsimp only
  repeat' (first | with_reducible assumption | with_reducible refine State.Upholds.ite ?_ ?_
                 | with_reducible refine State.Upholds.upd ?_ rfl rfl rfl rfl rfl rfl)

theorem State.beginWakeSearch_upholds (s : State) (hu : s0.Upholds s) :
    s0.Upholds (State.beginWakeSearch s) := by
  unfold State.beginWakeSearch
  dsimp only
  exact .upd hu rfl rfl rfl rfl rfl rfl

theorem State.wakeLocked_upholds (s : State) (hu : s0.Upholds s) :
    s0.Upholds (State.wakeLocked s) := by
  unfold State.wakeLocked
  dsimp only
  repeat' (first | with_reducible assumption | split
                 | with_reducible refine State.Upholds.upd ?_ rfl rfl rfl rfl rfl rfl)

theorem State.clockBoot_upholds (s : State) (hu : s0.Upholds s) :
    s0.Upholds (State.clockBoot s) := by
  unfold State.clockBoot
  dsimp only
  repeat' (first | with_reducible assumption | split
                 | with_reducible refine State.Upholds.upd ?_ rfl rfl rfl rfl rfl rfl)

theorem State.clockToGlacier_upholds (s : State) (hu : s0.Upholds s) :
    s0.Upholds (State.clockToGlacier s) := by
  unfold State.clockToGlacier
  dsimp only
  exact .upd hu rfl rfl rfl rfl rfl rfl


/-! ### FirnUnit -/

theorem State.modJob_upholds (s : State) (num : Nat) (f : FJob → FJob) (hu : s0.Upholds s)
    (hf : s0.MemOk → ∀ j : FJob, j.work.canon → (f j).work.canon) : s0.Upholds (s.modJob num f) := by
  refine ⟨hu.life, hu.svn, fun m0 => ?_⟩
  have m := hu.mem m0
  refine ⟨m.sram, m.ens, m.buf, fun j hj => ?_⟩
  obtain ⟨x, hx, rfl⟩ := List.mem_map.1 hj
  split
  · exact hf m0 x (m.work x hx)
  · exact m.work x hx

theorem State.gainJob_upholds (s : State) (t : Ten) (hu : s0.Upholds s) :
    s0.Upholds (State.gainJob s t) := by
  unfold State.gainJob
  dsimp only
  exact .upd hu rfl rfl rfl rfl rfl rfl

theorem State.readyConstants_upholds (s : State) (hu : s0.Upholds s) :
    s0.Upholds (State.readyConstants s) := by
  unfold State.readyConstants
  dsimp only
  repeat' (first | with_reducible assumption | with_reducible refine State.Upholds.ite ?_ ?_
                 | with_reducible refine State.Upholds.upd ?_ rfl rfl rfl rfl rfl rfl)

theorem State.firnNext_upholds (s : State) (hu : s0.Upholds s) :
    s0.Upholds (State.firnNext s) := by
  unfold State.firnNext
  dsimp only
  repeat' (first | with_reducible assumption | with_reducible exact fun _ _ hj => hj
                 | with_reducible refine State.Upholds.ite ?_ ?_ | with_reducible apply State.readyConstants_upholds
                 | with_reducible apply State.modJob_upholds | split
                 | with_reducible refine State.Upholds.upd ?_ rfl rfl rfl rfl rfl rfl)

theorem State.dropJob_upholds (s : State) (j : FJob) (hu : s0.Upholds s) : s0.Upholds (s.dropJob j) := by
  have h1 : ∀ r c, s0.Upholds { s with firn := { s.firn with
      jobs := s.firn.jobs.filter fun x => x.num != j.num, run := r, copying := c } } := fun _ _ =>
    hu.change (Nat.le_refl _) (Nat.le_refl _) fun m =>
      ⟨m.sram, m.ens, m.buf, fun x hx => m.work x (List.mem_filter.1 hx).1⟩
  unfold State.dropJob
  extract_lets
  split
  · exact State.gainJob_upholds _ _ (h1 _ _)
  · exact h1 _ _

theorem State.firnTouch_upholds (s : State) (hu : s0.Upholds s) :
    s0.Upholds (State.firnTouch s) := by
  unfold State.firnTouch
  dsimp only
  repeat' (first | with_reducible assumption | with_reducible refine State.Upholds.ite ?_ ?_
                 | with_reducible refine State.Upholds.upd ?_ rfl rfl rfl rfl rfl rfl)

theorem State.engineLeft_upholds (s : State) (hu : s0.Upholds s) :
    s0.Upholds (State.engineLeft s) := by
  unfold State.engineLeft
  repeat' (first | with_reducible assumption | with_reducible refine State.Upholds.ite ?_ ?_
                 | with_reducible apply State.answer_upholds | split
                 | with_reducible refine State.Upholds.upd ?_ rfl rfl rfl rfl rfl rfl)

theorem State.firnSettled_upholds (s : State) (hu : s0.Upholds s) :
    s0.Upholds (State.firnSettled s) := by
  unfold State.firnSettled
  exact .ite hu (State.revocationOver_upholds _ _ hu)

theorem State.abortJob_upholds (s : State) (j : FJob) (reason : Nat) (hu : s0.Upholds s) :
    s0.Upholds (State.abortJob s j reason) := by
  unfold State.abortJob
  dsimp only
  repeat' (first | with_reducible assumption | with_reducible apply State.dropJob_upholds
                 | with_reducible apply State.post_upholds | with_reducible apply State.firnSettled_upholds
                 | with_reducible apply State.engineLeft_upholds | with_reducible apply State.firnTouch_upholds
                 | with_reducible apply State.raise_upholds | split
                 | with_reducible refine State.Upholds.upd ?_ rfl rfl rfl rfl rfl rfl)

theorem State.refuseJob_upholds (s : State) (j : FJob) (hu : s0.Upholds s) :
    s0.Upholds (State.refuseJob s j) := by
  unfold State.refuseJob
  dsimp only
  repeat' (first | with_reducible assumption | with_reducible apply State.dropJob_upholds
                 | with_reducible apply State.done_upholds | with_reducible apply State.firnSettled_upholds
                 | with_reducible apply State.engineLeft_upholds | with_reducible apply State.firnTouch_upholds
                 | with_reducible apply State.raise_upholds | split
                 | with_reducible refine State.Upholds.upd ?_ rfl rfl rfl rfl rfl rfl)

theorem State.firnSweep_upholds (s : State) (hu : s0.Upholds s) :
    s0.Upholds (State.firnSweep s) := by
  unfold State.firnSweep
  repeat' (first | with_reducible assumption | (intro _ _ _) | with_reducible refine State.Upholds.ite ?_ ?_
                 | with_reducible refine State.Upholds.foldl ?_ ?_ | with_reducible apply State.abortJob_upholds
                 | split)

theorem State.stopJobs_upholds (s : State) (t : Option Ten) (reason : Nat) (hu : s0.Upholds s) :
    s0.Upholds (State.stopJobs s t reason) := by
  unfold State.stopJobs
  dsimp only
  repeat' (first | with_reducible assumption | with_reducible exact fun _ _ hj => hj | (intro _ _ _)
                 | with_reducible refine State.Upholds.foldl ?_ ?_ | with_reducible apply State.modJob_upholds
                 | with_reducible apply State.firnSweep_upholds)

theorem State.firnOff_upholds (s : State) (hu : s0.Upholds s) :
    s0.Upholds (State.firnOff s) := by
  unfold State.firnOff
  dsimp only
  repeat' (first | with_reducible assumption | (intro _ _ _) | with_reducible refine State.Upholds.foldl ?_ ?_
                 | with_reducible apply State.abortJob_upholds
                 | with_reducible refine State.Upholds.upd ?_ rfl rfl rfl rfl rfl rfl)

theorem State.firnUnload_upholds (s : State) (hu : s0.Upholds s) :
    s0.Upholds (State.firnUnload s) := by
  unfold State.firnUnload
  dsimp only
  exact .upd hu rfl rfl rfl rfl rfl rfl

theorem State.firnThermal_upholds (s : State) (hu : s0.Upholds s) :
    s0.Upholds (State.firnThermal s) := by
  unfold State.firnThermal
  dsimp only
  repeat' (first | with_reducible assumption | with_reducible refine State.Upholds.ite ?_ ?_
                 | with_reducible apply State.firnNext_upholds
                 | with_reducible refine State.Upholds.upd ?_ rfl rfl rfl rfl rfl rfl)

/-! ### Operands -/

theorem State.guard_upholds (s : State) (t : Ten) (n : SlotIx) (checks : List (Bool × Half)) (k : State → State)
    (hu : s0.Upholds s) (hk : s0.Upholds (k s)) : s0.Upholds (s.guard t n checks k) := by
  unfold State.guard
  split
  · exact State.done_upholds _ _ _ _ hu
  · exact hk

end Sys2Proof.Machine
end

