-- ==== Sys2Proof/Laws/UpholdsLinks.lean ====
section
/-!
SUPPORT. What every step upholds (`State.Upholds`), operation by operation: the command slots and their release, the
sessions, the security unit, the registration and the lanes.
-/

namespace Sys2Proof.Machine

variable {s0 : State}

/-! ### Release -/

theorem State.stopResource_upholds (s : State) (id : Nat) (hu : s0.Upholds s) :
    s0.Upholds (State.stopResource s id) := by
  unfold State.stopResource
  repeat' (first | with_reducible assumption | with_reducible refine State.Upholds.ite ?_ ?_
                 | with_reducible apply State.closeLease_upholds | with_reducible apply State.endTenantTime_upholds
                 | with_reducible apply State.discardStaging_upholds | with_reducible apply State.stopUpdate_upholds)

theorem State.destroyIbKey_upholds (s : State) (t : Ten) (hu : s0.Upholds s) :
    s0.Upholds (State.destroyIbKey s t) := by
  unfold State.destroyIbKey
  repeat' (first | with_reducible assumption | with_reducible apply State.setEntry_upholds)

theorem State.endKeysOf_upholds (s : State) (t : Ten) (hu : s0.Upholds s) :
    s0.Upholds (State.endKeysOf s t) := by
  unfold State.endKeysOf
  dsimp only
  repeat' (first | with_reducible assumption | with_reducible apply State.dropEntries_upholds
                 | with_reducible refine State.Upholds.upd ?_ rfl rfl rfl rfl rfl rfl)

theorem State.endUnitsOf_upholds (s : State) (t : Ten) (hu : s0.Upholds s) :
    s0.Upholds (State.endUnitsOf s t) := by
  unfold State.endUnitsOf
  dsimp only
  repeat' (first | with_reducible assumption | with_reducible apply State.endKeysOf_upholds
                 | with_reducible apply State.timeEndOf_upholds
                 | with_reducible refine State.Upholds.upd ?_ rfl rfl rfl rfl rfl rfl)

theorem State.orphanWork_upholds (s : State) (hit : Ten → SlotIx → Bool) (hu : s0.Upholds s) :
    s0.Upholds (s.orphanWork hit) :=
  hu.change (Nat.le_refl _) (Nat.le_refl _) fun m => ⟨m.sram, m.ens, m.buf, fun j hj => by
    obtain ⟨x, hx, rfl⟩ := List.mem_map.1 hj
    exact m.work x hx⟩

theorem State.cutWaits_upholds (s : State) (hu : s0.Upholds s) :
    s0.Upholds (State.cutWaits s) := by
  unfold State.cutWaits
  dsimp only
  exact .upd hu rfl rfl rfl rfl rfl rfl

theorem State.cc0Down_upholds (s : State) (hu : s0.Upholds s) : s0.Upholds s.cc0Down :=
  (State.cutWaits_upholds s hu).change (Nat.le_refl _) (Nat.le_refl _) fun m => ⟨m.sram, m.ens, m.buf, fun j hj => by
    obtain ⟨x, hx, rfl⟩ := List.mem_map.1 hj
    exact m.work x hx⟩

theorem State.cutWork_upholds (s : State) (hu : s0.Upholds s) :
    s0.Upholds (State.cutWork s) := by
  unfold State.cutWork
  dsimp only
  repeat' (first | with_reducible assumption | (intro _ _ _) | with_reducible refine State.Upholds.foldl ?_ ?_
                 | with_reducible apply State.abortJob_upholds | with_reducible apply State.endUpdate_upholds
                 | with_reducible apply State.cutWaits_upholds
                 | with_reducible refine State.Upholds.upd ?_ rfl rfl rfl rfl rfl rfl)

theorem State.cc1Down_upholds (s : State) (hu : s0.Upholds s) :
    s0.Upholds (State.cc1Down s) := by
  unfold State.cc1Down
  repeat' (first | with_reducible assumption | with_reducible apply State.dpllLoss_upholds)

theorem State.cc1Back_upholds (s : State) (hu : s0.Upholds s) :
    s0.Upholds (State.cc1Back s) := by
  unfold State.cc1Back
  repeat' (first | with_reducible assumption | with_reducible apply State.buildAll_upholds)

/-! ### Sessions -/

theorem State.forgetEvents_upholds (s : State) (t : Ten) (hu : s0.Upholds s) :
    s0.Upholds (State.forgetEvents s t) := by
  unfold State.forgetEvents
  dsimp only
  exact .upd hu rfl rfl rfl rfl rfl rfl

theorem State.stopWaiting_upholds (s : State) (t : Ten) (n : SlotIx) (why : StopWhy) (hu : s0.Upholds s) :
    s0.Upholds (State.stopWaiting s t n why) := by
  unfold State.stopWaiting
  repeat' (first | with_reducible assumption | with_reducible apply State.post_upholds
                 | with_reducible apply State.modSlot_upholds)

theorem State.sweepInject_upholds (s : State) (t : Ten) (n : SlotIx) (hu : s0.Upholds s) :
    s0.Upholds (State.sweepInject s t n) := by
  unfold State.sweepInject
  dsimp only
  repeat' (first | with_reducible assumption | with_reducible apply State.post_upholds | split
                 | with_reducible refine State.Upholds.upd ?_ rfl rfl rfl rfl rfl rfl)

theorem State.askStop_upholds (s : State) (t : Ten) (n : SlotIx) (why : StopWhy) (hu : s0.Upholds s) :
    s0.Upholds (State.askStop s t n why) := by
  unfold State.askStop
  dsimp only
  repeat' (first | with_reducible assumption | with_reducible refine State.Upholds.ite ?_ ?_
                 | with_reducible apply State.stopWaiting_upholds | with_reducible apply State.sweepInject_upholds
                 | with_reducible apply State.firnSweep_upholds | with_reducible apply State.modSlot_upholds | split)

theorem State.askStopAll_upholds (s : State) (t : Ten) (self : Option SlotIx) (why : StopWhy) (hu : s0.Upholds s) :
    s0.Upholds (State.askStopAll s t self why) := by
  unfold State.askStopAll
  repeat' (first | with_reducible assumption | (intro _ _ _) | with_reducible refine State.Upholds.foldl ?_ ?_
                 | with_reducible apply State.askStop_upholds)

theorem State.stopAtSafePoint_upholds (s : State) (t : Ten) (n : SlotIx) (hu : s0.Upholds s) :
    s0.Upholds (State.stopAtSafePoint s t n) := by
  unfold State.stopAtSafePoint
  repeat' (first | with_reducible assumption | with_reducible apply State.post_upholds)

theorem State.leaseReleased_upholds (s : State) (t : Ten) (hu : s0.Upholds s) :
    s0.Upholds (State.leaseReleased s t) := by
  unfold State.leaseReleased
  dsimp only
  repeat' (first | with_reducible assumption | with_reducible refine State.Upholds.ite ?_ ?_
                 | with_reducible apply State.modTen_upholds | split
                 | with_reducible refine State.Upholds.upd ?_ rfl rfl rfl rfl rfl rfl)

theorem State.freeLease_upholds (s : State) (id : Nat) (hu : s0.Upholds s) :
    s0.Upholds (State.freeLease s id) := by
  unfold State.freeLease
  repeat' (first | with_reducible assumption | with_reducible apply State.leaseReleased_upholds
                 | with_reducible apply State.dropLease_upholds | split)

theorem State.revoke_upholds (s : State) (id : Nat) (hu : s0.Upholds s) :
    s0.Upholds (State.revoke s id) := by
  unfold State.revoke
  dsimp only
  repeat' (first | with_reducible assumption | with_reducible refine State.Upholds.ite ?_ ?_
                 | with_reducible apply State.freeLease_upholds | with_reducible apply State.stopResource_upholds
                 | with_reducible apply State.firnNext_upholds
                 | with_reducible refine State.Upholds.upd ?_ rfl rfl rfl rfl rfl rfl)

theorem State.markRevoking_upholds (s : State) (ids : List Nat) (hu : s0.Upholds s) :
    s0.Upholds (State.markRevoking s ids) := by
  unfold State.markRevoking
  dsimp only
  exact .upd hu rfl rfl rfl rfl rfl rfl

theorem State.tellRevoked_upholds (s : State) (t : Ten) (id : Nat) (cause : Nat) (hu : s0.Upholds s) :
    s0.Upholds (State.tellRevoked s t id cause) := by
  unfold State.tellRevoked
  repeat' (first | with_reducible assumption | with_reducible apply State.direct_upholds)

theorem State.revokeAll_upholds (s : State) (t : Ten) (hu : s0.Upholds s) :
    s0.Upholds (State.revokeAll s t) := by
  unfold State.revokeAll
  repeat' (first | with_reducible assumption | (intro _ _ _) | with_reducible refine State.Upholds.foldl ?_ ?_
                 | with_reducible apply State.revoke_upholds)

theorem State.openSession_upholds (s : State) (t : Ten) (leaseMs : Nat) (hbAlways : Bool) (hu : s0.Upholds s) :
    s0.Upholds (State.openSession s t leaseMs hbAlways) := by
  unfold State.openSession
  repeat' (first | with_reducible assumption | with_reducible apply State.tellPort_upholds
                 | with_reducible apply State.modTen_upholds | with_reducible apply State.forgetEvents_upholds
                 | with_reducible apply State.revokeAll_upholds)

theorem State.openOwner_upholds (s : State) (hu : s0.Upholds s) :
    s0.Upholds (State.openOwner s) := by
  unfold State.openOwner
  repeat' (first | with_reducible assumption | with_reducible apply State.openSession_upholds)

theorem State.endDelegation_upholds (s : State) (cause : Nat) (hu : s0.Upholds s) :
    s0.Upholds (State.endDelegation s cause) := by
  unfold State.endDelegation
  dsimp only
  repeat' (first | with_reducible assumption | (intro _ _ _) | with_reducible refine State.Upholds.foldl ?_ ?_
                 | with_reducible apply State.tellRevoked_upholds | with_reducible apply State.revoke_upholds
                 | with_reducible apply State.direct_upholds | split
                 | with_reducible refine State.Upholds.upd ?_ rfl rfl rfl rfl rfl rfl)

theorem State.endDelegationOf_upholds (s : State) (t : Ten) (cause : Nat) (hu : s0.Upholds s) :
    s0.Upholds (State.endDelegationOf s t cause) := by
  unfold State.endDelegationOf
  repeat' (first | with_reducible assumption | with_reducible refine State.Upholds.ite ?_ ?_
                 | with_reducible apply State.endDelegation_upholds)

theorem State.unmapAll_upholds (s : State) (t : Ten) (hu : s0.Upholds s) :
    s0.Upholds (State.unmapAll s t) := by
  unfold State.unmapAll
  dsimp only
  repeat' (first | with_reducible assumption | (intro _ _ _) | with_reducible refine State.Upholds.foldl ?_ ?_
                 | with_reducible apply State.modSource_upholds | with_reducible apply State.modTen_upholds | split)

theorem State.endSession_upholds (s : State) (t : Ten) (hu : s0.Upholds s) :
    s0.Upholds (State.endSession s t) := by
  unfold State.endSession
  dsimp only
  repeat' (first | with_reducible assumption | with_reducible apply State.endDelegationOf_upholds
                 | with_reducible apply State.revokeAll_upholds | with_reducible apply State.destroyIbKey_upholds
                 | with_reducible apply State.unmapAll_upholds | with_reducible apply State.modTen_upholds
                 | with_reducible apply State.endUnitsOf_upholds)

theorem State.fault_upholds (s : State) (t : Ten) (hu : s0.Upholds s) :
    s0.Upholds (State.fault s t) := by
  unfold State.fault
  dsimp only
  repeat' (first | with_reducible assumption | (intro _ _ _) | with_reducible refine State.Upholds.foldl ?_ ?_
                 | with_reducible apply State.modTen_upholds | with_reducible apply State.tellRevoked_upholds
                 | with_reducible apply State.revoke_upholds | with_reducible apply State.markRevoking_upholds
                 | with_reducible apply State.askStopAll_upholds
                 | with_reducible apply State.endDelegationOf_upholds | with_reducible apply State.direct_upholds)

theorem State.resetSession_upholds (s : State) (u : Ten) (keep : Bool) (own : Option SlotIx) (tell : Bool)
    (hu : s0.Upholds s) : s0.Upholds (s.resetSession u keep own tell) := by
  unfold State.resetSession
  extract_lets s1 s2 s3 s4
  have h2 : s0.Upholds s2 := State.flushPort_upholds _ _ (State.modTen_upholds _ _ _ (State.forgetEvents_upholds _ _ hu))
  have h3 : s0.Upholds s3 := by
    show s0.Upholds (if keep then _ else _)
    split
    · exact h2
    · exact h2.change (Nat.le_refl _) (Nat.le_refl _) fun m => ⟨Memory.canon_clear m.sram _ _, m.ens, m.buf, m.work⟩
  have h4 : s0.Upholds s4 := State.modTen_upholds _ _ _ h3
  split
  · exact h4
  · split
    · exact .upd h4 rfl rfl rfl rfl rfl rfl
    · exact State.notify_upholds _ _ (State.modTen_upholds _ _ _ h4)

theorem State.letRun_upholds (s : State) (t : Ten) (own : Option SlotIx) (hu : s0.Upholds s) :
    s0.Upholds (s.letRun t own) := by
  unfold State.letRun
  exact State.orphanWork_upholds _ _ (.upd hu rfl rfl rfl rfl rfl rfl)

theorem State.resetNow_upholds (s : State) (t : Ten) (keep : Bool) (own : Option SlotIx) (tell : Bool)
    (hu : s0.Upholds s) : s0.Upholds (s.resetNow t keep own tell) := by
  unfold State.resetNow
  exact State.resetSession_upholds _ _ _ _ _ (State.endSession_upholds _ _
    (State.stopJobs_upholds _ _ _ (State.letRun_upholds _ _ _ hu)))

theorem State.grantLease_upholds (s : State) (t : Ten) (id : Nat) (hu : s0.Upholds s) :
    s0.Upholds (State.grantLease s t id) := by
  unfold State.grantLease
  dsimp only
  repeat' (first | with_reducible assumption | with_reducible apply State.modTen_upholds
                 | with_reducible refine State.Upholds.upd ?_ rfl rfl rfl rfl rfl rfl)

/-! ### SecUnit -/

theorem State.endLane_upholds (s : State) (t : Ten) (own : Option SlotIx) (hu : s0.Upholds s) :
    s0.Upholds (State.endLane s t own) := by
  unfold State.endLane
  exact State.resetNow_upholds _ _ _ _ _ hu

theorem State.finishThaw_upholds (s : State) (w : Thawing) (hu : s0.Upholds s) :
    s0.Upholds (State.finishThaw s w) := by
  unfold State.finishThaw
  dsimp only
  repeat' (first | with_reducible assumption | (intro _ _ _) | with_reducible refine State.Upholds.foldl ?_ ?_
                 | with_reducible apply State.zeroiseAll_upholds | with_reducible apply State.endLane_upholds
                 | with_reducible apply State.answer_upholds | split
                 | with_reducible refine State.Upholds.upd ?_ rfl rfl rfl rfl rfl rfl)

theorem State.settleThaw_upholds (s : State) (hu : s0.Upholds s) :
    s0.Upholds (State.settleThaw s) := by
  unfold State.settleThaw
  repeat' (first | with_reducible assumption | with_reducible refine State.Upholds.ite ?_ ?_
                 | with_reducible apply State.finishThaw_upholds | split)

/-! ### RegUnit -/

theorem State.regDrop_upholds (s : State) (hu : s0.Upholds s) :
    s0.Upholds (State.regDrop s) := by
  unfold State.regDrop
  dsimp only
  exact .upd hu rfl rfl rfl rfl rfl rfl

theorem State.setAct_upholds (s : State) (a : Act) (hu : s0.Upholds s) :
    s0.Upholds (State.setAct s a) := by
  unfold State.setAct
  dsimp only
  repeat' (first | with_reducible assumption | with_reducible refine State.Upholds.ite ?_ ?_
                 | with_reducible apply State.raise_upholds
                 | with_reducible refine State.Upholds.upd ?_ rfl rfl rfl rfl rfl rfl)

theorem State.releaseOwner_upholds (s : State) (hu : s0.Upholds s) :
    s0.Upholds (State.releaseOwner s) := by
  unfold State.releaseOwner
  repeat' (first | with_reducible assumption | with_reducible apply State.revokeAll_upholds)

theorem State.toListen_upholds (s : State) (hu : s0.Upholds s) :
    s0.Upholds (State.toListen s) := by
  unfold State.toListen
  dsimp only
  repeat' (first | with_reducible assumption | with_reducible refine State.Upholds.ite ?_ ?_
                 | with_reducible apply State.drawn_upholds | with_reducible apply State.setAct_upholds | split
                 | with_reducible refine State.Upholds.upd ?_ rfl rfl rfl rfl rfl rfl)

theorem State.setEqd_upholds (s : State) (l : Fin 2) (v : Nat) (hu : s0.Upholds s) :
    s0.Upholds (State.setEqd s l v) := by
  unfold State.setEqd
  dsimp only
  repeat' (first | with_reducible assumption | with_reducible refine State.Upholds.ite ?_ ?_
                 | with_reducible apply State.raise_upholds
                 | with_reducible refine State.Upholds.upd ?_ rfl rfl rfl rfl rfl rfl)

theorem State.dereg_upholds (s : State) (cause : Nat) (hu : s0.Upholds s) :
    s0.Upholds (State.dereg s cause) := by
  unfold State.dereg
  dsimp only
  repeat' (first | with_reducible assumption | with_reducible apply State.setEqd_upholds
                 | with_reducible apply State.withdrawAll_upholds | with_reducible apply State.emptyTable_upholds
                 | with_reducible apply State.timeDereg_upholds | with_reducible apply State.releaseOwner_upholds
                 | with_reducible apply State.dropLineKeys_upholds | with_reducible apply State.tribClear_upholds
                 | with_reducible refine State.Upholds.upd ?_ rfl rfl rfl rfl rfl rfl)

theorem State.deregLocal_upholds (s : State) (hu : s0.Upholds s) :
    s0.Upholds (State.deregLocal s) := by
  unfold State.deregLocal
  repeat' (first | with_reducible assumption | with_reducible refine State.Upholds.ite ?_ ?_
                 | with_reducible apply State.toListen_upholds | with_reducible apply State.dereg_upholds)

theorem State.actStop_upholds (s : State) (hu : s0.Upholds s) :
    s0.Upholds (State.actStop s) := by
  unfold State.actStop
  repeat' (first | with_reducible assumption | with_reducible refine State.Upholds.ite ?_ ?_
                 | with_reducible apply State.setAct_upholds | with_reducible apply State.dereg_upholds
                 | with_reducible apply State.regDrop_upholds | split)

theorem State.actRediscover_upholds (s : State) (hu : s0.Upholds s) :
    s0.Upholds (State.actRediscover s) := by
  unfold State.actRediscover
  repeat' (first | with_reducible assumption | with_reducible apply State.regDrop_upholds
                 | with_reducible apply State.toListen_upholds | with_reducible apply State.dereg_upholds | split)

theorem State.sendDeregNotice_upholds (s : State) (cause : Nat) (hu : s0.Upholds s) :
    s0.Upholds (State.sendDeregNotice s cause) := by
  unfold State.sendDeregNotice
  repeat' (first | with_reducible assumption | with_reducible apply State.queueLmm_upholds)

theorem State.enterService_upholds (s : State) (hu : s0.Upholds s) :
    s0.Upholds (State.enterService s) := by
  unfold State.enterService
  dsimp only
  repeat' (first | with_reducible assumption | with_reducible apply State.setEntry_upholds
                 | with_reducible apply State.setAct_upholds | with_reducible apply State.buildAll_upholds
                 | with_reducible refine State.Upholds.upd ?_ rfl rfl rfl rfl rfl rfl)

theorem State.cutLane_upholds (s : State) (l : Fin 2) (hu : s0.Upholds s) : s0.Upholds (s.cutLane l) := by
  unfold State.cutLane
  extract_lets _ s1
  have h1 : s0.Upholds s1 := .upd hu rfl rfl rfl rfl rfl rfl
  split
  · exact .ite h1 (State.modGs_upholds _ _ _ (.upd h1 rfl rfl rfl rfl rfl rfl))
  · exact h1

theorem State.cutBurst_upholds (s : State) (hu : s0.Upholds s) : s0.Upholds s.cutBurst := by
  unfold State.cutBurst
  exact State.cutLane_upholds _ _ (State.cutLane_upholds _ _ hu)

theorem State.enterSilent_upholds (s : State) (hu : s0.Upholds s) :
    s0.Upholds (State.enterSilent s) := by
  unfold State.enterSilent
  repeat' (first | with_reducible assumption | with_reducible apply State.releaseOwner_upholds
                 | with_reducible apply State.setAct_upholds | with_reducible apply State.cutBurst_upholds | with_reducible apply State.withdrawAll_upholds
                 | with_reducible apply State.emptyTable_upholds)

theorem State.enterAuth_upholds (s : State) (hu : s0.Upholds s) :
    s0.Upholds (State.enterAuth s) := by
  unfold State.enterAuth
  dsimp only
  repeat' (first | with_reducible assumption | with_reducible apply State.setAct_upholds
                 | with_reducible refine State.Upholds.upd ?_ rfl rfl rfl rfl rfl rfl)

theorem State.enterRanging_upholds (s : State) (hu : s0.Upholds s) :
    s0.Upholds (State.enterRanging s) := by
  unfold State.enterRanging
  dsimp only
  repeat' (first | with_reducible assumption | with_reducible apply State.setAct_upholds
                 | with_reducible refine State.Upholds.upd ?_ rfl rfl rfl rfl rfl rfl)

/-! ### LaneUnit -/

theorem State.modPhy_upholds (s : State) (i : Fin 4) (f : Phy → Phy) (hu : s0.Upholds s) :
    s0.Upholds (State.modPhy s i f) := by
  unfold State.modPhy
  dsimp only
  exact .upd hu rfl rfl rfl rfl rfl rfl

theorem State.tellDefects_upholds (s : State) (hu : s0.Upholds s) :
    s0.Upholds (State.tellDefects s) := by
  unfold State.tellDefects
  dsimp only
  repeat' (first | with_reducible assumption | (intro _ _ _) | with_reducible refine State.Upholds.ite ?_ ?_
                 | with_reducible refine State.Upholds.foldl ?_ ?_ | with_reducible apply State.raise_upholds
                 | with_reducible refine State.Upholds.upd ?_ rfl rfl rfl rfl rfl rfl)

theorem State.markDark_upholds (s : State) (was : Bool) (hu : s0.Upholds s) :
    s0.Upholds (State.markDark s was) := by
  unfold State.markDark
  dsimp only
  repeat' (first | with_reducible assumption | with_reducible refine State.Upholds.ite ?_ ?_
                 | with_reducible refine State.Upholds.upd ?_ rfl rfl rfl rfl rfl rfl)

theorem State.toHunt_upholds (s : State) (l : Fin 2) (hu : s0.Upholds s) :
    s0.Upholds (State.toHunt s l) := by
  unfold State.toHunt
  dsimp only
  repeat' (first | with_reducible assumption | with_reducible refine State.Upholds.ite ?_ ?_
                 | with_reducible apply State.modChan_upholds | with_reducible apply State.tpsLof_upholds)

theorem State.silence_upholds (s : State) (hu : s0.Upholds s) :
    s0.Upholds (State.silence s) := by
  unfold State.silence
  dsimp only
  repeat' (first | with_reducible assumption | with_reducible apply State.cutBurst_upholds
                 | with_reducible apply State.withdrawAll_upholds | with_reducible apply State.emptyTable_upholds
                 | with_reducible refine State.Upholds.upd ?_ rfl rfl rfl rfl rfl rfl)

theorem State.fr_upholds (s : State) (x : Framer) (hu : s0.Upholds s) : s0.Upholds { s with fr := x } :=
  .upd hu rfl rfl rfl rfl rfl rfl

theorem State.lanes_upholds (s : State) (x : Lanes) (hu : s0.Upholds s) : s0.Upholds { s with lanes := x } :=
  .upd hu rfl rfl rfl rfl rfl rfl

theorem State.fromNextMap_upholds (s : State) (hu : s0.Upholds s) : s0.Upholds s.fromNextMap := State.fr_upholds _ _ hu

theorem State.resumeActive_upholds (s : State) (hu : s0.Upholds s) : s0.Upholds s.resumeActive := by
  unfold State.resumeActive
  exact .ite (State.lanes_upholds _ _ hu) hu

theorem State.endSilence_upholds (s : State) (hu : s0.Upholds s) : s0.Upholds s.endSilence := by
  unfold State.endSilence
  exact .ite (State.fromNextMap_upholds _ (State.fr_upholds _ _ hu)) hu

theorem State.raiseLol_upholds (s : State) (hu : s0.Upholds s) : s0.Upholds s.raiseLol :=
  State.silence_upholds _ (State.fr_upholds _ _ hu)

theorem State.updateWtr_upholds (s : State) (hu : s0.Upholds s) :
    s0.Upholds (State.updateWtr s) := by
  unfold State.updateWtr
  exact .ite (State.lanes_upholds _ _ hu) (State.lanes_upholds _ _ hu)

theorem State.rebaseSwitch_upholds (s : State) (l : Fin 2) (hu : s0.Upholds s) :
    s0.Upholds (State.rebaseSwitch s l) := by
  unfold State.rebaseSwitch
  dsimp only
  exact .upd hu rfl rfl rfl rfl rfl rfl

theorem State.switchTo_upholds (s : State) (l : Fin 2) (hu : s0.Upholds s) :
    s0.Upholds (State.switchTo s l) := by
  unfold State.switchTo
  extract_lets s1 _ _ _ s2 s3
  have h1 : s0.Upholds s1 := State.rebaseSwitch_upholds _ _ (State.emptyTable_upholds _ (State.withdrawAll_upholds _
    (State.cutLane_upholds _ _ hu)))
  have h2 : s0.Upholds s2 := .upd h1 rfl rfl rfl rfl rfl rfl
  exact State.endSilence_upholds _ (State.tellDefects_upholds _ (State.raise_upholds _ _ _
    (State.modChan_upholds _ _ _ h2)))

theorem State.exchange_upholds (s : State) (hu : s0.Upholds s) :
    s0.Upholds (State.exchange s) := by
  unfold State.exchange
  extract_lets s1 _ _ _ s2
  have h1 : s0.Upholds s1 := .ite (State.dereg_upholds _ _ hu) hu
  have h2 : s0.Upholds s2 := State.lanes_upholds _ _ (State.rebaseSwitch_upholds _ _ h1)
  exact State.endSilence_upholds _ (State.tellDefects_upholds _ (.ite h2 (State.toListen_upholds _ h2)))

theorem State.activeLost_upholds (s : State) (hu : s0.Upholds s) :
    s0.Upholds (State.activeLost s) := by
  unfold State.activeLost
  extract_lets s1 b
  have h1 : s0.Upholds s1 := State.dpllLoss_upholds _ (State.withdrawAll_upholds _ hu)
  split
  · exact .ite (State.exchange_upholds _ h1) h1
  · exact .ite (State.exchange_upholds _ h1) h1
  · exact .ite (State.exchange_upholds _ h1) h1
  · exact .ite (State.exchange_upholds _ h1) h1
  · exact .ite (State.lanes_upholds _ _ h1) h1
  · exact .ite (State.lanes_upholds _ _ h1) h1
  · exact h1

theorem State.loseLane_upholds (s : State) (l : Fin 2) (hu : s0.Upholds s) :
    s0.Upholds (State.loseLane s l) := by
  unfold State.loseLane
  extract_lets was s1 _ _ _ s2 s3 s4
  have h1 : s0.Upholds s1 := State.modPhy_upholds _ _ _ (State.cutLane_upholds _ _ hu)
  have h2 : s0.Upholds s2 := State.raise_upholds _ _ _ (.upd h1 rfl rfl rfl rfl rfl rfl)
  have h3 : s0.Upholds s3 := State.toHunt_upholds _ _ h2
  have h4 : s0.Upholds s4 := .ite (State.activeLost_upholds _ h3) h3
  exact State.markDark_upholds _ _ (State.tellDefects_upholds _ (State.updateWtr_upholds _ h4))

theorem State.darkLane_upholds (s : State) (l : Fin 2) (hu : s0.Upholds s) :
    s0.Upholds (State.darkLane s l) := by
  unfold State.darkLane
  repeat' (first | with_reducible assumption | with_reducible refine State.Upholds.ite ?_ ?_
                 | with_reducible apply State.loseLane_upholds)

theorem State.txdisFaulted_upholds (s : State) (l : Fin 2) (hu : s0.Upholds s) :
    s0.Upholds (State.txdisFaulted s l) := by
  unfold State.txdisFaulted
  repeat' (first | with_reducible assumption | with_reducible refine State.Upholds.ite ?_ ?_
                 | with_reducible apply State.loseLane_upholds | with_reducible apply State.updateWtr_upholds)

theorem State.modLocal_upholds (s : State) (l : Fin 2) (f : LocalLane → LocalLane) (hu : s0.Upholds s) :
    s0.Upholds (State.modLocal s l f) := by
  unfold State.modLocal
  dsimp only
  exact .upd hu rfl rfl rfl rfl rfl rfl

theorem State.localDown_upholds (s : State) (l : Fin 2) (hu : s0.Upholds s) :
    s0.Upholds (State.localDown s l) := by
  unfold State.localDown
  extract_lets any up s1 s2 s3 _ _ s4
  have h2 : s0.Upholds s2 := State.modLocal_upholds _ _ _ (State.modPhy_upholds _ _ _ hu)
  have h3 : s0.Upholds s3 := .foldl h2 fun x u hx => .ite (State.modTen_upholds _ _ _ hx) hx
  have h4 : s0.Upholds s4 := .ite (.upd h3 rfl rfl rfl rfl rfl rfl) h3
  exact .ite (State.raise_upholds _ _ _ h4) h4

theorem State.dropLocal_upholds (s : State) (l : Fin 2) (hu : s0.Upholds s) :
    s0.Upholds (State.dropLocal s l) := by
  unfold State.dropLocal
  dsimp only
  repeat' (first | with_reducible assumption | with_reducible refine State.Upholds.ite ?_ ?_
                 | with_reducible apply State.localDown_upholds)

theorem State.lanesDark_upholds (s : State) (hu : s0.Upholds s) :
    s0.Upholds (State.lanesDark s) := by
  unfold State.lanesDark
  repeat' (first | with_reducible assumption | with_reducible apply State.dropLocal_upholds
                 | with_reducible apply State.darkLane_upholds)

end Sys2Proof.Machine
end

