-- ==== Sys2Proof/Laws/UpholdsPower.lean ====
section
/-!
SUPPORT. What every step upholds (`State.Upholds`), operation by operation: the domains, wake, reset, the mailbox
windows, power, the mailbox and boot.
-/

namespace Sys2Proof.Machine

variable {s0 : State}

/-! ### DomUnit -/

theorem State.rollBackRules_upholds (s : State) (hu : s0.Upholds s) :
    s0.Upholds (State.rollBackRules s) := by
  unfold State.rollBackRules
  dsimp only
  repeat' (first | with_reducible assumption | with_reducible apply State.done_upholds
                 | with_reducible apply State.discardStaging_upholds | split
                 | with_reducible refine State.Upholds.upd ?_ rfl rfl rfl rfl rfl rfl)

theorem State.clearForcible_upholds (s : State) (hu : s0.Upholds s) :
    s0.Upholds (State.clearForcible s) := by
  unfold State.clearForcible
  dsimp only
  repeat' (first | with_reducible assumption | (intro _ _ _) | with_reducible refine State.Upholds.foldl ?_ ?_
                 | with_reducible apply State.tellRevoked_upholds | with_reducible apply State.revoke_upholds
                 | with_reducible apply State.closeLease_upholds | with_reducible apply State.stopJobs_upholds
                 | with_reducible apply State.stopUpdate_upholds | with_reducible apply State.rollBackRules_upholds
                 | split)

theorem State.offLane_upholds (s : State) (l : Fin 2) (hu : s0.Upholds s) :
    s0.Upholds (State.offLane s l) := by
  unfold State.offLane
  dsimp only
  repeat' (first | with_reducible assumption | with_reducible refine State.Upholds.ite ?_ ?_
                 | with_reducible apply State.modPhy_upholds | with_reducible apply State.modChan_upholds | split
                 | with_reducible refine State.Upholds.upd ?_ rfl rfl rfl rfl rfl rfl)

theorem State.offLocal_upholds (s : State) (l : Fin 2) (hu : s0.Upholds s) : s0.Upholds (s.offLocal l) :=
  State.modPhy_upholds _ _ _ (State.dropLocal_upholds _ _ hu)

theorem State.powerOff_upholds (s : State) (d : Dom) (hu : s0.Upholds s) :
    s0.Upholds (State.powerOff s d) := by
  unfold State.powerOff
  extract_lets _ s2 _ s3 s4 _ _ _ _ s1
  have h2 : s0.Upholds s2 := State.cutBurst_upholds _ (State.withdrawAll_upholds _ hu)
  clear_value s2
  have h3 : s0.Upholds s3 := State.freeCores_upholds _ _ (.upd h2 rfl rfl rfl rfl rfl rfl)
  clear_value s3
  refine State.setDom_upholds _ _ _ ?_
  refine .ite (State.firnOff_upholds _ hu) (.ite (State.audOff_upholds _ hu)
    (.ite (State.offLocal_upholds _ _ (State.offLocal_upholds _ _ hu))
    (.ite (State.offLane_upholds _ _ (State.offLane_upholds _ _ (State.cutBurst_upholds _ hu)))
    (.ite (State.fr_upholds _ _ hu) (.ite ?_ (.ite ?_ (.ite ?_ (.ite ?_ hu))))))))
  · exact State.powerFlush_upholds _ (State.stopParser_upholds _
      (State.Upholds.foldl h3 fun x g hx => State.undo_upholds _ _ hx))
  · exact .upd (State.dropContexts_upholds _ hu) rfl rfl rfl rfl rfl rfl
  · exact State.lostShadow_upholds _ (State.firnUnload_upholds _ (.noMem hu rfl rfl rfl rfl rfl))
  · exact .upd hu rfl rfl rfl rfl rfl rfl

theorem State.powerOffAll_upholds (s : State) (ds : List Dom) (hu : s0.Upholds s) :
    s0.Upholds (State.powerOffAll s ds) := by
  unfold State.powerOffAll
  repeat' (first | with_reducible assumption | (intro _ _ _) | with_reducible refine State.Upholds.foldl ?_ ?_
                 | with_reducible apply State.powerOff_upholds)

theorem State.unitsOn_upholds (s : State) (ds : List Dom) (hu : s0.Upholds s) :
    s0.Upholds (State.unitsOn s ds) := by
  unfold State.unitsOn
  dsimp only
  repeat' (first | with_reducible assumption | with_reducible refine State.Upholds.ite ?_ ?_
                 | with_reducible apply State.reloadKeys_upholds | with_reducible apply State.firnNext_upholds)

theorem State.handTime_upholds (s : State) (hu : s0.Upholds s) :
    s0.Upholds (State.handTime s) := by
  unfold State.handTime
  repeat' (first | with_reducible assumption | with_reducible apply State.clockToGlacier_upholds
                 | with_reducible apply State.timeToGlacier_upholds)

theorem State.resumeGlacier_upholds (s : State) (hu : s0.Upholds s) :
    s0.Upholds (State.resumeGlacier s) := by
  unfold State.resumeGlacier
  dsimp only
  repeat' (first | with_reducible assumption | with_reducible apply State.timeFromGlacier_upholds
                 | with_reducible apply State.lostShadow_upholds | with_reducible apply State.firnUnload_upholds
                 | with_reducible refine State.Upholds.noMem ?_ rfl rfl rfl rfl rfl | split
                 | with_reducible refine State.Upholds.upd ?_ rfl rfl rfl rfl rfl rfl)

theorem State.eraseRetired_upholds (s : State) (hu : s0.Upholds s) : s0.Upholds s.eraseRetired :=
  hu.change (Nat.le_refl _) (Nat.le_refl _) fun m =>
    ⟨m.sram, Memory.canon_clear (Memory.canon_clear m.ens _ _) _ _, m.buf, m.work⟩

theorem State.bootRetired_upholds (s : State) (hu : s0.Upholds s) :
    s0.Upholds (State.bootRetired s) := by
  unfold State.bootRetired
  dsimp only
  repeat' (first | with_reducible assumption | with_reducible refine State.Upholds.ite ?_ ?_
                 | with_reducible apply State.eraseRetired_upholds | split
                 | with_reducible refine State.Upholds.upd ?_ rfl rfl rfl rfl rfl rfl)

theorem State.bootUnits_upholds (s : State) (hu : s0.Upholds s) :
    s0.Upholds (State.bootUnits s) := by
  unfold State.bootUnits
  dsimp only
  repeat' (first | with_reducible assumption | with_reducible apply State.clockBoot_upholds
                 | with_reducible apply State.bootNonces_upholds | with_reducible apply State.bootRetired_upholds
                 | with_reducible refine State.Upholds.upd ?_ rfl rfl rfl rfl rfl rfl)

theorem State.debugAttached_upholds (s : State) (hu : s0.Upholds s) :
    s0.Upholds (State.debugAttached s) := by
  unfold State.debugAttached
  dsimp only
  repeat' (first | with_reducible assumption | with_reducible refine State.Upholds.ite ?_ ?_
                 | with_reducible refine State.Upholds.upd ?_ rfl rfl rfl rfl rfl rfl)

theorem State.debugDetached_upholds (s : State) (hu : s0.Upholds s) :
    s0.Upholds (State.debugDetached s) := by
  unfold State.debugDetached
  dsimp only
  exact .upd hu rfl rfl rfl rfl rfl rfl

/-! ### Wake -/

theorem State.sendPmic_upholds (s : State) (code : Nat) (hu : s0.Upholds s) : s0.Upholds (s.sendPmic code) :=
  .upd (State.emit_upholds _ _ hu) rfl rfl rfl rfl rfl rfl

theorem State.startPmic_upholds (s : State) (codes : List Nat) (why : PmicWhy) (hu : s0.Upholds s) :
    s0.Upholds (State.startPmic s codes why) := by
  unfold State.startPmic
  split
  · exact hu
  · exact .upd (State.sendPmic_upholds _ _ hu) rfl rfl rfl rfl rfl rfl

theorem State.toNoon_upholds (s : State) (hu : s0.Upholds s) : s0.Upholds s.toNoon := by
  unfold State.toNoon
  split
  · exact hu
  · split
    · exact .ite (State.startPmic_upholds _ _ _ (State.setDoms_upholds _ _ _ hu)) hu
    · exact .ite (.upd hu rfl rfl rfl rfl rfl rfl) hu

theorem State.toDusk_upholds (s : State) (hu : s0.Upholds s) :
    s0.Upholds (State.toDusk s) := by
  unfold State.toDusk
  dsimp only
  repeat' (first | with_reducible assumption | with_reducible apply State.startPmic_upholds
                 | with_reducible refine State.Upholds.upd ?_ rfl rfl rfl rfl rfl rfl)

theorem State.toBoost_upholds (s : State) (hu : s0.Upholds s) :
    s0.Upholds (State.toBoost s) := by
  unfold State.toBoost
  repeat' (first | with_reducible assumption | with_reducible refine State.Upholds.ite ?_ ?_
                 | with_reducible apply State.startPmic_upholds | with_reducible apply State.setDoms_upholds)

theorem State.seekBoost_upholds (s : State) (hu : s0.Upholds s) :
    s0.Upholds (State.seekBoost s) := by
  unfold State.seekBoost
  repeat' (first | with_reducible assumption | with_reducible refine State.Upholds.ite ?_ ?_
                 | with_reducible apply State.toBoost_upholds)

theorem State.fromBoost_upholds (s : State) (hu : s0.Upholds s) :
    s0.Upholds (State.fromBoost s) := by
  unfold State.fromBoost
  dsimp only
  repeat' (first | with_reducible assumption | with_reducible refine State.Upholds.ite ?_ ?_
                 | with_reducible apply State.startPmic_upholds
                 | with_reducible refine State.Upholds.upd ?_ rfl rfl rfl rfl rfl rfl)

theorem State.leaveBoost_upholds (s : State) (hu : s0.Upholds s) : s0.Upholds s.leaveBoost :=
  .ite hu (.ite (.upd hu rfl rfl rfl rfl rfl rfl) (State.fromBoost_upholds _ hu))

theorem State.seekDusk_upholds (s : State) (hu : s0.Upholds s) : s0.Upholds s.seekDusk :=
  .ite hu (.ite (State.toDusk_upholds _ hu) (State.leaveBoost_upholds _ (.upd hu rfl rfl rfl rfl rfl rfl)))

theorem State.raiseEnable_upholds (s : State) (raised : List ReadySig) (sig : ReadySig) (hu : s0.Upholds s) :
    s0.Upholds (State.raiseEnable s raised sig) := by
  unfold State.raiseEnable
  dsimp only
  repeat' (first | with_reducible assumption | split
                 | with_reducible refine State.Upholds.upd ?_ rfl rfl rfl rfl rfl rfl)

theorem State.startWake_upholds (s : State) (k : WakeKind) (src : PState) (pins : BitVec 4) (hu : s0.Upholds s) :
    s0.Upholds (State.startWake s k src pins) := by
  unfold State.startWake
  dsimp only
  repeat' (first | with_reducible assumption | with_reducible apply State.beginWakeSearch_upholds
                 | with_reducible apply State.raiseEnable_upholds | split
                 | with_reducible refine State.Upholds.upd ?_ rfl rfl rfl rfl rfl rfl)

theorem State.startChip_upholds (s : State) (k : WakeKind) (pins : BitVec 4) (hu : s0.Upholds s) :
    s0.Upholds (s.startChip k pins) := by
  unfold State.startChip
  extract_lets _ _ s1
  have h1 : s0.Upholds s1 := .upd hu rfl rfl rfl rfl rfl rfl
  exact .ite (.upd (State.setDoms_upholds _ _ _ h1) rfl rfl rfl rfl rfl rfl)
    (State.startWake_upholds _ _ _ _ (.upd h1 rfl rfl rfl rfl rfl rfl))

theorem State.enablesDown_upholds (s : State) (hu : s0.Upholds s) : s0.Upholds s.enablesDown :=
  .upd hu rfl rfl rfl rfl rfl rfl

theorem State.wakeDomains_upholds (s : State) (ds : List Dom) (hu : s0.Upholds s) :
    s0.Upholds (State.wakeDomains s ds) := by
  unfold State.wakeDomains
  extract_lets need
  refine .ite hu ?_
  split
  · exact .upd hu rfl rfl rfl rfl rfl rfl
  · exact State.startWake_upholds _ _ _ _ hu

theorem State.tellExit_upholds (s : State) (cause : Byte) (hu : s0.Upholds s) :
    s0.Upholds (State.tellExit s cause) := by
  unfold State.tellExit
  extract_lets _ _ _ _ s1 _
  have h1 : s0.Upholds s1 := .upd hu rfl rfl rfl rfl rfl rfl
  exact .ite (State.queueLmm_upholds _ _ _ h1) (.upd h1 rfl rfl rfl rfl rfl rfl)

theorem State.nightTrigger_upholds (s : State) (cause : Byte) (pins : BitVec 4) (hu : s0.Upholds s) :
    s0.Upholds (State.nightTrigger s cause pins) := by
  unfold State.nightTrigger
  refine .ite ?_ (.ite ?_ hu)
  · extract_lets told _ _ s1
    have h1 : s0.Upholds s1 := .upd (State.Upholds.ite hu (State.tellExit_upholds _ _ hu)) rfl rfl rfl rfl rfl rfl
    clear_value s1
    split
    · exact .ite (.upd h1 rfl rfl rfl rfl rfl rfl) (State.startWake_upholds _ _ _ _ h1)
    · exact State.startWake_upholds _ _ _ _ h1
  · exact .upd (State.tellExit_upholds _ _ hu) rfl rfl rfl rfl rfl rfl

theorem State.cancelEntry_upholds (s : State) (hu : s0.Upholds s) : s0.Upholds s.cancelEntry := by
  unfold State.cancelEntry
  split
  · refine .ite hu ?_
    extract_lets _ _ s1 s2
    have h1 : s0.Upholds s1 := State.seekDusk_upholds _ (.upd hu rfl rfl rfl rfl rfl rfl)
    have h2 : s0.Upholds s2 := .ite h1 (State.openOwner_upholds _ h1)
    exact .upd h2 rfl rfl rfl rfl rfl rfl
  · exact hu

theorem State.frostTrigger_upholds (s : State) (src : Fin 32) (hu : s0.Upholds s) : s0.Upholds (s.frostTrigger src) := by
  unfold State.frostTrigger
  extract_lets _ s1
  have h1 : s0.Upholds s1 := .upd hu rfl rfl rfl rfl rfl rfl
  clear_value s1
  split
  · exact .ite (.upd h1 rfl rfl rfl rfl rfl rfl) hu
  · exact .ite (State.startChip_upholds _ _ _ (.upd h1 rfl rfl rfl rfl rfl rfl)) hu

theorem State.wakeTrigger_upholds (s : State) (src : Fin 32) (hu : s0.Upholds s) : s0.Upholds (s.wakeTrigger src) := by
  unfold State.wakeTrigger
  refine .ite hu (.ite (.ite (State.nightTrigger_upholds _ _ _ hu) hu) (.ite (State.cancelEntry_upholds _ hu) ?_))
  split
  · exact .ite hu (State.startWake_upholds _ _ _ _ hu)
  · exact .ite (State.frostTrigger_upholds _ _ hu) hu
  · exact hu

theorem State.latchAo_upholds (s : State) (src : Fin 32) (data : Word) (hu : s0.Upholds s) :
    s0.Upholds (s.latchAo src data) := .upd hu rfl rfl rfl rfl rfl rfl

theorem State.aoAssert_upholds (s : State) (src : Fin 32) (data : Word) (hu : s0.Upholds s) :
    s0.Upholds (State.aoAssert s src data) := by
  unfold State.aoAssert
  extract_lets s1
  have h1 : s0.Upholds s1 := .ite (State.raise_upholds _ _ _ hu) hu
  refine .ite ?_ h1
  extract_lets
  exact State.wakeTrigger_upholds _ _ (.ite h1 (State.latchAo_upholds _ _ _ h1))

/-! ### Reset -/

theorem State.resetUnits_upholds (s : State) (hu : s0.Upholds s) : s0.Upholds s.resetUnits :=
  (State.cutUpdates_upholds s hu).change (Nat.le_refl _) (Nat.le_refl _) fun m =>
    ⟨Memory.canon_nil, m.ens, Memory.canon_nil, fun _ hj => nomatch hj⟩

theorem State.recordCut_upholds (s : State) (hu : s0.Upholds s) : s0.Upholds s.recordCut := by
  unfold State.recordCut
  split
  · exact .upd hu rfl rfl rfl rfl rfl rfl
  · exact hu

theorem State.chipReset_upholds (s : State) (cause : Nat) (detail : Nat) (hu : s0.Upholds s) :
    s0.Upholds (State.chipReset s cause detail) := by
  unfold State.chipReset
  extract_lets s1 c s2 _ _ s3
  have h1 : s0.Upholds s1 := State.recordCut_upholds _ hu
  have h2 : s0.Upholds s2 := State.resetUnits_upholds _ h1
  clear_value s1 s2 c
  have h3 : s0.Upholds s3 := .upd h2 rfl rfl rfl rfl rfl rfl
  clear_value s3
  exact .ite h3 (State.startChip_upholds _ _ _ h3)

theorem State.powerOnReset_upholds (s : State) (mv : Nat) (hu : s0.Upholds s) :
    s0.Upholds (State.powerOnReset s mv) := by
  unfold State.powerOnReset
  extract_lets s1 _ _ _ s2
  have h1 : s0.Upholds s1 := State.resetUnits_upholds _ hu
  clear_value s1
  have h2 : s0.Upholds s2 := .upd h1 rfl rfl rfl rfl rfl rfl
  clear_value s2
  exact .ite (State.startChip_upholds _ _ _ h2) h2

/-! ### Window -/

theorem State.statusSeen_upholds (s : State) (via : Via) (hu : s0.Upholds s) :
    s0.Upholds (State.statusSeen s via) := by
  unfold State.statusSeen
  dsimp only
  repeat' (first | with_reducible assumption | with_reducible apply State.modTen_upholds | split
                 | with_reducible refine State.Upholds.upd ?_ rfl rfl rfl rfl rfl rfl)

theorem State.apertureUse_upholds (s : State) (t : Ten) (off : Nat) (len : Nat) (hu : s0.Upholds s) :
    s0.Upholds (State.apertureUse s t off len) := by
  unfold State.apertureUse
  dsimp only
  repeat' (first | with_reducible assumption | with_reducible refine State.Upholds.ite ?_ ?_
                 | with_reducible apply State.nightTrigger_upholds | with_reducible apply State.flagTen_upholds)

theorem State.ringSlot_upholds (s : State) (t : Ten) (n : SlotIx) (hu : s0.Upholds s) :
    s0.Upholds (State.ringSlot s t n) := by
  unfold State.ringSlot
  dsimp only
  repeat' (first | with_reducible assumption | with_reducible refine State.Upholds.ite ?_ ?_
                 | with_reducible apply State.setSlot_upholds | with_reducible apply State.flagTen_upholds | split
                 | with_reducible refine State.Upholds.upd ?_ rfl rfl rfl rfl rfl rfl)

theorem State.doorbell_upholds (s : State) (t : Ten) (v : Nat) (hu : s0.Upholds s) :
    s0.Upholds (State.doorbell s t v) := by
  unfold State.doorbell
  dsimp only
  repeat' (first | with_reducible assumption | (intro _ _ _) | with_reducible refine State.Upholds.foldl ?_ ?_
                 | with_reducible apply State.nightTrigger_upholds | with_reducible apply State.ringSlot_upholds
                 | with_reducible refine State.Upholds.upd ?_ rfl rfl rfl rfl rfl rfl)

theorem State.resultAck_upholds (s : State) (t : Ten) (v : Nat) (hu : s0.Upholds s) :
    s0.Upholds (State.resultAck s t v) := by
  unfold State.resultAck
  repeat' (first | with_reducible assumption | (intro _ _ _) | with_reducible refine State.Upholds.ite ?_ ?_
                 | with_reducible refine State.Upholds.foldl ?_ ?_ | with_reducible apply State.modSlot_upholds)

theorem State.statusWrite_upholds (s : State) (t : Ten) (v : Nat) (hu : s0.Upholds s) :
    s0.Upholds (State.statusWrite s t v) := by
  unfold State.statusWrite
  dsimp only
  repeat' (first | with_reducible assumption | with_reducible refine State.Upholds.ite ?_ ?_
                 | with_reducible apply State.modTen_upholds | with_reducible apply State.notify_upholds)

theorem State.evtTail_upholds (s : State) (t : Ten) (v : Nat) (hu : s0.Upholds s) :
    s0.Upholds (State.evtTail s t v) := by
  unfold State.evtTail
  dsimp only
  repeat' (first | with_reducible assumption | with_reducible refine State.Upholds.ite ?_ ?_
                 | with_reducible apply State.modTen_upholds)

theorem State.bulkBase_upholds (s : State) (t : Ten) (v : Nat) (hu : s0.Upholds s) :
    s0.Upholds (State.bulkBase s t v) := by
  unfold State.bulkBase
  dsimp only
  repeat' (first | with_reducible assumption | with_reducible refine State.Upholds.ite ?_ ?_
                 | with_reducible apply State.modTen_upholds)

theorem State.heartbeat_upholds (s : State) (t : Ten) (v : Nat) (hu : s0.Upholds s) :
    s0.Upholds (State.heartbeat s t v) := by
  unfold State.heartbeat
  dsimp only
  repeat' (first | with_reducible assumption | with_reducible apply State.modTen_upholds)

theorem State.writeReg_upholds (s : State) (t : Ten) (r : Nat) (v : Nat) (hu : s0.Upholds s) :
    s0.Upholds (State.writeReg s t r v) := by
  unfold State.writeReg
  dsimp only
  repeat' (first | with_reducible assumption | with_reducible apply State.statusWrite_upholds
                 | with_reducible apply State.doorbell_upholds | with_reducible apply State.resultAck_upholds
                 | with_reducible apply State.modTen_upholds | with_reducible apply State.evtTail_upholds
                 | with_reducible apply State.bulkBase_upholds | with_reducible apply State.heartbeat_upholds
                 | split)

theorem State.writeCmd_upholds (s : State) (t : Ten) (off : Nat) (b : Byte) (hu : s0.Upholds s) :
    s0.Upholds (State.writeCmd s t off b) := by
  unfold State.writeCmd
  repeat' (first | with_reducible assumption | with_reducible apply State.modSlot_upholds)

theorem State.writeBulk_upholds (s : State) (t : Ten) (off : Nat) (b : Byte) (hu : s0.Upholds s) :
    s0.Upholds (s.writeBulk t off b) := by
  unfold State.writeBulk
  extract_lets a
  split
  · exact hu.change (Nat.le_refl _) (Nat.le_refl _) fun m => ⟨Memory.canon_put m.sram _ _, m.ens, m.buf, m.work⟩
  · exact State.flagTen_upholds _ _ _ _ hu

theorem State.writeByte_upholds (s : State) (t : Ten) (off : Nat) (b : Byte) (hu : s0.Upholds s) :
    s0.Upholds (State.writeByte s t off b) := by
  unfold State.writeByte
  repeat' (first | with_reducible assumption | with_reducible refine State.Upholds.ite ?_ ?_
                 | with_reducible apply State.writeCmd_upholds | with_reducible apply State.writeBulk_upholds)

theorem State.writeRun_upholds (t : Ten) (n : Nat) : ∀ (s : State) (off : Nat) (bs : List Byte), s0.Upholds s →
    s0.Upholds (s.writeRun t n off bs) := by
  induction n with
  | zero => intro s off bs hu; exact hu
  | succ n ih =>
    intro s off bs hu
    cases bs with
    | nil => exact hu
    | cons b bs =>
      unfold State.writeRun
      split
      · split
        · exact ih _ _ _ (State.writeReg_upholds _ _ _ _ hu)
        · exact ih _ _ _ hu
      · exact ih _ _ _ (State.writeByte_upholds _ _ _ _ hu)

theorem State.writeWindow_upholds (s : State) (t : Ten) (off : Nat) (data : List Byte) (hu : s0.Upholds s) :
    s0.Upholds (State.writeWindow s t off data) := by
  unfold State.writeWindow
  dsimp only
  repeat' (first | with_reducible assumption | with_reducible refine State.Upholds.ite ?_ ?_
                 | with_reducible apply State.nightTrigger_upholds | with_reducible apply State.writeRun_upholds)

theorem State.rcvWrite_upholds (n : Nat) : ∀ (s : State) (off : Nat) (bs : List Byte), s0.Upholds s →
    s0.Upholds (s.rcvWrite n off bs) := by
  induction n with
  | zero => intro s off bs hu; exact hu
  | succ n ih =>
    intro s off bs hu
    cases bs with
    | nil => exact hu
    | cons b bs =>
      unfold State.rcvWrite
      dsimp only
      split
      · refine ih _ _ _ ?_
        split <;> first | exact hu | exact .upd hu rfl rfl rfl rfl rfl rfl
      · split
        · exact ih _ _ _ (hu.change (Nat.le_refl _) (Nat.le_refl _) fun m => ⟨m.sram, m.ens, Memory.canon_put m.buf _ _, m.work⟩)
        · exact ih _ _ _ hu

theorem State.postWrite_upholds (s : State) (p : Fin 4) (off : Nat) (data : List Byte) (hu : s0.Upholds s) :
    s0.Upholds (State.postWrite s p off data) := by
  unfold State.postWrite
  dsimp only
  repeat' (first | with_reducible assumption | with_reducible refine State.Upholds.ite ?_ ?_
                 | with_reducible apply State.flagTen_upholds | split
                 | with_reducible refine State.Upholds.upd ?_ rfl rfl rfl rfl rfl rfl)

theorem State.drainOne_upholds (s : State) (p : Fin 4) (hu : s0.Upholds s) :
    s0.Upholds (State.drainOne s p) := by
  unfold State.drainOne
  dsimp only
  repeat' (first | with_reducible assumption | with_reducible refine State.Upholds.ite ?_ ?_
                 | with_reducible apply State.rcvWrite_upholds | with_reducible apply State.writeWindow_upholds
                 | split | with_reducible refine State.Upholds.upd ?_ rfl rfl rfl rfl rfl rfl)

theorem State.drainRuns_upholds (now_ : Bool) (p : Fin 4) (f : Nat) : ∀ s : State, s0.Upholds s →
    s0.Upholds (State.drainRuns now_ p f s) := by
  induction f with
  | zero => intro s hu; exact hu
  | succ f ih =>
    intro s hu
    unfold State.drainRuns
    split
    · exact hu
    · exact .ite hu (ih _ (State.drainOne_upholds _ _ hu))

theorem State.drainAll_upholds (s : State) (p : Fin 4) (hu : s0.Upholds s) : s0.Upholds (s.drainAll p) :=
  State.drainRuns_upholds _ _ _ _ hu

theorem State.newTxn_upholds (s : State) (p : Fin 4) (hu : s0.Upholds s) : s0.Upholds (s.newTxn p) :=
  .upd hu rfl rfl rfl rfl rfl rfl

theorem State.spiWrite_upholds (s : State) (p : Fin 4) (off : Nat) (data : List Byte) (hu : s0.Upholds s) :
    s0.Upholds (s.spiWrite p off data) := by
  unfold State.spiWrite
  extract_lets s1 s2
  have h1 : s0.Upholds s1 := State.postWrite_upholds _ _ _ _ (State.newTxn_upholds _ _ hu)
  exact State.drainRuns_upholds _ _ _ _ (.ite (State.nightTrigger_upholds _ _ _ h1) h1)

theorem State.settle_upholds (s : State) (a0 : Via) (hu : s0.Upholds s) :
    s0.Upholds (State.settle s a0) := by
  unfold State.settle
  repeat' (first | with_reducible assumption | with_reducible apply State.drainAll_upholds | split)

theorem readWindow_upholds (s : State) (via : Via) (off len : Nat) (hu : s0.Upholds s) :
    s0.Upholds (readWindow s via off len).2 := by
  unfold readWindow
  split
  · split
    · exact hu
    · extract_lets s1 bs s2 lo hi
      have h1 : s0.Upholds s1 := State.Upholds.foldl hu fun x a hx => State.modSlot_upholds _ _ _ _ hx
      have h2 : s0.Upholds s2 := State.Upholds.ite (State.statusSeen_upholds _ _ h1) h1
      exact State.Upholds.ite (State.apertureUse_upholds _ _ _ _ h2) h2
  · exact State.Upholds.ite (State.statusSeen_upholds _ _ hu) hu

theorem State.spiServe_upholds (s : State) (p : Fin 4) (off len wait : Nat) (hu : s0.Upholds s) :
    s0.Upholds (s.spiServe p off len wait) := by
  unfold State.spiServe
  exact .ite (State.emit_upholds _ _ hu) (State.emit_upholds _ _ (readWindow_upholds _ _ _ _ hu))

theorem State.spiRead_upholds (s : State) (p : Fin 4) (off len wait : Nat) (hu : s0.Upholds s) :
    s0.Upholds (s.spiRead p off len wait) := by
  unfold State.spiRead
  extract_lets s1 stuck _
  have h1 : s0.Upholds s1 := State.drainAll_upholds _ _ (State.newTxn_upholds _ _ (State.freed_upholds _ hu))
  clear_value s1 stuck
  exact .ite (State.nightTrigger_upholds _ _ _ (.upd h1 rfl rfl rfl rfl rfl rfl)) (State.spiServe_upholds _ _ _ _ _ h1)

theorem State.servePorts_upholds (s : State) (hu : s0.Upholds s) : s0.Upholds s.servePorts := by
  unfold State.servePorts
  refine State.Upholds.foldl hu fun x p hx => ?_
  extract_lets s1
  have h1 : s0.Upholds s1 := State.drainAll_upholds _ _ hx
  clear_value s1
  split
  · exact State.spiServe_upholds _ _ _ _ _ (State.newTxn_upholds _ _ h1)
  · exact h1

/-! ### Power -/

theorem State.acceptEntry_upholds (s : State) (target : EntryTarget) (retain : Bool) (by_ : Ten) (hu : s0.Upholds s) :
    s0.Upholds (State.acceptEntry s target retain by_) := by
  unfold State.acceptEntry
  dsimp only
  repeat' (first | with_reducible assumption | with_reducible apply State.direct_upholds
                 | with_reducible refine State.Upholds.upd ?_ rfl rfl rfl rfl rfl rfl)

theorem State.endAll_upholds (s : State) (hu : s0.Upholds s) :
    s0.Upholds (State.endAll s) := by
  unfold State.endAll
  dsimp only
  repeat' (first | with_reducible assumption | (intro _ _ _) | with_reducible refine State.Upholds.ite ?_ ?_
                 | with_reducible refine State.Upholds.foldl ?_ ?_ | with_reducible apply State.post_upholds
                 | with_reducible apply State.modSlot_upholds | with_reducible apply State.settleThaw_upholds
                 | with_reducible apply State.cutWork_upholds | with_reducible apply State.revoke_upholds
                 | with_reducible apply State.endSession_upholds
                 | with_reducible refine State.Upholds.upd ?_ rfl rfl rfl rfl rfl rfl)

theorem State.frozen_upholds (s : State) (hu : s0.Upholds s) : s0.Upholds s.frozen :=
  .upd (State.resetUnits_upholds s hu) rfl rfl rfl rfl rfl rfl

theorem State.enterDeep_upholds (s : State) (e : Entry) (hu : s0.Upholds s) :
    s0.Upholds (State.enterDeep s e) := by
  unfold State.enterDeep
  extract_lets frost lane s1 s2 s3 s4 s5 _ _ _ _ s6 _ s7
  have h2 : s0.Upholds s2 := State.powerOffAll_upholds _ _ (State.zeroiseAll_upholds _ hu)
  clear_value s1 s2
  have h3 : s0.Upholds s3 :=
    State.powerOffAll_upholds _ _ (.ite (State.timeToFrost_upholds _ h2) (State.handTime_upholds _ h2))
  clear_value s3
  have h5 : s0.Upholds s5 :=
    State.powerOff_upholds _ _ (.ite (State.setDom_upholds _ _ _ h3) (State.powerOff_upholds _ _ h3))
  clear_value s4 s5
  have h6 : s0.Upholds s6 := .upd h5 rfl rfl rfl rfl rfl rfl
  clear_value s6
  have h7 : s0.Upholds s7 := .ite
    (State.frozen_upholds _ (State.powerOff_upholds _ _ (State.enablesDown_upholds _ h6)))
    (.upd h6 rfl rfl rfl rfl rfl rfl)
  exact State.Upholds.foldl h7 fun x i hx => State.aoAssert_upholds _ _ _ hx

theorem State.persistEntry_upholds (s : State) (e : Entry) (hu : s0.Upholds s) : s0.Upholds (s.persistEntry e) :=
  .ite (.upd hu rfl rfl rfl rfl rfl rfl) (State.enterDeep_upholds _ _ hu)

theorem State.afterNotice_upholds (s : State) (e : Entry) (hu : s0.Upholds s) : s0.Upholds (s.afterNotice e) :=
  State.persistEntry_upholds _ _ (State.deregLocal_upholds _ hu)

theorem State.endNotice_upholds (s : State) (e : Entry) (hu : s0.Upholds s) :
    s0.Upholds (State.endNotice s e) := by
  unfold State.endNotice
  refine .ite (.upd hu rfl rfl rfl rfl rfl rfl) ?_
  extract_lets s1
  have h1 : s0.Upholds s1 := State.endAll_upholds _ hu
  clear_value s1
  split
  · exact State.chipReset_upholds _ _ _ (.upd h1 rfl rfl rfl rfl rfl rfl)
  · exact .ite (.upd (State.sendDeregNotice_upholds _ _ h1) rfl rfl rfl rfl rfl rfl) (State.afterNotice_upholds _ _ h1)

theorem State.noncesKept_upholds (s : State) (hu : s0.Upholds s) : s0.Upholds s.noncesKept := by
  unfold State.noncesKept
  split
  · exact .ite (State.persistEntry_upholds _ _ hu) hu
  · exact hu

theorem State.retire_upholds (s : State) (w : ActWait) (hu : s0.Upholds s) : s0.Upholds (s.retire w) := by
  unfold State.retire
  have h1 : s0.Upholds { s with fuses := { s.fuses with life := .retired }, fsec := { s.fsec with thaws := 0 } } :=
    hu.change (by show _ ≤ 2; cases s.fuses.life <;> decide) (Nat.le_refl _) fun m => ⟨m.sram, m.ens, m.buf, m.work⟩
  have h2 := State.eraseRetired_upholds _ h1
  refine State.acceptEntry_upholds _ _ _ _ ?_
  split
  · exact h2
  · exact State.answer_upholds _ _ _ _ h2

theorem State.finishWait_upholds (s : State) (w : ActWait) (hu : s0.Upholds s) :
    s0.Upholds (State.finishWait s w) := by
  unfold State.finishWait
  dsimp only
  repeat' (first | with_reducible assumption | with_reducible refine State.Upholds.ite ?_ ?_
                 | with_reducible apply State.actRediscover_upholds | with_reducible apply State.actStop_upholds
                 | with_reducible apply State.retire_upholds | with_reducible apply State.answer_upholds
                 | with_reducible refine State.Upholds.upd ?_ rfl rfl rfl rfl rfl rfl)

theorem State.noticeOver_upholds (s : State) (hu : s0.Upholds s) : s0.Upholds s.noticeOver := by
  unfold State.noticeOver
  split
  · split
    · exact State.afterNotice_upholds _ _ hu
    · split
      · exact State.finishWait_upholds _ _ hu
      · exact hu
  · split
    · exact State.finishWait_upholds _ _ hu
    · exact hu

theorem State.requestSleep_upholds (s : State) (cause : Byte) (hu : s0.Upholds s) :
    s0.Upholds (State.requestSleep s cause) := by
  unfold State.requestSleep
  dsimp only
  repeat' (first | with_reducible assumption | with_reducible refine State.Upholds.ite ?_ ?_
                 | with_reducible apply State.queueLmm_upholds
                 | with_reducible refine State.Upholds.upd ?_ rfl rfl rfl rfl rfl rfl)

theorem State.autoNight_upholds (s : State) (hu : s0.Upholds s) : s0.Upholds s.autoNight :=
  .ite hu (.ite (State.requestSleep_upholds _ _ hu) (.upd hu rfl rfl rfl rfl rfl rfl))

theorem State.autoGlacier_upholds (s : State) (hu : s0.Upholds s) : s0.Upholds s.autoGlacier :=
  .ite hu (.ite (State.acceptEntry_upholds _ _ _ _ hu) (.upd hu rfl rfl rfl rfl rfl rfl))

theorem State.retryAuto_upholds (s : State) (hu : s0.Upholds s) : s0.Upholds s.retryAuto := by
  unfold State.retryAuto
  extract_lets s1
  have h1 : s0.Upholds s1 := .ite (State.autoNight_upholds _ hu) hu
  exact .ite (State.autoGlacier_upholds _ h1) h1

theorem State.probeOver_upholds (s : State) (d : Dom) (hu : s0.Upholds s) : s0.Upholds (s.probeOver d) :=
  .ite (.upd hu rfl rfl rfl rfl rfl rfl) hu

theorem State.enterNight_upholds (s : State) (hu : s0.Upholds s) : s0.Upholds s.enterNight := by
  unfold State.enterNight
  extract_lets s1 s2 _ _ _ s3
  have h1 : s0.Upholds s1 := State.powerOffAll_upholds _ _ hu
  clear_value s1
  have h2 : s0.Upholds s2 := State.setDoms_upholds _ _ _ (State.setDom_upholds _ _ _ (State.setDom_upholds _ _ _ h1))
  clear_value s2
  have h3 : s0.Upholds s3 := .upd h2 rfl rfl rfl rfl rfl rfl
  clear_value s3
  exact State.raise_upholds _ _ _ (State.modChan_upholds _ _ _ (State.offLane_upholds _ _ h3))

theorem State.goNight_upholds (s : State) (hu : s0.Upholds s) :
    s0.Upholds (State.goNight s) := by
  unfold State.goNight
  repeat' (first | with_reducible assumption | with_reducible refine State.Upholds.ite ?_ ?_
                 | with_reducible apply State.enterNight_upholds | with_reducible apply State.toDusk_upholds)

theorem State.tellFault_upholds (s : State) (hu : s0.Upholds s) :
    s0.Upholds (State.tellFault s) := by
  unfold State.tellFault
  dsimp only
  repeat' (first | with_reducible assumption | with_reducible refine State.Upholds.ite ?_ ?_
                 | with_reducible apply State.direct_upholds
                 | with_reducible refine State.Upholds.upd ?_ rfl rfl rfl rfl rfl rfl)

theorem State.recordWake_upholds (s : State) (src : Nat) (dst : Nat) (step : Nat) (detail : Nat) (startAt : Nat)
    (hu : s0.Upholds s) :
    s0.Upholds (State.recordWake s src dst step detail startAt) := by
  unfold State.recordWake
  dsimp only
  exact .upd hu rfl rfl rfl rfl rfl rfl

theorem State.failStart_upholds (s : State) (hu : s0.Upholds s) :
    s0.Upholds (State.failStart s) := by
  unfold State.failStart
  dsimp only
  exact .upd hu rfl rfl rfl rfl rfl rfl

theorem State.failNeed_upholds (s : State) (ds : List Dom) (hu : s0.Upholds s) :
    s0.Upholds (State.failNeed s ds) := by
  unfold State.failNeed
  dsimp only
  repeat' (first | with_reducible assumption | (intro _ _ _) | with_reducible refine State.Upholds.ite ?_ ?_
                 | with_reducible refine State.Upholds.foldl ?_ ?_ | with_reducible apply State.refuseJob_upholds
                 | with_reducible apply State.done_upholds)

theorem State.failWake_upholds (s : State) (w : WakeSeq) (step : Nat) (detail : Nat) (hu : s0.Upholds s) :
    s0.Upholds (State.failWake s w step detail) := by
  unfold State.failWake
  extract_lets s1 _ s2 s3 _ _ _ _ _ s4 s5 _
  have h1 : s0.Upholds s1 := State.recordWake_upholds _ _ _ _ _ _ hu
  clear_value s1
  have h2 : s0.Upholds s2 := .upd h1 rfl rfl rfl rfl rfl rfl
  clear_value s2
  refine .ite (State.failStart_upholds _ h2) ?_
  have h3 : s0.Upholds s3 := by
    refine State.powerOffAll_upholds _ _ ?_
    split
    · exact State.failNeed_upholds _ _ h2
    · exact h2
  clear_value s3
  have h4 : s0.Upholds s4 := .upd h3 rfl rfl rfl rfl rfl rfl
  clear_value s4
  have h5 : s0.Upholds s5 := State.tellFault_upholds _ h4
  clear_value s5
  have h6 : s0.Upholds (if s5.power.nightFails = 3 then s5.chipReset 0x04 0
      else { s5 with power.nightFails := s5.power.nightFails + 1 }) :=
    .ite (State.chipReset_upholds _ _ _ h5) (.upd h5 rfl rfl rfl rfl rfl rfl)
  cases w.kind with
  | domains ds => exact State.wakeDomains_upholds _ _ h5
  | listen => exact h6
  | nightExit => exact h6
  | powerOn => exact h5
  | rstRelease => exact h5
  | permafrost => exact h5
  | glacier => exact h5

theorem State.pullCheck_upholds (s : State) (hu : s0.Upholds s) :
    s0.Upholds (State.pullCheck s) := by
  unfold State.pullCheck
  dsimp only
  repeat' (first | with_reducible assumption | (intro _ _ _) | with_reducible refine State.Upholds.ite ?_ ?_
                 | with_reducible refine State.Upholds.foldl ?_ ?_ | with_reducible apply State.txdisFaulted_upholds
                 | with_reducible apply State.raise_upholds
                 | with_reducible refine State.Upholds.upd ?_ rfl rfl rfl rfl rfl rfl)

theorem State.pendEvents_upholds (s : State) (hu : s0.Upholds s) : s0.Upholds s.pendEvents := by
  unfold State.pendEvents
  extract_lets s1
  have h1 : s0.Upholds s1 := State.Upholds.foldl hu fun x p hx => State.coreEvent_upholds _ _ _ hx
  exact .upd h1 rfl rfl rfl rfl rfl rfl

theorem State.noticePorts_upholds (s : State) (all : Bool) (hu : s0.Upholds s) :
    s0.Upholds (State.noticePorts s all) := by
  unfold State.noticePorts
  dsimp only
  exact .upd hu rfl rfl rfl rfl rfl rfl

theorem State.restartIdle_upholds (s : State) (hu : s0.Upholds s) :
    s0.Upholds (State.restartIdle s) := by
  unfold State.restartIdle
  dsimp only
  exact .upd hu rfl rfl rfl rfl rfl rfl

theorem State.lateAttach_upholds (s : State) (hu : s0.Upholds s) :
    s0.Upholds (State.lateAttach s) := by
  unfold State.lateAttach
  repeat' (first | with_reducible assumption | with_reducible refine State.Upholds.ite ?_ ?_
                 | with_reducible apply State.debugAttached_upholds)

theorem State.endGlacierWake_upholds (s : State) (hu : s0.Upholds s) :
    s0.Upholds (State.endGlacierWake s) := by
  unfold State.endGlacierWake
  dsimp only
  repeat' (first | with_reducible assumption | with_reducible apply State.setDoms_upholds
                 | with_reducible apply State.restartIdle_upholds | with_reducible apply State.pendEvents_upholds
                 | with_reducible apply State.lateAttach_upholds | with_reducible apply State.noticePorts_upholds
                 | with_reducible apply State.openOwner_upholds | with_reducible apply State.reloadKeys_upholds
                 | with_reducible apply State.resumeGlacier_upholds | with_reducible apply State.startPmic_upholds
                 | with_reducible refine State.Upholds.upd ?_ rfl rfl rfl rfl rfl rfl)

theorem State.endNightExit_upholds (s : State) (hu : s0.Upholds s) : s0.Upholds s.endNightExit := by
  unfold State.endNightExit
  extract_lets missed _ _ _ _ _ s1
  have h1 : s0.Upholds s1 := .upd (State.setDoms_upholds _ _ _ hu) rfl rfl rfl rfl rfl rfl
  clear_value s1
  exact State.servePorts_upholds _ (State.buildAll_upholds _ (State.tellDefects_upholds _ (State.raise_upholds _ _ _
    (State.reloadKeys_upholds _ (State.timeFromNight_upholds _ _ h1)))))

theorem State.startProbe_upholds (s : State) (hu : s0.Upholds s) : s0.Upholds s.startProbe :=
  .ite (.upd hu rfl rfl rfl rfl rfl rfl) hu

theorem State.finishWake_upholds (s : State) (w : WakeSeq) (hu : s0.Upholds s) :
    s0.Upholds (State.finishWake s w) := by
  unfold State.finishWake
  extract_lets _ _ _ _ s1 s2 _ _ _ _ s3 s4 _
  have h1 : s0.Upholds s1 := .upd (State.setDoms_upholds _ _ _ hu) rfl rfl rfl rfl rfl rfl
  clear_value s1
  have h2 : s0.Upholds s2 := .ite (State.pullCheck_upholds _ h1) h1
  clear_value s2
  have h3 : s0.Upholds s3 := by
    unfold s3
    split
    · exact .upd h2 rfl rfl rfl rfl rfl rfl
    · exact .upd h2 rfl rfl rfl rfl rfl rfl
    · exact .upd h2 rfl rfl rfl rfl rfl rfl
    · exact State.endGlacierWake_upholds _ h2
    · exact .upd h2 rfl rfl rfl rfl rfl rfl
    · exact State.endNightExit_upholds _ h2
    · exact State.unitsOn_upholds _ _ (.ite (State.startProbe_upholds _ h2) h2)
  clear_value s3
  have h4 : s0.Upholds s4 := .ite (State.tellFault_upholds _ h3) h3
  clear_value s4
  exact State.retryAuto_upholds _ (State.wakeDomains_upholds _ _ (.upd h4 rfl rfl rfl rfl rfl rfl))

theorem State.signalled_upholds (s : State) (sig : ReadySig) (hu : s0.Upholds s) : s0.Upholds (s.signalled sig) := by
  unfold State.signalled
  split
  · exact .upd (State.reach_upholds _ _ hu) rfl rfl rfl rfl rfl rfl
  · exact .upd (State.reach_upholds _ _ hu) rfl rfl rfl rfl rfl rfl
  · exact State.wakeLocked_upholds _ hu
  · exact .upd hu rfl rfl rfl rfl rfl rfl
  · exact .upd hu rfl rfl rfl rfl rfl rfl
  · exact hu

theorem State.markRelease_upholds (s : State) (w : WakeSeq) (n : Nat) (hu : s0.Upholds s) :
    s0.Upholds (s.markRelease w n) := by
  unfold State.markRelease
  exact .ite (.upd hu rfl rfl rfl rfl rfl rfl) hu

theorem State.wakeReady_upholds (s : State) (w : WakeSeq) (sig : ReadySig) (hu : s0.Upholds s) :
    s0.Upholds (State.wakeReady s w sig) := by
  unfold State.wakeReady
  extract_lets rest s1
  have h1 : s0.Upholds s1 := State.signalled_upholds _ _ hu
  clear_value rest s1
  split
  · exact .upd (State.raiseEnable_upholds _ _ _ h1) rfl rfl rfl rfl rfl rfl
  · refine .ite (State.finishWake_upholds _ _ h1) ?_
    extract_lets s2
    have h2 : s0.Upholds s2 := .ite (State.beginWakeSearch_upholds _ h1) (State.markRelease_upholds _ _ _ h1)
    exact .upd h2 rfl rfl rfl rfl rfl rfl

theorem State.judgePin_upholds (s : State) (pin : Fin 4) (hu : s0.Upholds s) :
    s0.Upholds (State.judgePin s pin) := by
  unfold State.judgePin
  dsimp only
  repeat' (first | with_reducible assumption | with_reducible refine State.Upholds.ite ?_ ?_
                 | with_reducible apply State.aoAssert_upholds)

theorem State.pmicFail_upholds (s : State) (op : PmicOp) (hu : s0.Upholds s) :
    s0.Upholds (State.pmicFail s op) := by
  unfold State.pmicFail
  extract_lets c s1
  have h1 : s0.Upholds s1 := State.tellFault_upholds _ (State.recordWake_upholds _ _ _ _ _ _ hu)
  clear_value s1
  split
  · exact .upd h1 rfl rfl rfl rfl rfl rfl
  · exact .upd h1 rfl rfl rfl rfl rfl rfl
  · exact .upd h1 rfl rfl rfl rfl rfl rfl
  · exact .ite (.upd h1 rfl rfl rfl rfl rfl rfl) (.upd h1 rfl rfl rfl rfl rfl rfl)
  · have h2 : s0.Upholds { s1 with power.pmic := none, power.workDue := false } := .upd h1 rfl rfl rfl rfl rfl rfl
    exact .ite (State.toNoon_upholds _ h2) h2
  · exact .upd h1 rfl rfl rfl rfl rfl rfl

theorem State.settleDusk_upholds (s : State) (hu : s0.Upholds s) : s0.Upholds s.settleDusk :=
  .ite (State.seekDusk_upholds _ (.upd hu rfl rfl rfl rfl rfl rfl)) hu

theorem State.settleWork_upholds (s : State) (hu : s0.Upholds s) : s0.Upholds s.settleWork :=
  .ite (State.toNoon_upholds _ (.upd hu rfl rfl rfl rfl rfl rfl)) hu

theorem State.pmicDone_upholds (s : State) (why : PmicWhy) (hu : s0.Upholds s) :
    s0.Upholds (State.pmicDone s why) := by
  unfold State.pmicDone
  extract_lets _ s1
  have h1 : s0.Upholds s1 := .upd hu rfl rfl rfl rfl rfl rfl
  clear_value s1
  have hd : ∀ {x : State}, s0.Upholds x → s0.Upholds ((x.wakeDomains [dLNL, dAUD]).firnNext).settleDusk := fun hx =>
    State.settleDusk_upholds _ (State.firnNext_upholds _ (State.wakeDomains_upholds _ _ hx))
  split
  · exact State.settleDusk_upholds _ (State.firnNext_upholds _ (State.seekBoost_upholds _
      (State.wakeDomains_upholds _ _ (.upd h1 rfl rfl rfl rfl rfl rfl))))
  · exact .ite h1 (State.settleWork_upholds _ (.upd (State.setDoms_upholds _ _ _ h1) rfl rfl rfl rfl rfl rfl))
  · exact .ite (State.startPmic_upholds _ _ _ h1) (hd (.upd h1 rfl rfl rfl rfl rfl rfl))
  · exact hd (.upd h1 rfl rfl rfl rfl rfl rfl)
  · exact State.settleDusk_upholds _ (State.firnNext_upholds _ (.upd h1 rfl rfl rfl rfl rfl rfl))
  · exact State.settleWork_upholds _ h1

theorem State.stateAnswer_upholds (s : State) (t : Ten) (n : SlotIx) (hu : s0.Upholds s) :
    s0.Upholds (State.stateAnswer s t n) := by
  unfold State.stateAnswer
  repeat' (first | with_reducible assumption | with_reducible apply State.answer_upholds)

/-! ### Mailbox -/

theorem State.viaWrite_upholds (s : State) (via : Via) (off : Nat) (v : List Byte) (hu : s0.Upholds s) :
    s0.Upholds (State.viaWrite s via off v) := by
  unfold State.viaWrite
  split
  · exact State.spiWrite_upholds _ _ _ _ hu
  · split
    · exact State.writeWindow_upholds _ _ _ _ hu
    · exact hu

theorem State.viaRead_upholds (s : State) (via : Via) (off len : Nat) (hu : s0.Upholds s) :
    s0.Upholds (s.viaRead via off len) := by
  unfold State.viaRead
  split
  · exact State.spiRead_upholds _ _ _ _ _ hu
  · exact State.emit_upholds _ _ (readWindow_upholds _ _ _ _ hu)

theorem State.spiStatus_upholds (s : State) (p : Fin 4) (hu : s0.Upholds s) : s0.Upholds (s.spiStatus p) := by
  unfold State.spiStatus
  refine .ite hu ?_
  extract_lets pt st byte s1 _ s2
  have h2 : s0.Upholds s2 := .upd (State.emit_upholds _ _ hu) rfl rfl rfl rfl rfl rfl
  clear_value s1 s2
  split
  · exact State.modTen_upholds _ _ _ h2
  · exact h2

theorem State.spiTransaction_upholds (s : State) (p : Fin 4) (sent : List Byte) (clocks : Nat) (hu : s0.Upholds s) :
    s0.Upholds (s.spiTransaction p sent clocks) := by
  unfold State.spiTransaction
  split
  · exact hu
  · split
    · exact hu
    · exact State.spiStatus_upholds _ _ hu
    · split
      · exact State.spiWrite_upholds _ _ _ _ hu
      · exact hu
    · split
      · exact .ite (State.emit_upholds _ _ (State.freed_upholds _ hu)) (State.spiRead_upholds _ _ _ _ _ hu)
      · exact hu

theorem State.ibDrop_upholds (s : State) (l : Fin 2) (hu : s0.Upholds s) :
    s0.Upholds (State.ibDrop s l) := by
  unfold State.ibDrop
  dsimp only
  exact .upd hu rfl rfl rfl rfl rfl rfl

theorem State.attDrop_upholds (s : State) (l : Fin 2) (hu : s0.Upholds s) :
    s0.Upholds (State.attDrop s l) := by
  unfold State.attDrop
  dsimp only
  exact .upd hu rfl rfl rfl rfl rfl rfl

theorem State.attachFail_upholds (s : State) (l : Fin 2) (t : Ten) (hu : s0.Upholds s) :
    s0.Upholds (State.attachFail s l t) := by
  unfold State.attachFail
  dsimp only
  repeat' (first | with_reducible assumption | with_reducible apply State.modTen_upholds
                 | with_reducible apply State.attDrop_upholds)

theorem State.visited_upholds (s : State) (t : Ten) (hu : s0.Upholds s) :
    s0.Upholds (State.visited s t) := by
  unfold State.visited
  dsimp only
  repeat' (first | with_reducible assumption | with_reducible refine State.Upholds.ite ?_ ?_
                 | with_reducible apply State.modTen_upholds
                 | with_reducible refine State.Upholds.upd ?_ rfl rfl rfl rfl rfl rfl)

theorem State.startCommand_upholds (s : State) (t : Ten) (n : SlotIx) (hu : s0.Upholds s) :
    s0.Upholds (State.startCommand s t n) := by
  unfold State.startCommand
  repeat' (first | with_reducible assumption | with_reducible refine State.Upholds.ite ?_ ?_
                 | with_reducible apply State.done_upholds | with_reducible apply State.toNoon_upholds
                 | with_reducible apply State.touch_upholds | with_reducible apply State.modSlot_upholds | split)

theorem State.abortRestart_upholds (s : State) (t : Ten) (n : SlotIx) (hu : s0.Upholds s) :
    s0.Upholds (State.abortRestart s t n) := by
  unfold State.abortRestart
  dsimp only
  repeat' (first | with_reducible assumption | with_reducible apply State.postRaw_upholds
                 | with_reducible apply State.modSlot_upholds | with_reducible apply State.flagTen_upholds)

theorem State.abortSlots_upholds (s : State) (hu : s0.Upholds s) :
    s0.Upholds (State.abortSlots s) := by
  unfold State.abortSlots
  repeat' (first | with_reducible assumption | (intro _ _ _) | with_reducible refine State.Upholds.ite ?_ ?_
                 | with_reducible refine State.Upholds.foldl ?_ ?_ | with_reducible apply State.abortRestart_upholds)

theorem State.acceptHeld_upholds (s : State) (hu : s0.Upholds s) :
    s0.Upholds (State.acceptHeld s) := by
  unfold State.acceptHeld
  repeat' (first | with_reducible assumption | (intro _ _ _) | with_reducible refine State.Upholds.foldl ?_ ?_
                 | with_reducible apply State.modSlot_upholds)

theorem State.revokeDone_upholds (s : State) (id : Nat) (hu : s0.Upholds s) :
    s0.Upholds (State.revokeDone s id) := by
  unfold State.revokeDone
  dsimp only
  exact .upd hu rfl rfl rfl rfl rfl rfl

theorem State.serveResidue_upholds (s : State) (hu : s0.Upholds s) : s0.Upholds s.serveResidue := by
  unfold State.serveResidue
  extract_lets s1 busy gone _ s2
  have h1 : s0.Upholds s1 := State.Upholds.foldl hu fun x r hx =>
    .ite (State.stopJobs_upholds _ _ _ hx) (State.stopResource_upholds _ _ hx)
  clear_value s1
  have h2 : s0.Upholds s2 := State.Upholds.foldl (.upd h1 rfl rfl rfl rfl rfl rfl) fun x r hx =>
    State.revokeDone_upholds _ _ hx
  clear_value s2
  exact State.acceptHeld_upholds _ (State.Upholds.foldl h2 fun x t hx => State.modTen_upholds _ _ _ hx)

theorem State.leaveToCc0_upholds (s : State) (hu : s0.Upholds s) : s0.Upholds s.leaveToCc0 := by
  unfold State.leaveToCc0
  exact State.Upholds.foldl hu fun x t hx =>
    .ite (.ite (State.abortRestart_upholds _ _ _ hx) (State.modSlot_upholds _ _ _ _ hx)) hx

theorem State.expiryInReset_upholds (s : State) (c : Fin 2) (hu : s0.Upholds s) : s0.Upholds (s.expiryInReset c) :=
  .ite (.upd hu rfl rfl rfl rfl rfl rfl) hu

theorem State.ibServe_upholds (s : State) (t : Ten) (payload : List Byte) (hu : s0.Upholds s) {bs : List Byte}
    {s1 : State} (hs : s.ibServe t payload = some (bs, s1)) : s0.Upholds s1 := by
  unfold State.ibServe at hs
  have hr := fun a l => readWindow_upholds s (.lane t) a l hu
  generalize readWindow s (.lane t) = f at hs hr
  split at hs
  · cases hs
  · split at hs
    · rw [← (Prod.mk.inj (Option.some.inj hs)).2]
      exact hr _ _
    · rw [← (Prod.mk.inj (Option.some.inj hs)).2]
      exact State.writeWindow_upholds _ _ _ _ hu
    · rw [← (Prod.mk.inj (Option.some.inj hs)).2]
      exact State.statusSeen_upholds _ _ hu
    · cases hs

/-! ### Boot -/

theorem State.choose_upholds (s : State) (i : Fin 2) (hu : s0.Upholds s) :
    s0.Upholds (State.choose s i) := by
  unfold State.choose
  dsimp only
  repeat' (first | with_reducible assumption | split
                 | with_reducible refine State.Upholds.upd ?_ rfl rfl rfl rfl rfl rfl)

theorem State.select_upholds (l : List (Fin 2)) : ∀ s : State, s0.Upholds s → s0.Upholds (s.select l).1 := by
  induction l with
  | nil => intro s hu; exact hu
  | cons i l ih =>
    intro s hu
    unfold State.select
    dsimp only
    split
    · exact State.choose_upholds _ _ hu
    · refine ih _ (State.Upholds.ite (.upd hu rfl ?_ rfl rfl rfl rfl) (.upd hu rfl rfl rfl rfl rfl rfl))
      unfold Icb.put
      split <;> rfl

theorem State.enterRecovery_upholds (s : State) (hu : s0.Upholds s) : s0.Upholds s.enterRecovery := by
  unfold State.enterRecovery
  generalize s.select s.candidates = g
  extract_lets target
  clear_value target
  exact hu.change (Nat.le_refl _) (Nat.le_refl _) fun m => ⟨m.sram, m.ens, Memory.canon_nil, m.work⟩

theorem State.drawBases_upholds (s : State) (hu : s0.Upholds s) :
    s0.Upholds (State.drawBases s) := by
  unfold State.drawBases
  repeat' (first | with_reducible assumption | (intro _ _ _) | with_reducible refine State.Upholds.foldl ?_ ?_
                 | with_reducible apply State.modTen_upholds | with_reducible apply State.drawn_upholds)

theorem State.imageRuns_upholds (s : State) (i : Fin 2) (hu : s0.Upholds s) : s0.Upholds (s.imageRuns i) :=
  .noMem hu rfl rfl rfl rfl rfl

theorem State.bootEvents_upholds (s : State) (i : Fin 2) (skipped : List (Fin 2)) (hu : s0.Upholds s) :
    s0.Upholds (State.bootEvents s i skipped) := by
  unfold State.bootEvents
  dsimp only
  repeat' (first | with_reducible assumption | with_reducible refine State.Upholds.ite ?_ ?_
                 | with_reducible apply State.direct_upholds | with_reducible apply State.tellFault_upholds | split
                 | with_reducible refine State.Upholds.upd ?_ rfl rfl rfl rfl rfl rfl)

theorem State.startFirmware_upholds (s : State) (i : Fin 2) (skipped : List (Fin 2)) (hu : s0.Upholds s) :
    s0.Upholds (State.startFirmware s i skipped) := by
  unfold State.startFirmware
  dsimp only
  repeat' (first | with_reducible assumption | with_reducible refine State.Upholds.ite ?_ ?_
                 | with_reducible apply State.setDoms_upholds | with_reducible apply State.imageRuns_upholds
                 | with_reducible apply State.bootUnits_upholds | with_reducible apply State.drawBases_upholds
                 | with_reducible apply State.openOwner_upholds | with_reducible apply State.noticePorts_upholds
                 | with_reducible apply State.restartIdle_upholds | with_reducible apply State.pendEvents_upholds
                 | with_reducible apply State.bootEvents_upholds | with_reducible apply State.pullCheck_upholds
                 | with_reducible apply State.startPmic_upholds | split
                 | with_reducible refine State.Upholds.upd ?_ rfl rfl rfl rfl rfl rfl)

theorem State.romStart_upholds (s : State) (hu : s0.Upholds s) :
    s0.Upholds (State.romStart s) := by
  unfold State.romStart
  dsimp only
  repeat' (first | with_reducible assumption | with_reducible apply State.journalBoot_upholds
                 | with_reducible apply State.setDoms_upholds
                 | with_reducible refine State.Upholds.upd ?_ rfl rfl rfl rfl rfl rfl)

theorem State.bootTimeout_upholds (s : State) (hu : s0.Upholds s) : s0.Upholds s.bootTimeout := by
  unfold State.bootTimeout
  split
  · exact hu
  · have h1 := State.select_upholds s.romStart.candidates _ (State.romStart_upholds _ hu)
    dsimp only
    generalize (s.romStart.select s.romStart.candidates).1 = x at h1 ⊢
    exact State.chipReset_upholds _ _ _ (.upd h1 rfl rfl rfl rfl rfl rfl)

theorem State.commitImage_upholds (s : State) (i : Fin 2) (raise : Bool) (hu : s0.Upholds s) :
    s0.Upholds (s.commitImage i raise) := by
  unfold State.commitImage
  extract_lets svn
  refine State.recordWritten_upholds _ (hu.change (Nat.le_refl _) ?_ fun m => ⟨m.sram, m.ens, m.buf, m.work⟩)
  show _ ≤ (if raise then max _ _ else _)
  split
  · exact Nat.le_max_left _ _
  · exact Nat.le_refl _

theorem State.inRecovery_upholds (s : State) (f : State → State) (hu : s0.Upholds s)
    (hf : ∀ x, s0.Upholds x → s0.Upholds (f x)) : s0.Upholds (s.inRecovery f) :=
  State.Upholds.ite (hf _ (State.drainAll_upholds _ _ hu)) hu

end Sys2Proof.Machine
end

