-- ==== Sys2Proof/Laws/UpholdsRows.lean ====
section
/-!
SUPPORT. What every step upholds (`State.Upholds`), operation by operation: what the rows of the tenants, events,
time, clock, lanes, downstream, registration and upstream share.
-/

namespace Sys2Proof.Machine

variable {s0 : State}

/-! ### Tenants -/

theorem State.finish_upholds (s : State) (d : Drain) (hu : s0.Upholds s) :
    s0.Upholds (State.finish s d) := by
  unfold State.finish
  split
  · exact State.answer_upholds _ _ _ _ hu
  · exact State.answer_upholds _ _ _ _ (State.grantLease_upholds _ _ _ hu)
  · exact State.answer_upholds _ _ _ _ (State.endSession_upholds _ _ (State.askStopAll_upholds _ _ _ _ hu))
  · extract_lets own all s1 ready res
    have h1 : s0.Upholds s1 := State.endSession_upholds _ _ (State.askStopAll_upholds _ _ _ _ hu)
    clear_value s1
    exact State.answer_upholds _ _ _ _ (State.resetSession_upholds _ _ _ _ _ h1)

theorem State.drainOrPost_upholds (s : State) (d : Drain) (hu : s0.Upholds s) :
    s0.Upholds (State.drainOrPost s d) := by
  unfold State.drainOrPost
  dsimp only
  repeat' (first | with_reducible assumption | with_reducible refine State.Upholds.ite ?_ ?_
                 | with_reducible apply State.finish_upholds
                 | with_reducible refine State.Upholds.upd ?_ rfl rfl rfl rfl rfl rfl)

theorem State.resetByCc0_upholds (s : State) (t : Ten) (n : SlotIx) (u : Ten) (keep : Bool) (hu : s0.Upholds s) :
    s0.Upholds (State.resetByCc0 s t n u keep) := by
  unfold State.resetByCc0
  dsimp only
  repeat' (first | with_reducible assumption | with_reducible apply State.askStopAll_upholds
                 | with_reducible apply State.modTen_upholds | with_reducible apply State.endSession_upholds
                 | with_reducible apply State.drainOrPost_upholds)

theorem State.resetByCc1_upholds (s : State) (t : Ten) (n : SlotIx) (u : Ten) (keep : Bool) (hu : s0.Upholds s) :
    s0.Upholds (State.resetByCc1 s t n u keep) := by
  unfold State.resetByCc1
  extract_lets own count ready ids x0 x1 _ x2 x3
  have h1 : s0.Upholds x1 := State.Upholds.foldl (State.letRun_upholds _ _ _ hu) fun x id hx =>
    State.freeLease_upholds _ _ hx
  clear_value x0 x1
  have h2 : s0.Upholds x2 := .upd h1 rfl rfl rfl rfl rfl rfl
  clear_value x2
  have h3 : s0.Upholds x3 := State.modTen_upholds _ _ _ (State.endSession_upholds _ _ h2)
  clear_value x3
  exact State.answer_upholds _ _ _ _ (State.resetSession_upholds _ _ _ _ _ h3)

theorem State.stopBeyond_upholds (s : State) (u : Ten) (bytes : Nat) (hu : s0.Upholds s) :
    s0.Upholds (State.stopBeyond s u bytes) := by
  unfold State.stopBeyond
  repeat' (first | with_reducible assumption | (intro _ _ _) | with_reducible refine State.Upholds.foldl ?_ ?_
                 | with_reducible apply State.askStop_upholds)

/-! ### Events -/

theorem State.ringEvent_upholds (s : State) (t : Ten) (vid : Nat) (code : Half) (l : Latch) (hu : s0.Upholds s) :
    s0.Upholds (State.ringEvent s t vid code l) := by
  unfold State.ringEvent
  dsimp only
  repeat' (first | with_reducible assumption | with_reducible refine State.Upholds.ite ?_ ?_
                 | with_reducible apply State.flagTen_upholds | with_reducible apply State.setTen_upholds
                 | with_reducible apply State.notify_upholds)

theorem State.deliver_upholds (s : State) (t : Ten) (vid : Nat) (code : Half) (l : Latch) (directed : Bool)
    (hu : s0.Upholds s) :
    s0.Upholds (State.deliver s t vid code l directed) := by
  unfold State.deliver
  dsimp only
  repeat' (first | with_reducible assumption | with_reducible refine State.Upholds.ite ?_ ?_
                 | with_reducible apply State.ringEvent_upholds | with_reducible apply State.setTen_upholds)

theorem State.deliverTo_upholds (s : State) (src : Fin 256) (l : Latch) (t : Ten) (hu : s0.Upholds s) :
    s0.Upholds (State.deliverTo s src l t) := by
  unfold State.deliverTo
  repeat' (first | with_reducible assumption | with_reducible apply State.deliver_upholds | split)

theorem State.deliverEvent_upholds (s : State) (src : Fin 256) (l : Latch) (hu : s0.Upholds s) :
    s0.Upholds (State.deliverEvent s src l) := by
  unfold State.deliverEvent
  extract_lets x s1
  have h1 : s0.Upholds s1 := State.coreEvent_upholds _ _ _ hu
  clear_value s1
  refine .ite ?_ (State.Upholds.foldl h1 fun y t hy => State.deliverTo_upholds _ _ _ _ hy)
  split
  · exact State.modSource_upholds _ _ _ (State.deliverTo_upholds _ _ _ _ h1)
  · exact State.modSource_upholds _ _ _ h1

/-! ### Time -/

theorem State.fireCmp_upholds (s : State) (i : Fin 16) (late : Bool) (hu : s0.Upholds s) :
    s0.Upholds (State.fireCmp s i late) := by
  unfold State.fireCmp
  dsimp only
  repeat' (first | with_reducible assumption | with_reducible apply State.raise_upholds
                 | with_reducible refine State.Upholds.upd ?_ rfl rfl rfl rfl rfl rfl)

theorem State.recheckCmp_upholds (s : State) (i : Fin 16) (hu : s0.Upholds s) :
    s0.Upholds (State.recheckCmp s i) := by
  unfold State.recheckCmp
  dsimp only
  repeat' (first | with_reducible assumption | with_reducible refine State.Upholds.ite ?_ ?_
                 | with_reducible apply State.fireCmp_upholds | split
                 | with_reducible refine State.Upholds.upd ?_ rfl rfl rfl rfl rfl rfl)

theorem State.fireAlarm_upholds (s : State) (i : Fin 4) (hu : s0.Upholds s) :
    s0.Upholds (State.fireAlarm s i) := by
  unfold State.fireAlarm
  dsimp only
  repeat' (first | with_reducible assumption | with_reducible apply State.aoAssert_upholds
                 | with_reducible refine State.Upholds.upd ?_ rfl rfl rfl rfl rfl rfl)

theorem State.ppsPulse_upholds (s : State) (sec : Nat) (tt : Nat) (hu : s0.Upholds s) :
    s0.Upholds (State.ppsPulse s sec tt) := by
  unfold State.ppsPulse
  dsimp only
  repeat' (first | with_reducible assumption | with_reducible apply State.emit_upholds
                 | with_reducible apply State.raise_upholds
                 | with_reducible refine State.Upholds.upd ?_ rfl rfl rfl rfl rfl rfl)

theorem State.pulseEdge_upholds (s : State) (i : Fin 2) (p : Pulse) (hu : s0.Upholds s) :
    s0.Upholds (State.pulseEdge s i p) := by
  unfold State.pulseEdge
  dsimp only
  repeat' (first | with_reducible assumption | with_reducible apply State.emit_upholds
                 | with_reducible refine State.Upholds.upd ?_ rfl rfl rfl rfl rfl rfl)

theorem State.pulseRise_upholds (s : State) (i : Fin 2) (hu : s0.Upholds s) :
    s0.Upholds (State.pulseRise s i) := by
  unfold State.pulseRise
  dsimp only
  repeat' (first | with_reducible assumption | with_reducible apply State.pulseEdge_upholds)

theorem State.pulseFall_upholds (s : State) (i : Fin 2) (hu : s0.Upholds s) :
    s0.Upholds (State.pulseFall s i) := by
  unfold State.pulseFall
  dsimp only
  repeat' (first | with_reducible assumption | with_reducible apply State.pulseEdge_upholds)

theorem State.recheckPulse_upholds (s : State) (i : Fin 2) (hu : s0.Upholds s) :
    s0.Upholds (State.recheckPulse s i) := by
  unfold State.recheckPulse
  dsimp only
  repeat' (first | with_reducible assumption | with_reducible refine State.Upholds.ite ?_ ?_
                 | with_reducible apply State.pulseRise_upholds | with_reducible apply State.pulseFall_upholds
                 | with_reducible refine State.Upholds.upd ?_ rfl rfl rfl rfl rfl rfl)

theorem State.leapNow_upholds (s : State) (hu : s0.Upholds s) :
    s0.Upholds (State.leapNow s) := by
  unfold State.leapNow
  dsimp only
  repeat' (first | with_reducible assumption | split
                 | with_reducible refine State.Upholds.upd ?_ rfl rfl rfl rfl rfl rfl)

theorem State.stepTt_upholds (s : State) (by_ : ℤ) (hu : s0.Upholds s) :
    s0.Upholds (State.stepTt s by_) := by
  unfold State.stepTt
  dsimp only
  repeat' (first | with_reducible assumption | (intro _ _ _) | with_reducible refine State.Upholds.ite ?_ ?_
                 | with_reducible refine State.Upholds.foldl ?_ ?_ | with_reducible apply State.recheckCmp_upholds
                 | with_reducible apply State.fireAlarm_upholds | with_reducible apply State.recheckPulse_upholds
                 | with_reducible apply State.leapNow_upholds | with_reducible apply State.audStep_upholds
                 | with_reducible apply State.ppsPulse_upholds | split
                 | with_reducible refine State.Upholds.upd ?_ rfl rfl rfl rfl rfl rfl)

theorem State.badStamp_upholds (s : State) (e : ℤ) (hu : s0.Upholds s) :
    s0.Upholds (State.badStamp s e) := by
  unfold State.badStamp
  dsimp only
  repeat' (first | with_reducible assumption | with_reducible refine State.Upholds.ite ?_ ?_
                 | with_reducible apply State.faultTime_upholds
                 | with_reducible refine State.Upholds.upd ?_ rfl rfl rfl rfl rfl rfl)

theorem State.useStamp_upholds (s : State) (e : ℤ) (hu : s0.Upholds s) :
    s0.Upholds (State.useStamp s e) := by
  unfold State.useStamp
  dsimp only
  repeat' (first | with_reducible assumption | with_reducible refine State.Upholds.ite ?_ ?_
                 | with_reducible apply State.stepTt_upholds | with_reducible apply State.badStamp_upholds
                 | with_reducible apply State.raise_upholds | split
                 | with_reducible refine State.Upholds.upd ?_ rfl rfl rfl rfl rfl rfl)

theorem State.openAnswer_upholds (s : State) (t : Ten) (n : SlotIx) (src : SSource) (hu : s0.Upholds s) :
    s0.Upholds (State.openAnswer s t n src) := by
  unfold State.openAnswer
  dsimp only
  repeat' (first | with_reducible assumption | with_reducible apply State.openTime_upholds
                 | with_reducible apply State.answer_upholds)

theorem State.tenantStep_upholds (s : State) (t : Ten) (n : SlotIx) (by_ : ℤ) (hu : s0.Upholds s) :
    s0.Upholds (State.tenantStep s t n by_) := by
  unfold State.tenantStep
  dsimp only
  repeat' (first | with_reducible assumption | with_reducible refine State.Upholds.ite ?_ ?_
                 | with_reducible apply State.done_upholds | with_reducible apply State.answer_upholds
                 | with_reducible apply State.stepTt_upholds)

theorem State.setAlarm_upholds (s : State) (t : Ten) (n : SlotIx) (i : Fin 4) (sec : Nat) (hu : s0.Upholds s) :
    s0.Upholds (State.setAlarm s t n i sec) := by
  unfold State.setAlarm
  dsimp only
  repeat' (first | with_reducible assumption | with_reducible refine State.Upholds.ite ?_ ?_
                 | with_reducible apply State.answer_upholds | with_reducible apply State.fireAlarm_upholds
                 | with_reducible refine State.Upholds.upd ?_ rfl rfl rfl rfl rfl rfl)

theorem State.pulseArm_upholds (s : State) (t : Ten) (n : SlotIx) (i : Fin 2) (invert : Bool) (start : Nat)
    (stop : Option Nat) (hu : s0.Upholds s) :
    s0.Upholds (State.pulseArm s t n i invert start stop) := by
  unfold State.pulseArm
  extract_lets p x0 _ x1
  have h0 : s0.Upholds x0 := .ite hu (State.emit_upholds _ _ hu)
  clear_value x0
  have h1 : s0.Upholds x1 := .upd h0 rfl rfl rfl rfl rfl rfl
  clear_value x1
  exact .ite (State.answer_upholds _ _ _ _ (State.pulseRise_upholds _ _ h1)) (State.answer_upholds _ _ _ _ h1)

theorem State.pulseHalt_upholds (s : State) (t : Ten) (n : SlotIx) (i : Fin 2) (stop : Nat) (hu : s0.Upholds s) :
    s0.Upholds (State.pulseHalt s t n i stop) := by
  unfold State.pulseHalt
  dsimp only
  repeat' (first | with_reducible assumption | with_reducible refine State.Upholds.ite ?_ ?_
                 | with_reducible apply State.answer_upholds | with_reducible apply State.pulseFall_upholds | split
                 | with_reducible refine State.Upholds.upd ?_ rfl rfl rfl rfl rfl rfl)

/-! ### Clock -/

theorem State.coast_upholds (s : State) (hu : s0.Upholds s) :
    s0.Upholds (State.coast s) := by
  unfold State.coast
  dsimp only
  repeat' (first | with_reducible assumption | with_reducible apply State.dpllLoss_upholds
                 | with_reducible apply State.raiseLol_upholds | split
                 | with_reducible refine State.Upholds.upd ?_ rfl rfl rfl rfl rfl rfl)

theorem State.search_upholds (s : State) (r : Relock) (hu : s0.Upholds s) :
    s0.Upholds (State.search s r) := by
  unfold State.search
  dsimp only
  repeat' (first | with_reducible assumption | with_reducible apply State.done_upholds | split
                 | with_reducible refine State.Upholds.upd ?_ rfl rfl rfl rfl rfl rfl)

theorem State.startRelock_upholds (s : State) (by_ : Option (Ten × SlotIx)) (hu : s0.Upholds s) :
    s0.Upholds (State.startRelock s by_) := by
  unfold State.startRelock
  dsimp only
  repeat' (first | with_reducible assumption | with_reducible apply State.lanesDark_upholds
                 | with_reducible apply State.setDoms_upholds | with_reducible apply State.search_upholds
                 | with_reducible apply State.dpllLoss_upholds | with_reducible apply State.raiseLol_upholds
                 | with_reducible refine State.Upholds.upd ?_ rfl rfl rfl rfl rfl rfl)

theorem State.lolHeld_upholds (s : State) (hu : s0.Upholds s) :
    s0.Upholds (State.lolHeld s) := by
  unfold State.lolHeld
  dsimp only
  repeat' (first | with_reducible assumption | with_reducible refine State.Upholds.ite ?_ ?_
                 | with_reducible refine State.Upholds.upd ?_ rfl rfl rfl rfl rfl rfl)

theorem State.dpllJump_upholds (s : State) (df : ℤ) (hu : s0.Upholds s) :
    s0.Upholds (State.dpllJump s df) := by
  unfold State.dpllJump
  dsimp only
  repeat' (first | with_reducible assumption | split
                 | with_reducible refine State.Upholds.upd ?_ rfl rfl rfl rfl rfl rfl)

theorem State.dpllTrack_upholds (s : State) (hu : s0.Upholds s) :
    s0.Upholds (State.dpllTrack s) := by
  unfold State.dpllTrack
  dsimp only
  exact .upd hu rfl rfl rfl rfl rfl rfl

theorem State.dpllAcquire_upholds (s : State) (df : Int) (hu : s0.Upholds s) : s0.Upholds (s.dpllAcquire df) :=
  State.dpllJump_upholds _ _ (State.cutBurst_upholds _ (State.withdrawAll_upholds _ (State.emptyTable_upholds _ hu)))

/-! ### Lanes -/

theorem State.takeGroups_upholds (s : State) (i : Fin 4) (rd : Bool) (gs : List CodeGroup) (hu : s0.Upholds s) :
    s0.Upholds (State.takeGroups s i rd gs) := by
  unfold State.takeGroups
  exact State.modPhy_upholds _ _ _ hu

theorem State.fibreLocks_upholds (s : State) (l : Fin 2) (hu : s0.Upholds s) :
    s0.Upholds (State.fibreLocks s l) := by
  unfold State.fibreLocks
  dsimp only
  repeat' (first | with_reducible assumption | with_reducible refine State.Upholds.ite ?_ ?_
                 | with_reducible apply State.modPhy_upholds | with_reducible apply State.tellDefects_upholds
                 | with_reducible apply State.updateWtr_upholds | with_reducible apply State.raise_upholds
                 | with_reducible refine State.Upholds.upd ?_ rfl rfl rfl rfl rfl rfl)

theorem State.linkUp_upholds (s : State) (l : Fin 2) (hu : s0.Upholds s) :
    s0.Upholds (State.linkUp s l) := by
  unfold State.linkUp
  repeat' (first | with_reducible assumption | with_reducible apply State.raise_upholds
                 | with_reducible apply State.modLocal_upholds | with_reducible apply State.modPhy_upholds)

theorem State.pauseReceived_upholds (s : State) (l : Fin 2) (quanta : Nat) (hu : s0.Upholds s) :
    s0.Upholds (State.pauseReceived s l quanta) := by
  unfold State.pauseReceived
  extract_lets s1 s2
  have h1 : s0.Upholds s1 := State.modLocal_upholds _ _ _ hu
  clear_value s1
  exact State.raise_upholds _ _ _ (.ite
    (State.Upholds.foldl (State.modLocal_upholds _ _ _ h1) fun x f hx => State.macSend_upholds _ _ _ hx) h1)

theorem State.macSort_upholds (s : State) (l : Fin 2) (f : List Byte) (hu : s0.Upholds s) :
    s0.Upholds (State.macSort s l f) := by
  unfold State.macSort
  dsimp only
  repeat' (first | with_reducible assumption | with_reducible refine State.Upholds.ite ?_ ?_
                 | with_reducible apply State.modLocal_upholds | with_reducible apply State.pauseReceived_upholds
                 | with_reducible apply State.toNoon_upholds | with_reducible apply State.touch_upholds
                 | with_reducible apply State.ingress_upholds)

theorem State.sendPause_upholds (s : State) (l : Fin 2) (quanta : Nat) (hu : s0.Upholds s) :
    s0.Upholds (State.sendPause s l quanta) := by
  unfold State.sendPause
  repeat' (first | with_reducible assumption | with_reducible apply State.modLocal_upholds
                 | with_reducible apply State.emit_upholds)

theorem State.clearLane_upholds (s : State) (i : Fin 4) (hu : s0.Upholds s) :
    s0.Upholds (State.clearLane s i) := by
  unfold State.clearLane
  dsimp only
  repeat' (first | with_reducible assumption | with_reducible refine State.Upholds.ite ?_ ?_
                 | with_reducible apply State.modPhy_upholds | with_reducible apply State.modLocal_upholds
                 | with_reducible refine State.Upholds.upd ?_ rfl rfl rfl rfl rfl rfl)

theorem State.configFibre_upholds (s : State) (t : Ten) (n : SlotIx) (hu : s0.Upholds s) :
    s0.Upholds (State.configFibre s t n) := by
  unfold State.configFibre
  dsimp only
  repeat' (first | with_reducible assumption | with_reducible refine State.Upholds.ite ?_ ?_
                 | with_reducible apply State.guard_upholds | with_reducible apply State.updateWtr_upholds
                 | with_reducible apply State.done_upholds | with_reducible apply State.persisted_upholds
                 | with_reducible refine State.Upholds.upd ?_ rfl rfl rfl rfl rfl rfl)

theorem State.configLocal_upholds (s : State) (t : Ten) (n : SlotIx) (l : Fin 2) (hu : s0.Upholds s) :
    s0.Upholds (State.configLocal s t n l) := by
  unfold State.configLocal
  dsimp only
  repeat' (first | with_reducible assumption | with_reducible refine State.Upholds.ite ?_ ?_
                 | with_reducible apply State.guard_upholds | with_reducible apply State.modLocal_upholds
                 | with_reducible apply State.dropLocal_upholds | with_reducible apply State.done_upholds
                 | with_reducible apply State.persisted_upholds
                 | with_reducible refine State.Upholds.upd ?_ rfl rfl rfl rfl rfl rfl)

theorem State.setRaw_upholds (s : State) (i : Fin 4) (raw : Bool) (pat : List (BitVec 9)) (hu : s0.Upholds s) :
    s0.Upholds (State.setRaw s i raw pat) := by
  unfold State.setRaw
  dsimp only
  repeat' (first | with_reducible assumption | with_reducible refine State.Upholds.ite ?_ ?_
                 | with_reducible apply State.darkLane_upholds | with_reducible apply State.dropLocal_upholds
                 | with_reducible apply State.modPhy_upholds)

theorem State.endSlips_upholds (s : State) (t : Ten) (n : SlotIx) (hu : s0.Upholds s) : s0.Upholds (s.endSlips t n) :=
  .upd hu rfl rfl rfl rfl rfl rfl

/-! ### Downstream -/

theorem State.beginFrame_upholds (s : State) (l : Fin 2) (n start2 : Nat) (ok : Bool) (hu : s0.Upholds s) :
    s0.Upholds (s.beginFrame l n start2 ok) := by
  unfold State.beginFrame
  extract_lets x0 x1
  have h1 : s0.Upholds x1 := State.modChan_upholds _ _ _ (State.reach_upholds _ _ hu)
  clear_value x1
  exact .ite (State.tribFrame_upholds _ h1) h1

theorem State.maybeExchange_upholds (s : State) (l : Fin 2) (hu : s0.Upholds s) :
    s0.Upholds (State.maybeExchange s l) := by
  unfold State.maybeExchange
  dsimp only
  repeat' (first | with_reducible assumption | with_reducible refine State.Upholds.ite ?_ ?_
                 | with_reducible apply State.exchange_upholds)

theorem State.reachSync_upholds (s : State) (l : Fin 2) (hu : s0.Upholds s) : s0.Upholds (s.reachSync l) :=
  State.endSilence_upholds _ (State.tellDefects_upholds _ (State.updateWtr_upholds _ (State.resumeActive_upholds _
    (State.maybeExchange_upholds _ _ (State.modChan_upholds _ _ _ hu)))))

theorem State.preload_upholds (s : State) (l : Fin 2) (k n mfi start2 : Nat) (hu : s0.Upholds s) :
    s0.Upholds (s.preload l k n mfi start2) :=
  State.reachSync_upholds _ _ (State.beginFrame_upholds _ _ _ _ _ (State.modChan_upholds _ _ _ hu))

theorem State.huntFaw_upholds (s : State) (l : Fin 2) (start2 : Nat) (hu : s0.Upholds s) :
    s0.Upholds (s.huntFaw l start2) :=
  State.modChan_upholds _ _ _ (State.beginFrame_upholds _ _ _ _ _ hu)

theorem State.presyncFaw_upholds (s : State) (l : Fin 2) (start2 : Nat) (ok : Bool) (hu : s0.Upholds s) :
    s0.Upholds (s.presyncFaw l start2 ok) :=
  .ite (State.reachSync_upholds _ _ (State.beginFrame_upholds _ _ _ _ _ hu))
    (State.markDark_upholds _ _ (State.tellDefects_upholds _ (State.toHunt_upholds _ _ (State.reach_upholds _ _ hu))))

theorem State.syncFaw_upholds (s : State) (l : Fin 2) (start2 : Nat) (ok : Bool) (hu : s0.Upholds s) :
    s0.Upholds (s.syncFaw l start2 ok) := by
  unfold State.syncFaw
  refine .ite (State.modChan_upholds _ _ _ (State.beginFrame_upholds _ _ _ _ _ hu)) ?_
  extract_lets x1 was
  have h1 : s0.Upholds x1 := State.modChan_upholds _ _ _ (State.reach_upholds _ _ hu)
  clear_value x1
  exact .ite (State.markDark_upholds _ _ (State.tellDefects_upholds _ (State.updateWtr_upholds _
    (State.toHunt_upholds _ _ h1)))) (State.beginFrame_upholds _ _ _ _ _ h1)

theorem State.countNoKey_upholds (s : State) (hu : s0.Upholds s) :
    s0.Upholds (State.countNoKey s) := by
  unfold State.countNoKey
  dsimp only
  repeat' (first | with_reducible assumption | with_reducible apply State.modChan_upholds)

theorem State.headerKeys_upholds (s : State) (h : List Byte) (hu : s0.Upholds s) :
    s0.Upholds (State.headerKeys s h) := by
  unfold State.headerKeys
  dsimp only
  repeat' (first | with_reducible assumption | with_reducible refine State.Upholds.ite ?_ ?_
                 | with_reducible apply State.countNoKey_upholds | split
                 | with_reducible refine State.Upholds.upd ?_ rfl rfl rfl rfl rfl rfl)

theorem State.activeHeader_upholds (s : State) (l : Fin 2) (h : List Byte) (hu : s0.Upholds s) :
    s0.Upholds (State.activeHeader s l h) := by
  unfold State.activeHeader
  dsimp only
  repeat' (first | with_reducible assumption | with_reducible apply State.dpllSample_upholds
                 | with_reducible apply State.resolveAll_upholds | with_reducible apply State.checkKi_upholds
                 | with_reducible apply State.headerKeys_upholds | split
                 | with_reducible refine State.Upholds.upd ?_ rfl rfl rfl rfl rfl rfl)

theorem State.useHeader_upholds (s : State) (l : Fin 2) (b : List Byte) (hu : s0.Upholds s) :
    s0.Upholds (s.useHeader l b) := .ite hu (State.activeHeader_upholds _ _ _ hu)

theorem State.seeSlot_upholds (s : State) (l : Fin 2) (slot : Fin 3) (hu : s0.Upholds s) :
    s0.Upholds (s.seeSlot l slot) := State.modChan_upholds _ _ _ hu

theorem State.dropLmm_upholds (s : State) (l : Fin 2) (hu : s0.Upholds s) :
    s0.Upholds (State.dropLmm s l) := by
  unfold State.dropLmm
  dsimp only
  repeat' (first | with_reducible assumption | with_reducible apply State.modChan_upholds)

theorem State.countDs_upholds (s : State) (l : Fin 2) (f : ChanCounts → ChanCounts) (hu : s0.Upholds s) :
    s0.Upholds (State.countDs s l f) := by
  unfold State.countDs
  repeat' (first | with_reducible assumption | with_reducible apply State.modChan_upholds)

theorem State.takeContainer_upholds (s : State) (l : Fin 2) (role : Fin 2) (b : List Byte) (hu : s0.Upholds s) :
    s0.Upholds (State.takeContainer s l role b) := by
  unfold State.takeContainer
  extract_lets g
  exact .ite (.ite (State.nightTrigger_upholds _ _ _ hu) hu) (.ite hu (.ite (.upd hu rfl rfl rfl rfl rfl rfl)
    (.ite (State.countDs_upholds _ _ _ hu) (.ite (State.countDs_upholds _ _ _ hu)
    (State.toNoon_upholds _ (State.startJobs_upholds _ (.upd hu rfl rfl rfl rfl rfl rfl)))))))

theorem State.finishDec_upholds (s : State) (d : Dec) (hu : s0.Upholds s) :
    s0.Upholds (State.finishDec s d) := by
  unfold State.finishDec
  dsimp only
  repeat' (first | with_reducible assumption | with_reducible refine State.Upholds.ite ?_ ?_
                 | with_reducible apply State.countDs_upholds | with_reducible apply State.ingress_upholds | split
                 | with_reducible refine State.Upholds.upd ?_ rfl rfl rfl rfl rfl rfl)

/-! ### Registration -/

theorem State.countTimeout_upholds (s : State) (hu : s0.Upholds s) :
    s0.Upholds (State.countTimeout s) := by
  unfold State.countTimeout
  dsimp only
  exact .upd hu rfl rfl rfl rfl rfl rfl

theorem State.launch_upholds (s : State) (l : Fin 2) (startBt at_ : Nat) (long : Bool) (b : Sending) (bytes : List Byte)
    (hu : s0.Upholds s) :
    s0.Upholds (State.launch s l startBt at_ long b bytes) :=
  State.emit_upholds _ _ (.upd hu rfl rfl rfl rfl rfl rfl)

theorem State.noteEnd_upholds (s : State) (l : Fin 2) (frame : Nat) (end_ : Nat) (hu : s0.Upholds s) :
    s0.Upholds (State.noteEnd s l frame end_) := by
  unfold State.noteEnd
  dsimp only
  repeat' (first | with_reducible assumption | with_reducible refine State.Upholds.ite ?_ ?_ | split
                 | with_reducible refine State.Upholds.upd ?_ rfl rfl rfl rfl rfl rfl)

theorem State.countEntry_upholds (s : State) (l : Fin 2) (hu : s0.Upholds s) :
    s0.Upholds (State.countEntry s l) := by
  unfold State.countEntry
  dsimp only
  repeat' (first | with_reducible assumption | with_reducible apply State.modChan_upholds)

theorem State.dropEntry_upholds (s : State) (l : Fin 2) (hu : s0.Upholds s) :
    s0.Upholds (State.dropEntry s l) := by
  unfold State.dropEntry
  repeat' (first | with_reducible assumption | with_reducible apply State.countDs_upholds)

theorem State.useDiscovery_upholds (s : State) (b : List Byte) (hu : s0.Upholds s) :
    s0.Upholds (State.useDiscovery s b) := by
  unfold State.useDiscovery
  dsimp only
  repeat' (first | with_reducible assumption | with_reducible apply State.setAct_upholds
                 | with_reducible apply State.drawn_upholds
                 | with_reducible refine State.Upholds.upd ?_ rfl rfl rfl rfl rfl rfl)

theorem State.keyAck_upholds (s : State) (b : List Byte) (status : Nat) (hu : s0.Upholds s) :
    s0.Upholds (State.keyAck s b status) := by
  unfold State.keyAck
  dsimp only
  repeat' (first | with_reducible assumption | with_reducible apply State.queueLmm_upholds | split)

theorem State.installKey_upholds (s : State) (role : Fin 3) (ki : Bool) (kseq : Nat) (b : List Byte)
    (hu : s0.Upholds s) :
    s0.Upholds (State.installKey s role ki kseq b) := by
  unfold State.installKey
  dsimp only
  repeat' (first | with_reducible assumption | with_reducible refine State.Upholds.ite ?_ ?_
                 | with_reducible apply State.setEntry_upholds | with_reducible apply State.checkKi_upholds | split
                 | with_reducible refine State.Upholds.upd ?_ rfl rfl rfl rfl rfl rfl)

theorem State.takeKey_upholds (s : State) (role : Fin 3) (ki : Bool) (b : List Byte) (hu : s0.Upholds s) :
    s0.Upholds (State.takeKey s role ki b) := by
  unfold State.takeKey
  dsimp only
  repeat' (first | with_reducible assumption | with_reducible refine State.Upholds.ite ?_ ?_
                 | with_reducible apply State.regDrop_upholds | with_reducible apply State.keyAck_upholds
                 | with_reducible apply State.installKey_upholds)

theorem State.lanesRanged_upholds (s : State) (l : Fin 2) (eqd : Nat) (rtd : Nat) (hu : s0.Upholds s) :
    s0.Upholds (State.lanesRanged s l eqd rtd) := by
  unfold State.lanesRanged
  dsimp only
  repeat' (first | with_reducible assumption | with_reducible refine State.Upholds.ite ?_ ?_
                 | with_reducible apply State.setEqd_upholds | with_reducible apply State.openHead_upholds
                 | with_reducible apply State.enterService_upholds | with_reducible apply State.updateWtr_upholds
                 | with_reducible refine State.Upholds.upd ?_ rfl rfl rfl rfl rfl rfl)

theorem State.deregBy_upholds (s : State) (a : Act) (hu : s0.Upholds s) :
    s0.Upholds (State.deregBy s a) := by
  unfold State.deregBy
  repeat' (first | with_reducible assumption | with_reducible refine State.Upholds.ite ?_ ?_
                 | with_reducible apply State.toListen_upholds | with_reducible apply State.dereg_upholds
                 | with_reducible apply State.setAct_upholds)

theorem State.ownerAnswer_upholds (s : State) (k : BankKey) (oseq : Nat) (resp : List Byte) (hu : s0.Upholds s) :
    s0.Upholds (State.ownerAnswer s k oseq resp) := by
  unfold State.ownerAnswer
  dsimp only
  repeat' (first | with_reducible assumption | with_reducible apply State.queueLmm_upholds
                 | with_reducible refine State.Upholds.upd ?_ rfl rfl rfl rfl rfl rfl)

theorem State.startWait_upholds (s : State) (w : ActWait) (hu : s0.Upholds s) :
    s0.Upholds (State.startWait s w) := by
  unfold State.startWait
  dsimp only
  repeat' (first | with_reducible assumption | with_reducible refine State.Upholds.ite ?_ ?_
                 | with_reducible apply State.sendDeregNotice_upholds
                 | with_reducible apply State.finishWait_upholds
                 | with_reducible refine State.Upholds.upd ?_ rfl rfl rfl rfl rfl rfl)

theorem State.ownerServe_upholds (s : State) (b : List Byte) (hu : s0.Upholds s) {bs : List Byte}
    {s1 : State} (hs : s.ownerServe b = some (bs, s1)) : s0.Upholds s1 := by
  unfold State.ownerServe at hs
  have hr := fun a l => readWindow_upholds s .owner a l hu
  generalize readWindow s .owner = f at hs hr
  dsimp only at hs
  split at hs
  · split at hs
    · rw [← (Prod.mk.inj (Option.some.inj hs)).2]
      exact hu
    · rw [← (Prod.mk.inj (Option.some.inj hs)).2]
      exact hr _ _
  · have h2 := congrArg Prod.snd (Option.some.inj hs)
    dsimp only at h2
    rw [← h2]
    split
    · exact hu
    · exact State.writeWindow_upholds _ _ _ _ hu
  · have h2 := congrArg Prod.snd (Option.some.inj hs)
    dsimp only at h2
    rw [← h2]
    split
    · dsimp only
      exact State.statusSeen_upholds _ _ hu
    · exact hu
  · cases hs

theorem State.deregAction_upholds (s : State) (action lrh duration : Nat) (hu : s0.Upholds s) {s1 : State}
    (hs : s.deregAction action lrh duration = some s1) : s0.Upholds s1 := by
  have h1 := fun a => State.deregBy_upholds s a hu
  have h2 := State.enterSilent_upholds s hu
  have h3 := State.enterService_upholds s hu
  have h4 := fun a => State.setAct_upholds s a hu
  unfold State.deregAction at hs
  generalize s.deregBy = f1 at hs h1
  generalize s.enterSilent = x2 at hs h2
  generalize s.enterService = x3 at hs h3
  generalize s.setAct = f4 at hs h4
  dsimp only at hs
  repeat' split at hs
  all_goals first
    | (obtain rfl := Option.some.inj hs
       first
       | with_reducible exact h1 _
       | with_reducible exact h3
       | with_reducible exact h4 _
       | exact .upd h2 rfl rfl rfl rfl rfl rfl
       | exact .upd hu rfl rfl rfl rfl rfl rfl)
    | cases hs

/-! ### Upstream -/

theorem State.acceptShot_upholds (s : State) (l : Fin 2) (e : Grant) (hu : s0.Upholds s) :
    s0.Upholds (State.acceptShot s l e) :=
  State.updateWtr_upholds _ (.upd hu rfl rfl rfl rfl rfl rfl)

theorem State.rangingActive_upholds (s : State) (l : Fin 2) (e : Grant) (hu : s0.Upholds s) :
    s0.Upholds (State.rangingActive s l e) := by
  unfold State.rangingActive
  dsimp only
  repeat' (first | with_reducible assumption | with_reducible refine State.Upholds.ite ?_ ?_
                 | with_reducible apply State.regDrop_upholds | with_reducible apply State.acceptShot_upholds
                 | with_reducible apply State.enterRanging_upholds | split
                 | with_reducible refine State.Upholds.upd ?_ rfl rfl rfl rfl rfl rfl)

theorem State.rangingStandby_upholds (s : State) (l : Fin 2) (e : Grant) (hu : s0.Upholds s) :
    s0.Upholds (State.rangingStandby s l e) := by
  unfold State.rangingStandby
  dsimp only
  repeat' (first | with_reducible assumption | with_reducible refine State.Upholds.ite ?_ ?_
                 | with_reducible apply State.dropEntry_upholds | with_reducible apply State.regDrop_upholds
                 | with_reducible apply State.acceptShot_upholds
                 | with_reducible refine State.Upholds.upd ?_ rfl rfl rfl rfl rfl rfl)

theorem State.learn_upholds (s : State) (e : Grant) (hu : s0.Upholds s) :
    s0.Upholds (State.learn s e) := by
  unfold State.learn
  dsimp only
  repeat' (first | with_reducible assumption | with_reducible apply State.modGs_upholds
                 | with_reducible apply State.forecast_upholds)

theorem State.fit_upholds (s : State) (e : Grant) (hu : s0.Upholds s) :
    s0.Upholds (State.fit s e) := by
  unfold State.fit
  dsimp only
  repeat' (first | with_reducible assumption | with_reducible refine State.Upholds.ite ?_ ?_
                 | with_reducible apply State.modGs_upholds | with_reducible apply State.requeueLmm_upholds
                 | with_reducible apply State.withdrawTakes_upholds | split)

theorem State.bind_upholds (s : State) (e : Grant) (hu : s0.Upholds s) :
    s0.Upholds (State.bind s e) := by
  unfold State.bind
  dsimp only
  repeat' (first | with_reducible assumption | with_reducible apply State.modGs_upholds
                 | with_reducible apply State.fit_upholds)

theorem State.lateGrant_upholds (s : State) (g : Fin 8) (hu : s0.Upholds s) :
    s0.Upholds (State.lateGrant s g) := by
  unfold State.lateGrant
  repeat' (first | with_reducible assumption | with_reducible apply State.modGs_upholds)

theorem State.regular_upholds (s : State) (e : Grant) (hu : s0.Upholds s) :
    s0.Upholds (State.regular s e) := by
  unfold State.regular
  dsimp only
  repeat' (first | with_reducible assumption | with_reducible refine State.Upholds.ite ?_ ?_
                 | with_reducible apply State.lateGrant_upholds | with_reducible apply State.rebuild_upholds
                 | with_reducible apply State.assemble_upholds | with_reducible apply State.withdrawFrom_upholds)

theorem State.grantWork_upholds (s : State) (e : Grant) (hu : s0.Upholds s) :
    s0.Upholds (State.grantWork s e) := by
  unfold State.grantWork
  dsimp only
  repeat' (first | with_reducible assumption | with_reducible refine State.Upholds.ite ?_ ?_
                 | with_reducible apply State.toNoon_upholds | with_reducible apply State.touch_upholds)

theorem State.serveGrant_upholds (s : State) (e : Grant) (hu : s0.Upholds s) :
    s0.Upholds (State.serveGrant s e) := by
  unfold State.serveGrant
  dsimp only
  repeat' (first | with_reducible assumption | with_reducible refine State.Upholds.ite ?_ ?_
                 | with_reducible apply State.bind_upholds | with_reducible apply State.withdrawFrom_upholds
                 | with_reducible apply State.modGs_upholds | with_reducible apply State.lateGrant_upholds
                 | with_reducible apply State.regular_upholds | with_reducible apply State.learn_upholds
                 | with_reducible apply State.grantWork_upholds | with_reducible apply State.rebuild_upholds)

theorem State.closeSlot_upholds (s : State) (g : Fin 8) (p : Burst → Bool) (hu : s0.Upholds s) :
    s0.Upholds (State.closeSlot s g p) := by
  unfold State.closeSlot
  repeat' (first | with_reducible assumption | with_reducible refine State.Upholds.ite ?_ ?_
                 | with_reducible apply State.modGs_upholds | split)

theorem State.dropUnsealed_upholds (s : State) (g : Fin 8) (p : Burst → Bool) (hu : s0.Upholds s) :
    s0.Upholds (State.dropUnsealed s g p) := by
  unfold State.dropUnsealed
  repeat' (first | with_reducible assumption | with_reducible refine State.Upholds.ite ?_ ?_
                 | with_reducible apply State.withdrawTakes_upholds | split)

theorem State.freezeParts_upholds (s : State) (g : Fin 8) (p : Burst → Bool) (hu : s0.Upholds s) :
    s0.Upholds (State.freezeParts s g p) := by
  unfold State.freezeParts
  dsimp only
  repeat' (first | with_reducible assumption | with_reducible refine State.Upholds.ite ?_ ?_
                 | with_reducible apply State.modGs_upholds | split
                 | with_reducible refine State.Upholds.upd ?_ rfl rfl rfl rfl rfl rfl)

theorem State.freezeBurst_upholds (s : State) (g : Fin 8) (p : Burst → Bool) (hu : s0.Upholds s) :
    s0.Upholds (State.freezeBurst s g p) := by
  unfold State.freezeBurst
  dsimp only
  repeat' (first | with_reducible assumption | with_reducible refine State.Upholds.ite ?_ ?_
                 | with_reducible apply State.freezeParts_upholds | with_reducible apply State.dropUnsealed_upholds
                 | with_reducible apply State.closeSlot_upholds)

theorem State.lmmSent_upholds (s : State) (x : LmmOut) (hu : s0.Upholds s) :
    s0.Upholds (State.lmmSent s x) := by
  unfold State.lmmSent
  dsimp only
  repeat' (first | with_reducible assumption | with_reducible apply State.noticeOver_upholds | split
                 | with_reducible refine State.Upholds.upd ?_ rfl rfl rfl rfl rfl rfl)

theorem State.commitCounts_upholds (s : State) (b : Burst) (hu : s0.Upholds s) :
    s0.Upholds (State.commitCounts s b) := by
  unfold State.commitCounts
  dsimp only
  repeat' (first | with_reducible assumption | (intro _ _ _) | with_reducible refine State.Upholds.foldl ?_ ?_
                 | with_reducible apply State.leave_upholds | with_reducible apply State.modGs_upholds)

theorem State.commit_upholds (s : State) (b : Burst) (hu : s0.Upholds s) :
    s0.Upholds (State.commit s b) := by
  unfold State.commit
  dsimp only
  repeat' (first | with_reducible assumption | with_reducible refine State.Upholds.ite ?_ ?_
                 | with_reducible apply State.launch_upholds | with_reducible apply State.noteEnd_upholds
                 | with_reducible apply State.commitCounts_upholds | with_reducible apply State.touch_upholds
                 | with_reducible apply State.lmmSent_upholds | split
                 | with_reducible refine State.Upholds.upd ?_ rfl rfl rfl rfl rfl rfl)

theorem State.endStandby_upholds (s : State) (hu : s0.Upholds s) : s0.Upholds s.endStandby :=
  State.updateWtr_upholds _ (.upd hu rfl rfl rfl rfl rfl rfl)

theorem State.setMap_upholds (s : State) (q : Fin 64) (m : QMap) (hu : s0.Upholds s) :
    s0.Upholds (State.setMap s q m) := by
  unfold State.setMap
  dsimp only
  repeat' (first | with_reducible assumption | with_reducible refine State.Upholds.ite ?_ ?_
                 | with_reducible apply State.withdrawGs_upholds
                 | with_reducible refine State.Upholds.upd ?_ rfl rfl rfl rfl rfl rfl)

end Sys2Proof.Machine
end

