-- ==== Sys2Proof/Laws/UpholdsData.lean ====
section
/-!
SUPPORT. What every step upholds (`State.Upholds`), operation by operation: what the rows of the rules, traffic,
messages, ciphers, ensembles, security, FIRN and audio share.
-/

namespace Sys2Proof.Machine

variable {s0 : State}

/-! ### Rules -/

theorem State.runGhost_upholds (s : State) (g : Ghost) (body : State → State) (hu : s0.Upholds s)
    (hb : ∀ x, s0.Upholds x → s0.Upholds (body x)) : s0.Upholds (s.runGhost g body) := by
  unfold State.runGhost
  extract_lets own _ _ s1 s2
  have h1 : s0.Upholds s1 := State.setSlot_upholds _ _ _ _ (.upd hu rfl rfl rfl rfl rfl rfl)
  clear_value s1
  exact State.setSlot_upholds _ _ _ _ (State.orphanWork_upholds _ _ (hb _ h1))

theorem State.putFlight_upholds (s : State) (f : Flight) (hu : s0.Upholds s) :
    s0.Upholds (State.putFlight s f) := by
  unfold State.putFlight
  dsimp only
  exact .upd hu rfl rfl rfl rfl rfl rfl

theorem State.toSlow_upholds (s : State) (f : Flight) (hu : s0.Upholds s) :
    s0.Upholds (State.toSlow s f) := by
  unfold State.toSlow
  dsimp only
  repeat' (first | with_reducible assumption | with_reducible refine State.Upholds.ite ?_ ?_
                 | with_reducible apply State.putFlight_upholds
                 | with_reducible refine State.Upholds.upd ?_ rfl rfl rfl rfl rfl rfl)

theorem State.dispatch_upholds (s : State) (f : Flight) (hu : s0.Upholds s) :
    s0.Upholds (State.dispatch s f) := by
  unfold State.dispatch
  dsimp only
  repeat' (first | with_reducible assumption | with_reducible refine State.Upholds.ite ?_ ?_
                 | with_reducible apply State.putFlight_upholds | with_reducible apply State.toSlow_upholds | split
                 | with_reducible refine State.Upholds.upd ?_ rfl rfl rfl rfl rfl rfl)

theorem State.moveFlight_upholds (s : State) (f : Flight) (a : FlightAt) (hu : s0.Upholds s) :
    s0.Upholds (State.moveFlight s f a) := by
  unfold State.moveFlight
  dsimp only
  exact .upd hu rfl rfl rfl rfl rfl rfl

theorem State.laneParity_upholds (s : State) (l : Fin 4) (hu : s0.Upholds s) :
    s0.Upholds (State.laneParity s l) := by
  unfold State.laneParity
  dsimp only
  repeat' (first | with_reducible assumption | with_reducible refine State.Upholds.ite ?_ ?_ | split
                 | with_reducible refine State.Upholds.upd ?_ rfl rfl rfl rfl rfl rfl)

theorem State.pausePost_upholds (s : State) (p : PauseUpd) (st : Half) (data : List Byte) (hu : s0.Upholds s) :
    s0.Upholds (State.pausePost s p st data) := by
  unfold State.pausePost
  repeat' (first | with_reducible assumption | with_reducible refine State.Upholds.ite ?_ ?_
                 | with_reducible apply State.post_upholds)

theorem State.laneAnswer_upholds (s : State) (by_ : Option (Ten × SlotIx)) (st : Half) (data : List Byte)
    (hu : s0.Upholds s) :
    s0.Upholds (State.laneAnswer s by_ st data) := by
  unfold State.laneAnswer
  repeat' (first | with_reducible assumption | with_reducible apply State.post_upholds | split)

theorem State.commitVersion_upholds (s : State) (t : Ten) (n : SlotIx) (persist : Bool) (hu : s0.Upholds s) :
    s0.Upholds (State.commitVersion s t n persist) := by
  unfold State.commitVersion
  dsimp only
  repeat' (first | with_reducible assumption | with_reducible apply State.done_upholds
                 | with_reducible apply State.answer_upholds | with_reducible apply State.makeCurrent_upholds
                 | split | with_reducible refine State.Upholds.upd ?_ rfl rfl rfl rfl rfl rfl)

/-! ### Traffic -/

theorem State.buildMasked_upholds (s : State) (mask : Nat) (hu : s0.Upholds s) :
    s0.Upholds (State.buildMasked s mask) := by
  unfold State.buildMasked
  repeat' (first | with_reducible assumption | (intro _ _ _) | with_reducible refine State.Upholds.ite ?_ ?_
                 | with_reducible refine State.Upholds.foldl ?_ ?_ | with_reducible apply State.build_upholds)

theorem State.injectRun_upholds (t : Ten) (n : SlotIx) (bs : List Byte) (fuel : Nat) :
    ∀ (s : State) (off k : Nat), s0.Upholds s → s0.Upholds (s.injectRun t n bs fuel off k) := by
  induction fuel with
  | zero => intro s off k hu; exact hu
  | succ fuel ih =>
    intro s off k hu
    unfold State.injectRun
    have hg : ∀ v, s0.Upholds { s with tm := { s.tm with inject := v } } := fun _ => .upd hu rfl rfl rfl rfl rfl rfl
    dsimp only
    split
    · exact State.answer_upholds _ _ _ _ (hg _)
    · split
      · exact State.post_upholds _ _ _ _ _ _ (hg _)
      · split
        · exact .upd (hg []) rfl rfl rfl rfl rfl rfl
        · exact ih _ _ _ (State.toNoon_upholds _ (State.ingress_upholds _ _ hu))

theorem State.copyPort_upholds (t : Ten) (off room mask most fuel : Nat) :
    ∀ (s : State) (k w : Nat), s0.Upholds s → s0.Upholds (s.copyPort t off room mask most fuel k w).1 := by
  induction fuel with
  | zero => intro s k w hu; exact hu
  | succ fuel ih =>
    intro s k w hu
    unfold State.copyPort
    split
    · exact hu
    · extract_lets r
      split
      · exact hu
      · exact ih _ _ _ (State.partWrite_upholds _ _ _ _
          (State.watchFill_upholds _ (State.leave_upholds _ _ _ (State.modQ_upholds _ _ _ hu))))

/-! ### Messages -/

theorem State.keepSite_upholds (s : State) (b : List Byte) (hu : s0.Upholds s) :
    s0.Upholds (State.keepSite s b) := by
  unfold State.keepSite
  dsimp only
  exact .upd hu rfl rfl rfl rfl rfl rfl

theorem State.takeGrant_upholds (s : State) (cycle : Nat) (anchor : Nat) (hu : s0.Upholds s) :
    s0.Upholds (State.takeGrant s cycle anchor) := by
  unfold State.takeGrant
  dsimp only
  repeat' (first | with_reducible assumption | with_reducible refine State.Upholds.ite ?_ ?_
                 | with_reducible apply State.nightTrigger_upholds
                 | with_reducible refine State.Upholds.upd ?_ rfl rfl rfl rfl rfl rfl)

/-! ### Cipher -/

theorem State.queueJob_upholds (s : State) (t : Ten) (n : SlotIx) (src : KeySrc) (iv : List Byte)
    (hu : s0.Upholds s) :
    s0.Upholds (State.queueJob s t n src iv) := by
  unfold State.queueJob
  dsimp only
  repeat' (first | with_reducible assumption | with_reducible apply State.startJobs_upholds
                 | with_reducible refine State.Upholds.upd ?_ rfl rfl rfl rfl rfl rfl)

theorem State.settleDestroys_upholds (s : State) (hu : s0.Upholds s) :
    s0.Upholds (State.settleDestroys s) := by
  unfold State.settleDestroys
  dsimp only
  repeat' (first | with_reducible assumption | (intro _ _ _) | with_reducible refine State.Upholds.ite ?_ ?_
                 | with_reducible refine State.Upholds.foldl ?_ ?_ | with_reducible apply State.zeroCtxOf_upholds
                 | with_reducible apply State.done_upholds | split
                 | with_reducible refine State.Upholds.upd ?_ rfl rfl rfl rfl rfl rfl)

theorem State.afterJob_upholds (s : State) (hu : s0.Upholds s) :
    s0.Upholds (State.afterJob s) := by
  unfold State.afterJob
  repeat' (first | with_reducible assumption | with_reducible apply State.startJobs_upholds
                 | with_reducible apply State.settleThaw_upholds | with_reducible apply State.settleDestroys_upholds)

theorem State.jobWrite_upholds (s : State) (t : Ten) (n : SlotIx) (bs : List Byte) (hu : s0.Upholds s) :
    s0.Upholds (State.jobWrite s t n bs) := by
  unfold State.jobWrite
  repeat' (first | with_reducible assumption | with_reducible apply State.partWrite_upholds)

theorem State.endSeal_upholds (s : State) (j : Job) (hu : s0.Upholds s) :
    s0.Upholds (State.endSeal s j) := by
  unfold State.endSeal
  dsimp only
  repeat' (first | with_reducible assumption | with_reducible apply State.answer_upholds
                 | with_reducible apply State.jobWrite_upholds)

theorem State.endOpen_upholds (s : State) (j : Job) (hu : s0.Upholds s) :
    s0.Upholds (State.endOpen s j) := by
  unfold State.endOpen
  dsimp only
  repeat' (first | with_reducible assumption | with_reducible refine State.Upholds.ite ?_ ?_
                 | with_reducible apply State.answer_upholds | with_reducible apply State.jobWrite_upholds)

theorem State.endCtr_upholds (s : State) (j : Job) (hu : s0.Upholds s) :
    s0.Upholds (State.endCtr s j) := by
  unfold State.endCtr
  dsimp only
  repeat' (first | with_reducible assumption | with_reducible apply State.answer_upholds
                 | with_reducible apply State.jobWrite_upholds)

theorem State.endCmac_upholds (s : State) (j : Job) (hu : s0.Upholds s) :
    s0.Upholds (State.endCmac s j) := by
  unfold State.endCmac
  dsimp only
  repeat' (first | with_reducible assumption | with_reducible refine State.Upholds.ite ?_ ?_
                 | with_reducible apply State.answer_upholds)

theorem State.endImport_upholds (s : State) (t : Ten) (n : SlotIx) (hu : s0.Upholds s) :
    s0.Upholds (State.endImport s t n) := by
  unfold State.endImport
  dsimp only
  repeat' (first | with_reducible assumption | with_reducible apply State.done_upholds
                 | with_reducible apply State.guard_upholds | with_reducible apply State.modSlotKey_upholds
                 | with_reducible apply State.recordWritten_upholds | split)

theorem State.placeHandle_upholds (s : State) (t : Ten) (n : SlotIx) (target : Nat) (key : List Byte) (big : Bool)
    (flags : Byte) (hu : s0.Upholds s) :
    s0.Upholds (State.placeHandle s t n target key big flags) := by
  unfold State.placeHandle
  dsimp only
  repeat' (first | with_reducible assumption | with_reducible apply State.done_upholds
                 | with_reducible apply State.guard_upholds | with_reducible apply State.answer_upholds
                 | with_reducible apply State.setEntry_upholds | with_reducible apply State.drawn_upholds | split)

theorem State.placeSlot_upholds (s : State) (t : Ten) (n : SlotIx) (target : Nat) (key : List Byte) (big : Bool)
    (flags : Byte) (tmask : Byte) (hu : s0.Upholds s) :
    s0.Upholds (State.placeSlot s t n target key big flags tmask) := by
  unfold State.placeSlot
  dsimp only
  repeat' (first | with_reducible assumption | with_reducible apply State.done_upholds
                 | with_reducible apply State.guard_upholds | with_reducible apply State.answer_upholds
                 | with_reducible apply State.modSlotKey_upholds
                 | with_reducible apply State.recordWritten_upholds | with_reducible apply State.drawn_upholds | split)

theorem State.endDerive_upholds (s : State) (t : Ten) (n : SlotIx) (hu : s0.Upholds s) :
    s0.Upholds (State.endDerive s t n) := by
  unfold State.endDerive
  dsimp only
  repeat' (first | with_reducible assumption | with_reducible refine State.Upholds.ite ?_ ?_
                 | with_reducible apply State.done_upholds | with_reducible apply State.guard_upholds
                 | with_reducible apply State.placeSlot_upholds | with_reducible apply State.placeHandle_upholds
                 | split)

theorem State.jobResult_upholds (s : State) (j : Job) (hu : s0.Upholds s) : s0.Upholds (s.jobResult j) := by
  unfold State.jobResult
  extract_lets op _ s1
  have h1 : s0.Upholds s1 := .upd hu rfl rfl rfl rfl rfl rfl
  clear_value s1
  exact .ite (State.endSeal_upholds _ _ h1) (.ite (State.endOpen_upholds _ _ h1) (.ite (State.endCtr_upholds _ _ h1)
    (.ite (State.endCmac_upholds _ _ h1) h1)))

theorem State.endJob_upholds (s : State) (j : Job) (hu : s0.Upholds s) : s0.Upholds (s.endJob j) := by
  unfold State.endJob
  extract_lets s1
  have h1 : s0.Upholds s1 := State.dropCJob_upholds _ _ hu
  clear_value s1
  exact .ite (State.runGhost_upholds _ _ _ h1 fun x hx => State.jobResult_upholds _ _ hx) (State.jobResult_upholds _ _ h1)

theorem State.kbusAll_upholds (n : Nat) : ∀ s : State, s0.Upholds s → s0.Upholds (s.kbusAll n) := by
  induction n with
  | zero => intro s hu; exact hu
  | succ n ih => intro s hu; exact ih _ (State.kbusDone_upholds _ hu)

theorem State.jobsOn_upholds (s : State) (hu : s0.Upholds s) : s0.Upholds s.jobsOn := by
  unfold State.jobsOn
  extract_lets s1
  have h1 : s0.Upholds s1 := State.startJobs_upholds _ hu
  clear_value s1
  exact .ite h1 (State.startJobs_upholds _ (State.kbusAll_upholds _ _ h1))

theorem State.coreOut_upholds (s : State) (c : Fin 2) (hu : s0.Upholds s) : s0.Upholds (s.coreOut c) := by
  unfold State.coreOut
  extract_lets _ s1
  have h1 : s0.Upholds s1 := .upd hu rfl rfl rfl rfl rfl rfl
  clear_value s1
  exact State.startJobs_upholds _ (.ite (State.setRun_upholds _ _ _ h1) h1)

theorem State.reloadCtx_upholds (s : State) (c : Fin 16) (hu : s0.Upholds s) :
    s0.Upholds (State.reloadCtx s c) := by
  unfold State.reloadCtx
  dsimp only
  repeat' (first | with_reducible assumption | split
                 | with_reducible refine State.Upholds.upd ?_ rfl rfl rfl rfl rfl rfl)

theorem State.faultSeal_upholds (s : State) (g : Fin 8) (ki : Bool) (iv : Nat) (hu : s0.Upholds s) :
    s0.Upholds (State.faultSeal s g ki iv) := by
  unfold State.faultSeal
  extract_lets _ s1 mine inSlot inPackets bs
  have h1 : s0.Upholds s1 := State.freeCores_upholds _ _ (.upd hu rfl rfl rfl rfl rfl rfl)
  clear_value s1
  refine .ite (State.withdrawKept_upholds _ _ _ h1) ?_
  split
  · exact State.rebuild_upholds _ _ (State.withdrawTakes_upholds _ _ _ _ h1)
  · exact h1

theorem State.faultWork_upholds (s : State) (w : CoreWork) (hu : s0.Upholds s) : s0.Upholds (s.faultWork w) := by
  unfold State.faultWork
  split
  · exact State.reloadCtx_upholds _ _ (State.faultSeal_upholds _ _ _ _ hu)
  · exact State.reloadCtx_upholds _ _ (State.freeCores_upholds _ _ (.upd hu rfl rfl rfl rfl rfl rfl))
  · split
    · extract_lets s1
      have h1 : s0.Upholds s1 := State.failJob_upholds _ _ _ hu
      clear_value s1
      split
      · exact State.reloadCtx_upholds _ _ h1
      · exact h1
    · exact hu

theorem State.fence_upholds (s : State) (hu : s0.Upholds s) :
    s0.Upholds (State.fence s) := by
  unfold State.fence
  dsimp only
  repeat' (first | with_reducible assumption | (intro _ _ _) | with_reducible refine State.Upholds.foldl ?_ ?_
                 | with_reducible apply State.faultWork_upholds | with_reducible apply State.failJob_upholds
                 | with_reducible apply State.raise_upholds
                 | with_reducible refine State.Upholds.upd ?_ rfl rfl rfl rfl rfl rfl)

theorem State.countFault_upholds (s : State) (hu : s0.Upholds s) :
    s0.Upholds (State.countFault s) := by
  unfold State.countFault
  dsimp only
  exact .upd hu rfl rfl rfl rfl rfl rfl

theorem State.coreAnswer_upholds (s : State) (core : Fin 2) (pass : Bool) (hu : s0.Upholds s) :
    s0.Upholds (State.coreAnswer s core pass) := by
  unfold State.coreAnswer
  dsimp only
  repeat' (first | with_reducible assumption | with_reducible refine State.Upholds.ite ?_ ?_
                 | with_reducible apply State.answer_upholds | with_reducible apply State.done_upholds | split
                 | with_reducible refine State.Upholds.upd ?_ rfl rfl rfl rfl rfl rfl)

theorem State.coreReturns_upholds (s : State) (core : Fin 2) (hu : s0.Upholds s) :
    s0.Upholds (State.coreReturns s core) := by
  unfold State.coreReturns
  dsimp only
  repeat' (first | with_reducible assumption | with_reducible refine State.Upholds.ite ?_ ?_
                 | with_reducible apply State.raise_upholds | with_reducible apply State.buildAll_upholds
                 | with_reducible refine State.Upholds.upd ?_ rfl rfl rfl rfl rfl rfl)

theorem State.acceptJob_upholds (s : State) (t : Ten) (n : SlotIx) (op : KeyOp) (iv : List Byte) (hu : s0.Upholds s) :
    s0.Upholds (State.acceptJob s t n op iv) := by
  unfold State.acceptJob
  dsimp only
  repeat' (first | with_reducible assumption | with_reducible apply State.done_upholds
                 | with_reducible apply State.queueJob_upholds | split)

theorem State.acceptSeal_upholds (s : State) (t : Ten) (n : SlotIx) (hu : s0.Upholds s) :
    s0.Upholds (s.acceptSeal t n) := by
  unfold State.acceptSeal
  extract_lets v
  split
  · exact State.done_upholds _ _ _ _ hu
  · exact hu
  · split
    · split
      · exact State.queueJob_upholds _ _ _ _ _ (State.drawSlot_upholds _ _ hu ‹_›)
      · exact State.done_upholds _ _ _ _ hu
      · exact State.done_upholds _ _ _ _ hu
    · split
      · exact State.queueJob_upholds _ _ _ _ _ (State.drawEntry_upholds _ _ hu ‹_›)
      · exact State.done_upholds _ _ _ _ hu

theorem State.destroyKey_upholds (s : State) (src : KeySrc) (keep : Bool) (hu : s0.Upholds s) :
    s0.Upholds (State.destroyKey s src keep) := by
  unfold State.destroyKey
  split
  · exact State.recordWritten_upholds _ (State.modSlotKey_upholds _ _ _ hu)
  · exact .ite (.upd hu rfl rfl rfl rfl rfl rfl) (.upd hu rfl rfl rfl rfl rfl rfl)

/-! ### EnsRows -/

theorem State.eccFixed_upholds (s : State) (n : Nat) (hu : s0.Upholds s) : s0.Upholds (s.eccFixed n) :=
  .upd hu rfl rfl rfl rfl rfl rfl

theorem State.modUpd_upholds (s : State) (r : Nat) (f : EnsUpd → EnsUpd) (hu : s0.Upholds s) :
    s0.Upholds (State.modUpd s r f) := by
  unfold State.modUpd
  dsimp only
  exact .upd hu rfl rfl rfl rfl rfl rfl

theorem State.imageWritten_upholds (s : State) (r : Nat) (hu : s0.Upholds s) :
    s0.Upholds (State.imageWritten s r) := by
  unfold State.imageWritten
  dsimp only
  repeat' (first | with_reducible assumption | with_reducible refine State.Upholds.ite ?_ ?_
                 | with_reducible refine State.Upholds.upd ?_ rfl rfl rfl rfl rfl rfl)

theorem State.lineStands_upholds (s : State) (u : EnsUpd) (hu : s0.Upholds s) :
    s0.Upholds (State.lineStands s u) := by
  unfold State.lineStands
  dsimp only
  repeat' (first | with_reducible assumption | with_reducible refine State.Upholds.ite ?_ ?_
                 | with_reducible apply State.writeLine_upholds | with_reducible apply State.modUpd_upholds
                 | with_reducible apply State.endUpdate_upholds | with_reducible apply State.imageWritten_upholds)

/-! ### Security -/

theorem State.thawFailed_upholds (s : State) (hu : s0.Upholds s) :
    s0.Upholds (State.thawFailed s) := by
  unfold State.thawFailed
  dsimp only
  repeat' (first | with_reducible assumption | split
                 | with_reducible refine State.Upholds.upd ?_ rfl rfl rfl rfl rfl rfl)

theorem State.raiseLevel_upholds (s : State) (t : Ten) (k : List Byte) (hu : s0.Upholds s) :
    s0.Upholds (State.raiseLevel s t k) := by
  unfold State.raiseLevel
  dsimp only
  repeat' (first | with_reducible assumption | split
                 | with_reducible refine State.Upholds.upd ?_ rfl rfl rfl rfl rfl rfl)

theorem State.nightQuiet_upholds (s : State) (hu : s0.Upholds s) :
    s0.Upholds (State.nightQuiet s) := by
  unfold State.nightQuiet
  dsimp only
  repeat' (first | with_reducible assumption | with_reducible refine State.Upholds.ite ?_ ?_
                 | with_reducible apply State.startWake_upholds | split
                 | with_reducible refine State.Upholds.upd ?_ rfl rfl rfl rfl rfl rfl)

theorem State.enterThawed_upholds (s : State) (t : Ten) (n : SlotIx) (hu : s0.Upholds s) :
    s0.Upholds (State.enterThawed s t n) := by
  unfold State.enterThawed
  dsimp only
  repeat' (first | with_reducible assumption | with_reducible apply State.cutBurst_upholds
                 | with_reducible apply State.nightQuiet_upholds | with_reducible apply State.withdrawAll_upholds
                 | with_reducible apply State.toListen_upholds | with_reducible apply State.dereg_upholds
                 | with_reducible apply State.settleThaw_upholds | split
                 | with_reducible refine State.Upholds.upd ?_ rfl rfl rfl rfl rfl rfl)

theorem State.refreeze_upholds (s : State) (hu : s0.Upholds s) :
    s0.Upholds (State.refreeze s) := by
  unfold State.refreeze
  dsimp only
  exact .upd hu rfl rfl rfl rfl rfl rfl

theorem State.sealTo_upholds (s : State) (key : List Byte) (hu : s0.Upholds s) (hf : s.inFactory = true) :
    s0.Upholds (s.sealTo key) := by
  unfold State.sealTo
  extract_lets keys
  refine State.updateEnded_upholds _ _ _ (hu.change ?_ (Nat.le_refl _) fun m => ⟨m.sram, m.ens, m.buf, m.work⟩)
  have h : s.fuses.life = .factory := by simpa [State.inFactory] using hf
  show s.fuses.life.order ≤ 1
  rw [h]
  decide

/-! ### FirnRows -/

theorem State.loadModel_upholds (s : State) (h : Fin 8) (x : FModel) (hu : s0.Upholds s) :
    s0.Upholds (State.loadModel s h x) := by
  unfold State.loadModel
  dsimp only
  exact .upd hu rfl rfl rfl rfl rfl rfl

theorem State.loadPackage_upholds (s : State) (t : Ten) (n : SlotIx) (off : Nat) (h : Nat) (hu : s0.Upholds s) :
    s0.Upholds (State.loadPackage s t n off h) := by
  unfold State.loadPackage
  dsimp only
  repeat' (first | with_reducible assumption | with_reducible refine State.Upholds.ite ?_ ?_
                 | with_reducible apply State.done_upholds | with_reducible apply State.post_upholds
                 | with_reducible apply State.answer_upholds | with_reducible apply State.loadModel_upholds | split)

theorem State.dropModel_upholds (s : State) (h : Fin 8) (hu : s0.Upholds s) :
    s0.Upholds (State.dropModel s h) := by
  unfold State.dropModel
  dsimp only
  exact .upd hu rfl rfl rfl rfl rfl rfl

theorem State.submit_upholds (s : State) (t : Ten) (n : SlotIx) (h : Fin 8) (hu : s0.Upholds s) :
    s0.Upholds (s.submit t n h) := by
  have h1 : ∀ (j : FJob) (k : Nat), j.work = [] →
      s0.Upholds { s with firn := { s.firn with jobs := s.firn.jobs ++ [j], nextNum := k } } := fun j _ hj =>
    hu.change (Nat.le_refl _) (Nat.le_refl _) fun m => ⟨m.sram, m.ens, m.buf, fun x hx => by
      rcases List.mem_append.1 hx with h | h
      · exact m.work x h
      · rw [List.mem_singleton.1 h, hj]
        exact Memory.canon_nil⟩
  unfold State.submit
  dsimp only
  refine State.wakeDomains_upholds _ _ (State.toNoon_upholds _ (State.seekBoost_upholds _ ?_))
  split
  · exact State.gainJob_upholds _ _ (h1 _ _ rfl)
  · exact h1 _ _ rfl

theorem Work.write_canon {w : Work} (h : w.mem.canon) (f : Fmt) (y : Nat) (vs : List F32) :
    (w.write f y vs).mem.canon :=
  Memory.canon_putN h _ _

theorem Work.raw_canon {w : Work} (h : w.mem.canon) (y : Nat) (bs : List Byte) : (w.raw y bs).mem.canon :=
  Memory.canon_putN h _ _

theorem Work.softmax_canon {w : Work} (h : w.mem.canon) (d : Desc) : (w.softmax d).mem.canon := by
  unfold Work.softmax
  extract_lets rows w1
  have h1 : w1.mem.canon := Work.write_canon h _ _ _
  clear_value w1
  exact h1

theorem Work.gather_canon {w : Work} (h : w.mem.canon) (d : Desc) : (w.gather d).mem.canon := by
  unfold Work.gather
  extract_lets len idx ok w1
  have h1 : w1.mem.canon := Work.raw_canon h _ _
  clear_value w1
  exact h1

theorem Work.exec_canon {w : Work} (h : w.mem.canon) (d : Desc) : (w.exec d).mem.canon := by
  have hw := fun f y vs => Work.write_canon h f y vs
  have hr := fun y bs => Work.raw_canon h y bs
  have ha : (w.array d).mem.canon := by
    unfold Work.array
    dsimp only
    split
    · exact hw _ _ _
    · exact hr _ _
  unfold Work.exec
  split
  · exact ha
  · exact ha
  · unfold Work.elemwise
    exact hw _ _ _
  · unfold Work.rowstat
    exact hw _ _ _
  · unfold Work.norm
    exact hw _ _ _
  · exact Work.softmax_canon h d
  · unfold Work.poscode
    exact hw _ _ _
  · exact Work.gather_canon h d

theorem Work.layer_canon (l : List Desc) : ∀ {w : Work}, w.mem.canon → (w.layer l).mem.canon := by
  induction l with
  | nil => intro w h; exact h
  | cons d l ih => intro w h; exact ih (Work.exec_canon h d)

theorem State.reside_upholds (s : State) (j : FJob) (hu : s0.Upholds s) : s0.Upholds (s.reside j) := by
  unfold State.reside
  split
  · exact hu
  · exact State.firnNext_upholds _ (State.modJob_upholds _ _ _ hu fun _ _ _ => Memory.canon_putN Memory.canon_nil _ _)

theorem State.layerTime_upholds (s : State) (start : Nat) (cycles : Nat) (hu : s0.Upholds s) :
    s0.Upholds (State.layerTime s start cycles) := by
  unfold State.layerTime
  dsimp only
  exact .upd hu rfl rfl rfl rfl rfl rfl

theorem State.endLayer_upholds (s : State) (j : FJob) (x : FModel) (start : Nat) (hj : s0.MemOk → j.work.canon)
    (hu : s0.Upholds s) : s0.Upholds (s.endLayer j x start) := by
  have h1 : ∀ n, s0.Upholds (s.reach n) := fun _ => State.reach_upholds _ _ hu
  unfold State.endLayer
  dsimp only
  refine State.Upholds.ite (State.fromBoost_upholds _ ?_) ?_ <;>
    exact State.layerTime_upholds _ _ _ (.upd (State.modJob_upholds _ _ _ (h1 _) fun m _ _ => Work.layer_canon _ (hj m))
      rfl rfl rfl rfl rfl rfl)

theorem State.afterLayer_upholds (s : State) (num : Nat) (layers : Nat) (hu : s0.Upholds s) :
    s0.Upholds (State.afterLayer s num layers) := by
  unfold State.afterLayer
  dsimp only
  repeat' (first | with_reducible assumption | with_reducible refine State.Upholds.ite ?_ ?_
                 | with_reducible apply State.firnNext_upholds | with_reducible apply State.abortJob_upholds
                 | with_reducible apply State.engineLeft_upholds | split
                 | with_reducible refine State.Upholds.upd ?_ rfl rfl rfl rfl rfl rfl)

theorem State.engineTest_upholds (s : State) (hu : s0.Upholds s) :
    s0.Upholds (State.engineTest s) := by
  unfold State.engineTest
  dsimp only
  exact .upd hu rfl rfl rfl rfl rfl rfl

theorem State.cutLayer_upholds (s : State) (hu : s0.Upholds s) :
    s0.Upholds (State.cutLayer s) := by
  unfold State.cutLayer
  dsimp only
  repeat' (first | with_reducible assumption | split
                 | with_reducible refine State.Upholds.upd ?_ rfl rfl rfl rfl rfl rfl)

theorem State.staleConstants_upholds (s : State) (area : Nat) (hu : s0.Upholds s) :
    s0.Upholds (State.staleConstants s area) := by
  unfold State.staleConstants
  dsimp only
  repeat' (first | with_reducible assumption | with_reducible refine State.Upholds.ite ?_ ?_
                 | with_reducible refine State.Upholds.upd ?_ rfl rfl rfl rfl rfl rfl)

theorem State.engineOut_upholds (s : State) (t : Ten) (n : SlotIx) (hu : s0.Upholds s) :
    s0.Upholds (State.engineOut s t n) := by
  unfold State.engineOut
  dsimp only
  repeat' (first | with_reducible assumption | with_reducible apply State.engineLeft_upholds
                 | with_reducible refine State.Upholds.upd ?_ rfl rfl rfl rfl rfl rfl)

/-! ### Audio -/

theorem State.annGap_upholds (s : State) (seq : Nat) (blk : List Pair) (hu : s0.Upholds s) :
    s0.Upholds (State.annGap s seq blk) := by
  unfold State.annGap
  dsimp only
  repeat' (first | with_reducible assumption | (intro _ _ _) | with_reducible refine State.Upholds.ite ?_ ?_
                 | with_reducible refine State.Upholds.foldl ?_ ?_ | with_reducible apply State.slipWrite_upholds
                 | split | with_reducible refine State.Upholds.upd ?_ rfl rfl rfl rfl rfl rfl)

theorem State.tpsRemote_upholds (s : State) (n : Fin 2) (tri : Bool) (hu : s0.Upholds s) :
    s0.Upholds (State.tpsRemote s n tri) := by
  unfold State.tpsRemote
  dsimp only
  repeat' (first | with_reducible assumption | with_reducible refine State.Upholds.ite ?_ ?_
                 | with_reducible apply State.modTps_upholds | with_reducible apply State.raise_upholds)

theorem State.tpsTake_upholds (s : State) (p : Fin 2) (b : List Byte) (hu : s0.Upholds s) :
    s0.Upholds (State.tpsTake s p b) := by
  unfold State.tpsTake
  dsimp only
  repeat' (first | with_reducible assumption | with_reducible refine State.Upholds.ite ?_ ?_
                 | with_reducible apply State.tpsRemote_upholds | with_reducible apply State.modTps_upholds
                 | with_reducible apply State.tpsDefect_upholds)

theorem State.closeAudio_upholds (s : State) (hu : s0.Upholds s) :
    s0.Upholds (State.closeAudio s) := by
  unfold State.closeAudio
  dsimp only
  repeat' (first | with_reducible assumption | with_reducible refine State.Upholds.ite ?_ ?_
                 | with_reducible apply State.mapTrib_upholds | split
                 | with_reducible refine State.Upholds.upd ?_ rfl rfl rfl rfl rfl rfl)

theorem State.tpsDue_upholds (s : State) (p : Fin 2) (hu : s0.Upholds s) :
    s0.Upholds (State.tpsDue s p) := by
  unfold State.tpsDue
  dsimp only
  repeat' (first | with_reducible assumption | with_reducible refine State.Upholds.ite ?_ ?_
                 | with_reducible apply State.openTps_upholds | with_reducible apply State.closeTps_upholds)

theorem State.closeTpsFrame_upholds (s : State) (p : Fin 2) (hu : s0.Upholds s) :
    s0.Upholds (State.closeTpsFrame s p) := by
  unfold State.closeTpsFrame
  dsimp only
  repeat' (first | with_reducible assumption | with_reducible refine State.Upholds.ite ?_ ?_
                 | with_reducible apply State.tpsDue_upholds | with_reducible apply State.mapTrib_upholds
                 | with_reducible apply State.modTps_upholds | split)

theorem State.tribApply_upholds (s : State) (i : Fin 3) (hu : s0.Upholds s) :
    s0.Upholds (State.tribApply s i) := by
  unfold State.tribApply
  dsimp only
  repeat' (first | with_reducible assumption | with_reducible refine State.Upholds.ite ?_ ?_
                 | with_reducible apply State.modTps_upholds
                 | with_reducible refine State.Upholds.upd ?_ rfl rfl rfl rfl rfl rfl)

theorem State.outSample_upholds (s : State) (port : Fin 2) (hu : s0.Upholds s) :
    s0.Upholds (State.outSample s port) := by
  unfold State.outSample
  dsimp only
  repeat' (first | with_reducible assumption | with_reducible apply State.emit_upholds
                 | with_reducible apply State.gateDone_upholds | with_reducible apply State.modPort_upholds)

theorem State.monSample_upholds (s : State) (p : Pair) (hu : s0.Upholds s) :
    s0.Upholds (State.monSample s p) := by
  unfold State.monSample
  dsimp only
  repeat' (first | with_reducible assumption | with_reducible refine State.Upholds.ite ?_ ?_
                 | with_reducible apply State.monWrite_upholds
                 | with_reducible refine State.Upholds.upd ?_ rfl rfl rfl rfl rfl rfl)

theorem State.fifoPut_upholds (s : State) (p : Pair) (hu : s0.Upholds s) :
    s0.Upholds (State.fifoPut s p) := by
  unfold State.fifoPut
  dsimp only
  repeat' (first | with_reducible assumption | with_reducible refine State.Upholds.ite ?_ ?_
                 | with_reducible refine State.Upholds.upd ?_ rfl rfl rfl rfl rfl rfl)

theorem State.inPair_upholds (s : State) (bytes : List Byte) (parity : BitVec 2) (invalid : BitVec 2)
    (hu : s0.Upholds s) :
    s0.Upholds (State.inPair s bytes parity invalid) := by
  unfold State.inPair
  dsimp only
  repeat' (first | with_reducible assumption | with_reducible refine State.Upholds.ite ?_ ?_
                 | with_reducible apply State.modPort_upholds | with_reducible apply State.monSample_upholds
                 | with_reducible apply State.gateDone_upholds | with_reducible apply State.fifoPut_upholds
                 | with_reducible refine State.Upholds.upd ?_ rfl rfl rfl rfl rfl rfl)

theorem State.noPair_upholds (s : State) (hu : s0.Upholds s) :
    s0.Upholds (State.noPair s) := by
  unfold State.noPair
  dsimp only
  repeat' (first | with_reducible assumption | with_reducible refine State.Upholds.ite ?_ ?_
                 | with_reducible apply State.gateDone_upholds | with_reducible apply State.modPort_upholds)

theorem State.blockStarts_upholds (s : State) (monitor : Bool) (hu : s0.Upholds s) :
    s0.Upholds (State.blockStarts s monitor) := by
  unfold State.blockStarts
  repeat' (first | with_reducible assumption | (intro _ _ _) | with_reducible refine State.Upholds.foldl ?_ ?_
                 | with_reducible apply State.modPort_upholds)

theorem State.openPort_upholds (s : State) (p : Fin 3) (hu : s0.Upholds s) :
    s0.Upholds (State.openPort s p) := by
  unfold State.openPort
  dsimp only
  repeat' (first | with_reducible assumption | with_reducible apply State.modPort_upholds
                 | with_reducible apply State.freed_upholds)

theorem State.withAud_upholds (s : State) (k : State → State) (hu : s0.Upholds s) (hk : s0.Upholds (k s)) :
    s0.Upholds (s.withAud k) :=
  State.Upholds.ite (State.wakeDomains_upholds _ _ hu) hk

theorem State.armPort_upholds (s : State) (t : Ten) (n : SlotIx) (p : Fin 3) (start : Nat) (stop : Option Nat)
    (hu : s0.Upholds s) :
    s0.Upholds (State.armPort s t n p start stop) := by
  unfold State.armPort
  dsimp only
  repeat' (first | with_reducible assumption | with_reducible refine State.Upholds.ite ?_ ?_
                 | with_reducible apply State.modPort_upholds | with_reducible apply State.answer_upholds
                 | with_reducible apply State.startPort_upholds)

theorem State.haltPort_upholds (s : State) (t : Ten) (n : SlotIx) (p : Fin 3) (stop : Nat) (hu : s0.Upholds s) :
    s0.Upholds (State.haltPort s t n p stop) := by
  unfold State.haltPort
  dsimp only
  repeat' (first | with_reducible assumption | with_reducible refine State.Upholds.ite ?_ ?_
                 | with_reducible apply State.answer_upholds | with_reducible apply State.raise_upholds
                 | with_reducible apply State.modPort_upholds | with_reducible apply State.stopPort_upholds)

theorem State.schedStart_upholds (s : State) (t : Ten) (n : SlotIx) (p : Fin 3) (start : Nat) (stop : Option Nat)
    (hu : s0.Upholds s) :
    s0.Upholds (State.schedStart s t n p start stop) := by
  unfold State.schedStart
  dsimp only
  repeat' (first | with_reducible assumption | with_reducible refine State.Upholds.ite ?_ ?_
                 | with_reducible apply State.done_upholds | with_reducible apply State.answer_upholds
                 | with_reducible apply State.raise_upholds | with_reducible apply State.guard_upholds
                 | with_reducible apply State.armPort_upholds)

theorem State.tpsStart_upholds (s : State) (t : Ten) (n : SlotIx) (p : Fin 2) (start : Nat) (stop : Option Nat)
    (hu : s0.Upholds s) :
    s0.Upholds (State.tpsStart s t n p start stop) := by
  unfold State.tpsStart
  dsimp only
  repeat' (first | with_reducible assumption | with_reducible refine State.Upholds.ite ?_ ?_
                 | with_reducible apply State.done_upholds | with_reducible apply State.answer_upholds
                 | with_reducible apply State.guard_upholds | with_reducible apply State.withAud_upholds
                 | with_reducible apply State.modTps_upholds | with_reducible apply State.openTps_upholds)

theorem State.tpsHalt_upholds (s : State) (t : Ten) (n : SlotIx) (p : Fin 2) (stop : Nat) (hu : s0.Upholds s) :
    s0.Upholds (State.tpsHalt s t n p stop) := by
  unfold State.tpsHalt
  dsimp only
  repeat' (first | with_reducible assumption | with_reducible refine State.Upholds.ite ?_ ?_
                 | with_reducible apply State.answer_upholds | with_reducible apply State.modTps_upholds
                 | with_reducible apply State.closeTps_upholds)

end Sys2Proof.Machine
end

