-- ==== Sys2Proof/WellFormed.lean ====
section
/-!
DEFINITION. Well-formed commands: the lengths and ranges of raw operands that the hardware can present. A
meaning is total and does not ask for them.
-/

namespace Sys2Proof

/-- An aperture access lies in the aperture and touches at least one byte (Table 5.1). -/
def Aperture.wf : Aperture → Bool
  | .read off len => 0x900 ≤ off && 1 ≤ len && off + len ≤ 0x1000
  | .write off data => 0x900 ≤ off && data != [] && off + data.length ≤ 0x1000

/-- A downstream LMM: 48 bytes (R213). -/
def lmmWf (bytes : List Byte) : Bool := bytes.length == 48

/-- A container: at most its header and its longest body; fewer bytes where the frame ends before it does (R220). -/
def containerWf (bytes : List Byte) : Bool := bytes != [] && bytes.length ≤ 6 + 65535

/-- An Ethernet address. -/
def macWf (bytes : List Byte) : Bool := bytes.length == 6

/-- The operands of a command lie in their ranges. -/
def Instr.wf : Instr → Bool
  | .bulkApertureAccess _ access => access.wf
  | .registerWrite _ off data => data != [] && off + data.length ≤ 0x1000
  | .inbandMbxFrame _ src _ => macWf src
  | .attachReq _ dst src _ => macWf dst && macWf src
  | .attachConf _ src _ => macWf src
  | .fawDetected _ _ _ groups _ => groups.length == 4
  | .frameHeader _ bytes => bytes.length == 40
  | .grantEntry _ bytes => bytes.length == 8
  | .discoveryEntry _ bytes => bytes.length == 8
  | .packetContainer _ bytes => containerWf bytes
  | .audioContainer _ bytes => containerWf bytes
  | .tpsContainer _ bytes => containerWf bytes
  | .assignRh _ _ bytes => lmmWf bytes
  | .authChal _ _ bytes => lmmWf bytes
  | .keyDeliver _ _ bytes => lmmWf bytes
  | .rangeResult _ _ bytes => lmmWf bytes
  | .deregister _ _ bytes => lmmWf bytes
  | .timeInfo _ _ bytes => lmmWf bytes
  | .upHold _ _ bytes => lmmWf bytes
  | .sleepGrant _ _ bytes => lmmWf bytes
  | .sleepDeny _ _ bytes => lmmWf bytes
  | .nightWake _ _ bytes => lmmWf bytes
  | .ownerMbx _ _ bytes => lmmWf bytes
  | .tribCfg _ _ bytes => lmmWf bytes
  | .captureEdge _ _ phase _ => phase ≤ 15
  | .ceilWriteDone slot _ => 8 ≤ slot && slot ≤ 63
  | .ensLineWriteDone region _ _ _ => region ≤ 15
  | .ensRead _ _ _ bad => bad.all (· < 131072)
  | .entryScrub failed => failed.all (· < 4096)
  | .firnJobResident job => job ≤ 255
  | .firnSramError area _ => area ≤ 263
  | .audioInputBlock cs => cs.length == 5
  | .sampleBoundary _ pair _ _ => pair.length == 6
  | .upstreamTribClose ttype => 1 ≤ ttype.toNat && ttype.toNat ≤ 3
  | _ => true

end Sys2Proof
end

