-- ==== Sys2Proof/Tests/Slice0.lean ====
section
/-!
SUPPORT. The model's own tests: every check of a well-formed command refuses an ill-formed one, and for every statement
a state and operands that meet its hypotheses together. Where a hypothesis asks an opaque primitive (a signature, a point
of the curve), the witness takes that answer as its own hypothesis: no concrete value of it can be computed.
-/

open Sys2Proof Sys2Proof.Machine

namespace Sys2Proof.Tests

set_option Elab.async false


/-! ### States the tests start from -/

/-- A descriptor: an opcode, `SEQ` 1, and inline parameters (Table 5.5). -/
def desc (op : Nat) (ps : List Byte) : Vector Byte 64 :=
  let bs : List Byte := leBytes 2 op ++ [1, 0, 0, BitVec.ofNat 8 ps.length, 0, 0] ++ ps
  Vector.ofFn fun i => bs.getD i.val 0

/-- The terminal with its firmware running and every domain on. -/
def up : State :=
  { State.reset with
    boot := { State.reset.boot with phase := .running, image := some 0, core0Up := true, core1Up := true, mbxReady := true }
    power := { State.reset.power with pstate := .noon, dom := Vector.replicate 13 .on, wake := none } }

/-- Slot 0 of the owner runs a command with inline parameters. -/
def ask (s : State) (op : Nat) (ps : List Byte) : State :=
  s.setSlot 0 0 { phase := .running, desc := desc op ps, rights := s.rightsOf 0 }

/-- Slot 0 of a tenant runs a command with inline parameters. -/
def askBy (s : State) (t : Ten) (op : Nat) (ps : List Byte) : State :=
  s.setSlot t 0 { phase := .running, desc := desc op ps, rights := s.rightsOf t }

/-- A slot that runs a command whose n bytes of parameters stand at offset 0 of its partition. -/
def bulkSlot (r : Rights) (op n : Nat) : Slot :=
  { phase := .running, rights := r
    desc := Vector.ofFn fun i => (leBytes 2 op ++ [1, 0, 1, 8, 0, 0] ++ leBytes 4 0 ++ leBytes 4 n).getD i.val 0 }

/-- Slot 0 of the owner runs such a command. -/
def askBulk (s : State) (op : Nat) (ps : List Byte) : State :=
  (s.setSlot 0 0 (bulkSlot (s.rightsOf 0) op ps.length)).partWrite 0 0 ps

/-- Its slot, as it was written. -/
theorem slot_askBulk (s : State) (op : Nat) (ps : List Byte) :
    (askBulk s op ps).slot 0 0 = bulkSlot (s.rightsOf 0) op ps.length := by
  simp [askBulk, State.slot, State.setSlot, State.partWrite, State.modTen, State.ten, State.setTen, Tenant.setSlot]

/-- Bulk parameters read back. -/
theorem bulk_params (s : State) (op : Nat) (ps : List Byte) (n : Nat) (h : ps.length = n)
    (k : (bulkSlot (s.rightsOf 0) op n).bulk = true ∧ (bulkSlot (s.rightsOf 0) op n).bOff = 0 ∧
      (bulkSlot (s.rightsOf 0) op n).bLen = n) : (askBulk s op ps).params 0 0 = ps := by
  obtain ⟨a, b, c⟩ := k
  have e := State.partRead_partWrite (s.setSlot 0 0 (bulkSlot (s.rightsOf 0) op ps.length)) 0 0 ps
  simp only [State.params, State.paramsOf, slot_askBulk, h, a, b, c, if_true]
  rw [h] at e
  simpa only [askBulk, h] using e

/-- A tenant changed. -/
def withTen (s : State) (t : Ten) (f : Tenant → Tenant) : State := s.modTen t f

/-! ### Well-formed commands -/

theorem wf_aperture_read : (Instr.bulkApertureAccess .owner (.read 0x900 1)).wf = true := by decide +kernel
theorem ill_aperture_below : (Instr.bulkApertureAccess .owner (.read 0x8FF 1)).wf = false := by decide +kernel
theorem ill_aperture_beyond : (Instr.bulkApertureAccess .owner (.read 0xFFF 2)).wf = false := by decide +kernel
theorem ill_aperture_empty_read : (Instr.bulkApertureAccess .owner (.read 0x900 0)).wf = false := by decide +kernel
theorem ill_aperture_empty_write : (Instr.bulkApertureAccess .owner (.write 0x900 [])).wf = false := by decide +kernel
theorem ill_aperture_write_below : (Instr.bulkApertureAccess .owner (.write 0x8FF [1])).wf = false := by decide +kernel
theorem ill_aperture_write_beyond : (Instr.bulkApertureAccess .owner (.write 0xFFF [1, 2])).wf = false := by decide +kernel
theorem ill_registerWrite_empty : (Instr.registerWrite .owner 0 []).wf = false := by decide +kernel
theorem ill_registerWrite_beyond : (Instr.registerWrite .owner 0x1000 [1]).wf = false := by decide +kernel
theorem ill_inbandMbxFrame : (Instr.inbandMbxFrame 0 [1, 2, 3, 4, 5] []).wf = false := by decide +kernel
theorem ill_attachReq_src : (Instr.attachReq 0 [1, 2, 3, 4, 5, 6] [1, 2, 3, 4, 5] []).wf = false := by decide +kernel
theorem ill_attachReq_dst : (Instr.attachReq 0 [] [1, 2, 3, 4, 5, 6] []).wf = false := by decide +kernel
theorem ill_attachConf : (Instr.attachConf 0 [] []).wf = false := by decide +kernel
theorem ill_fawDetected : (Instr.fawDetected 0 0 false [] 0).wf = false := by decide +kernel
theorem ill_frameHeader : (Instr.frameHeader 0 (List.replicate 39 0)).wf = false := by decide +kernel
theorem ill_grantEntry : (Instr.grantEntry 0 (List.replicate 7 0)).wf = false := by decide +kernel
theorem ill_discoveryEntry : (Instr.discoveryEntry 0 (List.replicate 9 0)).wf = false := by decide +kernel
theorem ill_packetContainer : (Instr.packetContainer 0 []).wf = false := by decide +kernel
theorem ill_audioContainer : (Instr.audioContainer 0 []).wf = false := by decide +kernel
theorem ill_tpsContainer : (Instr.tpsContainer 0 []).wf = false := by decide +kernel
theorem ill_container_long : containerWf (List.replicate 65542 0) = false := by
  simp only [containerWf, List.length_replicate]; decide
theorem ill_messages : (∀ c ∈ [Instr.assignRh 0 0 [], .authChal 0 0 [], .keyDeliver 0 0 [], .rangeResult 0 0 [], .deregister 0 0 [],
    .timeInfo 0 0 [], .upHold 0 0 [], .sleepGrant 0 0 [], .sleepDeny 0 0 [], .nightWake 0 0 [], .ownerMbx 0 0 [], .tribCfg 0 0 []],
    c.wf = false) := by decide +kernel
theorem wf_message : (Instr.nightWake 0 0 (List.replicate 48 0)).wf = true := by decide +kernel
theorem ill_captureEdge : (Instr.captureEdge 0 true 16 4).wf = false := by decide +kernel
theorem ill_ceilWriteDone_low : (Instr.ceilWriteDone 7 true).wf = false := by decide +kernel
theorem ill_ceilWriteDone_high : (Instr.ceilWriteDone 64 true).wf = false := by decide +kernel
theorem ill_ensLineWriteDone : (Instr.ensLineWriteDone 16 true true 0).wf = false := by decide +kernel
theorem ill_ensRead : (Instr.ensRead 0 0 0 [131072]).wf = false := by decide +kernel
theorem ill_entryScrub : (Instr.entryScrub [4096]).wf = false := by decide +kernel
theorem ill_firnJobResident : (Instr.firnJobResident 256).wf = false := by decide +kernel
theorem ill_firnSramError : (Instr.firnSramError 264 true).wf = false := by decide +kernel
theorem ill_audioInputBlock : (Instr.audioInputBlock [1, 2, 3, 4]).wf = false := by decide +kernel
theorem ill_sampleBoundary : (Instr.sampleBoundary 0 [1, 2, 3, 4, 5] 0 0).wf = false := by decide +kernel
theorem ill_upstreamTribClose_low : (Instr.upstreamTribClose 0).wf = false := by decide +kernel
theorem ill_upstreamTribClose_high : (Instr.upstreamTribClose 4).wf = false := by decide +kernel

/-! ### The block; SYS, DIAG, reset and boot -/

theorem met_StepNeverStops : State.reset.pending = [] := rfl
theorem met_CommandGuards_1 : up.runs 0 0 0x0101 = false := by decide +kernel
/-- Slot 0 was emptied while its command ran: the core still has to complete that command (R128). -/
def haunted : State := { up with mbx.ghosts := [{ ten := 0, slot := 0, cmd := (ask up 0x0101 []).slot 0 0 }] }
theorem met_CommandGuards_3 : up.ghostOf 0 0 0x0101 = none ∧ haunted.runs 0 0 0x0101 = false ∧
    (haunted.ghostOf 0 0 0x0101).isSome = true := by decide +kernel
theorem met_CommandGuards_2 :
    (ask up 0x0101 [1]).runs 0 0 0x0101 = true ∧ (ask up 0x0101 [1]).stray 0 0 [] = true := by decide +kernel
theorem met_ResultFrame : ((ask up 0x0101 []).slot 0 0).aborters = [] := by decide +kernel
theorem met_SysCommands_1 : ∀ op ∈ [0x0101, 0x0102, 0x0104, 0x0105, 0x1201], (ask up op []).sends 0 0 op [] := by decide +kernel
theorem met_SysCommands_2 : (ask up 0x0103 [0, 0]).sends 0 0 0x0103 [(0, 2)] ∧ (ask up 0x0103 [0, 0]).prm1 0 0 0 = 0 ∧
    (ask up 0x0103 [0, 0]).prm1 0 0 1 = 0 ∧ (ask up 0x0103 [0, 0]).power.entry = none ∧
    ({ ask up 0x0103 [0, 0] with reg.st := .inService } : State).inService = true := by decide +kernel
theorem met_SysCommands_3 : ∀ d ∈ [dLNL, dINF, dAUD], let s := ask up 0x0103 [1, BitVec.ofNat 8 d.val]
    s.sends 0 0 0x0103 [(0, 2)] ∧ s.prm1 0 0 0 = 1 ∧ s.prm1 0 0 1 = d.val := by decide +kernel
theorem met_SysCommands_4 : (ask up 0x0107 [9, 0]).sends 0 0 0x0107 [(0, 2)] ∧
    (ask up 0x0107 [9, 0]).abortTarget 0 0 ((ask up 0x0107 [9, 0]).prm 0 0 0 2) = none := by decide +kernel
/-- Slot 1 holds a command with `SEQ` 1 that waits; slot 0 aborts it. -/
def aborting : State := (ask up 0x0107 [1, 0]).setSlot 0 1 { phase := .accepted, desc := desc 0x0101 [] }
theorem met_SysCommands_5 : aborting.sends 0 0 0x0107 [(0, 2)] ∧
    aborting.abortTarget 0 0 (aborting.prm 0 0 0 2) = some 1 ∧ (aborting.slot 0 1).phase = .accepted ∧
    (aborting.slot 0 1).opcode ≠ 0x0107 := by decide +kernel
/-- Slot 1 runs a command with `SEQ` 1 that has no safe point; slot 0 aborts it. -/
def abortingLate : State := (ask up 0x0107 [1, 0]).setSlot 0 1 { phase := .running, desc := desc 0x0101 [] }
theorem met_SysCommands_6 : abortingLate.sends 0 0 0x0107 [(0, 2)] ∧
    abortingLate.abortTarget 0 0 (abortingLate.prm 0 0 0 2) = some 1 ∧ (abortingLate.slot 0 1).phase = .running ∧
    hasSafePoint (abortingLate.slot 0 1).opcode = false ∧ (abortingLate.slot 0 1).opcode ≠ 0x0107 := by decide +kernel
theorem met_ImageTrust_1 : (ask up 0x0106 [1]).sends 0 0 0x0106 [(0, 1)] ∧ (ask up 0x0106 [1]).prm1 0 0 0 ≤ 1 ∧
    (ask up 0x0106 [1]).boot.image = some 0 := by decide +kernel

/-- Region A with the header of the smallest image. -/
def imaged : State :=
  { State.reset with
    boot.phase := .rom
    ens := [(0, 0x38), (1, 0x34), (2, 0x50), (3, 0x5A), (4, 1), (9, 0x10)] }

/-- Where the digest and the signature of that image stand, the selection returns it. -/
theorem met_ImageTrust_2 (d : digestOk (imaged.image 0) = true) (g : signatureOk (imaged.image 0) = true) :
    imaged.select [0] = (imaged.choose 0, some 0, []) := by
  have r : imaged.skipReason 0 = 0 := by
    have h : imaged.icb.get 0 ≠ .rejected := by decide
    have f : imaged.icb.get 0 ≠ .fresh := by decide
    have k : hdrOk (imaged.hdr 0) = true := by decide +kernel
    have v : ¬hdrSvn (imaged.hdr 0) < imaged.icb.minSvn := by decide +kernel
    simp [State.skipReason, h, f, k, v, d, g]
  simp [State.select, r]
theorem met_Boot_1 : State.booted { imaged with pads.strap := true } |>.pads.strap := by decide +kernel
theorem met_Boot_2 (d : digestOk ((State.booted imaged).image 0) = true) (g : signatureOk ((State.booted imaged).image 0) = true) :
    (State.booted imaged).pads.strap = false ∧
    (State.booted imaged).select (State.booted imaged).candidates = ((State.booted imaged).choose 0, some 0, []) := by
  refine ⟨by decide +kernel, ?_⟩
  have c : (State.booted imaged).candidates = [0] := by decide +kernel
  have r : (State.booted imaged).skipReason 0 = 0 := by
    have h : (State.booted imaged).icb.get 0 ≠ .rejected := by decide +kernel
    have f : (State.booted imaged).icb.get 0 ≠ .fresh := by decide +kernel
    have k : hdrOk ((State.booted imaged).hdr 0) = true := by decide +kernel
    have v : ¬hdrSvn ((State.booted imaged).hdr 0) < (State.booted imaged).icb.minSvn := by decide +kernel
    simp [State.skipReason, h, f, k, v, d, g]
  rw [c]
  simp [State.select, r]
/-- A store without an image. -/
def blank : State := { State.reset with boot.phase := .rom }
theorem met_Boot_3 : blank.boot.phase = .rom ∧ (State.booted blank).pads.strap = false ∧
    (State.booted blank).select (State.booted blank).candidates = (State.booted blank, none, []) := by
  have c : (State.booted blank).candidates = [] := by decide +kernel
  rw [c]
  exact ⟨by decide, by decide +kernel, rfl⟩
theorem met_Boot_4 : imaged.boot.phase = .rom ∧ imaged.pads.strap = false := by decide
/-- `RST_N` held low with both enables high. -/
def heldLow : State := { up with pads := { up.pads with rstN := false, enAux := true, enMain := true } }
theorem met_Resets_1 : up.pads.powered = true ∧ (∀ ns ∈ [1000, 2000], 1000 ≤ ns) ∧ (∀ ns ∈ [0, 199], ns < 200) ∧
    (∀ ns ∈ [200, 999], 200 ≤ ns ∧ ns < 1000) := by decide
theorem met_Resets_2 : heldLow.pads.rstN = false ∧ heldLow.pads.powered = true ∧ heldLow.pads.enAux = true ∧
    heldLow.pads.enMain = true := by decide
theorem met_Resets_3 : ({ up with pads.powered := false } : State).pads.powered = false ∧ 1650 ≤ 1650 ∧
    1599 < 1600 ∧ heldLow.pads.enMain = true := by decide
theorem met_DomainAndCoreResets_1 : let s : State := { up with boot.domReset := [(dINF, 5)] }
    s.boot.domReset = [(dINF, 5)] ∧ s.domOn dINF = true := by decide +kernel
theorem met_DomainAndCoreResets_2 : up.boot.phase = .running ∧
    (up.boot.wdt0.filter fun f => up.now < f + 10000000000) = [] ∧
    (up.boot.wdt1.filter fun f => up.now < f + 10000000000) = [] ∧ up.boot.core0Up = true := by decide +kernel
theorem met_DomainAndCoreResets_3 : let s : State := { up with now := 9999999999, boot.wdt0 := [0], boot.wdt1 := [0, 0] }
    (s.boot.wdt0.filter fun f => s.now < f + 10000000000).length = 1 ∧
    (s.boot.wdt1.filter fun f => s.now < f + 10000000000).length = 2 := by decide +kernel
theorem met_DomainAndCoreResets_4 : let s : State := { up with boot.core0Up := false }
    s.boot.phase = .running ∧ s.boot.core0Up = false ∧ s.boot.core1Up = true := by decide
theorem met_DomainAndCoreResets_5 : let s : State := { up with boot.core1Up := false }
    s.boot.phase = .running ∧ s.boot.core1Up = false := by decide
/-- The recovery window with a state, a length and chunks staged. -/
def rcv (state len next : Nat) : State :=
  { State.reset with
    boot.phase := .recovery, boot.rcv := { state := state, len := len, next := next, chunk := next } }
theorem met_Recovery_1 : ∀ len ∈ [4352, 1572864], let s := rcv 1 len 0
    s.boot.phase = .recovery ∧ s.mbx.ports[(0 : Fin 4)].buf = [] ∧ s.boot.rcv.state ≠ 3 ∧ s.boot.rcv.state ≠ 4 ∧
      4352 ≤ s.boot.rcv.len ∧ s.boot.rcv.len ≤ 1572864 := by decide +kernel
/-- The last chunk of a download: one byte, zero, with its CRC. -/
def lastChunk : State := let s := rcv 2 2049 1; { s with boot.rcv := { s.boot.rcv with crc := BitVec.ofNat 32 (crc32 [0]) } }
theorem met_Recovery_2 : lastChunk.boot.phase = .recovery ∧ lastChunk.mbx.ports[(0 : Fin 4)].buf = [] ∧
    lastChunk.boot.rcv.state = 2 ∧ lastChunk.boot.rcv.chunk = lastChunk.boot.rcv.next ∧
    2048 * lastChunk.boot.rcv.next < lastChunk.boot.rcv.len ∧
    crc32 (Memory.getN lastChunk.boot.rcv.buf 0 (chunkSize lastChunk.boot.rcv.len lastChunk.boot.rcv.next)) =
      lastChunk.boot.rcv.crc.toNat := by decide +kernel
theorem met_Recovery_3 : let s := rcv 2 2049 2
    s.boot.rcv.state = 2 ∧ s.boot.rcv.len ≤ 2048 * s.boot.rcv.next := by decide
/-- The smallest image as it is staged. -/
def staged : List Byte := [0x38, 0x34, 0x50, 0x5A, 1, 0, 0, 0, 0, 0x10] ++ List.replicate 4342 0
theorem met_Recovery_4 : hdrListed staged = true ∧ hdrOk staged = true ∧ staged.length = 256 + leAt staged 8 4 ∧
    hdrSvn staged < 1 := by decide +kernel
/-- Where its digest and signature stand, nothing is wrong with it. -/
theorem met_Recovery_5 (d : digestOk staged = true) (g : signatureOk staged = true) : stagedErr 0 staged = 0 := by
  have h : hdrListed staged = true := by decide +kernel
  have k : hdrOk staged = true := by decide +kernel
  have n : (staged.length != 256 + leAt staged 8 4) = false := by decide +kernel
  simp [stagedErr, h, k, n, d, g]
theorem met_Recovery_6 : (rcv 3 4352 3).boot.rcv.state = 3 ∧ (rcv 4 4352 3).boot.rcv.state = 4 ∧
    (rcv 3 4352 3).boot.phase = .recovery ∧ (rcv 4 4352 3).mbx.ports[(0 : Fin 4)].buf = [] := by decide

/-! ### Windows, sessions and commands -/

/-- Tenant 1 on an SPI port with nothing posted, tenant 3 in a session over a lane whose link is up, and the owner. -/
def bound : State :=
  let s := (up.modTen 1 fun x => { x with cfg.transport := 0x10 }).modTen 3 fun x => { x with
    st := .attached, cfg.transport := 0x22 }
  { s with lanes.phy := s.lanes.phy.set 2 { s.lanes.phy[(2 : Fin 4)] with good := true } }
theorem met_WindowAccess_1 : ∀ p ∈ [(Via.lane 3, (3 : Ten)), (.owner, 0), (.spi 0, 1)], bound.reaches p.1 p.2 := by
  decide +kernel
theorem met_WindowAccess_2 : bound.spiAlive 0 = true ∧ bound.boot.phase ≠ .recovery ∧ bound.tenOfPort 0 = some 1 := by
  decide +kernel
theorem met_WindowAccess_3 : (0xA0 : Byte) ∉ [0xA1, 0xE1, 0xA2, 0xE2, 0xA5, (0xE5 : Byte)] := by decide
theorem met_SlotRegisters_1 : ∀ n : SlotIx, (up.slot 0 n).phase = .empty ∧ up.accepts n = true := by decide +kernel
theorem met_SlotRegisters_2 : ((ask up 0x0101 []).slot 0 0).phase ≠ .empty := by decide +kernel
theorem met_SlotRegisters_3 : bits 0x3FF00 8 14 * 256 < up.partBytes 0 ∧ ¬bits 0x40000 8 14 * 256 < up.partBytes 0 ∧
    (up.ten 0).st ≠ .faulted := by decide +kernel
/-- Port 0 holds a posted run. -/
def posted : State := { bound with mbx.ports := bound.mbx.ports.set 0 { buf := [⟨0x100, [1]⟩] } }
theorem met_WindowTraffic_1 : posted.spiAlive 0 = true ∧ posted.mbx.ports[(0 : Fin 4)].buf = ⟨0x100, [1]⟩ :: [] ∧
    posted.boot.phase = .running ∧ posted.tenOfPort 0 = some 1 ∧ posted.domOn dMEM = true := by decide +kernel
theorem met_WindowTraffic_1b : bound.boot.mbxReady = true ∧ bound.tenOf (.lane 3) = some 3 := by decide +kernel
/-- Tenant 1 attached over L2, whose link is up, with an in-band key; the last `SEQ` is 4. -/
def inband : State :=
  let s := (up.modTen 1 fun x => { x with
    st := .attached, cfg.transport := 0x22, ibMac := [1, 2, 3, 4, 5, 6], ibSeq := 4, ibResp := [9] }).setEntry (ibEntry 1)
      (some { key := [7] })
  { s with lanes.phy := s.lanes.phy.set 2 { s.lanes.phy[(2 : Fin 4)] with good := true } }
/-- A read request for tenant 1: `SEQ`, 4 bytes at 0x004, its tag. -/
def readReq (seq : Byte) : List Byte :=
  let body : List Byte := [1, 0x01, 1, 0, 0, seq, 0, 4, 0, 4]
  body ++ top64 (Config.cmac [7] body)
theorem readReq_ok (seq : Byte) : inband.ibOk 0 [1, 2, 3, 4, 5, 6] (readReq seq) 1 = true := by
  have f : field (readReq seq) 0 10 = [1, 0x01, 1, 0, 0, seq, 0, 4, 0, 4] := field_append_left [1, 0x01, 1, 0, 0, seq, 0, 4, 0, 4] _
  have g : field (readReq seq) 10 8 = top64 (Config.cmac [7] [1, 0x01, 1, 0, 0, seq, 0, 4, 0, 4]) := by
    have := field_append_right [1, 0x01, 1, 0, 0, seq, 0, 4, 0, 4] (top64 (Config.cmac [7] [1, 0x01, 1, 0, 0, seq, 0, 4, 0, 4]))
    simpa [readReq] using this
  have k : inband.ibKey 1 = some [7] := by decide +kernel
  have a : byteAt (readReq seq) 0 = 1 ∧ byteAt (readReq seq) 1 = 1 ∧ byteAt (readReq seq) 2 = 1 ∧
      beAt (readReq seq) 8 2 = 4 := ⟨rfl, rfl, rfl, rfl⟩
  have b : laneOf (inband.ten 1).cfg.transport = some 0 ∧ (inband.ten 1).st ≠ .detached ∧
      (inband.ten 1).ibMac = [1, 2, 3, 4, 5, 6] := by decide +kernel
  simp [State.ibOk, a, b, k, f, g]
theorem met_WindowTraffic_2 : (Fin.ofNat 8 (byteAt (readReq 5) 2) : Ten) = 1 ∧ inband.boot.mbxReady = true ∧
    inband.laneLink 0 = true ∧ inband.ibOk 0 [1, 2, 3, 4, 5, 6] (readReq 5) 1 = true :=
  ⟨rfl, rfl, by decide +kernel, readReq_ok 5⟩
theorem met_WindowTraffic_2a : ((inband.firmUse (ibEntry 1)).ibServe 1 (readReq 5)).isSome = true := by
  have k : (inband.firmUse (ibEntry 1)).ibKey 1 = some [7] := by decide +kernel
  have f : byteAt (readReq 5) 1 = 1 := rfl
  unfold State.ibServe
  rw [k]
  dsimp only
  rw [f]
  rfl
theorem met_WindowTraffic_2b : ((5 : Half) - (inband.ten 1).ibSeq).toNat = 1 ∧
    ((32771 : Half) - (inband.ten 1).ibSeq).toNat = 32767 := by decide +kernel
theorem met_WindowTraffic_3 : inband.ibOk 0 [1, 2, 3, 4, 5, 6] (readReq 4) 1 = true ∧
    (BitVec.ofNat 16 (beAt (readReq 4) 4 2) - (inband.ten 1).ibSeq).toNat = 0 ∧ (inband.ten 1).ibResp ≠ [] :=
  ⟨readReq_ok 4, by
    have h : beAt (readReq 4) 4 2 = 4 := rfl
    have k : (inband.ten 1).ibSeq = 4 := by decide +kernel
    rw [h, k]; decide, by decide +kernel⟩
theorem met_WindowTraffic_4 : up.ibOk 0 [] [] 0 = false := by decide +kernel
/-- Tenant 1 bound to L2 with credential slot 8, an exchange open since the present instant. -/
def attaching : State :=
  { inband.modTen 1 fun x => { x with
      st := .detached, cfg.cred := 8,
      att := { nT := [1, 2, 3, 4, 5, 6, 7, 8], nD := [9, 9, 9, 9, 9, 9, 9, 9], session := 7, src := [1], chalAt := some 0 } } with
    keys.slots := up.keys.slots.set 8 { state := 1, key := [5], flags := 12, tmask := 2 } }
theorem met_LaneAttach_0 : attaching.laneLink 0 = true ∧ (List.replicate 6 0xFF : List Byte) ≠ attaching.laneMac 0 := by
  decide +kernel
/-- An attach frame of tenant 1: its type and its session, with its tag. -/
def attachFrm (type session : Byte) (lease : List Byte) : List Byte :=
  let body : List Byte := [1, type, 1, 8, 1, 2, 3, 4, 5, 6, 7, 8, 9, 9, 9, 9, 9, 9, 9, 9, 0, 0, 0, session, 0, 0] ++ field lease 0 6
  body ++ top64 (Config.cmac [5] body)
theorem attachFrm_tag (type session : Byte) (lease : List Byte) : attaching.attachTag (attachFrm type session lease) 1 = true := by
  have k : attaching.credKey (attaching.ten 1).cfg.cred = [5] := by decide +kernel
  unfold State.attachTag
  rw [k]
  generalize hb : ([1, type, 1, 8, 1, 2, 3, 4, 5, 6, 7, 8, 9, 9, 9, 9, 9, 9, 9, 9, 0, 0, 0, session, 0, 0] ++ field lease 0 6 : List Byte) = body
  have n : body.length = 32 := by rw [← hb]; simp
  have e : attachFrm type session lease = body ++ top64 (Config.cmac [5] body) := by rw [← hb]; rfl
  have f := field_append_left body (top64 (Config.cmac [5] body))
  have g := field_append_right body (top64 (Config.cmac [5] body))
  rw [n] at f g
  simp only [top64_length] at g
  rw [e, f, g]
  simp
theorem met_LaneAttach_1 : attaching.boot.mbxReady = true ∧ (attaching.mbx.attReqs[(0 : Fin 2)]).length < 10 ∧
    byteAt (attachFrm 1 0 []) 1 = 0x01 ∧ attaching.attachNames 0 (attachFrm 1 0 []) 1 = true ∧
    beAt (attachFrm 1 0 []) 26 2 = 0 ∧ attaching.attachTag (attachFrm 1 0 []) 1 = true :=
  ⟨rfl, by decide +kernel, rfl, by
    have h : (attachFrm 1 0 []).length = 40 := by simp [attachFrm]
    have a : byteAt (attachFrm 1 0 []) 0 = 1 ∧ byteAt (attachFrm 1 0 []) 2 = 1 ∧ byteAt (attachFrm 1 0 []) 3 = 8 := ⟨rfl, rfl, rfl⟩
    have b : laneOf (attaching.ten 1).cfg.transport = some 0 ∧ (attaching.ten 1).cfg.cred = 8 ∧ attaching.credOk 8 1 = true ∧
        attaching.slotsOpen = true ∧ (attaching.ten 1).att.lockBy = none := by decide +kernel
    unfold State.attachNames
    dsimp only
    rw [h, a.1, a.2.1, a.2.2, b.1, b.2.1, b.2.2.1, b.2.2.2.1, b.2.2.2.2]
    rfl, rfl, attachFrm_tag 1 0 []⟩
theorem met_LaneAttach_2 : byteAt (attachFrm 2 7 []) 1 = 0x02 ∧ attaching.attachTag (attachFrm 2 7 []) 1 = true ∧
    (attaching.ten 1).att.chalAt = some 0 ∧ attaching.now ≤ 0 + 100000000 ∧
    field (attachFrm 2 7 []) 4 8 = (attaching.ten 1).att.nT ∧ field (attachFrm 2 7 []) 12 8 = (attaching.ten 1).att.nD ∧
    beAt (attachFrm 2 7 []) 20 4 = (attaching.ten 1).att.session.toNat ∧ [1] = (attaching.ten 1).att.src ∧
    (attaching.ten 1).st = .detached ∧ 0 + 100000000 < ({ attaching with now := 100000001 } : State).now :=
  ⟨rfl, attachFrm_tag 2 7 [], by decide +kernel, by decide, rfl, rfl, rfl, by decide +kernel, by decide +kernel, by decide⟩
theorem met_LaneAttach_4 : 7 ≤ (((up.modTen 1 fun x => { x with att.fails := List.replicate 7 0 }).ten 1).att.fails.filter fun f =>
    up.now < f + 60000000000).length := by decide +kernel
theorem met_LaneAttach_3 : ((up.modTen 1 fun x => { x with att.lockBy := some 5 }).ten 1).att.lockBy = some 5 := by decide +kernel
/-- Slot n of a tenant holds an accepted command. -/
def accepted (s : State) (t : Ten) (n : SlotIx) (op : Nat) : State := s.setSlot t n { phase := .accepted, desc := desc op [] }
/-- T0's session is open. -/
def owned : State := up.modTen 0 fun x => { x with st := .attached }
theorem met_CommandStart_1 : let s := accepted owned 0 0 0x0101
    s.boot.mbxReady = true ∧ s.boot.core0Up = true ∧ s.nextServed = some 0 ∧ s.startable 0 = some 0 ∧
    (s.ten 0).st ≠ .faulted ∧ s.power.entry = none ∧ (s.visited 0).startCheck 0 0 = none ∧ (s.visited 0).power.entry = none ∧
    ((s.visited 0).ten 0).st ≠ .faulted := by decide +kernel
theorem met_CommandStart_2 : let s := accepted owned 0 0 0x0108
    s.nextServed = some 0 ∧ s.startable 0 = some 0 ∧ (s.visited 0).startCheck 0 0 = some Status.opcode ∧
    needOf (s.slot 0 0).opcode = none := by decide +kernel
theorem met_CommandStart_1b : let s := accepted (owned.modTen 0 fun x => { x with st := .faulted }) 0 0 0x0101
    s.nextServed = some 0 ∧ s.startable 0 = some 0 ∧ (s.ten 0).st = .faulted := by decide +kernel
theorem met_CommandStart_1c : let s : State := { accepted owned 0 0 0x0101 with power.entry := some { target := .glacier, stage := .notice, deadline := 9, retain := false, byTenant := 0 } }
    s.nextServed = some 0 ∧ s.startable 0 = some 0 ∧ (s.ten 0).st ≠ .faulted ∧ (s.visited 0).startCheck 0 0 = none ∧
    s.power.entry ≠ none := by decide +kernel
theorem met_CommandStart_3 : let s := accepted owned 0 7 0x0201
    (s.slot 0 7).phase = .accepted ∧ s.coreUp 0 7 = true ∧ s.startCheck 0 7 = none := by decide +kernel
theorem met_CommandStart_3b : let s := accepted owned 0 7 0x0101
    (s.slot 0 7).phase = .accepted ∧ s.coreUp 0 7 = true ∧ s.startCheck 0 7 = some Status.opcode := by decide +kernel
theorem met_CommandStart_4b : let s := accepted up 1 0 0x0205
    slotTakes 0 (s.slot 1 0).opcode = true ∧ s.descOk 1 (s.slot 1 0) = true ∧ (s.ten 1).st = .detached ∧
    s.detachedMay 1 0 (s.slot 1 0).opcode = false := by decide +kernel
theorem met_CommandStart_4 : let s := owned.setSlot 0 0 { phase := .accepted, desc := (desc 0x0101 []).set 4 4 }
    slotTakes 0 (s.slot 0 0).opcode = true ∧ s.descOk 0 (s.slot 0 0) = false := by decide +kernel
theorem met_CommandStart_5 : let s := accepted (up.modTen 1 fun x => { x with st := .attached }) 1 0 0x0103
    slotTakes 0 (s.slot 1 0).opcode = true ∧ s.descOk 1 (s.slot 1 0) = true ∧ (s.ten 1).st = .attached ∧
    (needOf (s.slot 1 0).opcode = some .owner) ∧ s.meets 1 .owner = false ∧
    s.retiredOwner 1 (s.slot 1 0).opcode = false := by decide +kernel
theorem met_CommandStart_6 : let s := accepted owned 0 0 0x0505
    slotTakes 0 (s.slot 0 0).opcode = true ∧ s.descOk 0 (s.slot 0 0) = true ∧ (s.ten 0).st ≠ .detached ∧
    (∃ need, needOf (s.slot 0 0).opcode = some need ∧ s.meets 0 need = true) ∧
    leaseNeeded (s.slot 0 0).opcode = some 7 ∧ s.hasLease 0 7 = false := by decide +kernel
theorem met_CommandDeadlines_1 : let s := up.setSlot 0 0 { deadline := some 9 }
    (s.slot 0 0).deadline = some 9 ∧ s.coreUp 0 0 = true := by decide +kernel
theorem met_CommandDeadlines_2 : let s := up.modTen 1 fun x => { x with st := .attached, hbFrom := some 0 }
    (1 : Ten) ≠ 0 ∧ (s.ten 1).st = .attached ∧ (s.ten 1).hbFrom = some 0 := by decide +kernel
theorem met_CommandDeadlines_3 : let s : State := { up with mbx.delegate := some (1, 9) }
    s.mbx.delegate = some (1, 9) ∧ s.boot.core0Up = true := by decide +kernel
theorem met_CommandDeadlines_4 :
    let d : Drain := { ten := 0, slot := 0, data := [], after := [(1, 0)], res := [6], fin := .plain }
    let s : State := { up with mbx.drains := [d] }
    (s.mbx.drains.find? fun d => d.ten == 0 && d.slot == 0) = some d ∧ s.drained d = true := by decide +kernel
theorem met_CommandDeadlines_5 : let s := up.modTen 1 fun x => { x with
      noticeBy := some 9, cfg.transport := 0x23, win.ringErr := true }
    (s.ten 1).noticeBy = some 9 ∧ laneOf (s.ten 1).cfg.transport = some 1 ∧ (s.ten 1).irq = true ∧
      (s.ten 1).statusRead = false := by decide +kernel
theorem met_TenantCommands_1 : let s := ask up 0x0201 [1]
    s.sends 0 0 0x0201 [(0, 1)] ∧ targetOf 0 (s.prm1 0 0 0) = some 1 ∧ s.ownerAt 0 0 = true ∧ s.unreachable 1 = false := by
  decide +kernel
theorem met_TenantCommands_1b : let s := askBy bound 3 0x0201 [0xFF]
    s.sends 3 0 0x0201 [(0, 1)] ∧ targetOf 3 (s.prm1 3 0 0) = some 3 := by decide +kernel
theorem met_TenantCommands_2 : ∀ k ∈ [0, 100, 10000], let s := askBy bound 1 0x0202 (leBytes 2 k ++ [1])
    s.sends 1 0 0x0202 [(0, 3)] ∧ s.prm1 1 0 2 ≤ 1 ∧ s.prm 1 0 0 2 = k ∧ (s.ten 1).st = .detached ∧
    (spiOf (s.ten 1).cfg.transport).isSome = true := by decide +kernel
theorem met_TenantCommands_3 : let s := askBy bound 3 0x0203 []
    s.sends 3 0 0x0203 [] ∧ (3 : Ten) ≠ 0 ∧ (s.ten 3).st = .attached := by decide +kernel
theorem met_TenantCommands_4 : ∀ n : SlotIx, ∀ st ∈ [TState.detached, .attached, .faulted],
    let s0 := up.modTen 1 fun x => { x with st := st }
    let s := s0.setSlot 0 n { phase := .running, rights := s0.rightsOf 0, desc := desc 0x0204 [1, 1] }
    s.runs 0 n 0x0204 = true ∧ s.ownerAt 0 n = true ∧ targetOf 0 (s.prm1 0 n 0) = some 1 ∧ s.prm1 0 n 1 ≤ 1 ∧
    s.stray 0 n [(0, 2)] = false ∧ s.unreachable 1 = false ∧ (s.ten 1).st = st := by decide +kernel
/-- The owner runs `TENANT.LEASE` on lease 6 (`CLOCK_BAND`). -/
def leasing (s : State) (what : Byte) : State := ask s 0x0205 [what, 6]
theorem met_TenantCommands_5 : ∀ w ∈ [0, 1], let s := leasing up w
    s.sends 0 0 0x0205 [(0, 2)] ∧ s.prm1 0 0 1 = 6 ∧ (leaseNeed 6 == .bad) = false ∧
    maskAllows 0 (s.slot 0 0).rights.auth (s.ownerAt 0 0) 6 = true ∧ s.prm1 0 0 0 = w.toNat ∧ s.holder 6 = none ∧
    s.changing 6 = false := by decide +kernel
theorem met_TenantCommands_6 : ∀ u : Ten, ∀ w ∈ [0, 1], let s := leasing { up with mbx.leases := [(6, u)] } w
    s.sends 0 0 0x0205 [(0, 2)] ∧ s.prm1 0 0 1 = 6 ∧ maskAllows 0 (s.slot 0 0).rights.auth (s.ownerAt 0 0) 6 = true ∧
    s.prm1 0 0 0 = w.toNat ∧ s.holder 6 = some u := by decide +kernel
theorem met_TenantCommands_7 : ∀ b ∈ [1, 3, 7], let s := ask bound 0x0206 [BitVec.ofNat 8 b, 0x11, 0, 0, 0xFF, 1]
    s.sends 0 0 0x0206 [(0, 6)] ∧ s.prm1 0 0 0 = (Fin.ofNat 8 b : Ten).val ∧ s.prm1 0 0 3 = 0 ∧ s.prm 0 0 4 2 ≤ 0x1FF ∧
    s.bindOk (Fin.ofNat 8 b) (s.prm1 0 0 1) (s.prm1 0 0 2) = true ∧
    s.unreachable (Fin.ofNat 8 b) = false ∧ s.fuses.life ≠ .retired ∧ s.configBusy = false ∧
    (s.ten (Fin.ofNat 8 b)).cfg.transport.toNat ≠ s.prm1 0 0 1 := by decide +kernel
/-- The session of tenant 1 goes on: its binding keeps the transport. -/
theorem met_TenantCommands_8 : let s := ask bound 0x0206 [1, 0x10, 0, 0, 0, 0]
    s.sends 0 0 0x0206 [(0, 6)] ∧ s.bindOk 1 (s.prm1 0 0 1) (s.prm1 0 0 2) = true ∧
    (s.ten 1).cfg.transport.toNat = s.prm1 0 0 1 ∧ (s.ten 1).cfg.cred = s.prm1 0 0 2 := by decide +kernel
theorem met_TenantCommands_9 : ∀ r ∈ [10, 10000], ∀ m ∈ [0, 0xFF],
    let s := ask (up.modTen 0 fun x => { x with cfg.uqMask := 1 }) 0x0207
      ([0, 1] ++ leBytes 2 r ++ [1, 0] ++ leBytes 2 10000 ++ List.replicate 8 m ++ List.replicate 8 0)
    s.sends 0 0 0x0207 [(0, 24)] ∧ s.prm1 0 0 0 = (0 : Ten).val ∧ 1 ≤ s.prm1 0 0 1 ∧ s.prm 0 0 2 2 = r ∧ 1 ≤ s.prm1 0 0 4 ∧
    s.prm1 0 0 5 = 0 ∧ 1 ≤ s.prm 0 0 6 2 ∧ s.prm 0 0 6 2 ≤ 10000 ∧ s.fuses.life ≠ .retired ∧ s.configBusy = false ∧
    ((s.ten 0).cfg.uqMask &&& ~~~BitVec.ofNat 64 (s.prm 0 0 8 8) = 0 ↔ m = 0xFF) := by decide +kernel
theorem met_TenantCommands_10 : ∀ k ∈ [0, 1], let s := ask up 0x0208 [1, 4, 4, 4, 4, 4, 4, 4, k]
    let new : Vector Nat 8 := Vector.ofFn fun u => s.prm1 0 0 u.val
    s.sends 0 0 0x0208 [(0, 9)] ∧ s.prm1 0 0 8 = k.toNat ∧ (∀ u : Ten, new[u] ≤ 24) ∧
    allTen.foldl (fun a u => a + new[u]) 0 ≤ 32 ∧ (∀ u : Ten, s.bound u = true → new[u] ≠ 0) ∧
    (∀ u : Ten, (s.ten u).st = .detached) ∧ s.fuses.life ≠ .retired ∧ s.configBusy = false := by decide +kernel
theorem met_TenantCommands_11 : ∀ m ∈ [1, 1440], let s := ask (up.modTen 1 fun x => { x with st := .attached }) 0x0209 ([1, 0] ++ leBytes 2 m)
    s.sends 0 0 0x0209 [(0, 4)] ∧ s.prm1 0 0 1 = 0 ∧ s.prm1 0 0 0 = (1 : Ten).val ∧ s.prm 0 0 2 2 = m ∧
    s.unreachable 1 = false ∧ (s.ten 1).st = .attached ∧ s.delegate ≠ some 1 := by decide +kernel
theorem met_TenantCommands_12 : let s := ask up 0x0209 [0xFF, 0, 0, 0]
    s.sends 0 0 0x0209 [(0, 4)] ∧ s.prm1 0 0 1 = 0 ∧ s.prm1 0 0 0 = 0xFF := by decide +kernel
/-- Two unread records: `TAIL` 3, `HEAD` 5. -/
def unread : State := up.modTen 0 fun x => { x with win.tail := 3, win.head := 5 }
theorem met_EvtTailMovesForward : unread.reaches .owner 0 := by decide +kernel
theorem met_EvtTailMovesForward_clauses : let w := (unread.ten 0).win
    (∀ v ∈ [3, 4, 5], BitVec.ofNat 16 v - w.tail ≤ w.head - w.tail) ∧
    (∀ v ∈ [2, 6], ¬BitVec.ofNat 16 v - w.tail ≤ w.head - w.tail) := by decide +kernel
theorem met_ApertureBeyondThePartition_1 : up.partBytes 0 ≤ bits (0x40000 : Word).toNat 8 14 * 256 ∧
    up.boot.mbxReady = true ∧ up.reaches .owner 0 := by decide +kernel
/-- The partition of tenant 3 has no byte. -/
def bare : State := bound.modTen 3 fun x => { x with cfg.part := 0 }
theorem met_ApertureBeyondThePartition_2 : ∀ off ∈ [0x900, 0xFFF], bare.partBytes 3 ≤ (bare.ten 3).bulkOff off ∧
    0x900 ≤ off ∧ off < 0x1000 ∧ bare.tenOf (.lane 3) = some 3 := by decide +kernel

/-! ### Power and the always-on domain -/

/-- The terminal in a power state. -/
def inState (p : PState) : State := { up with power := { up.power with pstate := p } }
theorem met_PowerCommands_1 : (ask up 0x0401 []).sends 0 0 0x0401 [] ∧ (ask up 0x0403 [2]).sends 0 0 0x0403 [(0, 1)] ∧
    (ask up 0x0403 [2]).prm1 0 0 0 = 2 := by decide +kernel
/-- The default timers as `POWER.TIMERS` gives them. -/
def timerBytes : List Byte :=
  [100, 300, 3600, 1800, 50, 1000, 60, 1000, 5, 100, 16, 3].flatMap fun v => leBytes 4 v
theorem met_PowerCommands_2 : let s := ask up 0x0404 timerBytes
    s.sends 0 0 0x0404 [(0, 48)] ∧ s.prm 0 0 44 4 ≤ 3 ∧ (timerParams (s.params 0 0)).ok = true := by decide +kernel
theorem met_PowerCommands_3 : let s := ask up 0x0405 [7, 7, 7, 7, 2, 3]
    s.sends 0 0 0x0405 [(0, 6)] ∧ (∀ i : Fin 4, s.prm1 0 0 i.val ≤ 7) ∧ s.prm1 0 0 5 ≤ 3 ∧ setSizeOf (0x10F : BitVec 32) ≤ 16 := by
  decide +kernel
theorem met_PowerCommands_4 : ∀ b ∈ [0, 1], (ask up 0x0406 [b]).sends 0 0 0x0406 [(0, 1)] ∧ (ask up 0x0406 [b]).prm1 0 0 0 = b.toNat := by
  decide +kernel
theorem met_PowerCommands_5 : ∀ b ∈ [3, 4, 5], let s := ask (inState .dusk) 0x0402 [BitVec.ofNat 8 b, 0]
    s.sends 0 0 0x0402 [(0, 2)] ∧ s.prm1 0 0 0 = b ∧ s.prm1 0 0 1 = 0 ∧ s.floorAllows (targetState (s.prm1 0 0 0)) = true ∧
    s.blocker true = none ∧ s.blocker false = none := by decide +kernel
theorem met_PowerCommands_6 : ∀ b ∈ [3, 5], let s := ask (up.modTen 2 fun x => { x with floor := some .dusk }) 0x0402 [BitVec.ofNat 8 b, 0]
    s.sends 0 0 0x0402 [(0, 2)] ∧ s.prm1 0 0 0 = b ∧ s.prm1 0 0 1 = 0 ∧ s.floorAllows (targetState (s.prm1 0 0 0)) = false := by
  decide +kernel
theorem met_PowerCommands_7 : let s := ask (inState .night) 0x0402 [2, 0]
    s.sends 0 0 0x0402 [(0, 2)] ∧ s.prm1 0 0 0 = 2 ∧ s.prm1 0 0 1 = 0 := by decide +kernel
theorem met_PowerCommands_8 : ∀ b ∈ [3, 4, 5], let s := ask (up.modTen 2 fun x => { x with floor := some .dusk }) 0x0402 [BitVec.ofNat 8 b, 1]
    s.sends 0 0 0x0402 [(0, 2)] ∧ s.prm1 0 0 0 = b ∧ s.prm1 0 0 1 = 1 ∧ s.ownerAt 0 0 = true ∧
    s.hardBlocker true = none ∧ s.hardBlocker false = none := by decide +kernel
theorem met_PowerCommands_9 : ∀ b ∈ [3, 5], let s := ask { up with power.night.granted := true } 0x0402 [BitVec.ofNat 8 b, 0]
    s.sends 0 0 0x0402 [(0, 2)] ∧ s.prm1 0 0 0 = b ∧ s.prm1 0 0 1 = 0 ∧ s.floorAllows (targetState (s.prm1 0 0 0)) = true ∧
    s.blocker true = some Status.busy ∧ s.blocker false = some Status.busy := by decide +kernel
theorem met_IdleTimers_1 : up.serving = true ∧ up.power.pstate = .noon ∧ up.power.pmic = none ∧ up.power.entry = none ∧
    up.workIdle = true ∧ up.domOn dINF = true ∧ up.firnIdle = true ∧ (inState .boost).power.pstate = .boost ∧
    (inState .boost).firnIdle = true := by decide +kernel
theorem met_IdleTimers_2 : let s := inState .dusk
    s.power.pstate = .dusk ∧ s.domOn dAUD = true ∧ s.audIdle = true ∧ s.domOn dLNL = true ∧ s.anyLink = false ∧
    s.power.probing = none := by decide +kernel
/-- DUSK, in service, with PD_LNL off. -/
def duskServing : State := { (inState .dusk).setDom dLNL .off with reg.st := .inService }
theorem met_IdleTimers_3 : duskServing.power.pstate = .dusk ∧ duskServing.dom dLNL = .off ∧ duskServing.power.probeWake = false ∧
    duskServing.nightIdle = true ∧ duskServing.floorAllows .night = true ∧ duskServing.blocker true = none := by decide +kernel
theorem met_IdleTimers_3b : let s := duskServing.modTen 2 fun x => { x with floor := some .dusk }
    s.nightIdle = true ∧ s.floorAllows .night = false := by decide +kernel
theorem met_IdleTimers_3c : let s : State := { duskServing with lanes.prot.holdBy := some 9 }
    s.nightIdle = true ∧ s.blocker true ≠ none := by decide +kernel
theorem met_IdleTimers_4 : ({ inState .dusk with power.probing := some 9 } : State).power.probing = some 9 := by decide
/-- DUSK with automatic GLACIER; T_GLACIER and T_DARK run from the instants given. -/
def darkening (glacier dark : Nat) : State :=
  { inState .dusk with power := { (inState .dusk).power with
      cfg := { up.power.cfg with glacierAuto := true }, idle := { up.power.idle with glacier := glacier, dark := dark } } }
theorem met_IdleTimers_5 : let s := darkening 0 0
    s.serving = true ∧ s.power.pstate.awake = true ∧ s.mbx.leases = [] ∧ s.allDark = true ∧ s.power.cfg.glacierAuto = true ∧
    s.floorAllows .glacier = true ∧ s.blocker true = none ∧
    s.power.idle.dark + s.power.cfg.tDark * 1000000000 ≤
      (s.reach (s.power.idle.glacier + s.power.cfg.tGlacier * 1000000000)).now ∧
    (s.reach (s.power.idle.dark + s.power.cfg.tDark * 1000000000)).now <
      s.power.idle.glacier + s.power.cfg.tGlacier * 1000000000 := by decide +kernel
theorem met_IdleTimers_6 : let s := darkening 0 1800000000001
    (s.reach (s.power.idle.glacier + s.power.cfg.tGlacier * 1000000000)).now <
      s.power.idle.dark + s.power.cfg.tDark * 1000000000 ∧ s.allDark = true ∧
    s.power.idle.glacier + s.power.cfg.tGlacier * 1000000000 ≤
      (s.reach (s.power.idle.dark + s.power.cfg.tDark * 1000000000)).now := by decide +kernel
/-- An entry at a stage. -/
def entryAt (target : EntryTarget) (stage : EntryStage) : Entry :=
  { target := target, stage := stage, deadline := 9, retain := false, byTenant := 0 }
/-- The terminal with such an entry. -/
def entering (target : EntryTarget) (stage : EntryStage) : State :=
  { up with power := { up.power with entry := some (entryAt target stage) } }
set_option maxRecDepth 4000 in
theorem met_EntriesAndDeepStates_1 : (entering .chipReset .notice).power.entry = some (entryAt .chipReset .notice) ∧
    (entering .glacier .notice).entryFloored (entryAt .glacier .notice) = false ∧
    ((entering .glacier .notice).reach 9).endAll.inService = false ∧
    (entering .glacier .dereg).power.entry = some (entryAt .glacier .dereg) := by decide +kernel
set_option maxRecDepth 4000 in
theorem met_EntriesAndDeepStates_2 : let s : State := { entering .permafrost .notice with reg.st := .inService }
    s.power.entry = some (entryAt .permafrost .notice) ∧ s.entryFloored (entryAt .permafrost .notice) = false ∧
    (s.reach 9).endAll.inService = true := by decide +kernel
theorem met_EntriesAndDeepStates_2b : let s := (entering .glacier .notice).modTen 2 fun x => { x with floor := some .dusk }
    s.entryFloored (entryAt .glacier .notice) = true := by decide +kernel
/-- An `LTX.ACTIVATION` waits for its local deregistration notice. -/
def leavingLine (s : State) : State := { s with reg.wait := some { ten := 0, slot := 0, rediscover := false, by_ := 9 } }
theorem met_EntriesAndDeepStates_3 : (leavingLine up).power.entry = none ∧ up.power.wcfg.set = 0 ∧
    (leavingLine (entering .glacier .notice)).power.entry = some (entryAt .glacier .notice) ∧
    ∀ s ∈ [leavingLine up, leavingLine (entering .glacier .notice)],
      s.reg.wait = some { ten := 0, slot := 0, rediscover := false, by_ := 9 } := by decide +kernel
/-- NIGHT, in or between listens, with SYNC or without. -/
def night (listening sync : Bool) (missed : Nat) : State :=
  { inState .night with
    power.night := { ({} : Night) with listening := listening, missedRun := missed }
    fr.ch := (Vector.replicate 2 {}).set 0 { st := if sync then .sync else .hunt } }
/-- A grant accepted, its anchor ahead. -/
def grantedIn (p : PState) : State := { inState p with power.night := { ({} : Night) with answerBy := some 9, granted := true } }
theorem met_EntriesAndDeepStates_4 :
    (∀ p ∈ [PState.dusk, .noon], (grantedIn p).power.night.answerBy = some 9 ∧ (grantedIn p).power.pstate ≠ .night ∧
      (grantedIn p).power.night.granted = true ∧
      ((grantedIn p).reachTt (grantedIn p).power.night.nextListen).nightReady = (p == .dusk)) ∧
    ((night false true 0).power.pstate = .night ∧ (night false true 0).power.night.listening = false ∧
      (night false true 0).power.night.exiting = false ∧ (night false true 0).power.wake = none) ∧
    (let s0 := (night true true 0).reachTt ((night true true 0).power.night.nextListen + 2000000)
     s0.power.night.listening = true ∧ s0.activeSync = true ∧ s0.act.unproven = false) ∧
    (let s0 := (night true false 2).reachTt ((night true false 2).power.night.nextListen + 2000000)
     s0.activeSync = false ∧ s0.power.night.missedRun = 2) := by decide +kernel
/-- GLACIER with one source in the AO-watch set. -/
def cold (src : Nat) : State :=
  { (inState .glacier).setDom dCTL .off with ao := { up.ao with cfg := { up.ao.cfg with set := 1#32 <<< src } } }
theorem met_WakeSequence_1 : ∀ src : Fin 32, src.val < 15 → let s := cold src.val
    s.wakeCfg.set.getLsbD src.val = true ∧ s.aoSees src = true ∧ s.domOn dCTL = false ∧ s.power.pstate = .glacier ∧
    s.pads.rstN = true ∧ s.pads.powered = true ∧ s.power.entry = none ∧
    s.power.wake = none ∧ s.freshSource src = true ∧ s.power.night.granted = false := by decide +kernel
/-- A wake of PD_PKT and PD_CIP at a step. -/
def waking (step : Nat) (w : List ReadySig) : WakeSeq :=
  { kind := .domains [dPKT, dCIP], src := .noon, step := step, waiting := w, doms := [dPKT, dCIP], raised := [], startAt := 0, pins := 0 }
/-- The terminal in such a wake. -/
def inWake (w : WakeSeq) : State := { up with power := { up.power with wake := some w } }
theorem met_WakeSequence_2 : let w := waking 5 [.rstAck dPKT, .rstAck dCIP]
    (inWake w).power.wake = some w ∧ w.waiting = .rstAck dPKT :: .rstAck dCIP :: [] ∧
    (.rstAck dPKT) ∉ .rstAck dCIP :: ([] : List ReadySig) ∧ (.rstAck dPKT : ReadySig) ≠ .pllaLock := by decide +kernel
theorem met_WakeSequence_2b : ∀ step ∈ [5, 1], let w := waking step [.psw dCIP]
    (inWake w).power.wake = some w ∧ w.waiting = [.psw dCIP] ∧ (.psw dCIP : ReadySig) ≠ .pllaLock ∧ w.step = step ∧
    w.waiting.contains (.psw dCIP) = true := by decide +kernel
theorem met_WakeSequence_2c : let w := waking 1 [.psw dCIP]
    firstStep ((inWake w).signalled (.psw dCIP)) w.kind w.doms (5 - w.step) (w.step + 1) = (5, .rstAck dPKT :: [.rstAck dCIP]) ∧
    w.kind ≠ .glacier := by decide +kernel
theorem met_WakeSequence_3 : let w : WakeSeq := { waking 1 [] with kind := .nightExit, doms := [] }
    w.kind = .nightExit ∧ ({ up with power := { up.power with nightFails := 3 } } : State).power.nightFails = 3 ∧ w.doms = [] := by
  decide
/-- All wake pins active high, with a debounce. -/
def pinned (s : State) (debounce : Nat) : State :=
  let c : WakeCfg := { pinHigh := 15, debounce := debounce }
  { s with power.wcfg := c, ao.cfg := c }
theorem met_PinsAndLightWake_1 : ∀ k ∈ [0, 1], let s := pinned up k
    s.power.pstate ≠ .permafrost ∧ (∀ pin : Fin 4, s.wakeCfg.pinHigh.getLsbD pin.val = true) ∧ s.wakeCfg.debounce = k := by
  decide +kernel
theorem met_PinsAndLightWake_2 : let s := pinned State.reset 0
    s.power.pstate = .permafrost ∧ ∀ pin : Fin 4, s.wakeCfg.pinHigh.getLsbD pin.val = true := by decide +kernel
theorem met_PinsAndLightWake_3 :
    ({ up with power := { up.power with debounceBy := up.power.debounceBy.set 2 (some 9) } } : State).power.debounceBy[(2 : Fin 4)] = some 9 := by
  decide
/-- The detector runs with a reference. -/
def watching (vref : Nat) : State :=
  { up with power := { up.power with wcfg := { up.power.wcfg with set := 256 }, lw := { ({} : LightWake) with vref := vref } } }
theorem met_PinsAndLightWake_4 : (∀ v ∈ [59999, 60000], (watching v).domOn dTKP = true ∧
      (watching v).wakeCfg.set.getLsbD 8 = true ∧ (watching v).ballActs (.optics (watching v).power.lw.lane) = true ∧
      v = min 1200000 (if (watching v).power.lw.lane = 0 then v else 0)) ∧
    ((watching 59999).power.lw.track 59999).vref < 60000 ∧ 60000 ≤ ((watching 60000).power.lw.track 60000).vref := by
  decide +kernel
/-- A frame of group 5 has been decoded, with a check. -/
def decoded (p : PState) (check : Half) : State :=
  { inState p with power := { (inState p).power with lw := { ({} : LightWake) with group := 5, frame := some (5, check) } } }
theorem met_PinsAndLightWake_5 : (decoded .glacier 0).power.lw.frame = some (5, 0) ∧
    (0 : Half).toNat ≠ crc16 (beBytes 2 (5 : Half).toNat) ^^^ (decoded .glacier 0).power.lw.site.toNat := by decide +kernel
theorem met_PinsAndLightWake_6 : let c : Half := BitVec.ofNat 16 (crc16 (beBytes 2 5))
    ∀ p ∈ [PState.glacier, .dusk], (decoded p c).power.lw.frame = some (5, c) ∧
    c.toNat = crc16 (beBytes 2 (5 : Half).toNat) ^^^ (decoded p c).power.lw.site.toNat ∧ (5 : Half) ≠ 0 ∧
    (5 : Half) = (decoded p c).power.lw.group ∧ (decoded p c).power.pstate = p ∧ (decoded p c).power.wake = none := by
  decide +kernel
/-- `PWR_EN_MAIN` rose some time ago. -/
def railed (ago : Nat) : State := { up with pads := { up.pads with enMain := true, enRise := up.now - ago } }
theorem met_VoltageAndRails_1 : let s := railed 100000
    s.pads.enMain = true ∧ s.pads.enRise + 100000 ≤ s.now ∧ s.power.wake = none := by decide +kernel
theorem met_VoltageAndRails_2 : (railed 100000).now + 1999 < max (railed 100000).now ((railed 100000).pads.enRise + 100000) + 2000 ∧
    (railed 99999).now + 2000 < max (railed 99999).now ((railed 99999).pads.enRise + 100000) + 2000 := by decide +kernel
/-- A voltage write on the wire. -/
def changing (op : PmicOp) : State := { up with power := { up.power with pmic := some op }, tw := { active := some .pm, since := 0 } }
theorem met_VoltageAndRails_3 : let op : PmicOp := { codes := [30], why := .toDusk }
    (changing op).power.pmic = some op ∧ (changing op).tw.active = some .pm ∧ op.retried = false ∧
    ({ op with retried := true } : PmicOp).retried = true ∧ ({ op with settleBy := some 9 } : PmicOp).codes = [30] ∧
    ({ op with retryAt := some 9 } : PmicOp).retryAt = some 9 ∧ op.failed = false ∧
    ({ op with codes := [36, 50] } : PmicOp).codes = 36 :: 50 :: [] ∧ op.why ≠ .toBoost ∧ maxStretch < maxStretch + 1 := by decide
theorem met_VoltageAndRails_4 : (380 : Int) < 381 ∧ up.power.pstate ≠ .boost ∧ up.pads.hostMode = none ∧
    (inState .boost).power.leaveBoost = false ∧
    ({ up with pads := { up.pads with fieldMode := some true } } : State).pads.fieldMode = some true := by decide

/-! ### The event router -/

theorem met_LatchRules_1 : ∀ src ∈ [(0x20 : Fin 256), 0xF1], 0x20 ≤ src.val ∧ src.val ≠ 0xF0 ∧ up.canAssert src = true ∧
    (up.source src).en = true ∧ (up.source src).latch = none := by decide +kernel
/-- A source's latch is set. -/
def latched (i : Fin 256) : State := up.modSource i fun x => { x with latch := some ⟨1, false, 2⟩ }
theorem met_LatchRules_2 : let s := latched 0x40
    s.canAssert 0x40 = true ∧ (s.source 0x40).en = true ∧ (s.source 0x40).latch = some ⟨1, false, 2⟩ ∧
    s.domOn dCTL = true ∧ s.nextLatch = some 0x40 := by decide +kernel
theorem met_LatchRules_3 : let s : State := { up with evt.directed := [⟨Code.portRx, 1, ⟨0, false, 0⟩⟩] }
    s.nextLatch = some 0xF0 ∧ s.evt.directed = ⟨Code.portRx, 1, ⟨0, false, 0⟩⟩ :: [] := by decide +kernel
theorem met_LatchRules_4 : let s := up.modTen 0 fun x => { x with noticeBy := some 9, notice := true }
    (s.ten 0).noticeBy = some 9 ∧ (s.ten 0).irq = true ∧ (s.ten 0).statusRead = false := by decide +kernel
/-- Tenant 1's session is open, with records unread. -/
def reader (n : Nat) : State := up.modTen 1 fun x => { x with st := .attached, win.head := BitVec.ofNat 16 n }
theorem met_Delivery_1 : (up.ten 1).st = .detached ∧ ((reader 63).ten 1).st ≠ .detached ∧ ((reader 63).ten 1).unread ≠ 64 ∧
    ((reader 64).ten 1).unread = 64 := by decide +kernel
/-- Source 0x40 has T1 as a target under LOWEST; the event budget holds a token or none. -/
def lowest (tokens : Nat) : State :=
  (up.modTen 1 fun x => { x with st := .attached, evtBucket := { level := tokens * 10 ^ 9 } }).modSource 0x40
    fun x => { x with lowest := true, targets := 2 }
theorem met_Delivery_2 : let s := lowest 1
    (s.source 0x40).lowest = true ∧ s.lowestTarget (s.source 0x40) = some 1 := by decide +kernel
theorem met_Delivery_3 : let s := lowest 0
    s.lowestTarget (s.source 0x40) = none ∧ (s.source 0x40).tenants ≠ [] := by decide +kernel
theorem met_EvtCommands_1 : ∀ v ∈ [1, 63], let s := ask up 0x0301 [0, BitVec.ofNat 8 v]
    s.sends 0 0 0x0301 [(0, 2)] ∧ s.prm1 0 0 0 = (0 : Fin 256).val ∧ subscribable 0 = true ∧ subscribeBit 0 = none ∧
    s.prm1 0 0 1 = v ∧ (s.ten 0).vids[(Fin.ofNat 64 (s.prm1 0 0 1) : Fin 64)] = none ∧ (s.ten 0).vidOf 0 = none := by
  decide +kernel
theorem met_EvtCommands_2 : let s := ask (up.modTen 0 fun x => { x with vids := x.vids.set 63 (some 0x40) }) 0x0302 [63]
    s.sends 0 0 0x0302 [(0, 1)] ∧ 1 ≤ s.prm1 0 0 0 ∧ s.prm1 0 0 0 ≤ 63 ∧
    (s.ten 0).vids[(Fin.ofNat 64 (s.prm1 0 0 0) : Fin 64)] = some 0x40 := by decide +kernel
theorem met_EvtCommands_3 : let s := ask up 0x0303 [0xF1, 3, 15]
    s.sends 0 0 0x0303 [(0, 3)] ∧ (sourceDom (s.prm1 0 0 0)).isSome = true ∧ s.prm1 0 0 0 ≠ 0xF0 ∧ s.prm1 0 0 1 ≤ 3 ∧
    s.prm1 0 0 2 ≤ 15 := by decide +kernel
theorem met_EvtCommands_4 : let s := ask up 0x0304 (leBytes 4 0xFFFF)
    s.sends 0 0 0x0304 [(0, 4)] ∧ s.prm 0 0 0 4 < 2 ^ 18 ∧ setSizeOf (BitVec.ofNat 32 (s.prm 0 0 0 4)) ≤ 16 := by decide +kernel
theorem met_EvtCommands_5 : (ask up 0x0305 [0xFF]).sends 0 0 0x0305 [(0, 1)] ∧ (ask up 0x0305 [0xFF]).prm1 0 0 0 = 0xFF ∧
    (ask up 0x0306 [1, 2, 3, 4]).sends 0 0 0x0306 [(0, 4)] := by decide +kernel
theorem met_RoundRobinPointer : ((lowest 1).source 0x40).lowest = true ∧
    (lowest 1).lowestTarget ((lowest 1).source 0x40) = some 1 := by decide +kernel
theorem met_EvtCommands_6 : let s := ask (up.modTen 0 fun x => { x with vids := x.vids.set 63 (some 0x40) }) 0x0305 [63]
    s.sends 0 0 0x0305 [(0, 1)] ∧ s.prm1 0 0 0 = 63 ∧
    (s.ten 0).vids[(Fin.ofNat 64 (s.prm1 0 0 0) : Fin 64)] = some 0x40 := by decide +kernel
theorem met_EvtCommands_1b : let s := ask up 0x0301 [0x40, 63]
    s.sends 0 0 0x0301 [(0, 2)] ∧ s.prm1 0 0 0 = (0x40 : Fin 256).val ∧ subscribable 0x40 = true ∧
    subscribeBit 0x40 = some 7 ∧ s.holdsAt 0 0 7 = true := by decide +kernel

/-! ### Lanes -/

theorem met_LaneCommands_1 : (ask up 0x0701 [3, 0]).sends 0 0 0x0701 [(0, 2)] ∧ (ask up 0x0701 [3, 0]).prm1 0 0 0 ≤ 3 ∧
    (ask up 0x0701 [3, 0]).prm1 0 0 1 = 0 ∧ (ask up 0x0703 [1]).sends 0 0 0x0703 [(0, 1)] ∧ (ask up 0x0703 [1]).prm1 0 0 0 = 1 := by
  decide +kernel
theorem met_LaneCommands_2 : let s := ask up 0x0702 ([0, 3] ++ leBytes 2 1000 ++ leBytes 2 10 ++ [15, 0])
    s.sends 0 0 0x0702 [(0, 8)] ∧ s.prm1 0 0 0 = 0 ∧ byteAt (s.params 0 0) 1 ≤ 3 ∧ (protParams (s.params 0 0)).holdOffUs ≤ 1000 ∧
    within 10 3600 (protParams (s.params 0 0)).wtrS = true ∧ byteAt (s.params 0 0) 6 ≤ 15 ∧ byteAt (s.params 0 0) 7 = 0 ∧
    s.absentLane 0 = false := by
  decide +kernel
theorem met_LaneCommands_2b : ∀ p ∈ [(2, 1, 7), (3, 3, 6)],
    let s := ask up 0x0702 ([p.1, p.2.1, p.2.2, 3].map (BitVec.ofNat 8) ++ leBytes 2 10000 ++ leBytes 2 1 ++ [0])
    let c := localParams (s.params 0 0)
    s.sends 0 0 0x0702 [(0, 9)] ∧ s.prm1 0 0 0 = p.1 ∧ c.mode = p.2.1 ∧ byteAt (s.params 0 0) 2 ≤ 7 ∧
    (c.mode ≠ 3 ∨ c.an = false) ∧ byteAt (s.params 0 0) 3 ≤ 3 ∧ c.holdMs ≤ 10000 ∧ c.quanta ≠ 0 ∧
    byteAt (s.params 0 0) 8 = 0 ∧ s.absentLane p.1 = false := by decide +kernel
theorem met_LaneCommands_3 : ∀ b ∈ [2, 3], let s := ask up 0x0704 [BitVec.ofNat 8 b, 0]
    s.sends 0 0 0x0704 [(0, 2)] ∧ s.prm1 0 0 0 = b ∧ s.prm1 0 0 1 = 0 ∧ s.absentLane b = false := by decide +kernel
theorem met_LaneCommands_3b : ∀ i : Fin 4, i.val < 2 → ∀ st ∈ [Act.initial, .dereg],
    let s : State := ask { up with reg.st := st } 0x0704 [BitVec.ofNat 8 i.val, 1]
    s.sends 0 0 0x0704 [(0, 2)] ∧ s.prm1 0 0 0 = i.val ∧ s.prm1 0 0 1 = 1 ∧ s.absentLane i.val = false ∧ s.reg.st = st := by
  decide +kernel
/-- D21.5 and K28.5 in turn. -/
def tone : List Byte := (List.replicate 4 ([0xB5, 0, 0xBC, 1] : List Byte)).flatten
theorem met_LaneCommands_3c : ∀ i : Fin 4, 2 ≤ i.val → let s := ask up 0x0704 ([BitVec.ofNat 8 i.val, 1] ++ tone)
    s.sends 0 0 0x0704 [(0, 18)] ∧ s.prm1 0 0 0 = i.val ∧ s.prm1 0 0 1 = 1 ∧ s.absentLane i.val = false ∧
    (s.patternOf 0 0).all patternOk = true := by decide +kernel
theorem met_LaneCommands_4 : ∀ i : Fin 4, ∀ k ∈ [1, 9],
    let s := ask (up.modPhy i fun p => { p with raw := true }) 0x0705 [BitVec.ofNat 8 i.val, BitVec.ofNat 8 k]
    s.sends 0 0 0x0705 [(0, 2)] ∧ s.prm1 0 0 0 = i.val ∧ s.prm1 0 0 1 = k ∧ s.absentLane i.val = false ∧ (s.phy i).raw = true ∧
    (s.phy i).slip = none ∧ s.lanes.phy.toList.any (·.slipsFor 0 0) = false := by decide +kernel
theorem met_LaneCommands_4b : let s := ask (up.modPhy 2 fun p => { p with raw := true, slip := some (0, 0, 9) }) 0x0705 [2, 9]
    s.inHand 0 0 0x0705 = true ∧ s.lanes.phy.toList.any (·.slipsFor 0 0) = true ∧ (s.phy 2).slip = some (0, 0, 9) := by
  decide +kernel
theorem met_LaneCommands_5 : ∀ i : Fin 4, let s := ask up 0x0706 [BitVec.ofNat 8 i.val]
    s.sends 0 0 0x0706 [(0, 1)] ∧ s.prm1 0 0 0 = i.val ∧ s.absentLane i.val = false := by decide +kernel
/-- Four idle pairs, K28.5 and D16.2, from negative running disparity (Table 8.2). -/
def commas : List CodeGroup := encodeRun (List.replicate 4 [(true, 0xBC), (false, 0x50)]).flatten false
/-- A lane in raw mode or not, locked or not, with its optics lit. -/
def litLane (i : Fin 4) (raw lock : Bool) : State :=
  { up.modPhy i fun p => { p with raw := raw, lock := lock, qualBy := some 9 } with pads.los := 0 }
theorem met_LockAndProtection_1 : ∀ i : Fin 4, let s := litLane i (decide (2 ≤ i.val)) false
    s.laneOn i = true ∧ (s.phy i).lock = false ∧ s.noLight i = false ∧ (s.phy i).slip = none ∧
    ((s.phy i).raw = true ↔ 2 ≤ i.val) ∧
    lockMet (s.judged i false commas) (s.marks i (s.judged i false commas)) = true := by decide +kernel
theorem met_LockAndProtection_2 : ∀ i ∈ [(0 : Fin 4), 1], let s := litLane i false true
    s.laneOn i = true ∧ (s.phy i).lock = true ∧ lossMet (s.marks i (s.judged i false (List.replicate 16 0))) = true ∧
    (s.phy i).qualBy = some 9 := by decide +kernel
theorem met_LockAndProtection_2b : ∀ l : Fin 2, up.ballActs (.optics l) = true ∧ up.pads.los.getLsbD l.val = true ∧
    (litLane 0 false true).ballActs (.optics l) = true ∧ (litLane 0 false true).pads.los.getLsbD l.val = false := by decide +kernel
/-- Both fibre lanes locked, framed, fit, and A active; the timers of protection run. -/
def protected_ : State :=
  { up with
    lanes := { up.lanes with
      phy := up.lanes.phy.map fun p => { p with good := true, lock := true }
      prot := { ({} : Prot) with fit := Vector.replicate 2 true, holdBy := some 9, wtrBy := some 9 } }
    fr.ch := Vector.replicate 2 { st := .sync, aligned := true } }
theorem met_LockAndProtection_3 : let s1 : State := { protected_.reach 9 with lanes.prot.holdBy := none }
    protected_.lanes.prot.holdBy = some 9 ∧ s1.laneEligible s1.standby = true ∧ protected_.lanes.prot.lockout = false := by
  decide +kernel
theorem met_LockAndProtection_4 : let s : State := { protected_ with lanes.prot.lockout := true }
    s.lanes.prot.holdBy = some 9 ∧ s.lanes.prot.lockout = true := by decide
theorem met_LockAndProtection_5 : let s : State := { protected_ with lanes.prot.cfg.preferB := true }
    s.lanes.prot.wtrBy = some 9 ∧ s.lanes.prot.lockout = false ∧ (s.reach 9).laneEligible s.lanes.prot.cfg.preferred = true ∧
    s.lanes.prot.active ≠ s.lanes.prot.cfg.preferred := by decide +kernel
theorem met_LaneCommands_6 : ∀ b ∈ ([0, 1, 2] : List Nat), let s := ask { protected_ with lanes.prot.holdBy := none, reg.st := .inService } 0x0703 [BitVec.ofNat 8 b]
    s.sends 0 0 0x0703 [(0, 1)] ∧ s.prm1 0 0 0 = b ∧ s.lanes.prot.holdBy = none ∧ s.lanes.prot.lockout = false ∧
    s.activeLane ≠ none ∧ s.laneEligible s.standby = true := by decide +kernel
theorem met_LocalLanes_1 : up.localOn 0 = true ∧ (up.phy (localIx 0)).raw = false ∧ (up.phy (localIx 0)).lock = false ∧
    (up.phy (localIx 0)).lost = false ∧
    (((up.modLocal 0 fun x => x.countWord 0).local_ 0).negotiate 0 true true).isSome = true := by decide +kernel
/-- L2 with its link up. -/
def linked (f : LocalLane → LocalLane) : State := (up.modPhy 2 fun p => { p with good := true }).modLocal 0 f
theorem met_LocalLanes_2 : let s := up.modLocal 0 fun x => { x with holdBy := some 9, pausedBy := some 9 }
    (s.local_ 0).holdBy = some 9 ∧ s.laneLink 0 = false ∧ (s.local_ 0).pausedBy = some 9 := by decide +kernel
theorem met_LocalLanes_3 : (linked id).laneLink 0 = true ∧ 60 ≤ (List.replicate 60 (0 : Byte)).length ∧
    (∀ n ∈ [60, 16379], 60 ≤ n ∧ n ≤ 16379) := by decide +kernel
theorem met_LocalLanes_4 : let s : State := { up with pars.fifo := up.pars.fifo.set 1 [{ bytes := List.replicate 8192 0 }] }
    (s.local_ 0).xoff = false ∧ 1024 * s.tm.buf.xoff[(0 : Fin 2)] ≤ s.fifoFill (Fin.ofNat 4 (1 + (0 : Fin 2).val)) ∧
    (s.local_ 0).txPause = false := by
  refine ⟨by decide +kernel, ?_, by decide +kernel⟩
  have h : ({ up with pars.fifo := up.pars.fifo.set 1 [{ bytes := List.replicate 8192 0 }] } : State).pars.fifo[(Fin.ofNat 4 (1 + (0 : Fin 2).val) : Fin 4)] = [{ bytes := List.replicate 8192 0 }] := rfl
  unfold State.fifoFill
  rw [h]
  simp only [List.foldl_cons, List.foldl_nil, List.length_replicate]
  decide +kernel
theorem met_LocalLanes_5 : let s := linked fun x => { x with xoff := true, txPause := true, repeatBy := some 9 }
    (s.local_ 0).xoff = true ∧ s.fifoFill (Fin.ofNat 4 (1 + (0 : Fin 2).val)) < 1024 * s.tm.buf.xon[(0 : Fin 2)] ∧
    (s.local_ 0).txPause = true ∧ s.laneLink 0 = true ∧ (s.local_ 0).repeatBy = some 9 := by decide +kernel

/-! ### Lineatex downstream -/

/-- Lane A locked, with its channel in a state of alignment. -/
def channel (st : FState) (f : Chan → Chan) : State :=
  (up.modPhy 0 fun p => { p with lock := true }).modChan 0 fun c => f { c with st := st }
/-- The FAW of Table 8.2, from negative running disparity. -/
def faw : List CodeGroup := encodeRun [(true, 0xBC), (false, 0x7B), (false, 0xCB), (false, 0x83)] false
theorem met_FrameAlignment_1 : ∀ st ∈ [FState.hunt, .presync, .sync], let s := channel st id
    fawCorrect (s.judged (fibreIx 0) false faw) = true ∧ fawCorrect (s.judged (fibreIx 0) false [0, 0, 0, 0]) = false := by
  decide +kernel
theorem met_FrameAlignment_2 : ∀ st ∈ [FState.hunt, .presync, .sync], let s := channel st id
    s.fibreOn 0 = true ∧ s.domOn dFRM = true ∧ (s.phy (fibreIx 0)).lock = true ∧ (s.chan 0).st = st ∧
    s.power.pstate ≠ .night := by decide +kernel
theorem met_FrameAlignment_3 : ∀ n ∈ [0, 2, 3], let s := channel .sync fun c => { c with fawRun := n }
    (s.chan 0).st = .sync ∧ (s.chan 0).fawRun = n := by decide +kernel
/-- NIGHT, with the position of a frame kept 250 µs ago. -/
def keptAt : State :=
  { channel .hunt (fun c => { c with kept := some (7, up.now, 3) }) with
    power := { up.power with pstate := .night }, now := up.now + 250000 }
theorem met_FrameAlignment_4 : ∀ shift ∈ [(51 : Int), -51],
    keptAt.fibreOn 0 = true ∧ keptAt.domOn dFRM = true ∧ (keptAt.phy (fibreIx 0)).lock = true ∧ (keptAt.chan 0).st ≠ .sync ∧
    keptAt.power.pstate = .night ∧ (keptAt.chan 0).keptNear (keptAt.fawAt 0 0 true shift) = some (7, 1, 4) ∧
    fawCorrect (keptAt.judged (fibreIx 0) false faw) = true := by decide +kernel
/-- A frame header with no map, messages or containers, with its check. -/
def header : List Byte := let h := (List.replicate 38 (0 : Byte)).set 1 0x10; h ++ beBytes 2 (crc16 h)
theorem met_FrameContents_1 : ∀ l : Fin 2, let s := up.modChan l fun c => { c with st := .sync }
    (s.chan l).st = .sync ∧ (s.chan l).rx.judged = false ∧ header.length = 40 ∧ s.domOn dFRM = true ∧
    headerValid header = true ∧ headerValid (List.replicate 40 0) = false := by decide +kernel
theorem met_FrameContents_1c : let s := up.modChan 0 fun c => { c with st := .sync }
    (s.modChan 0 fun c => (c.goodHeader header).alignPreloaded (hMfi header)).inSync 0 = true := by decide +kernel
theorem met_FrameContents_1b : (0 : Fin 2) = up.lanes.prot.active ∧ (1 : Fin 2) ≠ up.lanes.prot.active := by decide
/-- A grant entry: RH, start, length, its check. -/
def grant (rh start len : Nat) : List Byte :=
  let b := beBytes 7 (rh * 2 ^ 44 + start * 2 ^ 26 + len * 2 ^ 11)
  b ++ [BitVec.ofNat 8 (crc8 b)]
/-- The active lane receives a map, in a state of activation. -/
def mapped (st : Act) (skip : Nat) : State :=
  { channel .sync (fun c => { c with aligned := true, rx := { c.rx with hdrOk := true, gmapLen := 1 } }) with
    reg := { ({} : Reg) with st := st, rh := 5, skip := skip }, clk.dpll := .track }
theorem met_FrameContents_2 : let s := mapped .inService 0
    s.boot.core1Up = true ∧ s.mapEntry 0 (List.replicate 8 1) = true ∧ gOk (List.replicate 8 1) = false := by decide +kernel
theorem met_FrameContents_3 : let s := mapped .inService 0
    let b := grant 5 31000 250
    s.mapEntry 0 b = true ∧ gOk b = true ∧ gRh b = (s.countEntry 0).reg.rh ∧ gRh b ≠ 0 ∧ gRh b ≠ 0xFFF ∧
    (s.countEntry 0).takesEntries 0 = true ∧ 0 = (s.countEntry 0).lanes.prot.active ∧
    (grantOf ((s.countEntry 0).chan 0).k b).fits (s.countEntry 0).us.table = true ∧
    (grantOf ((s.countEntry 0).chan 0).k b).ranging = false := by decide +kernel
/-- A ranging entry for this terminal. -/
def rangingGrant : List Byte :=
  let b := beBytes 7 (5 * 2 ^ 44 + 31000 * 2 ^ 26 + 66 * 2 ^ 11 + 2 ^ 7)
  b ++ [BitVec.ofNat 8 (crc8 b)]
theorem met_FrameContents_3b : let s := mapped .inService 0
    let e := grantOf ((s.countEntry 0).chan 0).k rangingGrant
    s.mapEntry 0 rangingGrant = true ∧ gOk rangingGrant = true ∧ gRh rangingGrant = (s.countEntry 0).reg.rh ∧
    e.fits (s.countEntry 0).us.table = true ∧ e.ranging = true := by decide +kernel
theorem met_FrameContents_3c :
    let s := (mapped .inService 0).modChan 1 fun c => { c with st := .sync, rx := { c.rx with hdrOk := true, gmapLen := 1 } }
    let b := grant 5 31000 250
    s.mapEntry 1 b = true ∧ s.boot.core1Up = true ∧ gOk b = true ∧ gRh b = (s.countEntry 1).reg.rh ∧
    (s.countEntry 1).takesEntries 1 = true ∧ 1 ≠ (s.countEntry 1).lanes.prot.active := by decide +kernel
theorem met_FrameContents_4 : ∀ skip ∈ [0, 1], let s := mapped .listen skip
    let b := grant 0xFFF 0 500
    s.mapEntry 0 b = true ∧ gOk b = true ∧ gRh b = 0xFFF ∧ 0 = (s.countEntry 0).lanes.prot.active ∧
    (s.countEntry 0).reg.st = .listen ∧ (s.countEntry 0).framed 0 = true ∧ (s.countEntry 0).dpllSilent = false ∧
    (s.countEntry 0).slotsUnusable = false ∧ (s.countEntry 0).fr.silenced = false ∧ s.boot.core1Up = true ∧
    (s.countEntry 0).mapOpen 0 = true ∧ (s.countEntry 0).reg.skip = skip := by decide +kernel
/-- A container's header and body: RH, type, body. -/
def container (rh type : Nat) (body : List Byte) : List Byte :=
  let h := beBytes 2 (16 * rh + type) ++ beBytes 2 body.length
  h ++ beBytes 2 (crc16 h) ++ body
theorem met_FrameContents_5 : ∀ rh ∈ [5, 0, 6],
    let s := (mapped .inService 0).modChan 0 fun c => { c with rx := { c.rx with pktCnt := 1, pos := 184 } }
    let b := container rh 0 (List.replicate 38 0)
    let s1 := s.modChan 0 fun c => c.afterPkt b .whole
    0 = s.lanes.prot.active ∧ s.domOn dFRM = true ∧ (s.chan 0).delinPkt b = .whole ∧
    s1.roleOf (kRh b) = (if rh = 5 then some 0 else if rh = 0 then some 1 else none) := by decide +kernel
theorem met_FrameContents_6 : let d : Dec := { lane := 0, bytes := [], role := 0, gen := false }
    let s : State := { up with cip.decq := [d] }
    (s.startJobs.cip.decq.find? fun d => s.startJobs.runsOn (.dec d)) = some d := by decide +kernel
theorem met_DefectTimers_1 : let s := up.modChan 0 fun c => { c with lofFrom := some 7 }
    s.act.lofFrom = some 7 ∧ s.domOn dFRM = true ∧ s.power.pstate ≠ .night ∧ s.fr.silenced = false ∧
    ({ s with reg.st := .inService } : State).reg.st.registered = true := by decide +kernel
/-- Every role's key of both generations. -/
def keyedUp : State :=
  { up with
    cip.bank := Vector.ofFn fun i => if i.val < 6 then some { key := [1] } else none
    fr := { ({} : Framer) with arm := some 8, lolBy := some 9, retire := some (true, 8) } }
theorem met_DefectTimers_2 : keyedUp.fr.lolBy = some 9 ∧ keyedUp.fr.arm = some 8 ∧
    (keyedUp.reach (keyedUp.act.startOf 8)).rolesHeld (!keyedUp.fr.kiUp) = true ∧ keyedUp.fr.retire = some (true, 8) := by
  decide +kernel
theorem met_LtxCommands_1 : ∀ l : Fin 2, let s := ask up 0x0801 [BitVec.ofNat 8 l.val, 0]
    let r := ask up 0x0802 [BitVec.ofNat 8 l.val]
    s.sends 0 0 0x0801 [(0, 2)] ∧ s.prm1 0 0 0 = l.val ∧ s.prm1 0 0 1 = 0 ∧ s.absentLane l.val = false ∧
    r.sends 0 0 0x0802 [(0, 1)] ∧ r.prm1 0 0 0 = l.val ∧ r.absentLane l.val = false := by decide +kernel
theorem met_LtxCommands_2 : (ask up 0x0803 [0]).sends 0 0 0x0803 [(0, 1)] ∧ (ask up 0x0803 [0]).prm1 0 0 0 = 0 := by decide +kernel
theorem met_LtxCommands_3 : ∀ st ∈ [Act.dereg, .listen], let s := ask { up with reg.st := st } 0x0804 [1]
    s.sends 0 0 0x0804 [(0, 1)] ∧ s.prm1 0 0 0 = 1 ∧ s.waitsFor 0 0 = false ∧ s.reg.st = st := by decide +kernel
theorem met_LtxCommands_4 : ∀ b ∈ ([0, 2] : List Nat), let s := ask up 0x0804 [BitVec.ofNat 8 b]
    s.sends 0 0 0x0804 [(0, 1)] ∧ s.prm1 0 0 0 = b ∧ s.waitsFor 0 0 = false ∧ s.reg.wait = none := by decide +kernel
theorem met_LtxCommands_5 : ∀ g : Fin 8, let s := ask up 0x0805 [BitVec.ofNat 8 g.val, 0]
    let r := ask up 0x0806 [BitVec.ofNat 8 g.val, 0, 0]
    s.sends 0 0 0x0805 [(0, 2)] ∧ s.prm1 0 0 0 = g.val ∧ s.prm1 0 0 1 = 0 ∧
    r.sends 0 0 0x0806 [(0, 3)] ∧ r.prm1 0 0 0 = g.val ∧ r.prm1 0 0 1 ≤ 2 ∧ r.prm1 0 0 2 = 0 ∧ (r.gs g).depth ≠ r.prm1 0 0 1 := by
  decide +kernel
theorem met_LtxCommands_6 : let s := ask up 0x0807 [63, 7, 3, 0, 0, 0]
    s.sends 0 0 0x0807 [(0, 6)] ∧ byteAt (s.params 0 0) 0 = (63 : Fin 64).val ∧ byteAt (s.params 0 0) 1 = (7 : Fin 8).val ∧
    byteAt (s.params 0 0) 2 = (3 : Fin 4).val ∧ byteAt (s.params 0 0) 3 = 0 ∧ byteAt (s.params 0 0) 4 = 0 ∧
    byteAt (s.params 0 0) 5 = 0 ∧ s.held (upQid 63) = [] := by decide +kernel

/-! ### Messages and registration -/

theorem crcBit_lt (poly reg : Nat) (b : Bool) (h : poly < 2 ^ 16) : crcBit 16 poly reg b < 2 ^ 16 := by
  unfold crcBit
  split
  · exact Nat.xor_lt_two_pow (Nat.mod_lt _ (by decide)) h
  · exact Nat.mod_lt _ (by decide)

theorem crc16_lt (bs : List Byte) : crc16 bs < 2 ^ 16 := by
  have step : ∀ r b, crcByte 16 0x1021 r b < 2 ^ 16 := fun r b => by
    unfold crcByte
    exact crcBit_lt _ _ _ (by decide)
  unfold crc16
  generalize h0 : (0xFFFF : Nat) = r
  have hr : r < 2 ^ 16 := by omega
  clear h0
  induction bs generalizing r with
  | nil => exact hr
  | cons b bs ih => exact ih _ (step r b)

/-- A message slot of the active lane: broadcast `LRH`, a type, a body, its check. -/
def message (type : Byte) (body : List Byte) : List Byte :=
  let m : List Byte := [0, 0, type, BitVec.ofNat 8 body.length] ++ field body 0 42
  m ++ beBytes 2 (crc16 m)

theorem message_length (type : Byte) (body : List Byte) : (message type body).length = 48 := by simp [message]

theorem message_crc (type : Byte) (body : List Byte) :
    beAt (message type body) 46 2 = crc16 ((message type body).take 46) := by
  generalize hm : ([0, 0, type, BitVec.ofNat 8 body.length] ++ field body 0 42 : List Byte) = m
  have n : m.length = 46 := by rw [← hm]; simp
  have e : message type body = m ++ beBytes 2 (crc16 m) := by rw [← hm]; rfl
  have f := field_append_right m (beBytes 2 (crc16 m))
  rw [n, beBytes_length] at f
  have c : crc16 m < 256 ^ 2 := crc16_lt m
  rw [e, beAt, f, beNat_beBytes, ← n, List.take_left, Nat.mod_eq_of_lt c]

/-- A terminal in a state of registration, with a message slot to come on its active lane and keys of the session. -/
def hearing (st : Act) (f : State → State) : State :=
  f { channel .sync (fun c => { c with aligned := true, rx := { c.rx with judged := true, lmm := 1 } }) with
    reg := { ({} : Reg) with st := st, rh := 5 }, clk.dpll := .track
    cip := { up.cip with bank := (up.cip.bank.set 6 (some { key := [6] })).set 7 (some { key := [7] }) } }

/-- A message with a right check arrives there, whatever its type and body. -/
theorem hearing_arrives (st : Act) (f : State → State) (type : Byte) (body : List Byte)
    (h : ((0 : Fin 2) = (hearing st f).lanes.prot.active ∧ ((hearing st f).chan 0).st = .sync ∧
      ((hearing st f).chan 0).rx.judged = true ∧ ((hearing st f).chan 0).rx.lmm.getLsbD (0 : Fin 3).val = true ∧ (hearing st f).domOn dFRM = true) ∧
      (hearing st f).boot.core1Up = true) :
    State.lmmArrives (hearing st f) 0 0 (message type body) type.toNat := by
  obtain ⟨⟨a, b, c, d, e⟩, g⟩ := h
  have r : beAt (message type body) 0 2 / 16 = 0 := by
    have f : field (message type body) 0 2 = [0, 0] := rfl
    rw [beAt, f]; rfl
  exact ⟨message_length _ _, a, b, c, d, e, message_crc _ _, rfl, g, by simp [State.lmmMine, r]⟩

theorem met_LmmChecks : let s := hearing .inService id
    0 = s.lanes.prot.active ∧ (s.chan 0).st = .sync ∧ (s.chan 0).rx.judged = true ∧ (s.chan 0).rx.lmm.getLsbD (0 : Fin 3).val = true ∧
    s.domOn dFRM = true ∧ (List.replicate 48 (0 : Byte)).length = 48 ∧
    beAt (List.replicate 48 0) 46 2 ≠ crc16 ((List.replicate 48 (0 : Byte)).take 46) := by decide +kernel
/-- The two ends of the known types, with a length their chapter allows and one it does not. -/
theorem met_LmmChecks_2 : ∀ type ∈ [(1 : Byte), 12], State.lmmArrives (hearing .inService id) 0 0 (message type []) type.toNat ∧
    1 ≤ type.toNat ∧ type.toNat ≤ 12 ∧ (fun k => k == 0) (byteAt (message type []) 3) = true ∧
    (fun k => k == 13) (byteAt (message type []) 3) = false := by
  intro type h
  rcases List.mem_cons.1 h with rfl | h
  · exact ⟨hearing_arrives _ _ _ _ (by decide +kernel), by decide, by decide, rfl, rfl⟩
  · rcases List.mem_cons.1 h with rfl | h
    · exact ⟨hearing_arrives _ _ _ _ (by decide +kernel), by decide, by decide, rfl, rfl⟩
    · cases h

/-- The body of a message reads back. -/
theorem message_body (type : Byte) (b : List Byte) : lmmBody (message type b) = field b 0 40 := by
  apply List.ext_getElem (by simp [lmmBody, message])
  intro i h1 h2
  have h : i < 40 := by simpa using h2
  simp [lmmBody, message, field, Nat.lt_succ_of_lt (Nat.lt_succ_of_lt h)]

/-- A tagged body: what is tagged, and the tag. -/
theorem tagged_take (a t : List Byte) (h : a.length + t.length ≤ 40) : (field (a ++ t) 0 40).take a.length = a := by
  apply List.ext_getElem (by simp; omega)
  intro i h1 h2
  simp [field, List.getElem?_append_left h2, List.getElem?_eq_getElem h2]
theorem tagged_tag (a t : List Byte) (h : a.length + t.length ≤ 40) : field (field (a ++ t) 0 40) a.length t.length = t := by
  apply List.ext_getElem (by simp)
  intro i h1 h2
  have n : a.length + i < 40 := by omega
  simp [field, h2, n]

theorem tag_length (k : BankKey) (rh : Nat) (type : Byte) (a : List Byte) : (lmmTag k rh type a).length = 8 := by simp [lmmTag]
/-- A tag with its first bit flipped is another. -/
def spoil : List Byte → List Byte
  | [] => []
  | x :: t => (x ^^^ 1) :: t
theorem spoil_length (t : List Byte) : (spoil t).length = t.length := by cases t <;> rfl
theorem spoil_ne (t : List Byte) (h : t ≠ []) : spoil t ≠ t := by
  cases t with
  | nil => exact absurd rfl h
  | cons x t =>
    intro e
    have := (List.cons.inj e).1
    revert this
    generalize x = y
    revert y
    decide

theorem beNat_terminalId (m : List Byte) (h : m = beBytes 8 Config.terminalId.toNat) : beNat m = Config.terminalId.toNat := by
  rw [h, beNat_beBytes]
  exact Nat.mod_eq_of_lt (by have := Config.terminalId.isLt; omega)

/-- `ASSIGN_RH` for this terminal: RH 0x7FF, EqD 0. -/
def assign : List Byte := message 1 (beBytes 8 Config.terminalId.toNat ++ [0x07, 0xFF, 0, 0, 0])
theorem met_Messages_1 : State.lmmArrives (hearing .discovery id) 0 0 assign 1 ∧ byteAt assign 3 = 13 ∧
    beAt (lmmBody assign) 0 8 = Config.terminalId.toNat ∧ (hearing .discovery id).reg.st = .discovery ∧
    beAt (lmmBody assign) 8 2 % 4096 ≠ 0 ∧ beAt (lmmBody assign) 8 2 % 4096 ≤ 0x7FF := by
  refine ⟨hearing_arrives _ _ _ _ (by decide +kernel), ?_, ?_, rfl, ?_, ?_⟩
  · rfl
  · exact beNat_terminalId _ rfl
  · decide +kernel
  · decide +kernel

/-- `AUTH_CHAL` in AUTH. -/
theorem met_Messages_2 : let m := message 2 (List.replicate 16 0)
    State.lmmArrives (hearing .auth id) 0 0 m 2 ∧ byteAt m 3 = 16 ∧ (hearing .auth id).reg.st = .auth ∧
    (State.seeSlot (hearing .auth id) 0 0).slotsUnusable = false :=
  ⟨hearing_arrives _ _ _ _ (by decide +kernel), rfl, rfl, by decide +kernel⟩
/-- `KEY_DELIVER`: role 1, generation 1. -/
def keyBody : List Byte := [1, 1] ++ List.replicate 22 0
theorem key_tag (t : List Byte) (h : t.length = 8) :
    (lmmBody (message 3 (keyBody ++ t))).take 24 = keyBody ∧ field (lmmBody (message 3 (keyBody ++ t))) 24 8 = t := by
  rw [message_body]
  refine ⟨?_, ?_⟩
  · exact tagged_take keyBody t (by rw [h]; decide)
  · have := tagged_tag keyBody t (by rw [h]; decide)
    rwa [h] at this
theorem message_rh (type : Byte) (b : List Byte) : beAt (message type b) 0 2 / 16 = 0 := by
  have f : field (message type b) 0 2 = [0, 0] := rfl
  rw [beAt, f]; rfl
theorem keyLen (t : List Byte) (h : t.length = 8) : byteAt (message 3 (keyBody ++ t)) 3 = 32 := by
  have n : (keyBody ++ t).length = 32 := by simp [keyBody, h]
  change (BitVec.ofNat 8 (keyBody ++ t).length).toNat = 32
  rw [n]; rfl
theorem keyHead (t : List Byte) :
    byteAt (lmmBody (message 3 (keyBody ++ t))) 0 = 1 ∧ byteAt (lmmBody (message 3 (keyBody ++ t))) 1 = 1 := by
  rw [message_body]; exact ⟨rfl, rfl⟩
theorem met_Messages_3 (st : Act) (h : st ∈ [Act.auth, .inService, .silent]) (k : BankKey)
    (hk : (State.seeSlot (hearing st id) 0 0).entry eKmac = some k) :
    let m := message 3 (keyBody ++ lmmTag k 0 0x03 keyBody)
    State.lmmArrives (hearing st id) 0 0 m 3 ∧ byteAt m 3 = 32 ∧ byteAt (lmmBody m) 0 ≤ 2 ∧ byteAt (lmmBody m) 1 ≤ 1 ∧
    (State.seeSlot (hearing st id) 0 0).entry eKmac = some k ∧
    ((hearing st id).reg.st = .auth ∨ (hearing st id).reg.st = .inService ∨ (hearing st id).reg.st = .silent) ∧
    field (lmmBody m) 24 8 = lmmTag k (beAt m 0 2 / 16) 0x03 ((lmmBody m).take 24) := by
  intro m
  have t := key_tag (lmmTag k 0 0x03 keyBody) (tag_length ..)
  have q := keyHead (lmmTag k 0 0x03 keyBody)
  refine ⟨hearing_arrives _ _ _ _ ?_, keyLen _ (tag_length ..), ?_, ?_, hk, ?_, ?_⟩
  · simp only [List.mem_cons, List.not_mem_nil, or_false] at h
    rcases h with rfl | rfl | rfl <;> decide +kernel
  · exact q.1.le.trans (by decide)
  · exact q.2.le.trans (by decide)
  · simp only [List.mem_cons, List.not_mem_nil, or_false] at h
    rcases h with rfl | rfl | rfl <;> simp [hearing]
  · rw [t.1, t.2, message_rh]
theorem met_Messages_3_key : (State.seeSlot (hearing .auth id) 0 0).entry eKmac = some { key := [6] } ∧
    (State.seeSlot (hearing .silent id) 0 0).entry eKmac = some { key := [6] } := by decide +kernel
/-- The third wrong tag in AUTH. -/
theorem met_Messages_3_wrong (k : BankKey) :
    let s := hearing .auth fun s => { s with reg := { s.reg with authFails := 2 } }
    let m := message 3 (keyBody ++ spoil (lmmTag k 0 0x03 keyBody))
    State.lmmArrives s 0 0 m 3 ∧ byteAt m 3 = 32 ∧ s.reg.st = .auth ∧ s.reg.authFails = 2 ∧
    field (lmmBody m) 24 8 ≠ lmmTag k (beAt m 0 2 / 16) 0x03 ((lmmBody m).take 24) := by
  intro s m
  have n : (spoil (lmmTag k 0 0x03 keyBody)).length = 8 := by rw [spoil_length, tag_length]
  have t := key_tag _ n
  refine ⟨hearing_arrives _ _ _ _ (by decide +kernel), keyLen _ n, rfl, rfl, ?_⟩
  rw [t.1, t.2, message_rh]
  apply spoil_ne
  intro e
  have := tag_length k 0 0x03 keyBody
  rw [e] at this
  cases this
theorem met_Messages_4 : ∀ r f : Fin 2, let s := hearing .ranging fun s => { s with reg.shotOut := s.reg.shotOut.set r true }
    let m := message 4 [BitVec.ofNat 8 r.val, BitVec.ofNat 8 f.val, 0, 0, 0, 0, 0, 0, 0]
    State.lmmArrives s 0 0 m 4 ∧ byteAt m 3 = 9 ∧ byteAt (lmmBody m) 0 = r.val ∧ byteAt (lmmBody m) 1 = f.val ∧
    s.reg.shotOut[r] = true := by
  intro r f s m
  refine ⟨hearing_arrives _ _ _ _ (by revert r; decide +kernel), rfl, ?_, ?_, ?_⟩
  · revert r f; decide +kernel
  · revert r f; decide +kernel
  · revert r; decide +kernel
theorem met_Messages_5 : let m := message 5 ([0, 9, 0, 0] ++ beBytes 8 Config.terminalId.toNat)
    State.lmmArrives (hearing .inService id) 0 0 m 5 ∧ byteAt m 3 = 12 ∧ beAt (lmmBody m) 4 8 = Config.terminalId.toNat ∧
    ((State.seeSlot (hearing .inService id) 0 0).deregAction (byteAt (lmmBody m) 0) (beAt m 0 2 / 16) (beAt (lmmBody m) 2 2)).isSome = true := by
  refine ⟨hearing_arrives _ _ _ _ (by decide +kernel), rfl, ?_, ?_⟩
  · exact beNat_terminalId _ rfl
  · decide +kernel
theorem met_Messages_6 : let s := hearing .inService id
    let m := message 6 (List.replicate 24 0)
    State.lmmArrives s 0 0 m 6 ∧ byteAt m 3 = 24 ∧ byteAt (lmmBody m) 2 = 0 ∧
    (State.seeSlot s 0 0).leapOk 0 (toSigned 16 (beAt (lmmBody m) 0 2)) (beAt (lmmBody m) 4 8) = true ∧
    s.time.utcOff = toSigned 16 (beAt (lmmBody m) 0 2) :=
  ⟨hearing_arrives _ _ _ _ (by decide +kernel), rfl, by decide +kernel, rfl, by decide +kernel⟩
theorem met_Messages_7 : let s := hearing .silent id
    let m := message 7 [0xFF, 1, 0, 1]
    State.lmmArrives s 0 0 m 7 ∧ byteAt m 3 = 4 ∧ (s.reg.st = .inService ∨ s.reg.st = .silent) :=
  ⟨hearing_arrives _ _ _ _ (by decide +kernel), rfl, .inr rfl⟩
/-- The terminal in DUSK, a night request unanswered. -/
def asked : State := hearing .inService fun s =>
  { s with
    power := { s.power with pstate := .dusk, night := { s.power.night with answerBy := some 9 } }
    fr.ch := s.fr.ch.map fun c => { c with rx := c.rx } }
theorem met_Messages_8 : let m := message 8 ([8] ++ beBytes 8 4000000 ++ [0, 0, 0, 0])
    let r := message 8 ([5] ++ beBytes 8 4000000 ++ [0, 0, 0, 0])
    State.lmmArrives asked 0 0 m 8 ∧ byteAt m 3 = 13 ∧ asked.power.night.answerBy.isSome = true ∧ asked.power.pstate = .dusk ∧
    (State.seeSlot asked 0 0).grantOk 0 (byteAt (lmmBody m) 0) (beAt (lmmBody m) 1 8) = true ∧
    State.lmmArrives asked 0 0 r 8 ∧ byteAt r 3 = 13 ∧
    (State.seeSlot asked 0 0).grantOk 0 (byteAt (lmmBody r) 0) (beAt (lmmBody r) 1 8) = false :=
  ⟨hearing_arrives _ _ _ _ (by decide +kernel), rfl, by decide, by decide, by decide +kernel,
    hearing_arrives _ _ _ _ (by decide +kernel), rfl, by decide +kernel⟩
theorem met_Messages_9 : State.lmmArrives asked 0 0 (message 9 [0, 1]) 9 ∧ byteAt (message 9 [0, 1]) 3 = 2 ∧
    asked.power.night.answerBy.isSome = true := ⟨hearing_arrives _ _ _ _ (by decide +kernel), rfl, by decide⟩
theorem met_Messages_10 : State.lmmArrives (hearing .inService id) 0 0 (message 10 []) 10 ∧ byteAt (message 10 []) 3 = 0 :=
  ⟨hearing_arrives _ _ _ _ (by decide +kernel), rfl⟩
/-- `OWNER_MBX`: access 5, the status notice, `OSEQ` 1. -/
def ownerBody : List Byte := [5, 0, 0, 1, 0, 0, 5] ++ List.replicate 25 0
theorem met_Messages_11 (k : BankKey) (hk : (State.seeSlot (hearing .inService id) 0 0).entry eOwn = some k) :
    let s := hearing .inService id
    let m := message 11 (ownerBody ++ lmmTag k 0 0x0B ownerBody)
    State.lmmArrives s 0 0 m 11 ∧ byteAt m 3 = 40 ∧ (State.seeSlot s 0 0).entry eOwn = some k ∧ s.reg.st = .inService ∧
    field (lmmBody m) 32 8 = lmmTag k (beAt m 0 2 / 16) 0x0B ((lmmBody m).take 32) ∧
    1 ≤ (beAt (lmmBody m) 2 2 + 65536 - (State.seeSlot s 0 0).reg.oseq.getD 0) % 65536 ∧
    (beAt (lmmBody m) 2 2 + 65536 - (State.seeSlot s 0 0).reg.oseq.getD 0) % 65536 ≤ 32767 ∧
    ((State.seeSlot s 0 0).ownerServe (lmmBody m)).isSome = true := by
  intro s m
  have h := tag_length k 0 0x0B ownerBody
  have t1 : (lmmBody m).take 32 = ownerBody := by
    rw [message_body]; exact tagged_take ownerBody _ (by rw [h]; decide)
  have t2 : field (lmmBody m) 32 8 = lmmTag k 0 0x0B ownerBody := by
    rw [message_body]
    have := tagged_tag ownerBody (lmmTag k 0 0x0B ownerBody) (by rw [h]; decide)
    rwa [h] at this
  have q : beAt (lmmBody m) 2 2 = 1 := by
    have f : field (lmmBody m) 2 2 = [0, 1] := by rw [message_body]; rfl
    rw [beAt, f]; rfl
  refine ⟨hearing_arrives _ _ _ _ (by decide +kernel), ?_, hk, rfl, ?_, ?_, ?_, ?_⟩
  · have n : (ownerBody ++ lmmTag k 0 0x0B ownerBody).length = 40 := by rw [List.length_append, h]; rfl
    change (BitVec.ofNat 8 (ownerBody ++ lmmTag k 0 0x0B ownerBody).length).toNat = 40
    rw [n]; rfl
  · rw [t1, t2, message_rh]
  · rw [q]; decide +kernel
  · rw [q]; decide +kernel
  · rw [message_body]; rfl
theorem met_Messages_11_key : (State.seeSlot (hearing .inService id) 0 0).entry eOwn = some { key := [7] } := by decide +kernel
/-- `TRIB_CFG`: a record for each of the two TPS tributaries. -/
theorem met_Messages_12 : let m := message 12 ([2, 0, 0, 0, 0, 12, 0, 0] ++ [3, 0, 1, 0, 0x0A, 0, 0x7A, 0x11] ++ List.replicate 8 0)
    State.lmmArrives (hearing .inService id) 0 0 m 12 ∧ byteAt m 3 = 24 ∧ (tribConfig (lmmBody m)).isSome = true ∧
    ∀ cfg, tribConfig (lmmBody m) = some cfg → ∀ n : Fin 2, (cfg[tribOf n]).isSome = true := by
  refine ⟨hearing_arrives _ _ _ _ (by decide +kernel), rfl, by decide +kernel, ?_⟩
  intro cfg h n
  have e := Option.some.inj h
  subst e
  revert n
  decide +kernel

/-! ### Activation timers and bursts -/

theorem met_ActivationTimers_1 : let s : State := { up with reg := {} }
    s.reg.st = .initial ∧ s.domOn dLNA = true ∧ (∃ l, s.present l = true ∧ s.txFault l = false) ∧
    (∀ l : Fin 2, (s.phy (fibreIx l)).raw = false) ∧ s.boot.core1Up = true :=
  ⟨by decide, by decide +kernel, ⟨0, by decide +kernel⟩, by decide +kernel, by decide⟩
theorem met_ActivationTimers_2 :
    (let s : State := { up with reg := { ({} : Reg) with st := .discovery, tAssign := some 9 } }
     s.reg.tAssign = some 9 ∧ s.reg.st = .discovery) ∧
    (let s : State := { up with reg := { ({} : Reg) with st := .auth, tAuth := some 9 } }
     s.reg.tAuth = some 9 ∧ s.reg.st = .auth) ∧
    (let s : State := { up with reg := { ({} : Reg) with st := .ranging, tRange := some 9 } }
     s.reg.tRange = some 9 ∧ s.reg.st = .ranging) ∧
    (let s : State := { up with reg := { ({} : Reg) with st := .silent, silentBy := some 9 } }
     s.reg.silentBy = some 9 ∧ s.reg.st = .silent) := by decide +kernel
theorem met_ActivationTimers_6 : ∀ l : Fin 2, let s : State := { up with reg.eqdNext := Vector.replicate 2 (some { frame := 3, value := 7 }) }
    s.reg.eqdNext[l] = some { frame := 3, value := 7 } := by decide +kernel
/-- A lane that may light its optics, in a state of registration. -/
def lit (st : Act) (f : Reg → Reg) : State :=
  { channel .sync id with reg := f { ({} : Reg) with st := st, rh := 5 }, clk.dpll := .track }
theorem met_ActivationTimers_7 : let x : Shot := { frame := 3, start := 100 }
    let s := lit .discovery fun r => { r with serial := some x }
    let at_ := s.tickAt s.lanes.prot.active x.frame x.start
    let s2 : State := { s.reach at_ with reg := { s.reg with serial := none, tAssign := some (at_ + 16000000) } }
    s.reg.serial = some x ∧ s.reg.st = .discovery ∧ s2.mayTransmit s.lanes.prot.active = true := by decide +kernel
theorem met_ActivationTimers_8 : let x : Shot := { frame := 3, start := 100 }
    let s := lit .ranging fun r => { r with rangeShot := r.rangeShot.set 0 [x] }
    let at_ := s.tickAt 0 x.frame x.start
    let s2 : State := { s.reach at_ with reg.rangeShot := s.reg.rangeShot.set 0 [] }
    let d := up.modPhy 0 id
    let s3 : State := { d with reg.rangeShot := d.reg.rangeShot.set 0 [x] }
    s.reg.rangeShot[(0 : Fin 2)] = x :: [] ∧ s2.mayTransmit 0 = true ∧ s2.onFibre at_ = false ∧ 0 = s.lanes.prot.active ∧
    s2.eqdOverlap 0 at_ = false ∧ s3.reg.rangeShot[(0 : Fin 2)] = x :: [] ∧
    ({ s3.reach (s3.tickAt 0 x.frame x.start) with reg.rangeShot := s3.reg.rangeShot.set 0 [] } : State).mayTransmit 0 = false := by
  decide +kernel

/-! ### Upstream bursts -/

/-- A burst of a stream, frozen and with its slot closed. -/
def burst (frozen : Bool) : Burst :=
  { gs := 0, frame := 3, start := 100, len := 250, long := false, report := false, slot := false, forecast := false, rx := 0
    bound := some (0, true), slotClosed := true, frozen := frozen }
/-- A stream that holds a burst, with an entry of the grant table for it. -/
def bursting (b : Burst) (table : List Grant) : State :=
  let s := lit .inService id
  { s.modGs 0 fun x => { x with bursts := [b] } with us.table := table }
/-- The entry of the burst. -/
def entryOf : Grant :=
  { frame := 3, rxFrame := 1, gs := 0, start := 100, len := 250, long := false, report := false, lmm := false
    ranging := false, slot := false, short := false }
theorem met_BurstEngine_1 : ((bursting (burst true) [entryOf]).us.table.map (·.frame)).min? = some 3 := by decide +kernel
theorem met_BurstEngine_1b : let s : State := { up with us.standby := [entryOf] }
    s.us.table = [] ∧ (s.us.standby.map (·.frame)).min? = some 3 := by decide +kernel
theorem met_BurstEngine_2 : let s := bursting (burst false) []
    ((s.resolveGs 0).gs 0).bursts.find? (fun b => !b.frozen) = some (burst false) := by decide +kernel
theorem met_BurstEngine_3 : let b : Burst := { burst false with slot := true, forecast := true, slotClosed := false }
    ((bursting b []).gs 0).bursts.find? (fun b => b.slot && b.forecast && !b.slotClosed) = some b := by decide +kernel
theorem met_BurstEngine_4 : let s : State := { up with cip.sealq := [(0, false, 9)] }
    (s.startJobs.cip.sealq.find? fun p => s.startJobs.runsOn (.seal p.1 p.2.1 p.2.2)) = some (0, false, 9) := by decide +kernel
theorem met_BurstEngine_5 : let s := up.modGs 7 fun x => { x with undo := [{ q := 0, frame := { bytes := [] }, iv := 9, c0 := 0, t0 := 0 }] }
    (s.gs 7).undo ≠ [] := by decide +kernel
theorem met_BurstEngine_6 : let s := bursting (burst true) []
    let r := bursting (burst true) [entryOf]
    let at_ := s.burstAt (burst true)
    (s.gs 0).bursts.find? (fun b => b.bound.isSome) = some (burst true) ∧ (s.reach at_).granted (burst true) = false ∧
    (s.reach at_).eqdOverlap s.lanes.prot.active at_ = false ∧
    (r.gs 0).bursts.find? (fun b => b.bound.isSome) = some (burst true) ∧ (r.reach at_).granted (burst true) = true ∧
    (r.reach at_).mayTransmit r.lanes.prot.active = true ∧ (r.reach at_).eqdOverlap r.lanes.prot.active at_ = false ∧
    (r.reach at_).onFibre at_ = false ∧
    ((r.reach at_).gs 0).bursts.find? (fun b => b.frame == 3 && b.start == 100) = some (burst true) := by decide +kernel
theorem met_BurstEngine_7 : let b : Sending := { lane := 0, end_ := 9, gs := 0, pkts := 0 }
    let s : State := { up with us.sending := some b }
    s.us.sending = some b := by decide +kernel

/-! ### Terminal time -/

/-- A tenant's session in a state, with a target rate or none. -/
def timed (st : SState) (target : Option Int) : State :=
  { up with time := { up.time with sstate := st, source := .tenant 1, target := target } }
theorem met_TimeCommands_1 : (ask up 0x0501 [1]).sends 0 0 0x0501 [(0, 1)] ∧ (ask up 0x0501 [1]).prm1 0 0 0 = 1 ∧
    (ask up 0x0502 []).sends 0 0 0x0502 [] := by decide +kernel
theorem met_TimeCommands_2 : let s := ask { up with reg.st := .inService } 0x0503 [1]
    s.sends 0 0 0x0503 [(0, 1)] ∧ s.time.sstate = .none ∧ s.prm1 0 0 0 = 1 ∧ s.ownerAt 0 0 = true ∧ s.inService = true := by
  decide +kernel
theorem met_TimeCommands_3 : let s := askBy ({ up with mbx.leases := [(7, 1)] }.modTen 1 fun x => { x with cfg.auth := 2 }) 1 0x0503 [2]
    s.sends 1 0 0x0503 [(0, 1)] ∧ s.time.sstate = .none ∧ s.prm1 1 0 0 = 2 ∧ s.holdsAt 1 0 1 = true ∧ s.leasedAt 1 0 7 = true ∧
    s.inService = false ∧ s.silent = false := by decide +kernel
/-- The owner of the time lease. -/
def timer (s : State) : State := { s with mbx.leases := [(7, 0)] }
theorem met_TimeCommands_4 : let s := ask (timer (timed .locked none)) 0x0504 []
    s.sends 0 0 0x0504 [] ∧ s.time.sstate ≠ .none := by decide +kernel
theorem met_TimeCommands_5 : let s := ask (timer (timed .unstepped none)) 0x0505 ([0, 0, 0, 0, 0, 0, 0, 0] ++ leBytes 8 5 ++ [0xFF, 0xFF])
    s.sends 0 0 0x0505 [(0, 1), (8, 10)] ∧ s.prm1 0 0 0 = 0 ∧ s.time.sstate = .unstepped ∧ (∃ u, s.time.source = .tenant u) ∧
    s.time.spent = false ∧ 0 ≤ s.ttU + (toSigned 64 (s.prm 0 0 8 8) * 65536 + s.prm 0 0 16 2) ∧
    ((s.ttU : Int) + (toSigned 64 (s.prm 0 0 8 8) * 65536 + s.prm 0 0 16 2)) / (65536 * 10 ^ 9) - s.time.utcOff < 146097 * 86400 :=
  ⟨by decide +kernel, by decide +kernel, rfl, ⟨1, rfl⟩, rfl, by decide +kernel, by decide +kernel⟩
theorem met_TimeCommands_6 : let s := ask (timer (timed .locked none)) 0x0506 (leBytes 4 (2 ^ 31 - 1) ++ [0, 0, 0, 0] ++ leBytes 8 0)
    s.sends 0 0 0x0506 [(0, 5), (8, 8)] ∧ s.prm1 0 0 4 = 0 ∧ s.prm 0 0 0 4 ≠ 2 ^ 31 ∧ s.time.sstate = .locked ∧
    (∃ u, s.time.source = .tenant u) :=
  ⟨by decide +kernel, by decide +kernel, by decide +kernel, rfl, ⟨1, rfl⟩⟩
theorem met_TimeCommands_7 : ∀ i : Fin 16, ∀ x ∈ [1000001, 1000000 + 2 ^ 47 - 1],
    let s := ask up 0x0507 ([BitVec.ofNat 8 i.val, 0, 0, 0, 0, 0, 0, 0] ++ leBytes 8 x)
    let p := ask up 0x0507 [BitVec.ofNat 8 i.val, 1, 0, 0, 0, 0, 0, 0, 0, 0, 0, 0, 0, 0, 0, 0]
    s.sends 0 0 0x0507 [(0, 2), (8, 8)] ∧ s.prm1 0 0 0 = i.val ∧ s.time.cmps[i] = none ∧ s.prm1 0 0 1 = 0 ∧
    s.ttNs < s.prm 0 0 8 8 ∧ s.prm 0 0 8 8 ≤ s.ttNs + (2 ^ 47 - 1) ∧
    p.sends 0 0 0x0507 [(0, 2), (8, 8)] ∧ p.prm1 0 0 0 = i.val ∧ p.time.cmps[i] = none ∧ p.prm1 0 0 1 ≤ 1 ∧
    p.prm 0 0 8 8 ≤ p.ttNs := by decide +kernel
/-- A comparator armed by the owner. -/
def armed (i : Fin 16) : State := { up with time.cmps := up.time.cmps.set i (some ⟨0, 9, false⟩) }
theorem met_TimeCommands_8 : ∀ i : Fin 16, let s := ask (armed i) 0x0508 [BitVec.ofNat 8 i.val]
    let r := ask up 0x0508 [BitVec.ofNat 8 i.val]
    s.sends 0 0 0x0508 [(0, 1)] ∧ s.prm1 0 0 0 = i.val ∧ s.time.cmps[i] = some ⟨0, 9, false⟩ ∧
    r.sends 0 0 0x0508 [(0, 1)] ∧ r.prm1 0 0 0 = i.val ∧ r.time.cmps[i] = none := by decide +kernel
theorem met_TimeCommands_9 : let s := ask up 0x0509 [0]
    s.sends 0 0 0x0509 [(0, 1)] ∧ s.prm1 0 0 0 = 0 ∧ (s.time.date s.ttNs 0).isSome = true := by decide +kernel
theorem met_TimeCommands_10 : ∀ z ∈ [(-1440 : Int), 1440], let s := ask up 0x050A (leInt 2 z)
    let r := ask up 0x050A (leInt 2 (-1441))
    s.sends 0 0 0x050A [(0, 2)] ∧ toSigned 16 (s.prm 0 0 0 2) = z ∧
    r.sends 0 0 0x050A [(0, 2)] ∧ toSigned 16 (r.prm 0 0 0 2) < -1440 := by decide +kernel
theorem met_TimeCommands_11 : ∀ i : Fin 4, ∀ x ∈ [0, 1],
    let s := ask up 0x050B ([BitVec.ofNat 8 i.val, 0, 0, 0, 0, 0, 0, 0] ++ leBytes 8 x)
    s.sends 0 0 0x050B [(0, 2), (8, 8)] ∧ s.prm1 0 0 0 = i.val ∧ s.prm1 0 0 1 = 0 ∧ s.prm 0 0 8 8 = x ∧ s.ttNs / 10 ^ 9 = 0 := by
  decide +kernel
theorem met_TimeCommands_12 : ∀ w ∈ [1, 500000], let s := ask up 0x050C ([1, 0, 0, 0] ++ leBytes 4 w)
    s.sends 0 0 0x050C [(0, 1), (4, 4)] ∧ s.mayDrive 0 0 = true ∧ s.prm1 0 0 0 = 1 ∧ s.prm 0 0 4 4 = w := by decide +kernel
theorem met_TimeCommands_13 : ∀ f ∈ [1000, 100000000], let s := ask up 0x050D ([2, 0, 0, 0] ++ leBytes 4 f ++ leBytes 8 0 ++ leBytes 2 1)
    s.sends 0 0 0x050D [(0, 1), (4, 14)] ∧ s.mayDrive 0 0 = true ∧ s.prm1 0 0 0 = 2 ∧ s.prm 0 0 4 4 = f ∧ 1 ≤ s.prm 0 0 16 2 := by
  decide +kernel
/-- A pulse output whose idle level is high. -/
def inverted (i : Fin 2) : State := { up with time.pulses := up.time.pulses.set i { up.time.pulses[i] with invert := true } }
theorem met_TimeCommands_14 : ∀ i : Fin 2, ∀ x ∈ [1000008, 1000000 + 2 ^ 47 - 1],
    let s := ask (inverted i) 0x050E ([BitVec.ofNat 8 i.val, 0, 1, 0, 0, 0, 0, 0] ++ leBytes 8 x ++ leBytes 8 (x + 8))
    s.sends 0 0 0x050E [(0, 3), (8, 16)] ∧ s.mayDrive 0 0 = true ∧ s.prm1 0 0 1 = 0 ∧ s.prm1 0 0 2 ≤ 1 ∧ s.prm1 0 0 0 = i.val ∧
    s.time.pulses[i].active = false ∧ s.time.pulses[i].start = none ∧
    s.time.pulses[i].invert = bit (s.prm1 0 0 2) 0 ∧ s.prm 0 0 8 8 ≤ s.prm 0 0 16 8 ∧
    s.prm 0 0 8 8 / 8 * 8 < s.prm 0 0 16 8 / 8 * 8 ∧ s.ttNs < s.prm 0 0 8 8 / 8 * 8 ∧
    s.prm 0 0 8 8 ≤ s.ttNs + (2 ^ 47 - 1) := by decide +kernel
/-- A pulse scheduled, or active, on an output. -/
def pulsed (i : Fin 2) (active : Bool) : State :=
  { up with time.pulses := up.time.pulses.set i { active := active, start := if active then none else some 800, stop := some 808 } }
theorem met_TimeCommands_15 : ∀ i : Fin 2, let s := ask (pulsed i false) 0x050E [BitVec.ofNat 8 i.val, 3, 0]
    s.sends 0 0 0x050E [(0, 3)] ∧ s.mayDrive 0 0 = true ∧ s.prm1 0 0 1 = 3 ∧ s.prm1 0 0 2 ≤ 1 ∧ s.prm1 0 0 0 = i.val ∧
    s.time.pulses[i].start = some 800 ∧ 800 ≠ s.ttNs / 8 * 8 := by decide +kernel
theorem met_TimeCommands_16 : ∀ i : Fin 4, let s := ask up 0x050F [BitVec.ofNat 8 i.val, 3]
    let r := ask up 0x0510 [BitVec.ofNat 8 i.val]
    s.sends 0 0 0x050F [(0, 2)] ∧ s.prm1 0 0 0 = i.val ∧ s.prm1 0 0 1 ≤ 3 ∧ r.sends 0 0 0x0510 [(0, 1)] ∧ r.prm1 0 0 0 = i.val := by
  decide +kernel
theorem met_TimeCommands_17 : let s := ask up 0x0511 [1, 0, 2, 0, 3, 0, 0]
    s.sends 0 0 0x0511 [(0, 7)] ∧ s.prm1 0 0 6 = 0 := by decide +kernel
theorem met_TimeEvents_1 : ∀ i : Fin 16, (armed i).time.cmps[i] = some ⟨0, 9, false⟩ ∧ (⟨0, 9, false⟩ : Cmp).parked = false ∧ (armed i).domOn dPLL = true ∧
    0 ≤ toSigned 48 ((((armed i).reachTt 9).ttNs + 2 ^ 48 - 9 % 2 ^ 48) % 2 ^ 48) := by decide +kernel
theorem met_TimeEvents_2 : ∀ i : Fin 4, let s : State := { up with time.alarms := up.time.alarms.set i (some 9) }
    s.time.alarms[i] = some 9 ∧ s.domOn dTKP = true := by decide +kernel
theorem met_TimeEvents_3 : let s : State := { up with time.pps := { mode := .always, last := some 0 } }
    s.domOn dPLL = true ∧ s.time.pps.mode = .always ∧ s.time.pps.last = some 0 ∧ (s.ttNs + 999999999) / 10 ^ 9 ≤ 0 + 1 := by
  decide +kernel
theorem met_TimeEvents_4 : let s : State := { up with time.grid := { mode := .always, n := 2, cycle := some 0 } }
    s.domOn dPLL = true ∧ s.time.grid.mode = .always ∧ s.time.grid.f ≠ 0 ∧ s.nextCycle % s.time.grid.n ≠ 0 := by decide +kernel
theorem met_TimeEvents_5 : ∀ i : Fin 2, (pulsed i false).time.pulses[i].start = some 800 ∧ (pulsed i false).domOn dPLL = true ∧
    (pulsed i true).time.pulses[i].stop = some 808 ∧ (pulsed i true).time.pulses[i].active = true ∧
    (pulsed i true).domOn dPLL = true := by decide +kernel
theorem met_TimeEvents_6 : ({ up with time.leapKind := 1 } : State).time.leapKind = 1 := rfl
/-- A usable stamp of lane A with an error. -/
def stampOf (e : Int) : HeadStamp := { lane := 0, capture := 0 + downDelay 0 0 0 + e, heTs := 0, rtd := some 0, timing := some (0, 0, 0) }
/-- Its session in a state. -/
def stamped (st : SState) (bad : Nat) (e : Int) : State :=
  { up with
    reg := { ({} : Reg) with st := .inService, ranged := Vector.replicate 2 true }
    time := { up.time with sstate := st, source := .head, bad := bad, stamp := some (stampOf e) } }
theorem stamped_error (st : SState) (bad : Nat) (e : Int) : (stamped st bad e).stampError (stampOf e) = some e := by
  have b : ((stamped st bad e).boot.core1Up && (stamped st bad e).activeLane == some 0 && (stamped st bad e).reg.ranged[(0 : Fin 2)]) = true := rfl
  simp only [State.stampError, stampOf, b, if_true]
  congr 1
  simp
theorem met_TimeEvents_7 (e : Int) : ∃ st, (stamped .unstepped 0 e).time.stamp = some st ∧
    (stamped .unstepped 0 e).stampError st = some e ∧ (stamped .unstepped 0 e).time.source = .head ∧
    (stamped .unstepped 0 e).time.sstate = .unstepped := ⟨_, rfl, stamped_error .unstepped 0 e, rfl, rfl⟩
/-- The two sides of 1 ms. -/
theorem met_TimeEvents_8 (e : Int) (_ : e = 65536000000 ∨ e = 65536000001) : ∃ st, (stamped .locked 3 e).time.stamp = some st ∧
    (stamped .locked 3 e).stampError st = some e ∧ (stamped .locked 3 e).time.source = .head ∧
    (stamped .locked 3 e).time.sstate = .locked ∧ (stamped .locked 3 e).time.bad = 3 :=
  ⟨_, rfl, stamped_error .locked 3 e, rfl, rfl, rfl⟩
theorem met_TimeEvents_9 : let s := timed .locked (some 5)
    s.time.sstate = .locked ∧ s.boot.core1Up = true ∧ s.power.pstate ≠ .night ∧ s.time.source = .tenant 1 ∧
    s.time.target = some 5 := by decide +kernel
theorem met_TimeEvents_10 : (stamped .locked 0 0).time.source = .head ∧ (stamped .locked 0 0).time.sstate = .locked ∧
    (stamped .locked 0 0).power.pstate ≠ .night ∧ up.time.tk = none := ⟨rfl, rfl, by decide, rfl⟩
/-- A capture input for both edges with a FIFO of a length. -/
def capturing (i : Fin 4) (n : Nat) : State :=
  { up with time.caps := up.time.caps.set i { cfg := 3, fifo := List.replicate n { tt := 0, rising := true, est := false, loss := false } } }
theorem met_TimeEvents_11 : ∀ i : Fin 4, ∀ rising : Bool, ∀ n ∈ [15, 16], let s := capturing i n
    s.ballActs (.tsIn i) = true ∧ s.time.caps[i].cfg.getLsbD (if rising then 0 else 1) = true ∧ s.time.caps[i].lastEdge = none ∧
    s.time.caps[i].fifo.length = n := by decide +kernel

/-! ### Clock synthesis -/

theorem met_ClockSynthesis_1 : (∀ b ∈ [(0 : Byte), 1], (ask up 0x0601 [b]).sends 0 0 0x0601 [(0, 1)] ∧
    (ask up 0x0601 [b]).prm1 0 0 0 = b.toNat) := by decide +kernel
theorem met_ClockSynthesis_2 : ∀ i : Fin 32, let s := ask up 0x0602 [BitVec.ofNat 8 i.val, 1]
    s.sends 0 0 0x0602 [(0, 2)] ∧ s.prm1 0 0 0 = i.val ∧ s.prm1 0 0 1 = 1 := by decide +kernel
/-- The terminal in the factory. -/
def factory : State := { up with fuses.life := .factory }
theorem met_ClockSynthesis_3 : ∀ i : Fin 32,
    let s := ask factory 0x0603 ([BitVec.ofNat 8 i.val, 1, 0, 0, 0, 0, 0, 0] ++ leBytes 8 defaultBands[0].toNat)
    s.sends 0 0 0x0603 [(0, 3), (8, 8)] ∧ s.prm1 0 0 0 = i.val ∧ s.prm1 0 0 1 = 1 ∧ s.prm1 0 0 2 = 0 ∧
    bandsOk (bandsPut s.clk.bands i.val [BitVec.ofNat 64 (s.prm 0 0 8 8)]) = true ∧ s.inFactory = true ∧
    s.clk.searching = false := by decide +kernel
theorem met_ClockSynthesis_4 : ∀ x ∈ [(0, 1), (1, 1), (2 ^ 23 - 1, 2)], let s := ask up 0x0604 (leBytes 4 x.1 ++ leBytes 1 x.2 ++ [0])
    s.sends 0 0 0x0604 [(0, 6)] ∧ s.prm 0 0 0 4 = x.1 ∧ s.prm 0 0 0 4 < 2 ^ 23 ∧ s.prm1 0 0 4 = x.2 ∧ s.prm1 0 0 5 = 0 := by
  decide +kernel
theorem met_ClockSynthesis_5 : ∀ b ∈ [(0 : Byte), 3], let s := ask up 0x0605 [b, 0]
    s.sends 0 0 0x0605 [(0, 2)] ∧ s.prm1 0 0 0 ≤ 3 ∧ s.prm1 0 0 1 = 0 := by decide +kernel
theorem met_ClockSynthesis_6 : let s := ask factory 0x0606 []
    s.sends 0 0 0x0606 [] ∧ s.inFactory = true ∧ s.clk.searching = false := by decide +kernel
theorem met_ClockSynthesis_6b : let s := ask { up with ao.dbg.level := 2 } 0x0606 []
    s.sends 0 0 0x0606 [] ∧ s.thawed = true ∧ s.clk.searching = false := by decide +kernel
/-- The clock unit in a state. -/
def clocked (f : Clk → Clk) : State := { up with clk := f up.clk }
theorem met_ClockSynthesis_7 : let s := clocked fun x => { x with lock := true, refOk := true, fallback := false, relock := none }
    s.domOn dPLL = true ∧ s.clk.lock = true ∧ s.clk.fallback = false ∧ s.clk.relock = none ∧ s.clk.refOk = true ∧
    (∀ e ∈ [759, 767], 759 ≤ e ∧ e ≤ 767) ∧ (∀ e ∈ [758, 768], e < 759 ∨ 767 < e) := by decide +kernel
theorem met_ClockSynthesis_8 : let s := clocked fun x => { x with lock := false, coast := true, relock := none, recloseBy := some 9 }
    s.domOn dPLL = true ∧ s.clk.coast = true ∧ s.clk.relock = none ∧ s.clk.lock = false ∧ s.clk.recloseBy ≠ none ∧
    s.clk.recloseBy = some 9 := by decide +kernel
/-- A lock search. -/
def searching (tries : List (Fin 32)) (retryAt : Option Nat) : State :=
  clocked fun x => { x with lock := false, relock := some { tries := tries, attemptBy := some 9, retryAt := retryAt, stopped := [dLNA], by_ := none } }
theorem met_ClockSynthesis_9 : let s := searching [3, 4] none
    s.domOn dPLL = true ∧ s.clk.lock = false ∧
    s.clk.relock = some { tries := [3, 4], attemptBy := some 9, retryAt := none, stopped := [dLNA], by_ := none } := by decide +kernel
theorem met_ClockSynthesis_10 : (searching [3] none).clk.relock =
    some { tries := [3], attemptBy := some 9, retryAt := none, stopped := [dLNA], by_ := none } := by decide +kernel
theorem met_ClockSynthesis_11 : (searching [] (some 5)).clk.relock =
    some { tries := [], attemptBy := some 9, retryAt := some 5, stopped := [dLNA], by_ := none } := by decide +kernel
/-- DPLL-T while the active lane is in SYNC. -/
def loop (d : Dpll) (jumped : Bool) : State :=
  { channel .sync id with clk := { up.clk with lock := true, dpll := d, jumped := jumped } }
theorem met_ClockSynthesis_12 : ∀ j : Bool, let s := loop .acquire j
    s.clk.lock = true ∧ s.boot.core1Up = true ∧ s.activeSync = true ∧ s.clk.dpll = .acquire ∧ s.clk.jumped = j ∧
    (-10 : Int).natAbs ≤ 10 ∧ 10 < (-11 : Int).natAbs := by decide +kernel
theorem met_ClockSynthesis_13 : let s := loop .track true
    s.clk.dpll = .track ∧ s.clk.lock = true ∧ s.boot.core1Up = true ∧ s.activeSync = true := by decide +kernel

/-! ### Parsing and rules -/

/-- The parser in a state. -/
def parsing (f : Parser → Parser) : State := { up with pars := f up.pars }
theorem met_RulesCommands_1 : (ask up 0x0901 [0]).sends 0 0 0x0901 [(0, 1)] ∧ (ask up 0x0901 [0]).prm1 0 0 0 = 0 := by decide +kernel
theorem met_RulesCommands_2 : let s := askBulk up 0x0902 (List.replicate 216 0)
    s.runs 0 0 0x0902 = true ∧ s.recordsOk 0 0 216 5 = true ∧ s.pars.pause = none := by decide +kernel
theorem met_RulesCommands_3 : let s := askBulk up 0x0903 (List.replicate 208 0)
    s.runs 0 0 0x0903 = true ∧ s.recordsOk 0 0 104 256 = true ∧ s.pars.pause = none := by decide +kernel
theorem met_RulesCommands_4 : ∀ p ∈ [(0, none, none), (0, some 0, none), (0, some 0, some 1), (1, none, none)],
    let s := ask (parsing fun x => { x with staging := some 2, drain := p.2.1, queued := p.2.2, cur := 3 }) 0x0904 [BitVec.ofNat 8 p.1, 0]
    s.sends 0 0 0x0904 [(0, 2)] ∧ s.prm1 0 0 1 = 0 ∧ s.pars.pause = none ∧ s.pars.staging = some 2 ∧ s.prm1 0 0 0 = p.1 ∧
    s.pars.drain = p.2.1 ∧ s.pars.queued = p.2.2 := by decide +kernel
theorem met_RulesCommands_5 : let s := ask (parsing fun x => { x with staging := some 2 }) 0x0905 []
    s.sends 0 0 0x0905 [] ∧ s.pars.pause = none ∧ s.pars.staging = some 2 := by decide +kernel
theorem met_RulesCommands_6 : let s := ask up 0x0906 (leBytes 2 4095 ++ [0, 0] ++ leBytes 4 8)
    s.sends 0 0 0x0906 [(0, 2), (4, 4)] ∧ s.prm 0 0 0 2 ≤ 4095 ∧ s.rangeOk 0 0 (s.prm 0 0 4 4) 104 = true := by decide +kernel
theorem met_RulesCommands_7 : ∀ l : Fin 4, ∀ k ∈ [0, 1], let s := ask up 0x0907 [BitVec.ofNat 8 l.val, BitVec.ofNat 8 k]
    s.sends 0 0 0x0907 [(0, 2)] ∧ s.pars.pause = none ∧ s.prm1 0 0 0 = l.val ∧ s.prm1 0 0 1 = k ∧ s.pars.lanesIn[l] = true ∧
    s.pars.laneOut[l] = none ∧ s.pars.laneIn[l] = none ∧ s.pars.lanesUp ≠ 1 := by decide +kernel
theorem met_RulesCommands_8 : ∀ l : Fin 4,
    let s := ask (parsing fun x => { x with lanesIn := (Vector.replicate 4 false).set l true }) 0x0907 [BitVec.ofNat 8 l.val, 0]
    s.sends 0 0 0x0907 [(0, 2)] ∧ s.pars.pause = none ∧ s.prm1 0 0 0 = l.val ∧ s.prm1 0 0 1 = 0 ∧ s.pars.lanesIn[l] = true ∧
    s.pars.laneOut[l] = none ∧ s.pars.lanesUp = 1 := by decide +kernel
theorem met_RulesCommands_9 : let s := ask up 0x0908 (leBytes 2 2047 ++ [1, 1])
    s.sends 0 0 0x0908 [(0, 4)] ∧ s.prm1 0 0 2 = 1 ∧ s.prm1 0 0 3 = 1 ∧ s.prm 0 0 0 2 < 2048 := by decide +kernel
theorem met_RulesCommands_10 : ∀ d ∈ [50, 2000], let s := ask up 0x0909 (leBytes 2 d ++ [0])
    s.sends 0 0 0x0909 [(0, 3)] ∧ s.prm 0 0 0 2 = d ∧ s.prm1 0 0 2 = 0 := by decide +kernel
theorem met_ParserRows_1 : up.domOn dPKT = true ∧ ∀ src, up.fifoFill src + (List.replicate 60 (0 : Byte)).length ≤ 16384 := by
  decide +kernel
theorem met_ParserRows_1b : ∀ src, 16384 < up.fifoFill src + (List.replicate 16385 (0 : Byte)).length := by
  intro src
  rw [List.length_replicate]
  omega
/-- A frame of type 0x1234. -/
def typed : Frame := { bytes := List.replicate 12 0 ++ [0x12, 0x34] ++ List.replicate 46 0 }
/-- A profile that selects it, with two bytes of its destination address in the key. -/
def profiled (f : Parser → Parser) : State :=
  parsing fun x => f { x with
    profiles := x.profiles.map fun v => v.set 0 { valid := true, etype := 0x1234, mask := 0xFFFF, fields := [(0, 2, [0xFF, 0xFF])] } }
/-- Its key under that profile. -/
def typedKey (src : Fin 4) : List Byte :=
  match parse (profiled id).pars.profiles[(0 : Fin 4)] { typed with src := src } with
  | .key _ _ k => k
  | _ => []
theorem met_ParserRows_2 : ∀ src : Fin 4, let s := profiled fun x => { x with fifo := x.fifo.set src [typed] }
    s.nextIngress = some src ∧ s.pars.fifo[src] = typed :: [] ∧
    parse s.pars.profiles[s.pars.cur] { typed with src := src } = .key false 0 (typedKey src) := by decide +kernel
/-- A frame in flight, in place. -/
def flight (a : FlightAt) : Flight := { seq := 1, tag := 0, frame := { typed with src := 2 }, key := typedKey 2, prof := 0, n := 0, at_ := a }
/-- The reorder buffer of source 2 holds it. -/
def flying (a : FlightAt) (f : Parser → Parser) : State :=
  profiled fun x => f { x with reorder := x.reorder.set 2 [flight a] }
theorem met_ParserRows_3 : ∀ l : Fin 4, oldestFlight ((flying (.lane l) id).inLane l) = some (flight (.lane l)) := by decide +kernel
theorem met_ParserRows_4 : let s := flying (.slow 9) fun x => { x with slow := [{ src := 2, n := 0, size := 60 }] }
    s.boot.core0Up = true ∧ s.pars.slow = { src := 2, n := 0, size := 60 } :: [] ∧ ((s.reorder 2).find? fun f => f.n == 0) = some (flight (.slow 9)) ∧
    (flight (.slow 9)).at_ = .slow 9 ∧ s.nextLate = some (flight (.slow 9), 9) ∧ s.pars.slowSecond = 0 := by decide +kernel
theorem met_ParserRows_5 : ∀ a ∈ [FlightAt.decided 7, .dropped, .lane 3], (flying a id).reorder 2 = flight a :: [] := by decide +kernel
theorem met_ParserRows_6 : (parsing fun x => { x with drain := some 1 }).inFlight 1 = false ∧
    (flying .dropped fun x => { x with drain := some 0 }).inFlight 0 = true := by decide +kernel
theorem met_ParserRows_7 : let p : PauseUpd := { ten := 0, slot := 0, by_ := 9, persist := false }
    let s := { parsing fun x => { x with pause := some p, staging := some 1 } with mbx.leases := [(8, 0)] }
    s.pars.pause = some p ∧ s.pars.staging = some 1 ∧ s.inFlight s.pars.cur = false ∧ p.orphan = false ∧
    s.hasLease p.ten 8 = true := by decide +kernel
theorem met_ParserRows_8 : ∀ l : Fin 4,
    let s := parsing fun x => { x with laneOut := x.laneOut.set l (some (some (0, 0))), laneIn := x.laneIn.set l (some (some (0, 1))) }
    s.pars.laneOut[l] = some (some (0, 0)) ∧ s.inLane l = [] ∧ s.pars.laneIn[l] = some (some (0, 1)) := by decide +kernel

/-! ### Queues and ports -/

theorem met_TrafficCommands_1 : (ask up 0x0A01 [0]).sends 0 0 0x0A01 [(0, 1)] ∧ (ask up 0x0A01 [0]).prm1 0 0 0 = 0 := by decide +kernel
theorem met_TrafficCommands_2 : ∀ i ∈ [(64 : Fin 184), 183],
    let s := ask up 0x0A02 ([BitVec.ofNat 8 i.val, 0] ++ leBytes 2 9 ++ leBytes 2 9 ++ [0, 0] ++ leBytes 16 0)
    s.sends 0 0 0x0A02 [(0, 6), (8, 16)] ∧ 64 ≤ i.val ∧ byteAt (s.params 0 0) 0 = i.val ∧ byteAt (s.params 0 0) 1 ≤ 1 ∧
    (queueParams (s.params 0 0)).ok i.val = true := by decide +kernel
theorem met_TrafficCommands_3 : ∀ i ∈ [(0 : Fin 184), 183], let s := ask up 0x0A03 [BitVec.ofNat 8 i.val]
    s.sends 0 0 0x0A03 [(0, 1)] ∧ s.prm1 0 0 0 = i.val := by decide +kernel
theorem met_TrafficCommands_4 : ∀ i ∈ [(0 : Fin 128), 127],
    let s := ask up 0x0A04 ([BitVec.ofNat 8 i.val, 0, 3, 0] ++ leBytes 4 0 ++ leBytes 4 10000000 ++ leBytes 4 64 ++ leBytes 4 16777215)
    s.sends 0 0 0x0A04 [(0, 3), (4, 16)] ∧ byteAt (s.params 0 0) 0 = i.val ∧ byteAt (s.params 0 0) 1 = 0 ∧
    byteAt (s.params 0 0) 2 ≤ 3 ∧ (policerParams (s.params 0 0)).ok = true := by decide +kernel
theorem met_TrafficCommands_5 : ∀ c ∈ [(512, (2 : Byte), (1 : Byte)), (7680, 15, 14)],
    let s := ask up 0x0A05 (leBytes 2 c.1 ++ [c.2.1, c.2.2, c.2.1, c.2.2, 0])
    s.sends 0 0 0x0A05 [(0, 7)] ∧ leAt (s.params 0 0) 0 2 = c.1 ∧ byteAt (s.params 0 0) 2 = c.2.1.toNat ∧
    byteAt (s.params 0 0) 3 = c.2.2.toNat ∧ byteAt (s.params 0 0) 4 = c.2.1.toNat ∧ byteAt (s.params 0 0) 5 = c.2.2.toNat ∧
    byteAt (s.params 0 0) 6 = 0 := by decide +kernel
theorem met_TrafficCommands_6 : ∀ l : Fin 2, let s := ask up 0x0A06 [BitVec.ofNat 8 (2 + l.val), 0, 1, 0, 9, 0]
    s.sends 0 0 0x0A06 [(0, 3), (4, 2)] ∧ s.prm1 0 0 2 ≤ 1 ∧ s.prm1 0 0 0 = 2 + l.val := by decide +kernel
theorem met_TrafficCommands_7 : let s := ask up 0x0A07 [1, 8, 0, 183, 0xFF, 0xFF, 0xFF, 0xFF, 0xFF, 0xFF]
    s.sends 0 0 0x0A07 [(0, 10)] ∧ s.prm1 0 0 0 = 1 ∧ s.prm1 0 0 1 ≤ 8 ∧
    ∀ i, i < 8 → s.prm1 0 0 (2 + i) ≤ 183 ∨ s.prm1 0 0 (2 + i) = 0xFF := by decide +kernel
theorem met_TrafficCommands_8 : ∀ k ∈ [1, 4096], let s := ask up 0x0A08 (leBytes 4 0 ++ leBytes 2 k ++ [0, 0] ++ leBytes 4 8)
    s.sends 0 0 0x0A08 [(0, 6), (8, 4)] ∧ s.prm 0 0 4 2 = k ∧ s.rangeOk 0 0 (s.prm 0 0 8 4) (8 * s.prm 0 0 4 2) = true := by
  decide +kernel
/-- A record of 60 bytes for injection. -/
def injected : List Byte := [60, 0, 0, 0] ++ List.replicate 60 1
theorem met_TrafficCommands_9 : let s := askBulk up 0x0A09 injected
    s.runs 0 0 0x0A09 = true ∧ (s.slot 0 0).bulk = true ∧ (s.slot 0 0).stop = none ∧
    (s.tm.inject.any fun x => x.1 == 0 && x.2.1 == 0) = false ∧
    recordAt (s.params 0 0) 0 = some (List.replicate 60 1, 64) ∧ s.injectRoom (List.replicate 60 (1 : Byte)).length = true ∧
    (s.params 0 0).length ≤ 64 := by decide +kernel
theorem met_TrafficCommands_9b : let s := askBulk { up with power.dom := Vector.replicate 13 .off } 0x0A09 injected
    s.runs 0 0 0x0A09 = true ∧ (s.slot 0 0).bulk = true ∧ (s.slot 0 0).stop = none ∧
    (s.tm.inject.any fun x => x.1 == 0 && x.2.1 == 0) = false ∧ recordAt (s.params 0 0) 0 = some (List.replicate 60 1, 64) ∧
    s.injectRoom (List.replicate 60 (1 : Byte)).length = false := by decide +kernel
theorem met_TrafficCommands_10 : let s := { askBulk up 0x0A09 injected with tm.inject := [(0, 0, 0, 0)] }
    s.inHand 0 0 0x0A09 = true ∧ (s.tm.inject.find? fun x => x.1 == 0 && x.2.1 == 0) = some (0, 0, 0, 0) := by decide +kernel
theorem met_TrafficCommands_11 : let s := askBy (bound.modTen 1 fun x => { x with cfg := { x.cfg with part := 2 } }) 1 0x0A0A (leBytes 4 0 ++ leBytes 4 64 ++ [0xFF, 8])
    s.sends 1 0 0x0A0A [(0, 10)] ∧ 64 ≤ s.prm 1 0 4 4 ∧ s.rangeOk 1 0 (s.prm 1 0 0 4) (s.prm 1 0 4 4) = true ∧
    (spiOf (s.ten 1).cfg.transport).isSome = true := by decide +kernel
theorem met_TrafficCommands_12 : ∀ l : Fin 2, up.portMaySend l = false ∧
    (let s := (up.modPhy (localIx l) fun p => { p with good := true }).modQ (egressQid l 31) fun x => { x with frames := [typed] }
     s.portMaySend l = true ∧ s.egressChoice l = some (3, 31) ∧ (s.q (egressQid l (Fin.ofNat 32 31))).frames = typed :: []) := by
  decide +kernel
theorem met_TrafficCommands_13 : ∀ l : Fin 2, let s : State := { up with tm.holdPort := up.tm.holdPort.set l (some { until_ := some 9 }) }
    Hold.ends s.tm.holdPort[l] = some 9 := by decide +kernel
theorem met_TrafficCommands_14 : ({ up with tm.sampler.running := true } : State).tm.sampler.running = true := rfl
/-- Queue 0 with one cell's room. -/
def roomy (f : QueueCfg → QueueCfg) (cells : Nat) : State := { up.modQ 0 fun x => { x with cfg := f x.cfg } with tm.buf.upCells := cells }
theorem met_Admission_1 : ({ typed with colour := .red } : Frame).colour = .red := rfl
theorem met_Admission_2 : let s := roomy (fun x => { x with ymax := 0 }) 4096
    ({ typed with colour := .yellow } : Frame).colour = .yellow ∧ (s.q 0).cfg.ymax < s.depth 0 + ({ typed with colour := .yellow } : Frame).cells := by
  decide +kernel
theorem met_Admission_3 : let s := roomy (fun x => { x with qmax := 0 }) 4096
    typed.colour ≠ .red ∧ typed.colour ≠ .yellow ∧ (s.q 0).cfg.qmax < s.depth 0 + typed.cells := by decide +kernel
theorem met_Admission_4 : let s := roomy (fun x => { x with qmax := 1, ymax := 1 }) 0
    let r := roomy (fun x => { x with qmax := 1, ymax := 1 }) 1
    let y : Frame := { typed with colour := .yellow }
    y.colour ≠ .red ∧ s.depth 0 + y.cells ≤ (s.q 0).cfg.ymax ∧ s.depth 0 + y.cells ≤ (s.q 0).cfg.qmax ∧
    s.tm.buf.upCells - s.upUsed < y.cells ∧
    r.depth 0 + y.cells ≤ (r.q 0).cfg.qmax ∧ y.cells ≤ r.tm.buf.upCells - r.upUsed ∧ r.buffered < 16384 := by decide +kernel

/-! ### Cipher, key store and non-volatile store -/

/-- Slot 8 of the key store with a key for T0. -/
def keyed (flags : Byte) (state : Nat) : State :=
  { up with keys.slots := up.keys.slots.set 8 { state := state, key := [1], flags := flags, tmask := 1, salt := [1, 2, 3, 4] } }
theorem met_CipherCommands_1 : (ask up 0x0B01 []).sends 0 0 0x0B01 [] := by decide +kernel
theorem met_CipherCommands_2 : ∃ ctr s1, (keyed 1 1).drawSlot 8 = .got ctr s1 := ⟨_, _, rfl⟩
/-- The ranges of a job: 64 bytes from 0 to 0, 16 bytes of additional data at 128. -/
def ranges : List Byte := [8, 0, 0, 0] ++ leBytes 4 0 ++ leBytes 4 0 ++ leBytes 4 64 ++ leBytes 4 128 ++ leBytes 2 16
theorem met_CipherCommands_3 : let s := ask (keyed 1 1) 0x0B02 ranges
    s.prm1 0 0 0 = (8 : Fin 64).val ∧ s.jobWaits 0 0 = false ∧ s.ioOk 0 0 = true ∧ s.sends 0 0 0x0B02 [(0, 1), (4, 18)] ∧
    s.aadOk 0 0 = true ∧ s.keyCheck 0 (s.keyView 0 8) .encrypt = none := by decide +kernel
theorem met_CipherCommands_4 : let s := ask (keyed 2 1) 0x0B03 (ranges ++ [0, 0] ++ List.replicate 28 1)
    s.prm1 0 0 0 = (8 : Fin 64).val ∧ s.jobWaits 0 0 = false ∧ s.ioOk 0 0 = true ∧
    s.sends 0 0 0x0B03 [(0, 1), (4, 18), (24, 28)] ∧ s.aadOk 0 0 = true ∧ s.keyCheck 0 (s.keyView 0 8) .decrypt = none := by
  decide +kernel
theorem met_CipherCommands_5 : let s := ask (keyed 1 1) 0x0B04 ([8, 0, 0, 0] ++ leBytes 4 0 ++ leBytes 4 0 ++ leBytes 4 64)
    s.prm1 0 0 0 = (8 : Fin 64).val ∧ s.jobWaits 0 0 = false ∧ s.ioOk 0 0 = true ∧ s.sends 0 0 0x0B04 [(0, 2), (4, 12)] ∧
    s.prm1 0 0 1 = 0 ∧ s.keyCheck 0 (s.keyView 0 8) .encrypt = none := by decide +kernel
theorem met_CipherCommands_6 : let s := ask (keyed 2 1) 0x0B04 ([8, 1, 0, 0] ++ leBytes 4 0 ++ leBytes 4 0 ++ leBytes 4 64 ++ List.replicate 16 1)
    s.prm1 0 0 0 = (8 : Fin 64).val ∧ s.jobWaits 0 0 = false ∧ s.ioOk 0 0 = true ∧ s.sends 0 0 0x0B04 [(0, 2), (4, 28)] ∧
    s.prm1 0 0 1 = 1 ∧ s.keyCheck 0 (s.keyView 0 8) .decrypt = none := by decide +kernel
theorem met_CipherCommands_7 : let s := ask (keyed 1 0) 0x0B02 ranges
    s.prm1 0 0 0 = (8 : Fin 64).val ∧ s.jobWaits 0 0 = false ∧ s.ioOk 0 0 = true ∧ s.sends 0 0 0x0B02 [(0, 1), (4, 18)] ∧
    s.aadOk 0 0 = true ∧ s.keyCheck 0 (s.keyView 0 8) .encrypt = some Status.state := by decide +kernel
theorem met_CipherCommands_8 : ∀ x ∈ [((8 : Byte), 0), (16, 65536)],
    let s := ask (keyed 4 1) 0x0B05 ([8, 0, x.1, 0] ++ leBytes 4 0 ++ leBytes 4 x.2)
    s.sends 0 0 0x0B05 [(0, 3), (4, 8)] ∧ s.prm1 0 0 0 = (8 : Fin 64).val ∧ s.prm1 0 0 1 = 0 ∧ s.prm1 0 0 2 = x.1.toNat ∧
    s.prm 0 0 8 4 = x.2 ∧ s.rangeOk 0 0 (s.prm 0 0 4 4) (s.prm 0 0 8 4) = true ∧ s.jobWaits 0 0 = false ∧
    s.keyCheck 0 (s.keyView 0 8) .macMake = none := by decide +kernel
/-- The engine's cores in and out of service. -/
def cores (a b : Bool) : State := { up with cip.core := #v[a, b] }
theorem met_CipherCommands_9 : ∀ c : Fin 2,
    (let s := ask (cores true true) 0x0B06 [BitVec.ofNat 8 c.val, 0]
     s.sends 0 0 0x0B06 [(0, 2)] ∧ s.prm1 0 0 0 = c.val ∧ s.cip.coreBy[c] = none ∧ s.prm1 0 0 1 = 0 ∧ s.cip.core[c] = true ∧
     s.coresIn ≠ 1) ∧
    (let s := ask (cores (c == 0) (c == 1)) 0x0B06 [BitVec.ofNat 8 c.val, 0]
     s.sends 0 0 0x0B06 [(0, 2)] ∧ s.prm1 0 0 0 = c.val ∧ s.cip.coreBy[c] = none ∧ s.prm1 0 0 1 = 0 ∧ s.cip.core[c] = true ∧
     s.coresIn = 1) ∧
    (let s := ask (cores (c == 1) (c == 0)) 0x0B06 [BitVec.ofNat 8 c.val, 1]
     s.sends 0 0 0x0B06 [(0, 2)] ∧ s.prm1 0 0 0 = c.val ∧ s.cip.coreBy[c] = none ∧ s.prm1 0 0 1 = 1 ∧ s.cip.core[c] = false ∧
     s.cip.broken[c] = false) := by decide +kernel
/-- A started job of slot 0. -/
def job : Job := { num := 1, ten := 0, slot := 0, src := .slot 8, ctx := some 3, started := true, key := [1] }
theorem met_CipherRows_1 : ∀ op ∈ [0x0B02, 0x0B03, 0x0B04, 0x0B05], let s := { ask up op ranges with cip.jobs := [job] }
    s.jobsOn.runningJob = some job ∧ job.orphan = false ∧ ((s.jobsOn.dropCJob job).slot job.ten job.slot).opcode = op := by decide +kernel
theorem met_CipherRows_2 : let s := { keyed 1 1 with cip.kbus := [.load 3 (.slot 8) none] }
    s.cip.kbus = .load 3 (.slot 8) none :: [] ∧ s.keys.slots[(8 : Fin 64)].state ≠ 0 := by decide +kernel
theorem met_CipherRows_3 : let s : State := { up with cip.kbus := [.zero 15] }
    s.cip.kbus = .zero 15 :: [] := by decide +kernel
/-- Core 0 works on the job after a number of faults at the present instant. -/
def faulting (n : Nat) : State :=
  { up with cip := { up.cip with jobs := [job], run := #v[some (.job 1), none], faultsAt := List.replicate n up.now } }
theorem met_CipherRows_4 : ∀ n ∈ [1, 2], (faulting n).cip.run[(0 : Fin 2)] = some (.job 1) ∧
    (((faulting n).countFault.faultWork (.job 1)).raise 0x80 (BitVec.ofNat 32 ((faulting n).workCtx (.job 1)))).cip.faultsAt.length =
      n + 1 := by decide +kernel
theorem met_CipherRows_5 : ∀ c : Fin 2, let s : State := { up with cip.testing := up.cip.testing.set c true }
    s.cip.testing[c] = true := by decide +kernel
theorem met_CipherRows_6 : let s : State := { up with keys.slots := up.keys.slots.set 63 { pend := some 7 } }
    s.keys.slots[(63 : Fin 64)].failed = false ∧ s.keys.slots[(63 : Fin 64)].pend = some 7 ∧ s.nvm.degraded.getLsbD 5 = false := by
  decide +kernel
theorem met_KeysCommands_1 : let s := ask (keyed 1 1) 0x0C01 [8]
    s.sends 0 0 0x0C01 [(0, 1)] ∧ s.prm1 0 0 0 = (8 : Fin 64).val ∧ s.keys.slots[(8 : Fin 64)].tmask.getLsbD (0 : Ten).val = true := by
  decide +kernel
theorem met_KeysCommands_1b : let s := askBy (keyed 1 1) 7 0x0C01 [8]
    s.sends 7 0 0x0C01 [(0, 1)] ∧ s.prm1 7 0 0 = (8 : Fin 64).val ∧ s.keys.slots[(8 : Fin 64)].tmask.getLsbD (7 : Ten).val = false ∧
    s.ownerAt 7 0 = false := by decide +kernel
theorem up_iseq : up.keys.slots[(8 : Fin 64)].iseq < 1 := by decide +kernel
/-- An import record for slot 8, `ISEQ` 1, with the tag given. -/
def record (tag : List Byte) : List Byte := [8, 1, 1, 0, 1, 2, 3, 4, 0, 0, 0, 1] ++ List.replicate 44 0 ++ tag
/-- `KEYS.IMPORT` of it from offset 64. -/
def importing (tag : List Byte) : State :=
  (ask up 0x0C02 ([2, 0, 0, 0, 0, 0, 0, 0] ++ leBytes 4 64 ++ leBytes 4 72)).partWrite 0 64 (record tag)
theorem importing_record (tag : List Byte) (h : tag.length = 16) : (importing tag).importRecord 0 0 = record tag := by
  have n : (record tag).length = 72 := by simp [record, h]
  have e := State.partRead_partWrite (ask up 0x0C02 ([2, 0, 0, 0, 0, 0, 0, 0] ++ leBytes 4 64 ++ leBytes 4 72)) 0 64 (record tag)
  rw [n] at e
  have q : (importing tag).prm 0 0 8 4 = 64 := by
    change (ask up 0x0C02 ([2, 0, 0, 0, 0, 0, 0, 0] ++ leBytes 4 64 ++ leBytes 4 72)).prm 0 0 8 4 = 64
    decide +kernel
  unfold State.importRecord
  rw [q]
  exact e
theorem record_field (tag : List Byte) (h : tag.length = 16) : field (record tag) 56 16 = tag := by
  have := field_append_right ([8, 1, 1, 0, 1, 2, 3, 4, 0, 0, 0, 1] ++ List.replicate 44 0 : List Byte) tag
  rw [h] at this
  exact this
/-- The tag of the record's other fields. -/
def rightTag (kek : List Byte) : List Byte :=
  beBytes 16 (Config.gcmTag (kdf 1 kek [0x5A, 0x50, 0x4B, 0x49] (beBytes 8 Config.terminalId.toNat ++ [8] ++ [0, 0, 0, 1]))
    (List.replicate 12 0) [8, 1, 1, 0, 1, 2, 3, 4, 0, 0, 0, 1] (List.replicate 32 0)).toNat
theorem met_KeysCommands_2 (tag : List Byte) (h : tag.length = 16) :
    let s := importing tag
    let r := s.importRecord 0 0
    s.sends 0 0 0x0C02 [(0, 1), (8, 8)] ∧ s.prm1 0 0 0 = 2 ∧ s.prm 0 0 12 4 = 72 ∧ s.rangeOk 0 0 (s.prm 0 0 8 4) 72 = true ∧
    importOk r = true ∧ s.coresIn ≠ 0 ∧ s.slotLoads 2 = true ∧ s.recordCheck = none ∧ byteAt r 0 = (8 : Fin 64).val ∧
    s.keys.slots[(8 : Fin 64)].state = 0 ∧ s.keys.slots[(8 : Fin 64)].iseq < beAt r 8 4 ∧ field r 56 16 = tag ∧
    beBytes 16 (Config.gcmTag (kdf 1 s.keys.kek [0x5A, 0x50, 0x4B, 0x49] (beBytes 8 Config.terminalId.toNat ++ [r.getD 0 0] ++ field r 8 4))
      (field r 12 12) (field r 0 12) (field r 24 32)).toNat = rightTag s.keys.kek := by
  intro s r
  have e : r = record tag := importing_record tag h
  have i : beAt (record tag) 8 4 = 1 := rfl
  rw [e]
  have a : (let s := ask up 0x0C02 ([2, 0, 0, 0, 0, 0, 0, 0] ++ leBytes 4 64 ++ leBytes 4 72)
      s.sends 0 0 0x0C02 [(0, 1), (8, 8)] ∧ s.prm1 0 0 0 = 2 ∧ s.prm 0 0 12 4 = 72 ∧ s.rangeOk 0 0 (s.prm 0 0 8 4) 72 = true) := by
    decide +kernel
  obtain ⟨a1, a2, a3, a4⟩ := a
  refine ⟨a1, a2, a3, a4, rfl, ?_, rfl, ?_, rfl, rfl, ?_, record_field tag h, rfl⟩
  · change up.coresIn ≠ 0
    decide +kernel
  · change up.recordCheck = none
    decide +kernel
  · rw [i]
    exact up_iseq
theorem met_KeysCommands_2_tag (kek : List Byte) : (rightTag kek).length = 16 ∧ (spoil (rightTag kek)).length = 16 ∧
    spoil (rightTag kek) ≠ rightTag kek := by
  have n : (rightTag kek).length = 16 := by simp [rightTag]
  refine ⟨n, by rw [spoil_length, n], spoil_ne _ ?_⟩
  intro e
  rw [e] at n
  cases n
theorem met_KeysCommands_3 : let s := ask (keyed 0x0F 1) 0x0C03 ([8, 0x80, 31, 0, 1, 0, 0, 0] ++ List.replicate 48 0)
    let r := ask (keyed 0x0F 1) 0x0C03 ([8, 0x83, 7, 0, 16, 32, 0, 0] ++ List.replicate 48 1)
    (∀ x ∈ [r], x.sends 0 0 0x0C03 [(0, 6), (8, 48)] ∧ (x.keyView 0 (byteAt (x.params 0 0) 0)).isSome = true ∧
      x.keyCheck 0 (x.keyView 0 8) .derive_ = none ∧ keyRefOk (byteAt (x.params 0 0) 0) = true ∧
      byteAt (x.params 0 0) 1 = 0x83 ∧ byteAt (x.params 0 0) 2 ≤ 31 ∧
      (x.params 0 0).getD 2 0 &&& ~~~(x.keys.slots[(8 : Fin 64)].flags &&& 0x07) = 0 ∧ byteAt (x.params 0 0) 3 = 0 ∧
      byteAt (x.params 0 0) 4 = 16 ∧ byteAt (x.params 0 0) 5 = 32 ∧ x.coresIn ≠ 0 ∧ x.freeHandle.isSome = true ∧
      (x.handlesOf 0).length < 4 ∧ x.handleEntry 0 (byteAt (x.params 0 0) 1 - 0x80) = none) ∧
    s.sends 0 0 0x0C03 [(0, 6), (8, 48)] ∧ byteAt (s.params 0 0) 1 = 0x80 := by decide +kernel
theorem met_KeysCommands_4 : ∀ i ∈ [(8 : Fin 64), 63],
    let s := ask { up with keys.slots := up.keys.slots.set i { state := 1, key := [1] } } 0x0C04 [BitVec.ofNat 8 i.val, 0]
    s.sends 0 0 0x0C04 [(0, 2)] ∧ s.ownerAt 0 0 = true ∧ s.prm1 0 0 0 = i.val ∧ s.prm1 0 0 1 = 0 ∧ s.recordCheck = none ∧
    s.keys.slots[i].state ≠ 0 ∧ s.cip.destroys = [] := by decide +kernel
/-- `ENS.READ` of region 4, with the lines that fail. -/
def reading (len : Nat) (bad : List Nat) : State :=
  let s := ask up 0x0D01 ([4, 0, 0, 0] ++ leBytes 4 8 ++ leBytes 4 len)
  ({ s with nvm.badTag := bad ++ s.nvm.badTag } : State).eccFixed 1
theorem met_StoreCommands_1 : ∀ len ∈ [1, 48], let s := ask up 0x0D01 ([4, 0, 0, 0] ++ leBytes 4 8 ++ leBytes 4 len)
    let a := regionBase 4 + 8
    s.sends 0 0 0x0D01 [(0, 1), (4, 8)] ∧ byteAt (s.params 0 0) 0 = 4 ∧ leAt (s.params 0 0) 4 4 = 8 ∧ leAt (s.params 0 0) 8 4 = len ∧
    regionOk 4 = true ∧ s.mayRead 0 0 4 = true ∧ inRegion 4 8 len = true ∧
    (reading len []).nvm.stopsAt a (a + len) = a + len ∧ (reading len [regionBase 4 / 64]).nvm.stopsAt a (a + len) < a + len := by
  decide +kernel
/-- The holder of region 0's lease. -/
def storing : State := { up with mbx.leases := [(0x10, 0)], boot := { up.boot with image := some 1 } }
/-- An update of region 0 under way. -/
def updating (again : Bool) : EnsUpd :=
  { region := 0, addr := 0, data := List.replicate 64 1, ten := 0, slot := 3, again := again }
theorem met_StoreCommands_2 : ∀ len ∈ [4, 65536], let s := ask storing 0x0D02 ([0, 0, 0, 0] ++ leBytes 4 64 ++ leBytes 4 len ++ leBytes 4 0)
    let r : State := { s with nvm.upd := [updating false] }
    let w : State := { s with nvm.degraded := 1 }
    (∀ x ∈ [s, r, w], x.sends 0 0 0x0D02 [(0, 1), (4, 12)] ∧ byteAt (x.params 0 0) 0 = 0 ∧ leAt (x.params 0 0) 4 4 = 64 ∧
      leAt (x.params 0 0) 8 4 = len ∧ leAt (x.params 0 0) 12 4 = 0 ∧ regionOk 0 = true ∧ x.leasedAt 0 0 (regionLease 0) = true ∧
      inRegion 0 64 len = true ∧ x.rangeOk 0 0 0 len = true ∧ (x.slot 0 0).stop = none ∧ x.runsImage 0 = false) ∧
    s.regionUpdates 0 = false ∧ s.regionWorn 0 = false ∧ r.regionUpdates 0 = true ∧ w.regionUpdates 0 = false ∧
    w.regionWorn 0 = true := by decide +kernel
theorem met_StoreCommands_3 : let s := ask { storing with nvm.upd := [updating false] } 0x0D03 [0]
    s.sends 0 0 0x0D03 [(0, 1)] ∧ regionOk (s.prm1 0 0 0) = true ∧ s.leasedAt 0 0 (regionLease (s.prm1 0 0 0)) = true ∧
    s.ownerAt 0 0 = true ∧ s.updateOf (s.prm1 0 0 0) = some (updating false) ∧ (updating false).aborter = none := by decide +kernel
theorem met_StoreCommands_4 : (ask up 0x0D04 []).sends 0 0 0x0D04 [] ∧
    (let s := ask up 0x0D05 [0, 0, 0, 0, 64, 0, 0, 0]
     s.sends 0 0 0x0D05 [(0, 1), (4, 4)] ∧ regionOk (s.prm1 0 0 0) = true ∧ inRegion (s.prm1 0 0 0) (s.prm 0 0 4 4) 1 = true) := by
  decide +kernel
/-- An update of four bytes of line 0. -/
def partial_ (again : Bool) : EnsUpd := { updating again with addr := 8, data := List.replicate 4 1 }
theorem met_StoreCommands_5 : ∀ again : Bool, ∀ u ∈ [updating again, partial_ again], let s : State := { storing with nvm.upd := [u] }
    s.domOn dNVM = true ∧ s.updateOf 0 = some u ∧ u.again = again ∧ s.nvm.bad (u.addr / 64) = false ∧
    (64 ≤ u.take ↔ u = updating again) ∧ ((s.eccFixed 0).remap (u.addr / 64)).nvm.remaps ≠ s.nvm.remaps := by decide +kernel
theorem met_StoreCommands_6 : let s : State := { storing with nvm := { storing.nvm with upd := [updating true], used := Vector.replicate 4 512 } }
    s.updateOf 0 = some (updating true) ∧ (updating true).again = true ∧ ((s.eccFixed 0).remap 0).nvm.remaps = s.nvm.remaps := by
  decide +kernel

/-! ### Lifecycle and thaw -/

theorem met_SecCommands_1 : (ask up 0x0E01 []).sends 0 0 0x0E01 [] ∧ (ask up 0x0E02 []).sends 0 0 0x0E02 [] ∧
    (ask up 0x0E02 []).sec.lockBy = none := by decide +kernel
theorem met_SecCommands_1b : let s := ask { up with sec.lockBy := some 9 } 0x0E02 []
    s.sends 0 0 0x0E02 [] ∧ s.sec.lockBy ≠ none ∧ s.sec.lockBy = some 9 := by decide +kernel
/-- A signature of 64 zeros stands for any: what its bytes are matters to the verification alone. -/
def someSig : List Byte := List.replicate 64 0
/-- A token for level 1 from Graundal, 60 minutes, with the nonce of zeros. -/
def token : List Byte :=
  [0x4B, 0x54, 0x50, 0x5A, 1, 1, 0, BitVec.ofNat 8 up.lifecycleCode] ++ leBytes 8 Config.terminalId.toNat ++ List.replicate 16 0
    ++ [60, 0] ++ List.replicate 30 0 ++ someSig
/-- The outstanding nonce is that. -/
def challenged : State := { up with sec.nonce := some (List.replicate 16 0, 600000000000) }
/-- The token, sent to that terminal. -/
def thawingBy : State := askBulk challenged 0x0E03 token
theorem token_length : token.length = 128 := by decide +kernel
theorem thawing_params : thawingBy.params 0 0 = token := bulk_params _ _ _ 128 token_length (by decide +kernel)
theorem thawing_runs : thawingBy.runs 0 0 0x0E03 = true := by
  have q : thawingBy.slot 0 0 = bulkSlot (challenged.rightsOf 0) 0x0E03 token.length := slot_askBulk ..
  rw [token_length] at q
  simp only [State.runs, State.inHand, State.coreUp, q]
  decide +kernel
theorem token_parts : tokenForm token = true ∧ byteAt token 5 = 1 ∧ byteAt token 6 = 0 ∧ byteAt token 7 = up.lifecycleCode ∧
    field token 16 16 = List.replicate 16 0 ∧ field token 64 64 = someSig := by decide +kernel
theorem token_id : leAt token 8 8 = Config.terminalId.toNat := by
  have f : field token 8 8 = leBytes 8 Config.terminalId.toNat := rfl
  rw [leAt, f, leNat_leBytes]
  exact Nat.mod_eq_of_lt (by have := Config.terminalId.isLt; omega)
theorem met_SecCommands_2 (signed : Config.ecdsaVerify Config.debugKey (Config.sha256 (token.take 64)) someSig = true) :
    thawingBy.runs 0 0 0x0E03 = true ∧ thawingBy.sec.thawing = none ∧
    ((thawingBy.tokenChecks (thawingBy.params 0 0)).find? fun c => c.1) = none ∧ byteAt (thawingBy.params 0 0) 5 = 1 := by
  rw [thawing_params]
  obtain ⟨a, b5, b6, b7, b16, b64⟩ := token_parts
  have t : thawingBy.thawSigner = 0 := by
    change up.thawSigner = 0
    decide +kernel
  have g : thawingBy.tokenSigned token = true := by
    simp only [State.tokenSigned, t, if_true, b64, signed]
  have b : thawingBy.tokenNonce token = true := by
    have q : thawingBy.sec.nonce = some (List.replicate 16 0, 600000000000) := rfl
    simp [State.tokenNonce, q, b16]
  have c : thawingBy.lifecycleCode = up.lifecycleCode := rfl
  have d : thawingBy.ao.dbg.level = 0 := rfl
  refine ⟨thawing_runs, rfl, ?_, b5⟩
  simp [State.tokenChecks, a, b, c, d, g, b5, b6, b7, t, token_id]
theorem met_SecCommands_2b : let s := askBulk up 0x0E03 (List.replicate 128 0)
    s.runs 0 0 0x0E03 = true ∧ s.sec.thawing = none ∧ (((s.tokenChecks (s.params 0 0)).find? fun c => c.1)).isSome = true := by
  decide +kernel
theorem met_SecCommands_3 : ∀ l ∈ [1, 2], let s := ask { up with ao.dbg := { level := l, by_ := some 9 } } 0x0E04 []
    s.sends 0 0 0x0E04 [] ∧ s.thawed = decide (l = 2) ∧ s.ao.dbg.by_ = some 9 ∧ s.power.pstate ≠ .permafrost := by decide +kernel
/-- `SEC.SEAL` with an owner key. -/
def ownerPart : List Byte := leBytes 8 Config.terminalId.toNat ++ someSig
def sealing (life : Life) : State := askBulk { up with fuses.life := life } 0x0E05 ownerPart
theorem ownerPart_length : ownerPart.length = 72 := by decide +kernel
theorem met_SecCommands_4 (life : Life) (point : Config.onCurve someSig = true) :
    let s := sealing life
    s.runs 0 0 0x0E05 = true ∧ (s.params 0 0).length = 72 ∧ leAt (s.params 0 0) 0 8 = Config.terminalId.toNat ∧
    Config.onCurve (field (s.params 0 0) 8 64) = true ∧ s.inFactory = (life == .factory) ∧ s.ao.dbg.level = 0 ∧
    s.ao.keyLock = false := by
  intro s
  have p : s.params 0 0 = ownerPart := bulk_params _ _ _ 72 ownerPart_length (by cases life <;> decide +kernel)
  have z : field ownerPart 8 64 = someSig := by decide +kernel
  have l : leAt ownerPart 0 8 = Config.terminalId.toNat := by
    have f : field ownerPart 0 8 = leBytes 8 Config.terminalId.toNat := rfl
    rw [leAt, f, leNat_leBytes]
    exact Nat.mod_eq_of_lt (by have := Config.terminalId.isLt; omega)
  have r : s.runs 0 0 0x0E05 = true := by
    have q : s.slot 0 0 = bulkSlot (({ up with fuses.life := life } : State).rightsOf 0) 0x0E05 ownerPart.length := slot_askBulk ..
    rw [ownerPart_length] at q
    simp only [State.runs, State.inHand, State.coreUp, q]
    cases life <;> decide +kernel
  rw [p, z]
  exact ⟨r, ownerPart_length, l, point, rfl, rfl, rfl⟩
/-- `SEC.RETIRE` of this terminal. -/
def retiring (life : Life) : State :=
  ask { up with fuses.life := life } 0x0E06 (leBytes 8 Config.terminalId.toNat ++ [0xA5])
theorem met_SecCommands_5 : ∀ life ∈ [Life.sealed, .factory], let s := retiring life
    s.prm1 0 0 8 = 0xA5 ∧ s.waitsFor 0 0 = false ∧ s.fuses.life = life ∧ s.ao.dbg.level = 0 ∧ s.reg.wait = none := by
  decide +kernel
theorem met_SecCommands_5_id (life : Life) : (retiring life).prm 0 0 0 8 = Config.terminalId.toNat ∧
    (retiring life).runs 0 0 0x0E06 = true := by
  have f : field ((retiring life).params 0 0) 0 8 = leBytes 8 Config.terminalId.toNat := by
    with_unfolding_all rfl
  refine ⟨?_, by cases life <;> decide +kernel⟩
  rw [State.prm, leAt, f, leNat_leBytes]
  exact Nat.mod_eq_of_lt (by have := Config.terminalId.isLt; omega)
theorem met_SecCommands_5_len (life : Life) : (retiring life).stray 0 0 [(0, 9)] = false := by
  have p : ((retiring life).params 0 0).length = 9 := by with_unfolding_all rfl
  simp only [State.stray, List.any_eq_false, Bool.and_eq_true, Bool.not_eq_true', not_and]
  intro x hx _
  have : x.2 < 9 := by
    have := List.snd_lt_of_mem_zipIdx hx
    omega
  simp [this]
theorem met_SecCommands_6 : let s : State := { up with sec := { up.sec with nonce := some ([1], 9), lockBy := some 9 } }
    s.sec.nonce = some ([1], 9) ∧ s.sec.lockBy = some 9 := by decide +kernel

/-! ### Firn -/

/-- One descriptor: the rectifier over one value at 0, to 32; its layer ends. -/
def oneOp : List Byte := [3, 2, 3, 3] ++ leBytes 4 0 ++ leBytes 4 0 ++ leBytes 4 0 ++ leBytes 4 32 ++ leBytes 4 1 ++ leBytes 4 1 ++ leBytes 4 1
  ++ leBytes 4 5 ++ List.replicate 28 0
/-- A package of it, with a digest and a signature. -/
def package (digest sig : List Byte) : List Byte :=
  leBytes 4 0x4649524E ++ [1, 0, 1, 0] ++ leBytes 4 320 ++ List.replicate 12 0 ++ leBytes 4 320 ++ leBytes 4 0 ++ [0, 1, 3, 3] ++ leBytes 4 4
    ++ leBytes 4 0 ++ leBytes 4 4 ++ leBytes 4 32 ++ List.replicate 12 0 ++ digest ++ sig ++ List.replicate 96 0 ++ oneOp
/-- The digest of a package: over all of it but digest and signature. -/
def packageSum : BitVec 256 := Config.sha256 (((package [] []).take 0x40) ++ oneOp)
/-- The package in region 2, with a signature, and the command that loads it under handle 7, in hand. -/
def loading (digest sig : List Byte) : State :=
  let s := ask up 0x0F02 ([7, 0, 0, 0] ++ leBytes 4 0)
  { s with ens := s.ens.putN 0x300000 (package digest sig), firn.loading := some (0, 0) }
theorem package_length (digest sig : List Byte) (d : digest.length = 32) (h : sig.length = 64) : (package digest sig).length = 320 := by
  simp only [package, oneOp, List.length_append, List.length_cons, List.length_nil, List.length_replicate, leBytes_length, d, h]
theorem met_FirnCommands_1 : (ask up 0x0F01 [0]).sends 0 0 0x0F01 [(0, 1)] ∧ (ask up 0x0F01 [0]).prm1 0 0 0 = 0 := by decide +kernel
theorem loading_read (digest sig : List Byte) (d : digest.length = 32) (h : sig.length = 64) (n : Nat) (hn : n ≤ 320) :
    (loading digest sig).pkgRead 0 n = (package digest sig).take n := by
  have l := package_length digest sig d h
  apply List.ext_getElem (by simp [State.pkgRead, l, hn])
  intro i h1 h2
  have k : i < n := by simpa [State.pkgRead] using h1
  have m : i < 320 := by omega
  have q : i < (package digest sig).length := by omega
  simp only [State.pkgRead, loading, Memory.getN, List.getElem_map, List.getElem_range, Memory.get_putN, List.getElem_take]
  rw [if_pos (by omega)]
  simp [q]
/-- Its digest in bytes. -/
def rightDigest : List Byte := beBytes 32 packageSum.toNat
theorem loading_cmd : let s := loading rightDigest someSig
    s.sends 0 0 0x0F02 [(0, 1), (4, 4)] ∧ s.prm1 0 0 0 = (7 : Fin 8).val ∧ s.prm 0 0 4 4 = 0 ∧ s.updateOf 2 = none ∧
    s.pkgTags 0 (min 256 (0x300000 - 0)) = true ∧ s.pkgTags 0 320 = true ∧ s.fmodel 7 = none ∧
    s.firn.loading = some (0, 0) ∧
    (let r : State := { s with firn.loading := none }
     r.sends 0 0 0x0F02 [(0, 1), (4, 4)] ∧ r.modelLoading = false ∧ (r.slot 0 0).ghost = false) := by decide +kernel
theorem met_FirnCommands_2 (signed : Config.ecdsaVerify Config.modelKey packageSum someSig = true) :
    let s := loading rightDigest someSig
    let p := s.pkgRead 0 (leAt (s.pkgRead 0 256) 8 4)
    s.sends 0 0 0x0F02 [(0, 1), (4, 4)] ∧ s.prm1 0 0 0 = (7 : Fin 8).val ∧ s.prm 0 0 4 4 = 0 ∧ s.updateOf 2 = none ∧
    s.pkgTags 0 (min 256 (0x300000 - 0)) = true ∧ headerOk (s.pkgRead 0 256) (0x300000 - 0) = true ∧ s.pkgTags 0 p.length = true ∧
    s.firn.loading = some (0, 0) ∧ s.pkgSigned p = true ∧ (modelOf 0 p).bad = none ∧ s.fmodel 7 = none ∧ s.firn.fits (modelOf 0 p) = true := by
  intro s p
  have d : rightDigest.length = 32 := by simp [rightDigest]
  obtain ⟨a1, a2, a3, a4, a5, a6, a7, a8, -⟩ := loading_cmd
  have r256 : s.pkgRead 0 256 = (package rightDigest someSig).take 256 := loading_read rightDigest someSig d (by simp [someSig]) 256 (by omega)
  have total : leAt ((package rightDigest someSig).take 256) 8 4 = 320 := rfl
  have hp : p = package rightDigest someSig := by
    change s.pkgRead 0 (leAt (s.pkgRead 0 256) 8 4) = _
    rw [r256, total, loading_read rightDigest someSig d (by simp [someSig]) 320 (by omega)]
    exact List.take_of_length_le (by rw [package_length rightDigest someSig d (by simp [someSig])])
  rw [hp, r256]
  have len : (package rightDigest someSig).length = 320 := package_length rightDigest someSig d (by simp [someSig])
  have dg : field (package rightDigest someSig) 0x40 32 = rightDigest := rfl
  have sg : field (package rightDigest someSig) 0x60 64 = someSig := rfl
  have sum : Config.sha256 ((package rightDigest someSig).take 0x40 ++ (package rightDigest someSig).drop 0x100) = packageSum := rfl
  have key : s.signerKey (package rightDigest someSig) = some Config.modelKey := rfl
  have hd : headerOk ((package rightDigest someSig).take 256) (0x300000 - 0) = true := by decide +kernel
  have bad : (modelOf 0 (package rightDigest someSig)).bad = none := by decide +kernel
  have fits : up.firn.fits (modelOf 0 (package rightDigest someSig)) = true := by decide +kernel
  refine ⟨a1, a2, a3, a4, a5, hd, ?_, a8, ?_, bad, a7, fits⟩
  · rw [len]; exact a6
  · simp only [State.pkgSigned, sum, dg, sg, key, Option.any_some, signed, Bool.and_true, beq_iff_eq]
    change beNat (beBytes 32 packageSum.toNat) = _
    rw [beNat_beBytes]
    exact Nat.mod_eq_of_lt packageSum.isLt
/-- With a digest of zeros it is not signed unless the sum is zero. -/
theorem met_FirnCommands_2b (h : packageSum ≠ 0) : (loading (List.replicate 32 0) someSig).pkgSigned (package (List.replicate 32 0) someSig) = false ∧
    headerOk ((package (List.replicate 32 0) someSig).take 256) 0x300000 = true := by
  have sum : Config.sha256 ((package (List.replicate 32 0) someSig).take 0x40 ++ (package (List.replicate 32 0) someSig).drop 0x100)
      = packageSum := rfl
  have dg : beNat (field (package (List.replicate 32 0) someSig) 0x40 32) = 0 := rfl
  refine ⟨?_, rfl⟩
  have ne : packageSum.toNat ≠ 0 := fun e => h (BitVec.eq_of_toNat_eq e)
  simp only [State.pkgSigned, sum, dg]
  rw [show (0 == packageSum.toNat) = false from by simpa using Ne.symm ne]
  rfl
/-- A model of that package, loaded by T0 under a handle. -/
def model : FModel := { modelOf 0 (package [] []) with hdr := (package (List.replicate 32 0) someSig).take 256, ops := oneOp, const := [] }
/-- A job of it. -/
def fjobOf (num : Nat) (resident : Bool) : FJob :=
  { num := num, ten := 0, slot := 5, handle := 7, posBase := 0, inOff := 0, outOff := 64, acceptedAt := 0, resident := resident }
/-- The engine with that model and jobs. -/
def inferring (jobs : List FJob) (f : Firn → Firn) : State :=
  { up with firn := f { up.firn with models := up.firn.models.set 7 (some model), jobs := jobs } }
theorem met_FirnCommands_3 : ∀ jobs ∈ [[], [fjobOf 1 true]], let s := ask (inferring jobs id) 0x0F03 [7]
    s.sends 0 0 0x0F03 [(0, 1)] ∧ s.prm1 0 0 0 = (7 : Fin 8).val ∧ s.fmodel 7 = some model ∧ model.loader = 0 ∧ s.firn.jobs = jobs ∧
    (fjobOf 1 true).handle = 7 := by decide +kernel
theorem met_FirnCommands_4 : let s := ask (inferring [] id) 0x0F04 [7]
    s.sends 0 0 0x0F04 [(0, 1)] ∧ s.prm1 0 0 0 = (7 : Fin 8).val ∧ s.fmodel 7 = some model := by decide +kernel
theorem met_FirnCommands_5 : ∀ n ∈ [7, 8], let s := ask (inferring ((List.range n).map fun k => fjobOf k false) id) 0x0F05 ([7, 0, 0, 0, 0, 0, 0, 0] ++ leBytes 4 0 ++ leBytes 4 64)
    s.sends 0 0 0x0F05 [(0, 1), (4, 2), (8, 8)] ∧ s.prm1 0 0 0 = (7 : Fin 8).val ∧ s.fmodel 7 = some model ∧ s.runOk 0 0 model = true ∧
    (∀ j ∈ s.firn.jobs, j.ten ≠ 0 ∨ j.slot ≠ 0 ∨ j.orphan = true) ∧ s.firn.jobs.length = n := by decide +kernel
theorem met_FirnCommands_6 : ∀ b : Bool, let s := ask (inferring [] fun x => { x with inService := !b }) 0x0F06 [BitVec.ofNat 8 (b2n b)]
    s.sends 0 0 0x0F06 [(0, 1)] ∧ s.firn.outBy = none ∧ s.firn.testBy = none ∧ s.prm1 0 0 0 = b2n b ∧ s.firn.inService = !b ∧
    s.firn.failed = false := by decide +kernel
theorem met_FirnCommands_7 : let s := ask up 0x0F07 [1]
    s.sends 0 0 0x0F07 [(0, 1)] ∧ s.prm1 0 0 0 = 1 ∧ s.configBusy = false := by decide +kernel
theorem met_FirnRows_1 : let s := inferring [fjobOf 1 false] id
    s.smallestTag s.mayReside = some (fjobOf 1 false) ∧ s.domOn dINF = true ∧ s.fmodel (fjobOf 1 false).handle = some model := by
  decide +kernel
theorem met_FirnRows_2 : let s := inferring [fjobOf 1 true] fun x => { x with run := some (1, 0), copying := some 1 }
    s.firn.run = some (1, 0) ∧ s.firn.copying = some 1 ∧ s.fjob 1 = some (fjobOf 1 true) ∧ s.fmodel (fjobOf 1 true).handle = some model ∧
    (fjobOf 1 true).orphan = false := by decide +kernel
/-- A resident job after its first layer, asked to stop or not. -/
def between (stop : Option StopWhy) (layer : Nat) : State :=
  (inferring [{ fjobOf 1 true with layer := layer }] fun x => { x with run := some (1, 0) }).modSlot 0 5 fun x => { x with stop := stop }
theorem met_FirnRows_2b : ∀ k ∈ [0, 1], let j := { fjobOf 1 true with layer := k }
    (between none k).fjob 1 = some j ∧ (between none k).jobStop j = none ∧ (1 ≤ j.layer ↔ k = 1) ∧
    (between (some .abort) k).fjob 1 = some j ∧ ((between (some .abort) k).jobStop j).isSome = true := by decide +kernel
theorem met_FirnRows_3 : ∀ area ∈ [7, 9], let s := inferring [fjobOf 1 true] id
    s.sramArea area = true ∧ s.domOn dINF = true ∧ s.firn.run = none := by decide +kernel
theorem met_FirnRows_4 : let s := inferring [] fun x => { x with testing := true, testBy := some (0, 3) }
    s.firn.testing = true ∧ s.firn.testBy = some (0, 3) := by decide +kernel

/-! ### Audio and teleprotection -/

theorem met_AudioCommands_1 : (ask up 0x1001 [0]).sends 0 0 0x1001 [(0, 1)] ∧ (ask up 0x1001 [0]).prm1 0 0 0 = 0 := by decide +kernel
/-- The owner with the leases of the three audio ports, and one port in a state. -/
def audible (p : Fin 3) (f : APort → APort) : State :=
  ({ up with mbx.leases := [(1, 0), (2, 0), (3, 0)] }).modPort p f
theorem met_AudioCommands_2 : ∀ k ∈ [0, 4], let s := ask up 0x1002 [BitVec.ofNat 8 k, 0]
    let r := ask (audible 2 fun x => { x with st := .muted }) 0x1002 [BitVec.ofNat 8 k, 0]
    s.sends 0 0 0x1002 [(0, 2)] ∧ s.prm1 0 0 0 = k ∧ s.prm1 0 0 1 = 0 ∧ (∀ p : Fin 3, (s.port p).st = .closed) ∧
    r.sends 0 0 0x1002 [(0, 2)] ∧ r.prm1 0 0 0 = k ∧ r.prm1 0 0 1 = 0 ∧ (r.port 2).st ≠ .closed := by decide +kernel
theorem met_AudioCommands_3 : ∀ p : Fin 3, ∀ st ∈ [AState.closed, .muted],
    let s := ask (audible p fun x => { x with st := st }) 0x1003 [BitVec.ofNat 8 p.val, if p = 2 then 0 else 16, 0, 100, 1, 0]
    s.sends 0 0 0x1003 [(0, 6)] ∧ s.prm1 0 0 0 = p.val ∧ s.leasedAt 0 0 (p.val + 1) = true ∧ s.portPrmOk 0 0 = true ∧
    bit (s.prm1 0 0 4) 1 = false ∧ (s.port p).st = st := by decide +kernel
/-- The audio tributary in use in both directions. -/
def audioOn (s : State) : State :=
  let c : TribCfg := #v[some { down := true, up := true, queue := 0, rate := 12, close := 0 }, none, none]
  { s with aud := { s.aud with cfg := c, down := c, up := c } }
theorem met_AudioCommands_4 : ∀ p : Fin 3,
    (let s := ask up 0x1004 [BitVec.ofNat 8 p.val, 1]
     s.sends 0 0 0x1004 [(0, 2)] ∧ s.prm1 0 0 0 = p.val ∧ s.leasedAt 0 0 (p.val + 1) = false) ∧
    (∀ d ∈ [DomState.off, .on], let s := ask ((audioOn (audible p id)).setDom dAUD d) 0x1004 [BitVec.ofNat 8 p.val, 1]
     s.sends 0 0 0x1004 [(0, 2)] ∧ s.prm1 0 0 0 = p.val ∧ s.leasedAt 0 0 (p.val + 1) = true ∧ s.prm1 0 0 1 = 1 ∧
     (s.port p).st = .closed ∧ s.mayOpen p = true ∧ s.dom dAUD = d) ∧
    (let s := ask (audible p fun x => { x with st := .muted }) 0x1004 [BitVec.ofNat 8 p.val, 0]
     s.sends 0 0 0x1004 [(0, 2)] ∧ s.prm1 0 0 0 = p.val ∧ s.leasedAt 0 0 (p.val + 1) = true ∧ s.prm1 0 0 1 = 0 ∧
     (s.port p).st = .muted) := by decide +kernel
theorem met_AudioCommands_5 : ∀ p : Fin 3, ∀ x ∈ [2000000, 1000000 + 2 ^ 47 - 1],
    let s := ask (audible p fun x => { x with st := .muted }) 0x1005 ([BitVec.ofNat 8 p.val, 1, 0, 0, 0, 0, 0, 0] ++ leBytes 8 x)
    s.sends 0 0 0x1005 [(0, 2), (8, 8)] ∧ s.prm1 0 0 0 = p.val ∧ s.prm1 0 0 1 = 1 ∧ s.leasedAt 0 0 (p.val + 1) = true ∧
    (s.port p).st = .muted ∧ (s.port p).shutting = false ∧ (s.port p).start = none ∧ (s.port p).startDue = false ∧
    s.ttNs < s.portTt p (s.prm 0 0 8 8) ∧ s.prm 0 0 8 8 ≤ s.ttNs + (2 ^ 47 - 1) := by decide +kernel
/-- A TPS port configured in both directions, its lease the owner's. -/
def tpsOn (p : Fin 2) (f : Tps → Tps) : State :=
  let c : TribCfg := (Vector.replicate 3 none).set (tribOf p) (some { down := true, up := true, queue := 0, rate := 640, close := 0 })
  ({ up with aud := { up.aud with cfg := c, down := c, up := c }, mbx.leases := [(4, 0), (5, 0)] }).modTps p f
theorem met_AudioCommands_6 : ∀ p : Fin 2,
    (let s := ask up 0x1101 [BitVec.ofNat 8 p.val, 0]
     s.sends 0 0 0x1101 [(0, 2)] ∧ s.prm1 0 0 0 = p.val ∧ s.prm1 0 0 1 = 0) ∧
    (∀ d ∈ [DomState.off, .on], let s := ask ((tpsOn p id).setDom dAUD d) 0x1102 ([BitVec.ofNat 8 p.val, 1, 0, 0, 0, 0, 0, 0] ++ leBytes 8 (2 ^ 47 - 1))
     s.sends 0 0 0x1102 [(0, 2), (8, 8)] ∧ s.prm1 0 0 0 = p.val ∧ s.leasedAt 0 0 (p.val + 4) = true ∧ s.prm1 0 0 1 = 1 ∧
     s.tpsBoth p = true ∧ (s.tpsPort p).openAt = none ∧ (s.tpsPort p).open_ = false ∧ s.prm 0 0 8 8 ≤ s.ttNs + (2 ^ 47 - 1) ∧
     s.tickPast p (s.prm 0 0 8 8) = false ∧ s.dom dAUD = d) ∧
    (let s := ask (tpsOn p fun x => { x with openAt := some 9 }) 0x1102 [BitVec.ofNat 8 p.val, 3]
     s.sends 0 0 0x1102 [(0, 2)] ∧ s.prm1 0 0 0 = p.val ∧ s.leasedAt 0 0 (p.val + 4) = true ∧ s.prm1 0 0 1 = 3 ∧
     (s.tpsPort p).openAt = some 9) := by decide +kernel
/-- A tributary container for the broadcast RH: type, body, and its `TCRC`, right or wrong. -/
def tribContainer (type : Nat) (body : List Byte) (right : Bool) : List Byte :=
  let h := beBytes 2 type ++ beBytes 2 (body.length + 4)
  let k := h ++ beBytes 2 (crc16 h) ++ body
  k ++ (if right then fcsBytes k else (fcsBytes k).map (· ^^^ 1))
/-- The active lane receives tributary containers in SYNC. -/
def carrying (s : State) : State :=
  s.modChan 0 fun c => { c with st := .sync, rx := { c.rx with hdrOk := true, tribCnt := 1, tribLen := 4096 } }
theorem met_AudioRows_1 : ∀ right : Bool, let s := carrying (audioOn up)
    let b := tribContainer 1 [0, 7, 1, 0] right
    let s1 := s.modChan 0 fun c => c.afterTrib b .whole
    0 = s.lanes.prot.active ∧ s.domOn dFRM = true ∧ (s.chan 0).delinTrib b = .whole ∧ (s1.roleOf (kRh b)).isSome = true ∧
    kType b = 1 ∧ (s1.aud.down[(0 : Fin 3)]).any (·.down) = true ∧ tcrcOk b = right ∧ s.domOn dAUD = true ∧
    annOk ((b.drop 6).take (kLen b - 4)) = true := by decide +kernel
theorem met_AudioRows_2 : ∀ p : Fin 2, ∀ d ∈ [DomState.off, .on], let s := (carrying (tpsOn p id)).setDom dAUD d
    let b := tribContainer (2 + p.val) ([0, 7] ++ List.replicate (tpsBytes (s.tpsNDown p)) 0) true
    let s1 := s.modChan 0 fun c => c.afterTrib b .whole
    0 = s.lanes.prot.active ∧ s.domOn dFRM = true ∧ (s.chan 0).delinTrib b = .whole ∧ (s1.roleOf (kRh b)).isSome = true ∧
    kType b = p.val + 2 ∧ (s1.aud.down[tribOf p]).any (·.down) = true ∧ tcrcOk b = true ∧
    ((b.drop 6).take (kLen b - 4)).length = 2 + tpsBytes (s1.tpsNDown p) ∧
    (s1.tpsPort p).seqIn ≠ some (byteAt ((b.drop 6).take (kLen b - 4)) 1) ∧ s.domOn dAUD = (d == .on) := by decide +kernel
/-- The slip buffer with blocks. -/
def slipping (n : Nat) : State := { up with aud.slip := { blocks := List.replicate n silentBlock, filling := false } }
theorem met_AudioRows_3 : (slipping 3).aud.slip.blocks.length = 3 ∧ (slipping 1).domOn dAUD = true ∧ (slipping 1).aud.slip.filling = false ∧
    (slipping 1).aud.slip.blocks = silentBlock :: [] := by decide +kernel
theorem met_AudioRows_4 : ∀ p : Fin 3, let s := up.modPort p fun x => { x with st := .muted, start := some 9, gateBy := some 9 }
    let r := up.modPort p fun x => { x with st := .playing, stop := some 9 }
    (s.port p).start = some 9 ∧ (s.port p).gateBy = some 9 ∧ s.domOn dAUD = true ∧ (s.port p).st ≠ .closed ∧
    (r.port p).start = none ∧ (r.port p).stop = some 9 ∧ r.domOn dAUD = true := by decide +kernel
/-- An input that is locked, or not. -/
def input (lock : Bool) : State := { up with aud.lock := lock }
theorem met_AudioRows_5 : (∀ lock : Bool, (input lock).domOn dAUD = true) ∧
    (∀ ppm ∈ [(-1000 : Int), 0, 1000], ppm.natAbs ≤ 1000) ∧
    (∀ q ∈ [(191, (0 : Int)), (193, 0), (192, 1001), (192, -1001)], q.1 ≠ 192 ∨ 1000 < q.2.natAbs) ∧
    (∀ q ∈ [(8, (0 : Int), 0), (0, 2001, 10000000), (7, -2001, 10000000)],
      8 ≤ q.1 ∨ (2000 < q.2.1.natAbs ∧ 10000000 ≤ q.2.2)) ∧
    (∀ q ∈ [(7, (2000 : Int), 10000000), (7, 2001, 9999999)], q.1 < 8 ∧ (q.2.1.natAbs ≤ 2000 ∨ q.2.2 < 10000000)) ∧
    (input true).aud.lock = true := by decide +kernel
theorem met_AudioRows_5b : ∀ p : Fin 2, let s := up.modPort (Fin.ofNat 3 p.val) fun x => { x with st := .playing }
    s.domOn dAUD = true ∧ (s.port (Fin.ofNat 3 p.val)).st ≠ .closed := by decide +kernel
theorem met_AudioRows_6 : ∀ p : Fin 2, ∀ n ∈ [25, 26], let s := tpsOn p fun x => { x with open_ := true, txGo := true, tx := List.replicate n true }
    s.domOn dAUD = true ∧ (s.tpsPort p).open_ = true ∧ (s.tpsPort p).rx.length < 4 * s.tpsN p + 64 ∧ (s.tpsPort p).txGo = true ∧
    (s.tpsPort p).tx = true :: List.replicate (n - 1) true := by decide +kernel
/-- A destuffer on either side of the fill above which a bit leaves in 15 ticks. -/
theorem met_AudioRows_6b : ∀ p : Fin 2, let m := 3 * (tpsOn p id).tpsNDown p + 12
    (let s := tpsOn p fun x => { x with open_ := true, txGo := true, tx := List.replicate (m + 1) true }
     m < (s.tpsPort p).tx.length ∧ s.tpsNDown p * 3 + 12 = m) ∧
    (let s := tpsOn p fun x => { x with rx := List.replicate (4 * (tpsOn p id).tpsN p + 63) false, open_ := true }
     (s.tpsPort p).rx.length < 4 * s.tpsN p + 64) := by decide +kernel
theorem met_AudioRows_7 : up.domOn dFRM = true ∧ up.domOn dPKT = true := by decide +kernel

/-! ### Invariants -/

theorem met_Invariants : step State.reset = .next State.reset.idle ∧ State.reset.MemOk := ⟨rfl, State.reset_memOk⟩

/-! ### Values from outside the model -/

/-- The check values of the CRCs named in the manual (the string 1 to 9 in ASCII). -/
theorem test_crc : let nine : List Byte := [0x31, 0x32, 0x33, 0x34, 0x35, 0x36, 0x37, 0x38, 0x39]
    crc8 nine = 0xF4 ∧ crc16 nine = 0x29B1 ∧ crc32 nine = 0xCBF43926 := by decide +kernel
/-- Chapter 19's example: byte 0 of 0x5C decides to the code 01, its copies not all equal. -/
theorem test_jc_example : jcOf 0x5C = (1, true) := by decide +kernel
/-- IEEE 802.3, Tables 36-1a and 36-2: D21.5 is the same at both disparities, D0.0 and K28.5 are not. -/
theorem test_8b10b : encData 0xB5 false = 0b1010101010 ∧ encData 0xB5 true = 0b1010101010 ∧
    encData 0x00 false = 0b1001110100 ∧ encData 0x00 true = 0b0110001011 := by decide +kernel

end Sys2Proof.Tests
end

/-!
SUPPORT. Accesses to a mailbox window (chapter 05): a word written to a register over any transport, what a NIGHT exit
trigger and a notice leave of the windows and the tenant area, and the aperture beyond the end of a partition.
-/

namespace Sys2Proof.Machine

/-! ### What an SPI port holds -/

/-- The runs an SPI port holds, replaced. -/
def State.setBuf (s : State) (p : Fin 4) (es : List Posted) : State :=
  { s with mbx.ports := s.mbx.ports.set p { s.mbx.ports[p] with buf := es } }

theorem State.setBuf_buf (s : State) (p : Fin 4) (es : List Posted) : (s.setBuf p es).mbx.ports[p].buf = es := by
  simp [State.setBuf]

@[simp] theorem State.setBuf_boot (s : State) (p : Fin 4) (es : List Posted) : (s.setBuf p es).boot = s.boot := rfl

@[simp] theorem State.setBuf_tenOfPort (s : State) (p q : Fin 4) (es : List Posted) :
    (s.setBuf p es).tenOfPort q = s.tenOfPort q := rfl

/-- A port given runs and relieved of them is as it was. -/
theorem State.setBuf_refill {s : State} {p : Fin 4} (idle : s.mbx.ports[p].buf = []) (es : List Posted) :
    (s.setBuf p es).setBuf p [] = s := by
  have same : ({ s.mbx.ports[p] with buf := [] } : Port) = s.mbx.ports[p] := by rw [← idle]
  simp only [Fin.getElem_fin] at same
  simp [State.setBuf, same]

theorem State.newTxn_buf (s : State) (p : Fin 4) : (s.newTxn p).mbx.ports[p].buf = s.mbx.ports[p].buf := by
  simp [State.newTxn]

/-- A run that ends inside the window, written on a port that holds nothing, is what the port then holds (R115). -/
theorem State.postWrite_idle {s : State} {p : Fin 4} (ready : s.boot.mbxReady = true) (idle : s.mbx.ports[p].buf = [])
    {off : Nat} {data : List Byte} (given : data ≠ []) (fits : off + data.length ≤ 0x1000) :
    s.postWrite p off data = s.setBuf p [Posted.mk off data] := by
  have whole : data.take (0x1000 - off) = data := List.take_of_length_le (by omega)
  have room : data.take 4096 = data := List.take_of_length_le (by omega)
  unfold State.postWrite
  simp only [State.takesWrites, ready, Port.held, idle, whole, List.foldl_nil, Nat.sub_zero, room]
  simp [State.setBuf, given]

/-- The one run a port holds takes effect (R114). -/
theorem State.drainOne_single {s : State} {p : Fin 4} {t : Ten} {e : Posted} (runs : s.boot.phase = .running)
    (held : s.mbx.ports[p].buf = [e]) (ht : s.tenOfPort p = some t) :
    s.drainOne p = (s.setBuf p []).writeWindow t e.off e.data := by
  unfold State.drainOne
  simp only [held, runs]
  simp [ht, State.setBuf]

/-- A run below the aperture, written on a port that holds nothing, takes effect at once (R114, R115). -/
theorem State.spiWrite_idle {s : State} {p : Fin 4} {t : Ten} (reach : s.reaches (.spi p) t) {off : Nat}
    {data : List Byte} (given : data ≠ []) (below : off + data.length ≤ 0x900) :
    s.spiWrite p off data = (s.newTxn p).writeWindow t off data := by
  obtain ⟨-, runs, ready, idle, ht⟩ := reach
  have empty : (s.newTxn p).mbx.ports[p].buf = [] := (s.newTxn_buf p).trans (idle p rfl)
  have outside : inAperture off data.length = false := by simp [inAperture]; omega
  have post : (s.newTxn p).postWrite p off data = (s.newTxn p).setBuf p [Posted.mk off data] :=
    State.postWrite_idle (s := s.newTxn p) ready empty given (by omega)
  have free (x : State) : x.holdsRun (Posted.mk off data) true = false := by simp [State.holdsRun, outside]
  have run : ((s.newTxn p).setBuf p [Posted.mk off data]).drainOne p = (s.newTxn p).writeWindow t off data := by
    have drained := State.drainOne_single (s := (s.newTxn p).setBuf p [Posted.mk off data]) runs
      (State.setBuf_buf _ _ _) ht
    rwa [State.setBuf_refill empty] at drained
  unfold State.spiWrite
  simp only [post, outside, Bool.false_eq_true, false_and, if_false, State.setBuf_buf, List.length_singleton,
    State.drainRuns, free, run]

/-! ### A register written whole (R108) -/

/-- A word reads back from its four bytes. -/
theorem leNat_leBytes_word (v : Word) : leNat (leBytes 4 v.toNat) = v.toNat := by
  rw [leNat_leBytes]
  exact Nat.mod_eq_of_lt v.isLt

/-- Four bytes at the offset of a register are one write of that register. -/
theorem State.writeRun_reg (s : State) (t : Ten) {r : Nat} (hr : r < 0x24) (ha : r % 4 = 0) {bs : List Byte}
    (len : bs.length = 4) : s.writeRun t 4 r bs = s.writeReg t r (leNat bs) := by
  obtain ⟨a, b, c, d, rfl⟩ := List.length_eq_four.1 len
  simp [State.writeRun, hr, ha]

/-- A window that is ready takes a word at a register. -/
theorem State.writeWindow_word {s : State} (ready : s.boot.mbxReady = true) (t : Ten) {r : Nat} (hr : r < 0x24)
    (ha : r % 4 = 0) (v : Word) : s.writeWindow t r (leBytes 4 v.toNat) = s.writeReg t r v.toNat := by
  have below : ¬(0x900 < r + 4 ∧ r < 0x1000) := by omega
  have run := s.writeRun_reg t hr ha (leBytes_length 4 v.toNat)
  rw [leNat_leBytes_word] at run
  simp [State.writeWindow, ready, below, run]

/-- A word written to a register of a window that the access reaches takes effect whole and at once. -/
theorem State.viaWrite_word {s : State} {via : Via} {t : Ten} (reach : s.reaches via t) {r : Nat} (hr : r < 0x24)
    (ha : r % 4 = 0) (v : Word) : s.viaWrite via r (leBytes 4 v.toNat) = (s.accessed via).writeReg t r v.toNat := by
  have taken (x : State) (ready : x.boot.mbxReady = true) := State.writeWindow_word ready t hr ha v
  have whole : (leBytes 4 v.toNat).take (0x1000 - r) = leBytes 4 v.toNat := List.take_of_length_le (by simp; omega)
  obtain ⟨-, -, ready, -, ht⟩ := id reach
  cases via with
  | spi p => exact (State.spiWrite_idle reach (by simp [leBytes]) (by simp; omega)).trans (taken (s.newTxn p) ready)
  | lane u => simpa only [State.viaWrite, State.accessed, ht, whole] using taken s ready
  | owner => simpa only [State.viaWrite, State.accessed, ht, whole] using taken s ready

/-! ### EVT_TAIL and BULK_BASE -/

@[simp] theorem State.accessed_ten (s : State) (via : Via) (t : Ten) : (s.accessed via).ten t = s.ten t := by
  cases via <;> rfl

@[simp] theorem State.accessed_partBytes (s : State) (via : Via) (t : Ten) :
    (s.accessed via).partBytes t = s.partBytes t := by
  simp [State.partBytes]

theorem State.evtTail_forward {s : State} {t : Ten} {v : Nat}
    (h : BitVec.ofNat 16 v - (s.ten t).win.tail ≤ (s.ten t).win.head - (s.ten t).win.tail) :
    s.evtTail t v = s.modTen t fun x => { x with win.tail := BitVec.ofNat 16 v } := if_pos h

theorem State.evtTail_ignored {s : State} {t : Ten} {v : Nat}
    (h : ¬BitVec.ofNat 16 v - (s.ten t).win.tail ≤ (s.ten t).win.head - (s.ten t).win.tail) :
    s.evtTail t v = s := if_neg h

theorem State.bulkBase_ignored {s : State} {t : Ten} {v : Nat} (h : s.partBytes t ≤ bits v 8 14 * 256) :
    s.bulkBase t v = s := if_neg (Nat.not_lt.2 h)

theorem exec_evtTail {s : State} {via : Via} {t : Ten} (reach : s.reaches via t) (v : Word) :
    exec (.evtTail via v) s = .next ((s.accessed via).evtTail t v.toNat) := by
  show execEvtTail via v s = _
  rw [execEvtTail, if_pos reach.1, State.viaWrite_word reach (by decide) (by decide)]
  rfl

theorem exec_bulkBase {s : State} {via : Via} {t : Ten} (reach : s.reaches via t) (v : Word) :
    exec (.bulkBase via v) s = .next ((s.accessed via).bulkBase t v.toNat) := by
  show execBulkBase via v s = _
  rw [execBulkBase, if_pos reach.1, State.viaWrite_word reach (by decide) (by decide)]
  rfl

/-- Settles O18: the word reaches `EVT_TAIL` whole over every transport, and the register judges it. -/
theorem evtTailMovesForward : Obligations.EvtTailMovesForward := by
  intro s via t v reach w s1
  rw [exec_evtTail reach]
  constructor <;> intro h
  · rw [State.evtTail_forward (by simpa only [State.accessed_ten] using h)]
  · rw [State.evtTail_ignored (by simpa only [State.accessed_ten] using h)]

/-! ### What a notice leaves of the windows -/

@[simp] theorem State.queueLmm_tenants (s : State) (type : Byte) (body : List Byte) :
    (s.queueLmm type body).tenants = s.tenants := by
  unfold State.queueLmm
  extract_lets u
  split <;> rfl

@[simp] theorem State.macSend_tenants (s : State) (l : Fin 2) (f : MacFrame) : (s.macSend l f).tenants = s.tenants := by
  unfold State.macSend
  extract_lets x
  split
  · rfl
  · split <;> rfl

@[simp] theorem State.firmUse_tenants (s : State) (e : Fin 32) : (s.firmUse e).tenants = s.tenants := by
  unfold State.firmUse
  extract_lets n own
  split <;> rfl

/-- A change of a tenant that keeps its window, on a state with the same tenants. -/
theorem State.modTen_win {s s' : State} (same : s'.tenants = s.tenants) {f : Tenant → Tenant}
    (keeps : ∀ x, (f x).win = x.win) (t u : Ten) : ((s'.modTen t f).ten u).win = (s.ten u).win := by
  have hten (v : Ten) : s'.ten v = s.ten v := by simp [State.ten, same]
  rw [State.modTen_ten]
  split
  · next h => rw [keeps, hten, h]
  · rw [hten]

theorem State.sendNotice_win (s : State) (t u : Ten) : ((s.sendNotice t).ten u).win = (s.ten u).win := by
  unfold State.sendNotice
  extract_lets x
  split
  · split
    · refine State.modTen_win ?_ ?_ t u
      · simp
      · exact fun _ => rfl
    · rfl
  · split
    · refine State.modTen_win ?_ ?_ t u
      · simp
      · exact fun _ => rfl
    · rfl

@[simp] theorem State.notify_win (s : State) (t u : Ten) : ((s.notify t).ten u).win = (s.ten u).win := by
  unfold State.notify
  split
  · exact s.sendNotice_win t u
  · rfl

/-- A flag of `MBX_STATUS` is set once it is flagged (R111). -/
theorem State.flagTen_get (s : State) (t : Ten) {get : Win → Bool} {f : Win → Win} (sets : ∀ w, get (f w) = true) :
    get ((s.flagTen t get f).ten t).win = true := by
  unfold State.flagTen
  split
  · assumption
  · simp [State.modTen_ten, sets]

@[simp] theorem State.flagTen_sram (s : State) (t : Ten) (get : Win → Bool) (f : Win → Win) :
    (s.flagTen t get f).sram = s.sram := by
  unfold State.flagTen
  split <;> simp

/-! ### What a NIGHT exit trigger changes (R72, R73) -/

/-- From `s` to `s'` a wake is triggered or goes on: the time it takes, the pads and the always-on domain with the
regulator, the power unit, the clock's search and the upstream messages may differ. -/
def State.WakesTo (s s' : State) : Prop :=
  ∃ now pads ao power clk us, s' =
    { s with now := now, pads := pads, ao := ao, power := power, clk := clk, us := us }

theorem State.WakesTo.refl (s : State) : s.WakesTo s := ⟨s.now, s.pads, s.ao, s.power, s.clk, s.us, rfl⟩

theorem State.WakesTo.trans {a b c : State} (h : a.WakesTo b) (k : b.WakesTo c) : a.WakesTo c := by
  obtain ⟨_, _, _, _, _, _, rfl⟩ := h
  obtain ⟨n, p, a, w, c, u, rfl⟩ := k
  exact ⟨n, p, a, w, c, u, rfl⟩

theorem State.WakesTo.tenants {s s' : State} (h : s.WakesTo s') : s'.tenants = s.tenants := by
  obtain ⟨_, _, _, _, _, _, rfl⟩ := h; rfl

theorem State.WakesTo.sram {s s' : State} (h : s.WakesTo s') : s'.sram = s.sram := by
  obtain ⟨_, _, _, _, _, _, rfl⟩ := h; rfl

/-- A change of the power unit alone, on top of a wake. -/
theorem State.WakesTo.power {s s' : State} (h : s.WakesTo s') (p : Power) : s.WakesTo { s' with power := p } :=
  h.trans ⟨s'.now, s'.pads, s'.ao, p, s'.clk, s'.us, rfl⟩

theorem State.raiseEnable_wakes (s : State) (raised : List ReadySig) (sig : ReadySig) :
    s.WakesTo (s.raiseEnable raised sig) := by
  unfold State.raiseEnable
  split
  · split
    · exact .refl s
    · exact ⟨_, _, s.ao, s.power, s.clk, s.us, rfl⟩
  · split
    · exact .refl s
    · exact ⟨_, _, _, _, s.clk, s.us, rfl⟩
  · exact .refl s

theorem State.beginWakeSearch_wakes (s : State) : s.WakesTo s.beginWakeSearch :=
  ⟨s.now, s.pads, s.ao, s.power, _, s.us, rfl⟩

theorem State.startWake_wakes (s : State) (k : WakeKind) (src : PState) (pins : BitVec 4) :
    s.WakesTo (s.startWake k src pins) := by
  unfold State.startWake
  extract_lets doms
  split
  next n w _ =>
    extract_lets s0 s1 raised
    have search : s.WakesTo s0 := by
      unfold s0
      split
      · exact s.beginWakeSearch_wakes
      · exact .refl s
    refine .power ?_ _
    unfold s1
    split
    · exact search.trans (s0.raiseEnable_wakes [] _)
    · exact search

theorem State.queueLmm_wakes (s : State) (type : Byte) (body : List Byte) : s.WakesTo (s.queueLmm type body) := by
  unfold State.queueLmm
  extract_lets u
  split <;> exact ⟨s.now, s.pads, s.ao, s.power, s.clk, _, rfl⟩

theorem State.tellExit_wakes (s : State) (cause : Byte) : s.WakesTo (s.tellExit cause) := by
  unfold State.tellExit
  extract_lets bits body power night s1 fix
  have told : s.WakesTo s1 := (State.WakesTo.refl s).power _
  split
  · exact told.trans (s1.queueLmm_wakes _ _)
  · exact told.trans ⟨s1.now, s1.pads, s1.ao, s1.power, s1.clk, _, rfl⟩

theorem State.nightTrigger_wakes (s : State) (cause : Byte) (pins : BitVec 4) :
    s.WakesTo (s.nightTrigger cause pins) := by
  unfold State.nightTrigger
  split
  · extract_lets told power night s1
    have exits : s.WakesTo s1 := by
      refine .power ?_ _
      unfold told
      split
      · exact .refl s
      · exact s.tellExit_wakes cause
    split
    · split
      · exact exits.power _
      · exact exits.trans (s1.startWake_wakes _ _ _)
    · exact exits.trans (s1.startWake_wakes _ _ _)
  · split
    · exact (s.tellExit_wakes _).power _
    · exact .refl s

@[simp] theorem State.nightTrigger_sram (s : State) (cause : Byte) (pins : BitVec 4) :
    (s.nightTrigger cause pins).sram = s.sram := (s.nightTrigger_wakes cause pins).sram

@[simp] theorem State.nightTrigger_ten (s : State) (cause : Byte) (pins : BitVec 4) (t : Ten) :
    (s.nightTrigger cause pins).ten t = s.ten t := by
  simp only [State.ten, (s.nightTrigger_wakes cause pins).tenants]

@[simp] theorem State.nightTrigger_partBytes (s : State) (cause : Byte) (pins : BitVec 4) (t : Ten) :
    (s.nightTrigger cause pins).partBytes t = s.partBytes t := by
  simp only [State.partBytes, State.nightTrigger_ten]

/-! ### The aperture beyond the end of the partition (R109) -/

theorem winByte_beyond {s : State} {t : Ten} {off : Nat} (h : 0x900 ≤ off)
    (beyond : s.partBytes t ≤ (s.ten t).bulkOff off) : winByte s t off = 0 := by
  have outside : ¬(off < 0x1000 ∧ (s.ten t).bulkOff off < s.partBytes t) := by omega
  unfold winByte
  extract_lets x
  rw [if_neg (by omega), if_neg (by omega), if_neg (by omega), if_neg (by omega), if_neg (by omega), if_neg outside]

/-- No result slot begins in the aperture: a read there counts for none (R123). -/
theorem readCounts_aperture {off : Nat} (h : 0x900 ≤ off) (len : Nat) : readCounts off len = [] := by
  unfold readCounts
  rw [List.filter_eq_nil_iff]
  intro n _
  have := n.isLt
  simp only [Bool.and_eq_true, decide_eq_true_eq]
  omega

theorem State.apertureUse_bulkErr {s : State} {t : Ten} {off : Nat} (beyond : s.partBytes t ≤ (s.ten t).bulkOff off) :
    ((s.apertureUse t off 1).ten t).win.bulkErr = true := by
  unfold State.apertureUse
  extract_lets s1
  rw [if_neg (by omega)]
  exact s1.flagTen_get t fun _ => rfl

theorem State.writeBulk_beyond {s : State} {t : Ten} {off : Nat} (beyond : s.partBytes t ≤ (s.ten t).bulkOff off)
    (b : Byte) : (s.writeBulk t off b).sram = s.sram ∧ ((s.writeBulk t off b).ten t).win.bulkErr = true := by
  have eq : s.writeBulk t off b = s.flagTen t (·.bulkErr) fun w => { w with bulkErr := true } :=
    if_neg (Nat.not_lt.2 beyond)
  rw [eq]
  exact ⟨s.flagTen_sram _ _ _, s.flagTen_get t fun _ => rfl⟩

/-- A byte of the aperture read beyond the partition's end. -/
theorem readWindow_beyond {s : State} {via : Via} {t : Ten} (ready : s.boot.mbxReady = true) (ht : s.tenOf via = some t)
    {off : Nat} (h : 0x900 ≤ off) (h' : off < 0x1000) (beyond : s.partBytes t ≤ (s.ten t).bulkOff off) :
    readWindow s via off 1 = ([0], s.apertureUse t off 1) := by
  have lo : max off 0x900 = off := by omega
  have hi : min (off + 1) 0x1000 = off + 1 := by omega
  have status : ¬off < 8 := by omega
  unfold readWindow
  simp [ht, ready, readCounts_aperture h, winByte_beyond h beyond, lo, hi, status]

/-- A byte of the aperture written: a NIGHT exit trigger and the byte. -/
theorem State.writeWindow_bulkByte {s : State} (ready : s.boot.mbxReady = true) (t : Ten) {off : Nat} (h : 0x900 ≤ off)
    (h' : off < 0x1000) (b : Byte) : s.writeWindow t off [b] = (s.nightTrigger 0x02).writeBulk t off b := by
  have reg : ¬off < 0x24 := by omega
  have cmd : ¬(0x100 ≤ off ∧ off < 0x300) := by omega
  have bulk : 0x900 < off + 1 ∧ off < 0x1000 := by omega
  simp [State.writeWindow, ready, bulk, State.writeRun, reg, State.writeByte, cmd, h]

theorem exec_bulkApertureAccess (via : Via) (access : Aperture) (s : State) :
    exec (.bulkApertureAccess via access) s = execBulkApertureAccess via access s := rfl

/-- Settles O19: neither a read nor a write reaches the tenant area beyond the partition. -/
theorem apertureBeyondThePartition : Obligations.ApertureBeyondThePartition := by
  intro s t ready
  refine ⟨fun via v reach large => ?_, fun ht off h h' beyond => ⟨?_, fun b => ?_⟩⟩
  · rw [exec_bulkBase reach, State.bulkBase_ignored (by simpa using large)]
  · refine ⟨(s.apertureUse t off 1).emit (.read (.lane t) [0]), (s.apertureUse t off 1).out, ?_, rfl,
      State.apertureUse_bulkErr beyond⟩
    simp [exec_bulkApertureAccess, execBulkApertureAccess, State.answers, ready, h, State.viaRead,
      readWindow_beyond ready ht h h' beyond]
  · have run : exec (.bulkApertureAccess (.lane t) (.write off [b])) s =
        .next ((s.nightTrigger 0x02).writeBulk t off b) := by
      have whole : [b].take (0x1000 - off) = [b] := List.take_of_length_le (by simp; omega)
      simp only [exec_bulkApertureAccess, execBulkApertureAccess, State.answers, ready, h, State.viaWrite, ht, whole]
      simp [State.writeWindow_bulkByte ready t h h' b]
    obtain ⟨kept, flagged⟩ := (s.nightTrigger 0x02).writeBulk_beyond (t := t) (off := off) (by simpa using beyond) b
    exact ⟨_, run, kept.trans (s.nightTrigger_sram _ _), flagged⟩

end Sys2Proof.Machine

/-!
SUPPORT. The event router (chapter 07): the routing entries after a chip-scope start, and the round-robin choice of a
LOWEST delivery.
-/

namespace Sys2Proof.Machine

/-! ### The routing entries after a chip-scope start -/

theorem State.WakesTo.evt {s s' : State} (h : s.WakesTo s') : s'.evt = s.evt := by
  obtain ⟨_, _, _, _, _, _, rfl⟩ := h; rfl

@[simp] theorem State.setDoms_evt (s : State) (ds : List Dom) (x : DomState) : (s.setDoms ds x).evt = s.evt := by
  unfold State.setDoms
  induction ds generalizing s with
  | nil => rfl
  | cons d ds ih => exact (ih (s.setDom d x)).trans (s.setDom_evt d x)

/-- The start of the terminal leaves the router alone, with the rails up or through the wake sequence. -/
@[simp] theorem State.startChip_evt (s : State) (k : WakeKind) (pins : BitVec 4) : (s.startChip k pins).evt = s.evt := by
  simp only [State.startChip]
  split
  · exact State.setDoms_evt _ _ _
  · exact (State.startWake_wakes _ _ _ _).evt

theorem State.resetUnits_evt (s : State) : s.resetUnits.evt = {} := rfl

/-- A chip reset leaves the router at its reset value, whether the start follows at once or waits for `RST_N`. -/
theorem State.chipReset_evt (s : State) (cause detail : Nat) : (s.chipReset cause detail).evt = {} := by
  simp only [State.chipReset]
  split
  · exact s.recordCut.resetUnits_evt
  · exact (State.startChip_evt _ _ _).trans s.recordCut.resetUnits_evt

theorem State.source_of_evt_init {s : State} (init : s.evt = {}) (i : Fin 256) : s.source i = {} := by
  simp [State.source, init]

/-! ### The round-robin choice (R173) -/

/-- A search that goes round the tenants from a pointer finds the first match at or after it, wrapping: no match lies
nearer the pointer. -/
theorem find?_round {p : Ten → Bool} {ptr t : Ten}
    (found : ((List.range 8).map fun i => ptr + Fin.ofNat 8 i).find? p = some t) :
    p t = true ∧ ∀ u, p u = true → (t - ptr).val ≤ (u - ptr).val := by
  rw [List.find?_map, Option.map_eq_some_iff] at found
  obtain ⟨k, first, rfl⟩ := found
  obtain ⟨holds, inRange, before⟩ := List.find?_range_eq_some.1 first
  refine ⟨holds, fun u hu => ?_⟩
  have place : (ptr + Fin.ofNat 8 k - ptr).val = k := by
    rw [add_sub_cancel_left]
    exact Nat.mod_eq_of_lt (List.mem_range.1 inRange)
  rw [place]
  by_contra nearer
  have skipped := before (u - ptr).val (by omega)
  simp [hu] at skipped

/-- Among the eligible targets that share the priority of the tenant chosen, none lies nearer the pointer. -/
theorem State.lowestTarget_nearest {s : State} {x : Source} {t : Ten} (chosen : s.lowestTarget x = some t) {u : Ten}
    (target : u ∈ x.tenants) (eligible : s.eligible u = true) (tie : (s.ten u).win.cpri = (s.ten t).win.cpri) :
    (t - x.ptr).val ≤ (u - x.ptr).val := by
  unfold State.lowestTarget at chosen
  extract_lets cand least at chosen
  obtain ⟨holds, nearest⟩ := find?_round chosen
  have candidate : cand.contains u = true := List.contains_iff_mem.2 (List.mem_filter.2 ⟨target, eligible⟩)
  have lowest : ((s.ten u).win.cpri.toNat == least) = true := by
    rw [tie]
    exact (Bool.and_eq_true_iff.1 holds).2
  exact nearest u (Bool.and_eq_true_iff.2 ⟨candidate, lowest⟩)

/-- What the cores take has no part in the choice of a tenant. -/
theorem State.coreEvent_lowestTarget (s : State) (i : Fin 256) (l : Latch) (x : Source) :
    (s.coreEvent i l).lowestTarget x = s.lowestTarget x := rfl

/-- A LOWEST delivery with a tenant to take it (R172, R173). -/
theorem State.deliverEvent_lowest {s : State} {i : Fin 256} {t : Ten} (mode : (s.source i).lowest = true)
    (chosen : s.lowestTarget (s.source i) = some t) (l : Latch) :
    s.deliverEvent i l = ((s.coreEvent i l).deliverTo i l t).modSource i fun y => { y with ptr := t + 1 } := by
  simp only [State.deliverEvent, mode, if_true, State.coreEvent_lowestTarget, chosen]

/-- Settles O29: the reset value of every routing entry points at T0, the choice goes round from the pointer, and the
delivery sets it past the tenant served. -/
theorem roundRobinPointer : Obligations.RoundRobinPointer := by
  intro s i l
  refine ⟨fun cause detail => ?_, fun t mode chosen => ⟨fun u target eligible tie => ?_, ?_⟩⟩
  · rw [State.source_of_evt_init (s.chipReset_evt cause detail)]
  · exact State.lowestTarget_nearest chosen target eligible tie
  · rw [State.deliverEvent_lowest mode chosen, State.modSource_source, if_pos rfl]

end Sys2Proof.Machine


/-!
SUPPORT. What every row of the command table upholds (`State.Upholds`): each meaning is a composition of the shared
operations, so its proof names the lemmas of those; from them the invariants of every step.
-/

namespace Sys2Proof.Machine

variable {s0 : State}


/-- A row answers a next state, and that state upholds what `s0` has. -/
def Out.Upholds (s0 : State) (o : Out) : Prop := ∃ s, o = .next s ∧ s0.Upholds s

theorem Out.Upholds.next {s : State} (h : s0.Upholds s) : Out.Upholds s0 (.next s) := ⟨s, rfl, h⟩

theorem commandBy_upholds {op : Nat} {t : Ten} {n : SlotIx} {s : State} {body : State → State} (hu : s0.Upholds s)
    (hb : ∀ x, s0.Upholds x → s0.Upholds (body x)) : Out.Upholds s0 (commandBy op t n s body) := by
  refine .next (.ite (hb s hu) ?_)
  split
  · exact State.runGhost_upholds _ _ _ hu hb
  · exact hu

theorem command_upholds {op : Nat} {used : List (Nat × Nat)} {t : Ten} {n : SlotIx} {s : State} {body : State → State}
    (hu : s0.Upholds s) (hb : ∀ x, s0.Upholds x → s0.Upholds (body x)) : Out.Upholds s0 (command op used t n s body) :=
  commandBy_upholds hu fun x hx => .ite (State.done_upholds _ _ _ _ hx) (hb x hx)

theorem lmmRow_upholds {type : Nat} {lens : Nat → Bool} {lane : Fin 2} {slot : Fin 3} {bytes : List Byte} {s : State}
    {body : State → Nat → List Byte → State} (hu : s0.Upholds s)
    (hb : ∀ x lrh b, s0.Upholds x → s0.Upholds (body x lrh b)) :
    Out.Upholds s0 (lmmRow type lens lane slot bytes s body) := by
  have seen := State.seeSlot_upholds s lane slot hu
  have dropped := State.dropLmm_upholds _ lane seen
  exact .next (.ite hu (.ite dropped (.ite seen (.ite dropped (.ite hu (.ite seen (.ite dropped (.ite seen
    (hb _ _ _ seen)))))))))

theorem tribRow_upholds {lane : Fin 2} {bytes : List Byte} {s : State} {mine : Nat → Bool}
    {body : State → Nat → List Byte → State} (hu : s0.Upholds s)
    (hb : ∀ x t b, s0.Upholds x → s0.Upholds (body x t b)) : Out.Upholds s0 (tribRow lane bytes s mine body) := by
  have taken := State.modChan_upholds s lane (fun c => c.afterTrib bytes ((s.chan lane).delinTrib bytes)) hu
  exact .next (.ite hu (.ite taken (.ite (State.countDs_upholds _ _ _ taken) (hb _ _ _ taken))))

/-! ### Shared by the rows -/

theorem Out.Upholds.ite {a b : Out} {c : Prop} [Decidable c] (ha : Out.Upholds s0 a) (hb : Out.Upholds s0 b) :
    Out.Upholds s0 (if c then a else b) := by split <;> assumption

/-- The body behind checks may rely on their having passed. -/
theorem State.guard_upholds_of (s : State) (t : Ten) (n : SlotIx) (checks : List (Bool × Half)) (k : State → State)
    (hu : s0.Upholds s) (hk : (∀ c ∈ checks, c.1 = false) → s0.Upholds (k s)) : s0.Upholds (s.guard t n checks k) := by
  unfold State.guard
  split
  · exact State.done_upholds _ _ _ _ hu
  · next none_fails => exact hk (by simpa using none_fails)

theorem State.requestSleep_forced_upholds (s : State) (cause : Byte) (force : Bool) (hu : s0.Upholds s) :
    s0.Upholds (s.requestSleep cause force) :=
  State.queueLmm_upholds _ _ _ (.upd hu rfl rfl rfl rfl rfl rfl)

theorem State.acceptEntry_forced_upholds (s : State) (target : EntryTarget) (retain : Bool) (by_ : Ten) (force : Bool)
    (hu : s0.Upholds s) : s0.Upholds (s.acceptEntry target retain by_ force) :=
  .upd (State.direct_upholds _ _ _ _ hu) rfl rfl rfl rfl rfl rfl

theorem State.clearSram_upholds {s : State} (hu : s0.Upholds s) (a n : Nat) :
    s0.Upholds { s with sram := s.sram.clear a n } :=
  hu.change (Nat.le_refl _) (Nat.le_refl _) fun m => ⟨Memory.canon_clear m.sram _ _, m.ens, m.buf, m.work⟩

theorem Icb.put_minSvn (x : Icb) (i : Fin 2) (v : ImageState) : (x.put i v).minSvn = x.minSvn := by
  unfold Icb.put
  split <;> rfl

/-- A job found by its number is one of the jobs, so its work area is in canonical form. -/
theorem fjob_work {s : State} (m : s.MemOk) {num : Nat} {j : FJob} (found : s.fjob num = some j) : j.work.canon :=
  m.work j (List.mem_of_find?_eq_some found)


/-! ### Power -/

theorem execTNoticeExpiry_upholds (s : State) (hu : s0.Upholds s) :
    Out.Upholds s0 (execTNoticeExpiry s) := by
  unfold execTNoticeExpiry
  refine .next ?_
  repeat' (first | with_reducible assumption | with_reducible refine State.Upholds.ite ?_ ?_
                 | with_reducible apply State.reach_upholds | with_reducible apply State.endNotice_upholds | split)

theorem execDeregNoticeTimeout_upholds (s : State) (hu : s0.Upholds s) :
    Out.Upholds s0 (execDeregNoticeTimeout s) := by
  unfold execDeregNoticeTimeout
  refine .next ?_
  repeat' (first | with_reducible assumption | with_reducible refine State.Upholds.ite ?_ ?_
                 | with_reducible apply State.dereg_upholds | with_reducible apply State.reach_upholds
                 | with_reducible apply State.afterNotice_upholds | with_reducible apply State.finishWait_upholds
                 | split)

theorem execTDuskExpiry_upholds (s : State) (hu : s0.Upholds s) :
    Out.Upholds s0 (execTDuskExpiry s) := by
  unfold execTDuskExpiry
  refine .next ?_
  repeat' (first | with_reducible assumption | with_reducible refine State.Upholds.ite ?_ ?_
                 | with_reducible apply State.reach_upholds | with_reducible apply State.toDusk_upholds)

theorem execTInfExpiry_upholds (s : State) (hu : s0.Upholds s) :
    Out.Upholds s0 (execTInfExpiry s) := by
  unfold execTInfExpiry
  refine .next ?_
  repeat' (first | with_reducible assumption | with_reducible refine State.Upholds.ite ?_ ?_
                 | with_reducible apply State.reach_upholds | with_reducible apply State.powerOff_upholds)

theorem execTBoostExpiry_upholds (s : State) (hu : s0.Upholds s) :
    Out.Upholds s0 (execTBoostExpiry s) := by
  unfold execTBoostExpiry
  refine .next ?_
  repeat' (first | with_reducible assumption | with_reducible refine State.Upholds.ite ?_ ?_
                 | with_reducible apply State.reach_upholds | with_reducible apply State.leaveBoost_upholds)

theorem execTAudExpiry_upholds (s : State) (hu : s0.Upholds s) :
    Out.Upholds s0 (execTAudExpiry s) := by
  unfold execTAudExpiry
  refine .next ?_
  repeat' (first | with_reducible assumption | with_reducible refine State.Upholds.ite ?_ ?_
                 | with_reducible apply State.reach_upholds | with_reducible apply State.powerOff_upholds)

theorem execTLnlExpiry_upholds (s : State) (hu : s0.Upholds s) :
    Out.Upholds s0 (execTLnlExpiry s) := by
  unfold execTLnlExpiry
  refine .next ?_
  dsimp only
  repeat' (first | with_reducible assumption | with_reducible refine State.Upholds.ite ?_ ?_
                 | with_reducible apply State.reach_upholds | with_reducible apply State.powerOff_upholds
                 | with_reducible refine State.Upholds.upd ?_ rfl rfl rfl rfl rfl rfl)

theorem execTLnlProbeExpiry_upholds (s : State) (hu : s0.Upholds s) :
    Out.Upholds s0 (execTLnlProbeExpiry s) := by
  unfold execTLnlProbeExpiry
  refine .next ?_
  dsimp only
  repeat' (first | with_reducible assumption | with_reducible refine State.Upholds.ite ?_ ?_
                 | with_reducible apply State.reach_upholds | with_reducible apply State.wakeDomains_upholds
                 | with_reducible refine State.Upholds.upd ?_ rfl rfl rfl rfl rfl rfl)

theorem execLnlProbeEnd_upholds (partner : Bool) (s : State) (hu : s0.Upholds s) :
    Out.Upholds s0 (execLnlProbeEnd partner s) := by
  unfold execLnlProbeEnd
  refine .next ?_
  dsimp only
  repeat' (first | with_reducible assumption | with_reducible refine State.Upholds.ite ?_ ?_
                 | with_reducible apply State.reach_upholds | with_reducible apply State.unitsOn_upholds
                 | with_reducible apply State.powerOff_upholds | split
                 | with_reducible refine State.Upholds.upd ?_ rfl rfl rfl rfl rfl rfl)

theorem execTNightExpiry_upholds (s : State) (hu : s0.Upholds s) :
    Out.Upholds s0 (execTNightExpiry s) := by
  unfold execTNightExpiry
  refine .next ?_
  repeat' (first | with_reducible assumption | with_reducible refine State.Upholds.ite ?_ ?_
                 | with_reducible apply State.reach_upholds | with_reducible apply State.autoNight_upholds)

theorem execTGlacierExpiry_upholds (s : State) (hu : s0.Upholds s) :
    Out.Upholds s0 (execTGlacierExpiry s) := by
  unfold execTGlacierExpiry
  refine .next ?_
  repeat' (first | with_reducible assumption | with_reducible refine State.Upholds.ite ?_ ?_
                 | with_reducible apply State.reach_upholds | with_reducible apply State.autoGlacier_upholds)

theorem execTDarkExpiry_upholds (s : State) (hu : s0.Upholds s) :
    Out.Upholds s0 (execTDarkExpiry s) := by
  unfold execTDarkExpiry
  refine .next ?_
  repeat' (first | with_reducible assumption | with_reducible refine State.Upholds.ite ?_ ?_
                 | with_reducible apply State.reach_upholds | with_reducible apply State.autoGlacier_upholds)

theorem execDomainWorkArrival_upholds (d : Dom) (s : State) (hu : s0.Upholds s) :
    Out.Upholds s0 (execDomainWorkArrival d s) := by
  unfold execDomainWorkArrival
  refine .next ?_
  repeat' (first | with_reducible assumption | with_reducible refine State.Upholds.ite ?_ ?_
                 | with_reducible apply State.probeOver_upholds | with_reducible apply State.toNoon_upholds
                 | with_reducible apply State.wakeDomains_upholds)

theorem execSleepAnswerTimeout_upholds (s : State) (hu : s0.Upholds s) :
    Out.Upholds s0 (execSleepAnswerTimeout s) := by
  unfold execSleepAnswerTimeout
  refine .next ?_
  dsimp only
  repeat' (first | with_reducible assumption | with_reducible apply State.reach_upholds
                 | with_reducible apply State.retryAuto_upholds | split
                 | with_reducible refine State.Upholds.upd ?_ rfl rfl rfl rfl rfl rfl)

theorem execNightListenWake_upholds (s : State) (hu : s0.Upholds s) :
    Out.Upholds s0 (execNightListenWake s) := by
  unfold execNightListenWake
  refine .next ?_
  dsimp only
  repeat' (first | with_reducible assumption | with_reducible refine State.Upholds.ite ?_ ?_
                 | with_reducible apply State.reachTt_upholds | with_reducible apply State.goNight_upholds
                 | with_reducible apply State.nightTrigger_upholds | with_reducible apply State.startWake_upholds)

theorem execNightListenEnd_upholds (s : State) (hu : s0.Upholds s) :
    Out.Upholds s0 (execNightListenEnd s) := by
  unfold execNightListenEnd
  refine .next ?_
  dsimp only
  repeat' (first | with_reducible assumption | with_reducible refine State.Upholds.ite ?_ ?_
                 | with_reducible apply State.reachTt_upholds | with_reducible apply State.nightTrigger_upholds
                 | with_reducible apply State.powerOffAll_upholds | with_reducible apply State.dpllLoss_upholds
                 | with_reducible refine State.Upholds.upd ?_ rfl rfl rfl rfl rfl rfl)

theorem execWakeTrigger_upholds (src : Fin 32) (data : Word) (s : State) (hu : s0.Upholds s) :
    Out.Upholds s0 (execWakeTrigger src data s) := by
  unfold execWakeTrigger
  refine .next ?_
  repeat' (first | with_reducible assumption | with_reducible apply State.aoAssert_upholds)

theorem execWakeStepTimeout_upholds (sig : ReadySig) (noBand : Bool) (s : State) (hu : s0.Upholds s) :
    Out.Upholds s0 (execWakeStepTimeout sig noBand s) := by
  unfold execWakeStepTimeout
  refine .next ?_
  repeat' (first | with_reducible assumption | with_reducible refine State.Upholds.ite ?_ ?_
                 | with_reducible apply State.failWake_upholds | split)

theorem execWakeStepReady_upholds (sig : ReadySig) (s : State) (hu : s0.Upholds s) :
    Out.Upholds s0 (execWakeStepReady sig s) := by
  unfold execWakeStepReady
  refine .next ?_
  repeat' (first | with_reducible assumption | with_reducible refine State.Upholds.ite ?_ ?_
                 | with_reducible apply State.wakeReady_upholds | split)

theorem execWakePinChange_upholds (pin : Fin 4) (level : Bool) (ns : Nat) (s : State) (hu : s0.Upholds s) :
    Out.Upholds s0 (execWakePinChange pin level ns s) := by
  unfold execWakePinChange
  refine .next ?_
  dsimp only
  repeat' (first | with_reducible assumption | with_reducible refine State.Upholds.ite ?_ ?_
                 | with_reducible apply State.judgePin_upholds | with_reducible apply State.freed_upholds
                 | with_reducible refine State.Upholds.upd ?_ rfl rfl rfl rfl rfl rfl)

theorem execWakeDebounceExpiry_upholds (pin : Fin 4) (s : State) (hu : s0.Upholds s) :
    Out.Upholds s0 (execWakeDebounceExpiry pin s) := by
  unfold execWakeDebounceExpiry
  refine .next ?_
  repeat' (first | with_reducible assumption | with_reducible apply State.reach_upholds
                 | with_reducible apply State.judgePin_upholds | split
                 | with_reducible refine State.Upholds.upd ?_ rfl rfl rfl rfl rfl rfl)

theorem execCsNFall_upholds (port : Fin 4) (s : State) (hu : s0.Upholds s) :
    Out.Upholds s0 (execCsNFall port s) := by
  unfold execCsNFall
  refine .next ?_
  repeat' (first | with_reducible assumption | with_reducible apply State.aoAssert_upholds)

theorem execDebugAttach_upholds (s : State) (hu : s0.Upholds s) :
    Out.Upholds s0 (execDebugAttach s) := by
  unfold execDebugAttach
  refine .next ?_
  repeat' (first | with_reducible assumption | with_reducible apply State.aoAssert_upholds
                 | with_reducible apply State.debugAttached_upholds
                 | with_reducible refine State.Upholds.upd ?_ rfl rfl rfl rfl rfl rfl)

theorem execDebugDetach_upholds (s : State) (hu : s0.Upholds s) :
    Out.Upholds s0 (execDebugDetach s) := by
  unfold execDebugDetach
  refine .next ?_
  repeat' (first | with_reducible assumption | with_reducible apply State.debugDetached_upholds
                 | with_reducible refine State.Upholds.upd ?_ rfl rfl rfl rfl rfl rfl)

theorem execVbatLow_upholds (mv : Nat) (s : State) (hu : s0.Upholds s) :
    Out.Upholds s0 (execVbatLow mv s) := by
  unfold execVbatLow
  refine .next ?_
  repeat' (first | with_reducible assumption | with_reducible refine State.Upholds.ite ?_ ?_
                 | with_reducible apply State.aoAssert_upholds
                 | with_reducible refine State.Upholds.upd ?_ rfl rfl rfl rfl rfl rfl)

theorem execRailOkLow_upholds (ns : Nat) (s : State) (hu : s0.Upholds s) :
    Out.Upholds s0 (execRailOkLow ns s) := by
  unfold execRailOkLow
  refine .next ?_
  dsimp only
  repeat' (first | with_reducible assumption | with_reducible refine State.Upholds.ite ?_ ?_
                 | with_reducible apply State.reach_upholds | with_reducible apply State.failWake_upholds
                 | with_reducible apply State.chipReset_upholds | split
                 | with_reducible refine State.Upholds.upd ?_ rfl rfl rfl rfl rfl rfl)

theorem execVbatPowerOn_upholds (mv : Nat) (s : State) (hu : s0.Upholds s) :
    Out.Upholds s0 (execVbatPowerOn mv s) := by
  unfold execVbatPowerOn
  refine .next ?_
  repeat' (first | with_reducible assumption | with_reducible refine State.Upholds.ite ?_ ?_
                 | with_reducible apply State.powerOnReset_upholds)

theorem execVbatFall_upholds (mv : Nat) (s : State) (hu : s0.Upholds s) :
    Out.Upholds s0 (execVbatFall mv s) := by
  unfold execVbatFall
  refine .next ?_
  dsimp only
  repeat' (first | with_reducible assumption | with_reducible refine State.Upholds.ite ?_ ?_
                 | with_reducible apply State.resetUnits_upholds
                 | with_reducible refine State.Upholds.upd ?_ rfl rfl rfl rfl rfl rfl)

theorem execVddioLevelDetect_upholds (field : Bool) (mv : Nat) (s : State) (hu : s0.Upholds s) :
    Out.Upholds s0 (execVddioLevelDetect field mv s) := by
  unfold execVddioLevelDetect
  refine .next ?_
  dsimp only
  repeat' (first | with_reducible assumption | with_reducible refine State.Upholds.ite ?_ ?_
                 | with_reducible refine State.Upholds.upd ?_ rfl rfl rfl rfl rfl rfl)

theorem execPmicWriteComplete_upholds (ack : Bool) (stretch : Nat) (s : State) (hu : s0.Upholds s) :
    Out.Upholds s0 (execPmicWriteComplete ack stretch s) := by
  unfold execPmicWriteComplete
  refine .next ?_
  dsimp only
  repeat' (first | with_reducible assumption | with_reducible refine State.Upholds.ite ?_ ?_
                 | with_reducible apply State.reach_upholds | with_reducible apply State.pmicFail_upholds | split
                 | with_reducible refine State.Upholds.upd ?_ rfl rfl rfl rfl rfl rfl)

theorem execPmicRetryTimer_upholds (s : State) (hu : s0.Upholds s) :
    Out.Upholds s0 (execPmicRetryTimer s) := by
  unfold execPmicRetryTimer
  refine .next ?_
  dsimp only
  repeat' (first | with_reducible assumption | with_reducible refine State.Upholds.ite ?_ ?_
                 | with_reducible apply State.reach_upholds | with_reducible apply State.setDoms_upholds
                 | with_reducible apply State.toBoost_upholds | with_reducible apply State.startPmic_upholds
                 | with_reducible apply State.toNoon_upholds | with_reducible apply State.sendPmic_upholds | split
                 | with_reducible refine State.Upholds.upd ?_ rfl rfl rfl rfl rfl rfl)

theorem execPmicSettleExpiry_upholds (s : State) (hu : s0.Upholds s) :
    Out.Upholds s0 (execPmicSettleExpiry s) := by
  unfold execPmicSettleExpiry
  refine .next ?_
  dsimp only
  repeat' (first | with_reducible assumption | with_reducible refine State.Upholds.ite ?_ ?_
                 | with_reducible apply State.reach_upholds | with_reducible apply State.pmicDone_upholds
                 | with_reducible apply State.toBoost_upholds | with_reducible apply State.startPmic_upholds
                 | with_reducible apply State.toNoon_upholds | split
                 | with_reducible refine State.Upholds.upd ?_ rfl rfl rfl rfl rfl rfl)

theorem execTjUpdate_upholds (tj : Int) (s : State) (hu : s0.Upholds s) :
    Out.Upholds s0 (execTjUpdate tj s) := by
  unfold execTjUpdate
  refine .next ?_
  dsimp only
  repeat' (first | with_reducible assumption | with_reducible refine State.Upholds.ite ?_ ?_
                 | with_reducible apply State.leaveBoost_upholds | with_reducible apply State.raise_upholds
                 | with_reducible apply State.seekBoost_upholds | with_reducible apply State.firnThermal_upholds
                 | with_reducible refine State.Upholds.upd ?_ rfl rfl rfl rfl rfl rfl)

theorem execLightWakeSample_upholds (a b : Nat) (s : State) (hu : s0.Upholds s) :
    Out.Upholds s0 (execLightWakeSample a b s) := by
  unfold execLightWakeSample
  refine .next ?_
  dsimp only
  repeat' (first | with_reducible assumption | with_reducible refine State.Upholds.ite ?_ ?_
                 | with_reducible refine State.Upholds.upd ?_ rfl rfl rfl rfl rfl rfl)

theorem execLightWakeFrame_upholds (s : State) (hu : s0.Upholds s) :
    Out.Upholds s0 (execLightWakeFrame s) := by
  unfold execLightWakeFrame
  refine .next ?_
  dsimp only
  repeat' (first | with_reducible assumption | with_reducible refine State.Upholds.ite ?_ ?_
                 | with_reducible apply State.aoAssert_upholds | with_reducible apply State.raise_upholds | split
                 | with_reducible refine State.Upholds.upd ?_ rfl rfl rfl rfl rfl rfl)

theorem execPowerStatus_upholds (t : Ten) (n : SlotIx) (s : State) (hu : s0.Upholds s) :
    Out.Upholds s0 (execPowerStatus t n s) := by
  unfold execPowerStatus
  refine command_upholds hu fun s hu => ?_
  repeat' (first | with_reducible assumption | with_reducible apply State.answer_upholds)

theorem execPowerSetState_upholds (t : Ten) (n : SlotIx) (s : State) (hu : s0.Upholds s) :
    Out.Upholds s0 (execPowerSetState t n s) := by
  refine commandBy_upholds hu fun s hu => State.guard_upholds _ _ _ _ _ hu ?_
  have answered : ∀ x, s0.Upholds x → s0.Upholds (x.stateAnswer t n) := fun x => State.stateAnswer_upholds _ _ _
  have refused : ∀ st, s0.Upholds (s.done t n st) := fun st => State.done_upholds _ _ _ _ hu
  refine .ite (.ite (State.nightTrigger_upholds _ _ _ (answered _ hu)) (answered _ hu)) (.ite (refused _) ?_)
  split
  · exact refused _
  · have cleared : s0.Upholds ((if bit (s.prm1 t n 1) 0 then s.clearForcible else s).stateAnswer t n) :=
      answered _ (.ite (State.clearForcible_upholds _ hu) hu)
    exact .ite (State.leaveBoost_upholds _ (State.requestSleep_forced_upholds _ _ _ cleared))
      (.ite (State.acceptEntry_forced_upholds _ _ _ _ _ cleared) (State.acceptEntry_forced_upholds _ _ _ _ _ cleared))

theorem execPowerFloor_upholds (t : Ten) (n : SlotIx) (s : State) (hu : s0.Upholds s) :
    Out.Upholds s0 (execPowerFloor t n s) := by
  unfold execPowerFloor
  refine command_upholds hu fun s hu => ?_
  dsimp only
  repeat' (first | with_reducible assumption | with_reducible refine State.Upholds.ite ?_ ?_
                 | with_reducible refine State.guard_upholds _ _ _ _ _ ?_ ?_
                 | with_reducible apply State.modTen_upholds | with_reducible apply State.answer_upholds
                 | with_reducible apply State.retryAuto_upholds)

theorem execPowerTimers_upholds (t : Ten) (n : SlotIx) (s : State) (hu : s0.Upholds s) :
    Out.Upholds s0 (execPowerTimers t n s) := by
  unfold execPowerTimers
  refine command_upholds hu fun s hu => ?_
  dsimp only
  repeat' (first | with_reducible assumption | with_reducible refine State.Upholds.ite ?_ ?_
                 | with_reducible refine State.guard_upholds _ _ _ _ _ ?_ ?_
                 | with_reducible apply State.persisted_upholds | with_reducible apply State.done_upholds
                 | with_reducible apply State.retryAuto_upholds
                 | with_reducible refine State.Upholds.upd ?_ rfl rfl rfl rfl rfl rfl)

theorem execPowerWakeCfg_upholds (t : Ten) (n : SlotIx) (s : State) (hu : s0.Upholds s) :
    Out.Upholds s0 (execPowerWakeCfg t n s) := by
  unfold execPowerWakeCfg
  refine command_upholds hu fun s hu => ?_
  dsimp only
  repeat' (first | with_reducible assumption | with_reducible refine State.guard_upholds _ _ _ _ _ ?_ ?_
                 | with_reducible apply State.done_upholds
                 | with_reducible refine State.Upholds.upd ?_ rfl rfl rfl rfl rfl rfl)

theorem execPowerBoost_upholds (t : Ten) (n : SlotIx) (s : State) (hu : s0.Upholds s) :
    Out.Upholds s0 (execPowerBoost t n s) := by
  unfold execPowerBoost
  refine command_upholds hu fun s hu => ?_
  dsimp only
  repeat' (first | with_reducible assumption | with_reducible refine State.Upholds.ite ?_ ?_
                 | with_reducible refine State.guard_upholds _ _ _ _ _ ?_ ?_
                 | with_reducible apply State.leaveBoost_upholds | with_reducible apply State.seekBoost_upholds
                 | with_reducible apply State.done_upholds
                 | with_reducible refine State.Upholds.upd ?_ rfl rfl rfl rfl rfl rfl)

/-! ### Lanes -/

theorem execLaneLock_upholds (lane : Fin 4) (rd cdr : Bool) (groups : List CodeGroup) (s : State) (hu : s0.Upholds s) :
    Out.Upholds s0 (execLaneLock lane rd cdr groups s) := by
  unfold execLaneLock
  refine .next ?_
  dsimp only
  repeat' (first | with_reducible assumption | with_reducible refine State.Upholds.ite ?_ ?_
                 | with_reducible apply State.takeGroups_upholds | with_reducible apply State.fibreLocks_upholds
                 | with_reducible apply State.modPhy_upholds)

theorem execLaneLoss_upholds (lane : Fin 4) (rd : Bool) (groups : List CodeGroup) (cdr : Bool) (s : State) (hu : s0.Upholds s) :
    Out.Upholds s0 (execLaneLoss lane rd groups cdr s) := by
  unfold execLaneLoss
  refine .next ?_
  dsimp only
  repeat' (first | with_reducible assumption | with_reducible refine State.Upholds.ite ?_ ?_
                 | with_reducible apply State.takeGroups_upholds | with_reducible apply State.loseLane_upholds
                 | with_reducible apply State.modPhy_upholds)

theorem execOptLosChange_upholds (lane : Fin 2) (level : Bool) (s : State) (hu : s0.Upholds s) :
    Out.Upholds s0 (execOptLosChange lane level s) := by
  unfold execOptLosChange
  refine .next ?_
  dsimp only
  repeat' (first | with_reducible assumption | with_reducible refine State.Upholds.ite ?_ ?_
                 | with_reducible apply State.aoAssert_upholds | with_reducible apply State.darkLane_upholds
                 | with_reducible refine State.Upholds.upd ?_ rfl rfl rfl rfl rfl rfl)

theorem execLaneRelockQualified_upholds (lane : Fin 4) (s : State) (hu : s0.Upholds s) :
    Out.Upholds s0 (execLaneRelockQualified lane s) := by
  unfold execLaneRelockQualified
  refine .next ?_
  dsimp only
  repeat' (first | with_reducible assumption | with_reducible refine State.Upholds.ite ?_ ?_
                 | with_reducible apply State.reach_upholds | with_reducible apply State.modPhy_upholds
                 | with_reducible apply State.resumeActive_upholds | with_reducible apply State.updateWtr_upholds
                 | with_reducible apply State.tellDefects_upholds | with_reducible apply State.linkUp_upholds | split)

theorem execHoldOffExpiry_upholds (s : State) (hu : s0.Upholds s) :
    Out.Upholds s0 (execHoldOffExpiry s) := by
  unfold execHoldOffExpiry
  refine .next ?_
  dsimp only
  repeat' (first | with_reducible assumption | with_reducible refine State.Upholds.ite ?_ ?_
                 | with_reducible apply State.retryAuto_upholds | with_reducible apply State.reach_upholds
                 | with_reducible apply State.switchTo_upholds | split
                 | with_reducible refine State.Upholds.upd ?_ rfl rfl rfl rfl rfl rfl)

theorem execWaitToRestoreExpiry_upholds (s : State) (hu : s0.Upholds s) :
    Out.Upholds s0 (execWaitToRestoreExpiry s) := by
  unfold execWaitToRestoreExpiry
  refine .next ?_
  dsimp only
  repeat' (first | with_reducible assumption | with_reducible refine State.Upholds.ite ?_ ?_
                 | with_reducible apply State.reach_upholds | with_reducible apply State.switchTo_upholds | split)

theorem execLocalLinkUp_upholds (lane : Fin 2) (mode : Byte) (pauseRx : Bool) (pauseTx : Bool) (s : State) (hu : s0.Upholds s) :
    Out.Upholds s0 (execLocalLinkUp lane mode pauseRx pauseTx s) := by
  unfold execLocalLinkUp
  refine .next ?_
  dsimp only
  repeat' (first | with_reducible assumption | with_reducible refine State.Upholds.ite ?_ ?_
                 | with_reducible apply State.modLocal_upholds | with_reducible apply State.modPhy_upholds
                 | with_reducible apply State.linkUp_upholds | split)

theorem execLocalLinkDown_upholds (lane : Fin 2) (s : State) (hu : s0.Upholds s) :
    Out.Upholds s0 (execLocalLinkDown lane s) := by
  unfold execLocalLinkDown
  refine .next ?_
  repeat' (first | with_reducible assumption | with_reducible apply State.dropLocal_upholds)

theorem execEgressHoldExpiry_upholds (lane : Fin 2) (s : State) (hu : s0.Upholds s) :
    Out.Upholds s0 (execEgressHoldExpiry lane s) := by
  unfold execEgressHoldExpiry
  refine .next ?_
  dsimp only
  repeat' (first | with_reducible assumption | with_reducible refine State.Upholds.ite ?_ ?_
                 | with_reducible apply State.reach_upholds | with_reducible apply State.modLocal_upholds
                 | with_reducible apply State.flushEgress_upholds | split)

theorem execMacFrameReceive_upholds (lane : Fin 2) (frame : List Byte) (fcsOk : Bool) (s : State) (hu : s0.Upholds s) :
    Out.Upholds s0 (execMacFrameReceive lane frame fcsOk s) := by
  unfold execMacFrameReceive
  refine .next ?_
  repeat' (first | with_reducible assumption | with_reducible refine State.Upholds.ite ?_ ?_
                 | with_reducible apply State.modLocal_upholds | with_reducible apply State.macSort_upholds)

theorem execPauseFrameReceived_upholds (lane : Fin 2) (quanta : Half) (s : State) (hu : s0.Upholds s) :
    Out.Upholds s0 (execPauseFrameReceived lane quanta s) := by
  unfold execPauseFrameReceived
  refine .next ?_
  repeat' (first | with_reducible assumption | with_reducible refine State.Upholds.ite ?_ ?_
                 | with_reducible apply State.modLocal_upholds | with_reducible apply State.pauseReceived_upholds)

theorem execPauseTimeEnd_upholds (lane : Fin 2) (s : State) (hu : s0.Upholds s) :
    Out.Upholds s0 (execPauseTimeEnd lane s) := by
  unfold execPauseTimeEnd
  refine .next ?_
  dsimp only
  repeat' (first | with_reducible assumption | (intro _ _ _) | with_reducible refine State.Upholds.foldl ?_ ?_
                 | with_reducible apply State.reach_upholds | with_reducible apply State.modLocal_upholds
                 | with_reducible apply State.macSend_upholds | split)

theorem execXoffCrossing_upholds (lane : Fin 2) (s : State) (hu : s0.Upholds s) :
    Out.Upholds s0 (execXoffCrossing lane s) := by
  unfold execXoffCrossing
  refine .next ?_
  dsimp only
  repeat' (first | with_reducible assumption | with_reducible refine State.Upholds.ite ?_ ?_
                 | with_reducible apply State.modLocal_upholds | with_reducible apply State.sendPause_upholds
                 | with_reducible refine State.Upholds.upd ?_ rfl rfl rfl rfl rfl rfl)

theorem execXonCrossing_upholds (lane : Fin 2) (s : State) (hu : s0.Upholds s) :
    Out.Upholds s0 (execXonCrossing lane s) := by
  unfold execXonCrossing
  refine .next ?_
  dsimp only
  repeat' (first | with_reducible assumption | with_reducible refine State.Upholds.ite ?_ ?_
                 | with_reducible apply State.modLocal_upholds | with_reducible apply State.sendPause_upholds)

theorem execPauseRepeat_upholds (lane : Fin 2) (s : State) (hu : s0.Upholds s) :
    Out.Upholds s0 (execPauseRepeat lane s) := by
  unfold execPauseRepeat
  refine .next ?_
  dsimp only
  repeat' (first | with_reducible assumption | with_reducible refine State.Upholds.ite ?_ ?_
                 | with_reducible apply State.reach_upholds | with_reducible apply State.sendPause_upholds
                 | with_reducible apply State.modLocal_upholds | split)

theorem execLaneStatus_upholds (t : Ten) (n : SlotIx) (s : State) (hu : s0.Upholds s) :
    Out.Upholds s0 (execLaneStatus t n s) := by
  unfold execLaneStatus
  refine command_upholds hu fun s hu => ?_
  dsimp only
  repeat' (first | with_reducible assumption | with_reducible refine State.Upholds.ite ?_ ?_
                 | with_reducible refine State.guard_upholds _ _ _ _ _ ?_ ?_
                 | with_reducible apply State.clearLane_upholds | with_reducible apply State.answer_upholds)

theorem execLaneConfig_upholds (t : Ten) (n : SlotIx) (s : State) (hu : s0.Upholds s) :
    Out.Upholds s0 (execLaneConfig t n s) := by
  unfold execLaneConfig
  refine commandBy_upholds hu fun s hu => ?_
  repeat' (first | with_reducible assumption | with_reducible apply State.configFibre_upholds
                 | with_reducible apply State.configLocal_upholds | with_reducible apply State.done_upholds | split)

theorem execLaneSwitch_upholds (t : Ten) (n : SlotIx) (s : State) (hu : s0.Upholds s) :
    Out.Upholds s0 (execLaneSwitch t n s) := by
  unfold execLaneSwitch
  refine command_upholds hu fun s hu => ?_
  dsimp only
  repeat' (first | with_reducible assumption | with_reducible refine State.Upholds.ite ?_ ?_
                 | with_reducible refine State.guard_upholds _ _ _ _ _ ?_ ?_
                 | with_reducible apply State.switchTo_upholds | with_reducible apply State.answer_upholds
                 | with_reducible refine State.Upholds.upd ?_ rfl rfl rfl rfl rfl rfl)

theorem execLaneMode_upholds (t : Ten) (n : SlotIx) (s : State) (hu : s0.Upholds s) :
    Out.Upholds s0 (execLaneMode t n s) := by
  unfold execLaneMode
  refine commandBy_upholds hu fun s hu => ?_
  dsimp only
  repeat' (first | with_reducible assumption | with_reducible refine State.Upholds.ite ?_ ?_
                 | with_reducible refine State.guard_upholds _ _ _ _ _ ?_ ?_
                 | with_reducible apply State.dereg_upholds | with_reducible apply State.setRaw_upholds
                 | with_reducible apply State.done_upholds)

theorem execLaneSlip_upholds (t : Ten) (n : SlotIx) (s : State) (hu : s0.Upholds s) :
    Out.Upholds s0 (execLaneSlip t n s) := by
  refine Out.Upholds.ite (.next (State.done_upholds _ _ _ _ (State.endSlips_upholds _ _ _ hu))) ?_
  exact command_upholds hu fun s hu => State.guard_upholds _ _ _ _ _ hu (State.modPhy_upholds _ _ _ hu)

theorem execLaneCapture_upholds (t : Ten) (n : SlotIx) (s : State) (hu : s0.Upholds s) :
    Out.Upholds s0 (execLaneCapture t n s) := by
  unfold execLaneCapture
  refine command_upholds hu fun s hu => ?_
  dsimp only
  repeat' (first | with_reducible assumption | with_reducible refine State.guard_upholds _ _ _ _ _ ?_ ?_
                 | with_reducible apply State.answer_upholds)

/-! ### Downstream -/

theorem execFawDetected_upholds (lane : Fin 2) (pos : Nat) (rd : Bool) (groups : List CodeGroup) (shift : Int) (s : State) (hu : s0.Upholds s) :
    Out.Upholds s0 (execFawDetected lane pos rd groups shift s) := by
  unfold execFawDetected
  refine .next ?_
  dsimp only
  repeat' (first | with_reducible assumption | with_reducible refine State.Upholds.ite ?_ ?_
                 | with_reducible apply State.syncFaw_upholds | with_reducible apply State.preload_upholds
                 | with_reducible apply State.huntFaw_upholds | with_reducible apply State.presyncFaw_upholds | split)

theorem execKeySwitchBoundary_upholds (s : State) (hu : s0.Upholds s) :
    Out.Upholds s0 (execKeySwitchBoundary s) := by
  unfold execKeySwitchBoundary
  refine .next ?_
  dsimp only
  repeat' (first | with_reducible assumption | with_reducible refine State.Upholds.ite ?_ ?_
                 | with_reducible apply State.reach_upholds | with_reducible apply State.raise_upholds
                 | with_reducible apply State.countNoKey_upholds | split
                 | with_reducible refine State.Upholds.upd ?_ rfl rfl rfl rfl rfl rfl)

theorem execKeyRetire_upholds (s : State) (hu : s0.Upholds s) :
    Out.Upholds s0 (execKeyRetire s) := by
  unfold execKeyRetire
  refine .next ?_
  dsimp only
  repeat' (first | with_reducible assumption | with_reducible apply State.reach_upholds
                 | with_reducible apply State.dropEntries_upholds | split
                 | with_reducible refine State.Upholds.upd ?_ rfl rfl rfl rfl rfl rfl)

theorem execFrameHeader_upholds (lane : Fin 2) (bytes : List Byte) (s : State) (hu : s0.Upholds s) :
    Out.Upholds s0 (execFrameHeader lane bytes s) := by
  unfold execFrameHeader
  refine .next ?_
  dsimp only
  repeat' (first | with_reducible assumption | with_reducible refine State.Upholds.ite ?_ ?_
                 | with_reducible apply State.modChan_upholds | with_reducible apply State.useHeader_upholds
                 | with_reducible apply State.updateWtr_upholds | with_reducible apply State.tellDefects_upholds
                 | with_reducible apply State.endSilence_upholds | with_reducible apply State.resolveAll_upholds
                 | with_reducible refine State.Upholds.upd ?_ rfl rfl rfl rfl rfl rfl)

theorem execPacketContainer_upholds (lane : Fin 2) (bytes : List Byte) (s : State) (hu : s0.Upholds s) :
    Out.Upholds s0 (execPacketContainer lane bytes s) := by
  unfold execPacketContainer
  refine .next ?_
  dsimp only
  repeat' (first | with_reducible assumption | with_reducible refine State.Upholds.ite ?_ ?_
                 | with_reducible apply State.modChan_upholds | with_reducible apply State.takeContainer_upholds
                 | split)

theorem execPacketDecryptDone_upholds (s : State) (hu : s0.Upholds s) :
    Out.Upholds s0 (execPacketDecryptDone s) := by
  unfold execPacketDecryptDone
  refine .next ?_
  dsimp only
  repeat' (first | with_reducible assumption | with_reducible apply State.startJobs_upholds
                 | with_reducible apply State.freeCores_upholds | with_reducible apply State.finishDec_upholds
                 | with_reducible apply State.touch_upholds | split
                 | with_reducible refine State.Upholds.upd ?_ rfl rfl rfl rfl rfl rfl)

theorem execLof8msExpiry_upholds (s : State) (hu : s0.Upholds s) :
    Out.Upholds s0 (execLof8msExpiry s) := by
  unfold execLof8msExpiry
  refine .next ?_
  repeat' (first | with_reducible assumption | with_reducible refine State.Upholds.ite ?_ ?_
                 | with_reducible apply State.reach_upholds | with_reducible apply State.silence_upholds | split)

theorem execLof2sExpiry_upholds (s : State) (hu : s0.Upholds s) :
    Out.Upholds s0 (execLof2sExpiry s) := by
  unfold execLof2sExpiry
  refine .next ?_
  repeat' (first | with_reducible assumption | with_reducible refine State.Upholds.ite ?_ ?_
                 | with_reducible apply State.reach_upholds | with_reducible apply State.dereg_upholds
                 | with_reducible apply State.toListen_upholds | split)

theorem execLolClear_upholds (_lane : Fin 2) (s : State) (hu : s0.Upholds s) :
    Out.Upholds s0 (execLolClear _lane s) := by
  unfold execLolClear
  refine .next ?_
  dsimp only
  repeat' (first | with_reducible assumption | with_reducible apply State.reach_upholds
                 | with_reducible apply State.endSilence_upholds | split
                 | with_reducible refine State.Upholds.upd ?_ rfl rfl rfl rfl rfl rfl)

theorem execLtxDsStatus_upholds (t : Ten) (n : SlotIx) (s : State) (hu : s0.Upholds s) :
    Out.Upholds s0 (execLtxDsStatus t n s) := by
  unfold execLtxDsStatus
  refine command_upholds hu fun s hu => ?_
  dsimp only
  repeat' (first | with_reducible assumption | with_reducible refine State.Upholds.ite ?_ ?_
                 | with_reducible refine State.guard_upholds _ _ _ _ _ ?_ ?_
                 | with_reducible apply State.modChan_upholds | with_reducible apply State.answer_upholds)

theorem execLtxDsSnapshot_upholds (t : Ten) (n : SlotIx) (s : State) (hu : s0.Upholds s) :
    Out.Upholds s0 (execLtxDsSnapshot t n s) := by
  unfold execLtxDsSnapshot
  refine command_upholds hu fun s hu => ?_
  dsimp only
  repeat' (first | with_reducible assumption | with_reducible refine State.guard_upholds _ _ _ _ _ ?_ ?_
                 | with_reducible apply State.answer_upholds)

/-! ### Registration -/

theorem execActivationListen_upholds (s : State) (hu : s0.Upholds s) :
    Out.Upholds s0 (execActivationListen s) := by
  unfold execActivationListen
  refine .next ?_
  dsimp only
  repeat' (first | with_reducible assumption | with_reducible refine State.Upholds.ite ?_ ?_
                 | with_reducible apply State.toListen_upholds | with_reducible apply State.tellDefects_upholds
                 | with_reducible apply State.loseLane_upholds
                 | with_reducible refine State.Upholds.upd ?_ rfl rfl rfl rfl rfl rfl)

theorem execTAssignExpiry_upholds (s : State) (hu : s0.Upholds s) :
    Out.Upholds s0 (execTAssignExpiry s) := by
  unfold execTAssignExpiry
  refine .next ?_
  repeat' (first | with_reducible assumption | with_reducible refine State.Upholds.ite ?_ ?_
                 | with_reducible apply State.reach_upholds | with_reducible apply State.countTimeout_upholds
                 | with_reducible apply State.toListen_upholds | split)

theorem execTAuthExpiry_upholds (s : State) (hu : s0.Upholds s) :
    Out.Upholds s0 (execTAuthExpiry s) := by
  unfold execTAuthExpiry
  refine .next ?_
  repeat' (first | with_reducible assumption | with_reducible refine State.Upholds.ite ?_ ?_
                 | with_reducible apply State.reach_upholds | with_reducible apply State.countTimeout_upholds
                 | with_reducible apply State.dereg_upholds | with_reducible apply State.toListen_upholds | split)

theorem execTRangeExpiry_upholds (s : State) (hu : s0.Upholds s) :
    Out.Upholds s0 (execTRangeExpiry s) := by
  unfold execTRangeExpiry
  refine .next ?_
  repeat' (first | with_reducible assumption | with_reducible refine State.Upholds.ite ?_ ?_
                 | with_reducible apply State.reach_upholds | with_reducible apply State.countTimeout_upholds
                 | with_reducible apply State.dereg_upholds | with_reducible apply State.toListen_upholds | split)

theorem execSilentDurationExpiry_upholds (s : State) (hu : s0.Upholds s) :
    Out.Upholds s0 (execSilentDurationExpiry s) := by
  unfold execSilentDurationExpiry
  refine .next ?_
  repeat' (first | with_reducible assumption | with_reducible refine State.Upholds.ite ?_ ?_
                 | with_reducible apply State.reach_upholds | with_reducible apply State.enterService_upholds
                 | with_reducible apply State.fromNextMap_upholds | split)

theorem execEqdChangeApply_upholds (lane : Fin 2) (s : State) (hu : s0.Upholds s) :
    Out.Upholds s0 (execEqdChangeApply lane s) := by
  unfold execEqdChangeApply
  refine .next ?_
  dsimp only
  repeat' (first | with_reducible assumption | with_reducible apply State.reach_upholds
                 | with_reducible apply State.setEqd_upholds | split
                 | with_reducible refine State.Upholds.upd ?_ rfl rfl rfl rfl rfl rfl)

theorem execSerialNumberBurst_upholds (s : State) (hu : s0.Upholds s) :
    Out.Upholds s0 (execSerialNumberBurst s) := by
  unfold execSerialNumberBurst
  refine .next ?_
  dsimp only
  repeat' (first | with_reducible assumption | with_reducible refine State.Upholds.ite ?_ ?_
                 | with_reducible apply State.reach_upholds | with_reducible apply State.launch_upholds | split
                 | with_reducible refine State.Upholds.upd ?_ rfl rfl rfl rfl rfl rfl)

theorem execRangingBurst_upholds (lane : Fin 2) (s : State) (hu : s0.Upholds s) :
    Out.Upholds s0 (execRangingBurst lane s) := by
  unfold execRangingBurst
  refine .next ?_
  dsimp only
  repeat' (first | with_reducible assumption | with_reducible refine State.Upholds.ite ?_ ?_
                 | with_reducible apply State.reach_upholds | with_reducible apply State.updateWtr_upholds
                 | with_reducible apply State.regDrop_upholds | with_reducible apply State.noteEnd_upholds
                 | with_reducible apply State.launch_upholds | split
                 | with_reducible refine State.Upholds.upd ?_ rfl rfl rfl rfl rfl rfl)

theorem execDiscoveryEntry_upholds (lane : Fin 2) (bytes : List Byte) (s : State) (hu : s0.Upholds s) :
    Out.Upholds s0 (execDiscoveryEntry lane bytes s) := by
  unfold execDiscoveryEntry
  refine .next ?_
  dsimp only
  repeat' (first | with_reducible assumption | with_reducible refine State.Upholds.ite ?_ ?_
                 | with_reducible apply State.countEntry_upholds | with_reducible apply State.dropEntry_upholds
                 | with_reducible apply State.regDrop_upholds | with_reducible apply State.useDiscovery_upholds
                 | with_reducible refine State.Upholds.upd ?_ rfl rfl rfl rfl rfl rfl)

theorem execAssignRh_upholds (lane : Fin 2) (slot : Fin 3) (bytes : List Byte) (s : State) (hu : s0.Upholds s) :
    Out.Upholds s0 (execAssignRh lane slot bytes s) := by
  unfold execAssignRh
  refine lmmRow_upholds hu fun s lrh b hu => ?_
  dsimp only
  repeat' (first | with_reducible assumption | with_reducible refine State.Upholds.ite ?_ ?_
                 | with_reducible apply State.regDrop_upholds | with_reducible apply State.setEqd_upholds
                 | with_reducible apply State.enterAuth_upholds
                 | with_reducible refine State.Upholds.upd ?_ rfl rfl rfl rfl rfl rfl)

theorem execAuthChal_upholds (lane : Fin 2) (slot : Fin 3) (bytes : List Byte) (s : State) (hu : s0.Upholds s) :
    Out.Upholds s0 (execAuthChal lane slot bytes s) := by
  unfold execAuthChal
  refine lmmRow_upholds hu fun s lrh b hu => ?_
  dsimp only
  repeat' (first | with_reducible assumption | with_reducible refine State.Upholds.ite ?_ ?_
                 | with_reducible apply State.regDrop_upholds | with_reducible apply State.drawn_upholds
                 | with_reducible apply State.dropLineKeys_upholds | with_reducible apply State.setEntry_upholds
                 | with_reducible apply State.queueLmm_upholds
                 | with_reducible refine State.Upholds.upd ?_ rfl rfl rfl rfl rfl rfl)

theorem execKeyDeliver_upholds (lane : Fin 2) (slot : Fin 3) (bytes : List Byte) (s : State) (hu : s0.Upholds s) :
    Out.Upholds s0 (execKeyDeliver lane slot bytes s) := by
  unfold execKeyDeliver
  refine lmmRow_upholds hu fun s lrh b hu => ?_
  dsimp only
  repeat' (first | with_reducible assumption | with_reducible refine State.Upholds.ite ?_ ?_
                 | with_reducible apply State.regDrop_upholds | with_reducible apply State.takeKey_upholds
                 | with_reducible apply State.dereg_upholds | with_reducible apply State.toListen_upholds | split
                 | with_reducible refine State.Upholds.upd ?_ rfl rfl rfl rfl rfl rfl)

theorem execRangeResult_upholds (lane : Fin 2) (slot : Fin 3) (bytes : List Byte) (s : State) (hu : s0.Upholds s) :
    Out.Upholds s0 (execRangeResult lane slot bytes s) := by
  unfold execRangeResult
  refine lmmRow_upholds hu fun s lrh b hu => ?_
  dsimp only
  repeat' (first | with_reducible assumption | with_reducible refine State.Upholds.ite ?_ ?_
                 | with_reducible apply State.regDrop_upholds | with_reducible apply State.updateWtr_upholds
                 | with_reducible apply State.lanesRanged_upholds
                 | with_reducible refine State.Upholds.upd ?_ rfl rfl rfl rfl rfl rfl)

theorem execDeregister_upholds (lane : Fin 2) (slot : Fin 3) (bytes : List Byte) (s : State) (hu : s0.Upholds s) :
    Out.Upholds s0 (execDeregister lane slot bytes s) := by
  refine lmmRow_upholds hu fun s lrh b hu => .ite hu ?_
  split
  · next s1 taken => exact .upd (State.deregAction_upholds _ _ _ _ hu taken) rfl rfl rfl rfl rfl rfl
  · exact State.regDrop_upholds _ hu

theorem execOwnerMbx_upholds (lane : Fin 2) (slot : Fin 3) (bytes : List Byte) (s : State) (hu : s0.Upholds s) :
    Out.Upholds s0 (execOwnerMbx lane slot bytes s) := by
  refine lmmRow_upholds hu fun s lrh b hu => ?_
  have dropped := State.regDrop_upholds s hu
  split
  · exact dropped
  · refine .ite dropped (.ite (.ite dropped (State.queueLmm_upholds _ _ _ hu)) (.ite dropped ?_))
    split
    · next resp s1 served => exact State.ownerAnswer_upholds _ _ _ _ (State.ownerServe_upholds _ _ hu served)
    · exact dropped

theorem execLtxRegStatus_upholds (t : Ten) (n : SlotIx) (s : State) (hu : s0.Upholds s) :
    Out.Upholds s0 (execLtxRegStatus t n s) := by
  unfold execLtxRegStatus
  refine command_upholds hu fun s hu => ?_
  dsimp only
  repeat' (first | with_reducible assumption | with_reducible refine State.Upholds.ite ?_ ?_
                 | with_reducible refine State.guard_upholds _ _ _ _ _ ?_ ?_
                 | with_reducible apply State.answer_upholds
                 | with_reducible refine State.Upholds.upd ?_ rfl rfl rfl rfl rfl rfl)

theorem execLtxActivation_upholds (t : Ten) (n : SlotIx) (s : State) (hu : s0.Upholds s) :
    Out.Upholds s0 (execLtxActivation t n s) := by
  unfold execLtxActivation
  refine command_upholds hu fun s hu => ?_
  dsimp only
  repeat' (first | with_reducible assumption | with_reducible refine State.Upholds.ite ?_ ?_
                 | with_reducible refine State.guard_upholds _ _ _ _ _ ?_ ?_
                 | with_reducible apply State.dereg_upholds | with_reducible apply State.setAct_upholds
                 | with_reducible apply State.answer_upholds | with_reducible apply State.startWait_upholds)

/-! ### Upstream -/

theorem execGrantEntry_upholds (lane : Fin 2) (bytes : List Byte) (s : State) (hu : s0.Upholds s) :
    Out.Upholds s0 (execGrantEntry lane bytes s) := by
  unfold execGrantEntry
  refine .next ?_
  dsimp only
  repeat' (first | with_reducible assumption | with_reducible refine State.Upholds.ite ?_ ?_
                 | with_reducible apply State.countEntry_upholds | with_reducible apply State.dropEntry_upholds
                 | with_reducible apply State.regDrop_upholds | with_reducible apply State.rangingStandby_upholds
                 | with_reducible apply State.rangingActive_upholds | with_reducible apply State.resolveAll_upholds
                 | with_reducible apply State.serveGrant_upholds
                 | with_reducible refine State.Upholds.upd ?_ rfl rfl rfl rfl rfl rfl)

theorem execGrantTableFrameEnd_upholds (s : State) (hu : s0.Upholds s) :
    Out.Upholds s0 (execGrantTableFrameEnd s) := by
  unfold execGrantTableFrameEnd
  refine .next ?_
  dsimp only
  repeat' (first | with_reducible assumption | with_reducible apply State.reach_upholds
                 | with_reducible apply State.resolveAll_upholds | with_reducible apply State.endStandby_upholds
                 | split | with_reducible refine State.Upholds.upd ?_ rfl rfl rfl rfl rfl rfl)

theorem execBurstFreeze_upholds (gs : Fin 8) (s : State) (hu : s0.Upholds s) :
    Out.Upholds s0 (execBurstFreeze gs s) := by
  unfold execBurstFreeze
  refine .next ?_
  dsimp only
  repeat' (first | with_reducible assumption | with_reducible apply State.resolveGs_upholds
                 | with_reducible apply State.frozen_upholds | with_reducible apply State.reach_upholds
                 | with_reducible apply State.freezeBurst_upholds | with_reducible apply State.rebuild_upholds | split)

theorem execProtectionSlotClose_upholds (gs : Fin 8) (s : State) (hu : s0.Upholds s) :
    Out.Upholds s0 (execProtectionSlotClose gs s) := by
  unfold execProtectionSlotClose
  refine .next ?_
  dsimp only
  repeat' (first | with_reducible assumption | with_reducible apply State.forecast_upholds
                 | with_reducible apply State.reach_upholds | with_reducible apply State.closeSlot_upholds
                 | with_reducible apply State.rebuild_upholds | split)

theorem execPacketSealDone_upholds (s : State) (hu : s0.Upholds s) :
    Out.Upholds s0 (execPacketSealDone s) := by
  unfold execPacketSealDone
  refine .next ?_
  dsimp only
  repeat' (first | with_reducible assumption | with_reducible refine State.Upholds.ite ?_ ?_
                 | with_reducible apply State.startJobs_upholds | with_reducible apply State.freeCores_upholds
                 | with_reducible apply State.modGs_upholds | split
                 | with_reducible refine State.Upholds.upd ?_ rfl rfl rfl rfl rfl rfl)

theorem execWithdrawal_upholds (gs : Fin 8) (s : State) (hu : s0.Upholds s) :
    Out.Upholds s0 (execWithdrawal gs s) := by
  unfold execWithdrawal
  refine .next ?_
  repeat' (first | with_reducible assumption | with_reducible refine State.Upholds.ite ?_ ?_
                 | with_reducible apply State.undo_upholds | with_reducible apply State.completeUndo_upholds)

theorem execBurstCommit_upholds (gs : Fin 8) (s : State) (hu : s0.Upholds s) :
    Out.Upholds s0 (execBurstCommit gs s) := by
  unfold execBurstCommit
  refine .next ?_
  split
  · exact hu
  · next b0 _ =>
    extract_lets l at_ mine s1 overlap s2 s3 s4 s5
    have h1 : s0.Upholds s1 := State.reach_upholds _ _ hu
    have h3 : s0.Upholds s3 := State.withdrawKept_upholds _ _ _ (State.modGs_upholds _ _ _ h1)
    have h4 : s0.Upholds s4 := .ite h1 (State.freezeBurst_upholds _ _ _ h1)
    have h5 : s0.Upholds s5 := .ite h4 (State.closeSlot_upholds _ _ _ h4)
    refine .ite (.ite (State.regDrop_upholds _ h3) h3) ?_
    split
    · exact h5
    · exact State.watchFill_upholds _ (State.rebuild_upholds _ _ (State.commit_upholds _ _ (State.modGs_upholds _ _ _ h5)))

theorem execBurstEnd_upholds (s : State) (hu : s0.Upholds s) :
    Out.Upholds s0 (execBurstEnd s) := by
  unfold execBurstEnd
  refine .next ?_
  dsimp only
  repeat' (first | with_reducible assumption | with_reducible apply State.reach_upholds | split
                 | with_reducible refine State.Upholds.upd ?_ rfl rfl rfl rfl rfl rfl)

theorem execLtxUsStatus_upholds (t : Ten) (n : SlotIx) (s : State) (hu : s0.Upholds s) :
    Out.Upholds s0 (execLtxUsStatus t n s) := by
  unfold execLtxUsStatus
  refine command_upholds hu fun s hu => ?_
  dsimp only
  repeat' (first | with_reducible assumption | with_reducible refine State.Upholds.ite ?_ ?_
                 | with_reducible refine State.guard_upholds _ _ _ _ _ ?_ ?_
                 | with_reducible apply State.modGs_upholds | with_reducible apply State.answer_upholds
                 | with_reducible refine State.Upholds.upd ?_ rfl rfl rfl rfl rfl rfl)

theorem execLtxUsConfig_upholds (t : Ten) (n : SlotIx) (s : State) (hu : s0.Upholds s) :
    Out.Upholds s0 (execLtxUsConfig t n s) := by
  unfold execLtxUsConfig
  refine command_upholds hu fun s hu => ?_
  dsimp only
  repeat' (first | with_reducible assumption | with_reducible refine State.Upholds.ite ?_ ?_
                 | with_reducible refine State.guard_upholds _ _ _ _ _ ?_ ?_
                 | with_reducible apply State.withdrawGs_upholds | with_reducible apply State.modGs_upholds
                 | with_reducible apply State.persisted_upholds | with_reducible apply State.done_upholds
                 | with_reducible refine State.Upholds.upd ?_ rfl rfl rfl rfl rfl rfl)

theorem execLtxQueueMap_upholds (t : Ten) (n : SlotIx) (s : State) (hu : s0.Upholds s) :
    Out.Upholds s0 (execLtxQueueMap t n s) := by
  unfold execLtxQueueMap
  refine command_upholds hu fun s hu => ?_
  dsimp only
  repeat' (first | with_reducible assumption | with_reducible refine State.Upholds.ite ?_ ?_
                 | with_reducible refine State.guard_upholds _ _ _ _ _ ?_ ?_
                 | with_reducible apply State.setMap_upholds | with_reducible apply State.persisted_upholds
                 | with_reducible apply State.done_upholds
                 | with_reducible refine State.Upholds.upd ?_ rfl rfl rfl rfl rfl rfl)

/-! ### Rules -/

theorem execIngressFrame_upholds (src : Fin 4) (bytes : List Byte) (oversize : Bool) (s : State) (hu : s0.Upholds s) :
    Out.Upholds s0 (execIngressFrame src bytes oversize s) := by
  unfold execIngressFrame
  refine .next ?_
  repeat' (first | with_reducible assumption | with_reducible refine State.Upholds.ite ?_ ?_
                 | with_reducible apply State.ingress_upholds | with_reducible apply State.touch_upholds
                 | with_reducible apply State.toNoon_upholds)

theorem execParserTake_upholds (s : State) (hu : s0.Upholds s) :
    Out.Upholds s0 (execParserTake s) := by
  unfold execParserTake
  refine .next ?_
  dsimp only
  repeat' (first | with_reducible assumption | with_reducible apply State.dispatch_upholds | split
                 | with_reducible refine State.Upholds.upd ?_ rfl rfl rfl rfl rfl rfl)

theorem execLaneLookupDone_upholds (lane : Fin 4) (parity entry : Bool) (s : State) (hu : s0.Upholds s) :
    Out.Upholds s0 (execLaneLookupDone lane parity entry s) := by
  unfold execLaneLookupDone
  refine .next ?_
  repeat' (first | with_reducible assumption | with_reducible refine State.Upholds.ite ?_ ?_
                 | with_reducible apply State.moveFlight_upholds | with_reducible apply State.laneParity_upholds
                 | split | with_reducible refine State.Upholds.upd ?_ rfl rfl rfl rfl rfl rfl)

theorem execEntryScrub_upholds (failed : List Nat) (s : State) (hu : s0.Upholds s) :
    Out.Upholds s0 (execEntryScrub failed s) := by
  unfold execEntryScrub
  refine .next ?_
  repeat' (first | with_reducible assumption | with_reducible refine State.Upholds.upd ?_ rfl rfl rfl rfl rfl rfl)

theorem execSlowPathDecide_upholds (s : State) (hu : s0.Upholds s) :
    Out.Upholds s0 (execSlowPathDecide s) := by
  unfold execSlowPathDecide
  refine .next ?_
  dsimp only
  repeat' (first | with_reducible assumption | with_reducible refine State.Upholds.ite ?_ ?_
                 | with_reducible apply State.moveFlight_upholds | split
                 | with_reducible refine State.Upholds.upd ?_ rfl rfl rfl rfl rfl rfl)

theorem execSlowDeadlineExpiry_upholds (s : State) (hu : s0.Upholds s) :
    Out.Upholds s0 (execSlowDeadlineExpiry s) := by
  unfold execSlowDeadlineExpiry
  refine .next ?_
  dsimp only
  repeat' (first | with_reducible assumption | with_reducible apply State.reach_upholds
                 | with_reducible apply State.moveFlight_upholds | split
                 | with_reducible refine State.Upholds.upd ?_ rfl rfl rfl rfl rfl rfl)

theorem execSlowPathSecond_upholds (s : State) (hu : s0.Upholds s) :
    Out.Upholds s0 (execSlowPathSecond s) := by
  unfold execSlowPathSecond
  refine .next ?_
  dsimp only
  repeat' (first | with_reducible assumption | with_reducible refine State.Upholds.ite ?_ ?_
                 | with_reducible apply State.reach_upholds | with_reducible apply State.raise_upholds
                 | with_reducible refine State.Upholds.upd ?_ rfl rfl rfl rfl rfl rfl)

theorem execReorderRelease_upholds (src : Fin 4) (s : State) (hu : s0.Upholds s) :
    Out.Upholds s0 (execReorderRelease src s) := by
  unfold execReorderRelease
  refine .next ?_
  dsimp only
  repeat' (first | with_reducible assumption | with_reducible apply State.actOn_upholds | split
                 | with_reducible refine State.Upholds.upd ?_ rfl rfl rfl rfl rfl rfl)

theorem execVersionDrain_upholds (s : State) (hu : s0.Upholds s) :
    Out.Upholds s0 (execVersionDrain s) := by
  unfold execVersionDrain
  refine .next ?_
  repeat' (first | with_reducible assumption | with_reducible refine State.Upholds.ite ?_ ?_
                 | with_reducible apply State.freeDrained_upholds | split)

theorem execPauseUpdateQuiesced_upholds (s : State) (hu : s0.Upholds s) :
    Out.Upholds s0 (execPauseUpdateQuiesced s) := by
  unfold execPauseUpdateQuiesced
  refine .next ?_
  dsimp only
  repeat' (first | with_reducible assumption | with_reducible refine State.Upholds.ite ?_ ?_
                 | with_reducible apply State.retryAuto_upholds | with_reducible apply State.raise_upholds
                 | with_reducible apply State.persistVersion_upholds | with_reducible apply State.pausePost_upholds
                 | split | with_reducible refine State.Upholds.upd ?_ rfl rfl rfl rfl rfl rfl)

theorem execPauseUpdateTimeout_upholds (s : State) (hu : s0.Upholds s) :
    Out.Upholds s0 (execPauseUpdateTimeout s) := by
  unfold execPauseUpdateTimeout
  refine .next ?_
  dsimp only
  repeat' (first | with_reducible assumption | with_reducible refine State.Upholds.ite ?_ ?_
                 | with_reducible apply State.retryAuto_upholds | with_reducible apply State.reach_upholds
                 | with_reducible apply State.discardStaging_upholds | with_reducible apply State.pausePost_upholds
                 | split | with_reducible refine State.Upholds.upd ?_ rfl rfl rfl rfl rfl rfl)

theorem execLaneOutEmpty_upholds (lane : Fin 4) (s : State) (hu : s0.Upholds s) :
    Out.Upholds s0 (execLaneOutEmpty lane s) := by
  unfold execLaneOutEmpty
  refine .next ?_
  dsimp only
  repeat' (first | with_reducible assumption | with_reducible refine State.Upholds.ite ?_ ?_
                 | with_reducible apply State.raise_upholds | with_reducible apply State.laneAnswer_upholds | split
                 | with_reducible refine State.Upholds.upd ?_ rfl rfl rfl rfl rfl rfl)

theorem execLaneMarkerOut_upholds (lane : Fin 4) (pass : Bool) (s : State) (hu : s0.Upholds s) :
    Out.Upholds s0 (execLaneMarkerOut lane pass s) := by
  unfold execLaneMarkerOut
  refine .next ?_
  dsimp only
  repeat' (first | with_reducible assumption | with_reducible refine State.Upholds.ite ?_ ?_
                 | with_reducible apply State.raise_upholds | with_reducible apply State.laneAnswer_upholds | split
                 | with_reducible refine State.Upholds.upd ?_ rfl rfl rfl rfl rfl rfl)

theorem execRulesLane_upholds (t : Ten) (n : SlotIx) (s : State) (hu : s0.Upholds s) :
    Out.Upholds s0 (execRulesLane t n s) := by
  unfold execRulesLane
  refine command_upholds hu fun s hu => ?_
  dsimp only
  repeat' (first | with_reducible assumption | with_reducible refine State.Upholds.ite ?_ ?_
                 | with_reducible refine State.guard_upholds _ _ _ _ _ ?_ ?_
                 | with_reducible apply State.answer_upholds
                 | with_reducible refine State.Upholds.upd ?_ rfl rfl rfl rfl rfl rfl)

theorem execRulesProfile_upholds (t : Ten) (n : SlotIx) (s : State) (hu : s0.Upholds s) :
    Out.Upholds s0 (execRulesProfile t n s) := by
  unfold execRulesProfile
  refine commandBy_upholds hu fun s hu => ?_
  dsimp only
  repeat' (first | with_reducible assumption | with_reducible refine State.guard_upholds _ _ _ _ _ ?_ ?_
                 | with_reducible apply State.post_upholds
                 | with_reducible refine State.Upholds.upd ?_ rfl rfl rfl rfl rfl rfl)

theorem execRulesWrite_upholds (t : Ten) (n : SlotIx) (s : State) (hu : s0.Upholds s) :
    Out.Upholds s0 (execRulesWrite t n s) := by
  unfold execRulesWrite
  refine commandBy_upholds hu fun s hu => ?_
  dsimp only
  repeat' (first | with_reducible assumption | with_reducible refine State.guard_upholds _ _ _ _ _ ?_ ?_
                 | with_reducible apply State.post_upholds
                 | with_reducible refine State.Upholds.upd ?_ rfl rfl rfl rfl rfl rfl)

theorem execRulesCommit_upholds (t : Ten) (n : SlotIx) (s : State) (hu : s0.Upholds s) :
    Out.Upholds s0 (execRulesCommit t n s) := by
  unfold execRulesCommit
  refine command_upholds hu fun s hu => ?_
  dsimp only
  repeat' (first | with_reducible assumption | with_reducible refine State.Upholds.ite ?_ ?_
                 | with_reducible refine State.guard_upholds _ _ _ _ _ ?_ ?_
                 | with_reducible apply State.retryAuto_upholds | with_reducible apply State.commitVersion_upholds
                 | with_reducible refine State.Upholds.upd ?_ rfl rfl rfl rfl rfl rfl)

theorem execRulesDiscard_upholds (t : Ten) (n : SlotIx) (s : State) (hu : s0.Upholds s) :
    Out.Upholds s0 (execRulesDiscard t n s) := by
  unfold execRulesDiscard
  refine command_upholds hu fun s hu => ?_
  repeat' (first | with_reducible assumption | with_reducible refine State.guard_upholds _ _ _ _ _ ?_ ?_
                 | with_reducible apply State.retryAuto_upholds | with_reducible apply State.discardStaging_upholds
                 | with_reducible apply State.done_upholds)

theorem execRulesRead_upholds (t : Ten) (n : SlotIx) (s : State) (hu : s0.Upholds s) :
    Out.Upholds s0 (execRulesRead t n s) := by
  unfold execRulesRead
  refine command_upholds hu fun s hu => ?_
  dsimp only
  repeat' (first | with_reducible assumption | with_reducible refine State.guard_upholds _ _ _ _ _ ?_ ?_
                 | with_reducible apply State.partWrite_upholds | with_reducible apply State.post_upholds)

theorem execRulesStatus_upholds (t : Ten) (n : SlotIx) (s : State) (hu : s0.Upholds s) :
    Out.Upholds s0 (execRulesStatus t n s) := by
  unfold execRulesStatus
  refine command_upholds hu fun s hu => ?_
  dsimp only
  repeat' (first | with_reducible assumption | with_reducible refine State.Upholds.ite ?_ ?_
                 | with_reducible refine State.guard_upholds _ _ _ _ _ ?_ ?_
                 | with_reducible apply State.answer_upholds
                 | with_reducible refine State.Upholds.upd ?_ rfl rfl rfl rfl rfl rfl)

theorem execRulesCounters_upholds (t : Ten) (n : SlotIx) (s : State) (hu : s0.Upholds s) :
    Out.Upholds s0 (execRulesCounters t n s) := by
  unfold execRulesCounters
  refine command_upholds hu fun s hu => ?_
  dsimp only
  repeat' (first | with_reducible assumption | with_reducible refine State.Upholds.ite ?_ ?_
                 | with_reducible refine State.guard_upholds _ _ _ _ _ ?_ ?_
                 | with_reducible apply State.answer_upholds
                 | with_reducible refine State.Upholds.upd ?_ rfl rfl rfl rfl rfl rfl)

theorem execRulesSlowConfig_upholds (t : Ten) (n : SlotIx) (s : State) (hu : s0.Upholds s) :
    Out.Upholds s0 (execRulesSlowConfig t n s) := by
  unfold execRulesSlowConfig
  refine command_upholds hu fun s hu => ?_
  dsimp only
  repeat' (first | with_reducible assumption | with_reducible refine State.Upholds.ite ?_ ?_
                 | with_reducible refine State.guard_upholds _ _ _ _ _ ?_ ?_
                 | with_reducible apply State.persisted_upholds | with_reducible apply State.done_upholds
                 | with_reducible refine State.Upholds.upd ?_ rfl rfl rfl rfl rfl rfl)

/-! ### Traffic -/

theorem execPortEgressSelect_upholds (lane : Fin 2) (s : State) (hu : s0.Upholds s) :
    Out.Upholds s0 (execPortEgressSelect lane s) := by
  unfold execPortEgressSelect
  refine .next ?_
  dsimp only
  repeat' (first | with_reducible assumption | with_reducible refine State.Upholds.ite ?_ ?_
                 | with_reducible apply State.modQ_upholds | with_reducible apply State.leave_upholds
                 | with_reducible apply State.modLocal_upholds | with_reducible apply State.emit_upholds
                 | with_reducible apply State.watchFill_upholds | split
                 | with_reducible refine State.Upholds.upd ?_ rfl rfl rfl rfl rfl rfl)

theorem execUpHold_upholds (lane : Fin 2) (slot : Fin 3) (bytes : List Byte) (s : State) (hu : s0.Upholds s) :
    Out.Upholds s0 (execUpHold lane slot bytes s) := by
  unfold execUpHold
  refine lmmRow_upholds hu fun s lrh b hu => ?_
  dsimp only
  repeat' (first | with_reducible assumption | with_reducible refine State.Upholds.ite ?_ ?_
                 | with_reducible apply State.buildMasked_upholds
                 | with_reducible refine State.Upholds.upd ?_ rfl rfl rfl rfl rfl rfl)

theorem execHoldExpiry_upholds (id : Fin 10) (s : State) (hu : s0.Upholds s) :
    Out.Upholds s0 (execHoldExpiry id s) := by
  unfold execHoldExpiry
  refine .next ?_
  dsimp only
  repeat' (first | with_reducible assumption | with_reducible refine State.Upholds.ite ?_ ?_
                 | with_reducible apply State.reach_upholds | with_reducible apply State.build_upholds | split
                 | with_reducible refine State.Upholds.upd ?_ rfl rfl rfl rfl rfl rfl)

theorem execTrafficHold_upholds (t : Ten) (n : SlotIx) (s : State) (hu : s0.Upholds s) :
    Out.Upholds s0 (execTrafficHold t n s) := by
  unfold execTrafficHold
  refine command_upholds hu fun s hu => ?_
  dsimp only
  repeat' (first | with_reducible assumption | with_reducible refine State.Upholds.ite ?_ ?_
                 | with_reducible refine State.guard_upholds _ _ _ _ _ ?_ ?_
                 | with_reducible apply State.buildMasked_upholds | with_reducible apply State.done_upholds
                 | with_reducible refine State.Upholds.upd ?_ rfl rfl rfl rfl rfl rfl)

theorem execWatchPeriod_upholds (s : State) (hu : s0.Upholds s) :
    Out.Upholds s0 (execWatchPeriod s) := by
  unfold execWatchPeriod
  refine .next ?_
  dsimp only
  repeat' (first | with_reducible assumption | with_reducible refine State.Upholds.ite ?_ ?_
                 | with_reducible apply State.reach_upholds
                 | with_reducible refine State.Upholds.upd ?_ rfl rfl rfl rfl rfl rfl)

theorem execTrafficWatch_upholds (t : Ten) (n : SlotIx) (s : State) (hu : s0.Upholds s) :
    Out.Upholds s0 (execTrafficWatch t n s) := by
  unfold execTrafficWatch
  refine command_upholds hu fun s hu => ?_
  dsimp only
  repeat' (first | with_reducible assumption | with_reducible refine State.Upholds.ite ?_ ?_
                 | with_reducible refine State.guard_upholds _ _ _ _ _ ?_ ?_ | with_reducible apply State.done_upholds
                 | with_reducible refine State.Upholds.upd ?_ rfl rfl rfl rfl rfl rfl)

theorem execTrafficWatchRead_upholds (t : Ten) (n : SlotIx) (s : State) (hu : s0.Upholds s) :
    Out.Upholds s0 (execTrafficWatchRead t n s) := by
  unfold execTrafficWatchRead
  refine command_upholds hu fun s hu => ?_
  dsimp only
  repeat' (first | with_reducible assumption | with_reducible refine State.guard_upholds _ _ _ _ _ ?_ ?_
                 | with_reducible apply State.partWrite_upholds | with_reducible apply State.post_upholds)

theorem execTrafficInject_upholds (t : Ten) (n : SlotIx) (s : State) (hu : s0.Upholds s) :
    Out.Upholds s0 (execTrafficInject t n s) := by
  unfold execTrafficInject
  refine commandBy_upholds hu fun s hu => ?_
  repeat' (first | with_reducible assumption | with_reducible refine State.Upholds.ite ?_ ?_
                 | with_reducible refine State.guard_upholds _ _ _ _ _ ?_ ?_
                 | with_reducible apply State.sweepInject_upholds | with_reducible apply State.injectRun_upholds
                 | with_reducible refine State.Upholds.upd ?_ rfl rfl rfl rfl rfl rfl)

theorem execInjectOffer_upholds (t : Ten) (n : SlotIx) (s : State) (hu : s0.Upholds s) :
    Out.Upholds s0 (execInjectOffer t n s) := by
  unfold execInjectOffer
  refine .next ?_
  repeat' (first | with_reducible assumption | with_reducible refine State.Upholds.ite ?_ ?_
                 | with_reducible apply State.injectRun_upholds | split)

theorem execTrafficReceive_upholds (t : Ten) (n : SlotIx) (s : State) (hu : s0.Upholds s) :
    Out.Upholds s0 (execTrafficReceive t n s) := by
  unfold execTrafficReceive
  refine command_upholds hu fun s hu => ?_
  dsimp only
  repeat' (first | with_reducible assumption | with_reducible refine State.guard_upholds _ _ _ _ _ ?_ ?_
                 | with_reducible apply State.copyPort_upholds | with_reducible apply State.post_upholds
                 | with_reducible apply State.tellPort_upholds
                 | with_reducible refine State.Upholds.upd ?_ rfl rfl rfl rfl rfl rfl)

theorem execTrafficStatus_upholds (t : Ten) (n : SlotIx) (s : State) (hu : s0.Upholds s) :
    Out.Upholds s0 (execTrafficStatus t n s) := by
  unfold execTrafficStatus
  refine command_upholds hu fun s hu => ?_
  dsimp only
  repeat' (first | with_reducible assumption | with_reducible refine State.Upholds.ite ?_ ?_
                 | with_reducible refine State.guard_upholds _ _ _ _ _ ?_ ?_
                 | with_reducible apply State.answer_upholds
                 | with_reducible refine State.Upholds.upd ?_ rfl rfl rfl rfl rfl rfl)

theorem execTrafficQueueCfg_upholds (t : Ten) (n : SlotIx) (s : State) (hu : s0.Upholds s) :
    Out.Upholds s0 (execTrafficQueueCfg t n s) := by
  refine command_upholds hu fun s hu => ?_
  extract_lets ps b f c i
  with_reducible refine State.guard_upholds _ _ _ _ _ hu ?_
  extract_lets s1 s2
  have h1 : s0.Upholds s1 := State.modQ_upholds _ _ _ hu
  have h2 : s0.Upholds s2 := by
    unfold s2
    split
    · exact State.build_upholds _ _ h1
    · exact h1
  exact State.done_upholds _ _ _ _ (.ite (State.persisted_upholds _ (.upd h2 rfl rfl rfl rfl rfl rfl)) h2)

theorem execTrafficQueueStatus_upholds (t : Ten) (n : SlotIx) (s : State) (hu : s0.Upholds s) :
    Out.Upholds s0 (execTrafficQueueStatus t n s) := by
  unfold execTrafficQueueStatus
  refine command_upholds hu fun s hu => ?_
  dsimp only
  repeat' (first | with_reducible assumption | with_reducible refine State.guard_upholds _ _ _ _ _ ?_ ?_
                 | with_reducible apply State.modQ_upholds | with_reducible apply State.answer_upholds)

theorem execTrafficPolicer_upholds (t : Ten) (n : SlotIx) (s : State) (hu : s0.Upholds s) :
    Out.Upholds s0 (execTrafficPolicer t n s) := by
  unfold execTrafficPolicer
  refine command_upholds hu fun s hu => ?_
  dsimp only
  repeat' (first | with_reducible assumption | with_reducible refine State.Upholds.ite ?_ ?_
                 | with_reducible refine State.guard_upholds _ _ _ _ _ ?_ ?_
                 | with_reducible apply State.persisted_upholds | with_reducible apply State.answer_upholds
                 | with_reducible refine State.Upholds.upd ?_ rfl rfl rfl rfl rfl rfl)

theorem execTrafficBuffer_upholds (t : Ten) (n : SlotIx) (s : State) (hu : s0.Upholds s) :
    Out.Upholds s0 (execTrafficBuffer t n s) := by
  unfold execTrafficBuffer
  refine command_upholds hu fun s hu => ?_
  dsimp only
  repeat' (first | with_reducible assumption | with_reducible refine State.Upholds.ite ?_ ?_
                 | with_reducible refine State.guard_upholds _ _ _ _ _ ?_ ?_
                 | with_reducible apply State.persisted_upholds | with_reducible apply State.done_upholds
                 | with_reducible refine State.Upholds.upd ?_ rfl rfl rfl rfl rfl rfl)

/-! ### Messages -/

theorem execSleepGrant_upholds (lane : Fin 2) (slot : Fin 3) (bytes : List Byte) (s : State) (hu : s0.Upholds s) :
    Out.Upholds s0 (execSleepGrant lane slot bytes s) := by
  unfold execSleepGrant
  refine lmmRow_upholds hu fun s lrh b hu => ?_
  dsimp only
  repeat' (first | with_reducible assumption | with_reducible refine State.Upholds.ite ?_ ?_
                 | with_reducible apply State.keepSite_upholds | with_reducible apply State.takeGrant_upholds
                 | with_reducible refine State.Upholds.upd ?_ rfl rfl rfl rfl rfl rfl)

theorem execSleepDeny_upholds (lane : Fin 2) (slot : Fin 3) (bytes : List Byte) (s : State) (hu : s0.Upholds s) :
    Out.Upholds s0 (execSleepDeny lane slot bytes s) := by
  unfold execSleepDeny
  refine lmmRow_upholds hu fun s lrh b hu => ?_
  dsimp only
  repeat' (first | with_reducible assumption | with_reducible refine State.Upholds.ite ?_ ?_
                 | with_reducible refine State.Upholds.upd ?_ rfl rfl rfl rfl rfl rfl)

theorem execNightWake_upholds (lane : Fin 2) (slot : Fin 3) (bytes : List Byte) (s : State) (hu : s0.Upholds s) :
    Out.Upholds s0 (execNightWake lane slot bytes s) := by
  unfold execNightWake
  refine lmmRow_upholds hu fun s lrh b hu => ?_
  repeat' (first | with_reducible assumption | with_reducible apply State.nightTrigger_upholds)

theorem execTimeInfo_upholds (lane : Fin 2) (slot : Fin 3) (bytes : List Byte) (s : State) (hu : s0.Upholds s) :
    Out.Upholds s0 (execTimeInfo lane slot bytes s) := by
  unfold execTimeInfo
  refine lmmRow_upholds hu fun s lrh b hu => ?_
  dsimp only
  repeat' (first | with_reducible assumption | with_reducible refine State.Upholds.ite ?_ ?_
                 | with_reducible apply State.dropLmm_upholds | with_reducible apply State.raise_upholds
                 | with_reducible refine State.Upholds.upd ?_ rfl rfl rfl rfl rfl rfl)

theorem execTribCfg_upholds (lane : Fin 2) (slot : Fin 3) (bytes : List Byte) (s : State) (hu : s0.Upholds s) :
    Out.Upholds s0 (execTribCfg lane slot bytes s) := by
  unfold execTribCfg
  refine lmmRow_upholds hu fun s lrh b hu => ?_
  repeat' (first | with_reducible assumption | with_reducible refine State.Upholds.ite ?_ ?_ | (intro _ _ _)
                 | with_reducible refine State.Upholds.foldl ?_ ?_ | with_reducible apply State.removeTps_upholds
                 | with_reducible apply State.dropLmm_upholds | split
                 | with_reducible refine State.Upholds.upd ?_ rfl rfl rfl rfl rfl rfl)

/-! ### Cipher -/

theorem execCipherJobDone_upholds (s : State) (hu : s0.Upholds s) :
    Out.Upholds s0 (execCipherJobDone s) := by
  unfold execCipherJobDone
  refine .next ?_
  dsimp only
  repeat' (first | with_reducible assumption | with_reducible apply State.jobsOn_upholds
                 | with_reducible apply State.endJob_upholds | with_reducible apply State.afterJob_upholds | split)

theorem execKbusOpDone_upholds (s : State) (hu : s0.Upholds s) :
    Out.Upholds s0 (execKbusOpDone s) := by
  unfold execKbusOpDone
  refine .next ?_
  repeat' (first | with_reducible assumption | with_reducible apply State.kbusDone_upholds
                 | with_reducible apply State.startJobs_upholds)

theorem execKbusWatchdog_upholds (s : State) (hu : s0.Upholds s) :
    Out.Upholds s0 (execKbusWatchdog s) := by
  unfold execKbusWatchdog
  refine .next ?_
  dsimp only
  repeat' (first | with_reducible assumption | split
                 | with_reducible refine State.Upholds.upd ?_ rfl rfl rfl rfl rfl rfl)

theorem execCipherParityFault_upholds (core : Fin 2) (s : State) (hu : s0.Upholds s) :
    Out.Upholds s0 (execCipherParityFault core s) := by
  unfold execCipherParityFault
  refine .next ?_
  dsimp only
  repeat' (first | with_reducible assumption | with_reducible refine State.Upholds.ite ?_ ?_
                 | with_reducible apply State.countFault_upholds | with_reducible apply State.faultWork_upholds
                 | with_reducible apply State.raise_upholds | with_reducible apply State.fence_upholds
                 | with_reducible apply State.afterJob_upholds | split)

theorem execCipherSelfTestDone_upholds (core : Fin 2) (pass : Bool) (s : State) (hu : s0.Upholds s) :
    Out.Upholds s0 (execCipherSelfTestDone core pass s) := by
  unfold execCipherSelfTestDone
  refine .next ?_
  dsimp only
  repeat' (first | with_reducible assumption | with_reducible refine State.Upholds.ite ?_ ?_
                 | with_reducible apply State.coreReturns_upholds | with_reducible apply State.coreAnswer_upholds
                 | with_reducible apply State.startJobs_upholds
                 | with_reducible refine State.Upholds.upd ?_ rfl rfl rfl rfl rfl rfl)

theorem execCeilWriteDone_upholds (slot : Nat) (ok : Bool) (s : State) (hu : s0.Upholds s) :
    Out.Upholds s0 (execCeilWriteDone slot ok s) := by
  unfold execCeilWriteDone
  refine .next ?_
  dsimp only
  repeat' (first | with_reducible assumption | with_reducible refine State.Upholds.ite ?_ ?_
                 | with_reducible apply State.retryAuto_upholds | with_reducible apply State.modSlotKey_upholds
                 | with_reducible apply State.recordWritten_upholds | with_reducible apply State.noncesKept_upholds
                 | split | with_reducible refine State.Upholds.upd ?_ rfl rfl rfl rfl rfl rfl)

theorem execCeilWriteRetry_upholds (s : State) (hu : s0.Upholds s) :
    Out.Upholds s0 (execCeilWriteRetry s) := by
  unfold execCeilWriteRetry
  refine .next ?_
  repeat' (first | with_reducible assumption | with_reducible refine State.Upholds.upd ?_ rfl rfl rfl rfl rfl rfl)

theorem execCipherGcmSeal_upholds (t : Ten) (n : SlotIx) (s : State) (hu : s0.Upholds s) :
    Out.Upholds s0 (execCipherGcmSeal t n s) := by
  unfold execCipherGcmSeal
  refine commandBy_upholds hu fun s hu => ?_
  repeat' (first | with_reducible assumption | with_reducible refine State.Upholds.ite ?_ ?_
                 | with_reducible refine State.guard_upholds _ _ _ _ _ ?_ ?_
                 | with_reducible apply State.acceptSeal_upholds)

theorem execCipherGcmOpen_upholds (t : Ten) (n : SlotIx) (s : State) (hu : s0.Upholds s) :
    Out.Upholds s0 (execCipherGcmOpen t n s) := by
  unfold execCipherGcmOpen
  refine commandBy_upholds hu fun s hu => ?_
  repeat' (first | with_reducible assumption | with_reducible refine State.Upholds.ite ?_ ?_
                 | with_reducible refine State.guard_upholds _ _ _ _ _ ?_ ?_
                 | with_reducible apply State.acceptJob_upholds)

theorem execCipherCtr_upholds (t : Ten) (n : SlotIx) (s : State) (hu : s0.Upholds s) :
    Out.Upholds s0 (execCipherCtr t n s) := by
  unfold execCipherCtr
  refine commandBy_upholds hu fun s hu => ?_
  dsimp only
  repeat' (first | with_reducible assumption | with_reducible refine State.Upholds.ite ?_ ?_
                 | with_reducible refine State.guard_upholds _ _ _ _ _ ?_ ?_
                 | with_reducible apply State.acceptJob_upholds | with_reducible apply State.acceptSeal_upholds)

theorem execCipherCmac_upholds (t : Ten) (n : SlotIx) (s : State) (hu : s0.Upholds s) :
    Out.Upholds s0 (execCipherCmac t n s) := by
  unfold execCipherCmac
  refine commandBy_upholds hu fun s hu => ?_
  dsimp only
  repeat' (first | with_reducible assumption | with_reducible refine State.Upholds.ite ?_ ?_
                 | with_reducible refine State.guard_upholds _ _ _ _ _ ?_ ?_
                 | with_reducible apply State.acceptJob_upholds)

theorem execCipherStatus_upholds (t : Ten) (n : SlotIx) (s : State) (hu : s0.Upholds s) :
    Out.Upholds s0 (execCipherStatus t n s) := by
  unfold execCipherStatus
  refine command_upholds hu fun s hu => ?_
  repeat' (first | with_reducible assumption | with_reducible apply State.answer_upholds)

theorem execCipherCore_upholds (t : Ten) (n : SlotIx) (s : State) (hu : s0.Upholds s) :
    Out.Upholds s0 (execCipherCore t n s) := by
  unfold execCipherCore
  refine command_upholds hu fun s hu => ?_
  dsimp only
  repeat' (first | with_reducible assumption | with_reducible refine State.Upholds.ite ?_ ?_
                 | with_reducible refine State.guard_upholds _ _ _ _ _ ?_ ?_
                 | with_reducible apply State.answer_upholds | with_reducible apply State.coreOut_upholds
                 | with_reducible refine State.Upholds.upd ?_ rfl rfl rfl rfl rfl rfl)

theorem execKeysInfo_upholds (t : Ten) (n : SlotIx) (s : State) (hu : s0.Upholds s) :
    Out.Upholds s0 (execKeysInfo t n s) := by
  unfold execKeysInfo
  refine command_upholds hu fun s hu => ?_
  dsimp only
  repeat' (first | with_reducible assumption | with_reducible refine State.guard_upholds _ _ _ _ _ ?_ ?_
                 | with_reducible apply State.answer_upholds)

theorem execKeysImport_upholds (t : Ten) (n : SlotIx) (s : State) (hu : s0.Upholds s) :
    Out.Upholds s0 (execKeysImport t n s) := by
  unfold execKeysImport
  refine command_upholds hu fun s hu => ?_
  dsimp only
  repeat' (first | with_reducible assumption | with_reducible refine State.Upholds.ite ?_ ?_
                 | with_reducible refine State.guard_upholds _ _ _ _ _ ?_ ?_
                 | with_reducible apply State.endImport_upholds)

theorem execKeysDerive_upholds (t : Ten) (n : SlotIx) (s : State) (hu : s0.Upholds s) :
    Out.Upholds s0 (execKeysDerive t n s) := by
  unfold execKeysDerive
  refine commandBy_upholds hu fun s hu => ?_
  dsimp only
  repeat' (first | with_reducible assumption | with_reducible refine State.Upholds.ite ?_ ?_
                 | with_reducible refine State.guard_upholds _ _ _ _ _ ?_ ?_
                 | with_reducible apply State.endDerive_upholds)

theorem execKeysDestroy_upholds (t : Ten) (n : SlotIx) (s : State) (hu : s0.Upholds s) :
    Out.Upholds s0 (execKeysDestroy t n s) := by
  unfold execKeysDestroy
  refine commandBy_upholds hu fun s hu => ?_
  dsimp only
  repeat' (first | with_reducible assumption | with_reducible refine State.Upholds.ite ?_ ?_
                 | with_reducible refine State.guard_upholds _ _ _ _ _ ?_ ?_
                 | with_reducible apply State.destroyKey_upholds | with_reducible apply State.settleDestroys_upholds
                 | split | with_reducible refine State.Upholds.upd ?_ rfl rfl rfl rfl rfl rfl)

/-! ### EnsRows -/

theorem execEnsLineWriteDone_upholds (region : Nat) (verify ok : Bool) (fixed : Nat) (s : State) (hu : s0.Upholds s) :
    Out.Upholds s0 (execEnsLineWriteDone region verify ok fixed s) := by
  unfold execEnsLineWriteDone
  refine .next ?_
  dsimp only
  repeat' (first | with_reducible assumption | with_reducible refine State.Upholds.ite ?_ ?_
                 | with_reducible apply State.retryAuto_upholds | with_reducible apply State.eccFixed_upholds
                 | with_reducible apply State.markSuspect_upholds | with_reducible apply State.endUpdate_upholds
                 | with_reducible apply State.lineStands_upholds | with_reducible apply State.modUpd_upholds
                 | with_reducible apply State.remap_upholds | split)

theorem execEnsRead_upholds (t : Ten) (n : SlotIx) (fixed : Nat) (bad : List Nat) (s : State) (hu : s0.Upholds s) :
    Out.Upholds s0 (execEnsRead t n fixed bad s) := by
  unfold execEnsRead
  refine commandBy_upholds hu fun s hu => ?_
  dsimp only
  repeat' (first | with_reducible assumption | with_reducible refine State.Upholds.ite ?_ ?_
                 | with_reducible refine State.guard_upholds _ _ _ _ _ ?_ ?_
                 | with_reducible apply State.eccFixed_upholds | with_reducible apply State.markSuspect_upholds
                 | with_reducible apply State.partWrite_upholds | with_reducible apply State.post_upholds
                 | with_reducible refine State.Upholds.upd ?_ rfl rfl rfl rfl rfl rfl)

theorem execEnsWrite_upholds (t : Ten) (n : SlotIx) (s : State) (hu : s0.Upholds s) :
    Out.Upholds s0 (execEnsWrite t n s) := by
  unfold execEnsWrite
  refine commandBy_upholds hu fun s hu => ?_
  dsimp only
  repeat' (first | with_reducible assumption | with_reducible refine State.Upholds.ite ?_ ?_
                 | with_reducible refine State.guard_upholds _ _ _ _ _ ?_ ?_
                 | with_reducible apply State.stopAtSafePoint_upholds
                 | with_reducible refine State.Upholds.upd ?_ rfl rfl rfl rfl rfl rfl)

theorem execEnsAbort_upholds (t : Ten) (n : SlotIx) (s : State) (hu : s0.Upholds s) :
    Out.Upholds s0 (execEnsAbort t n s) := by
  unfold execEnsAbort
  refine commandBy_upholds hu fun s hu => ?_
  dsimp only
  repeat' (first | with_reducible assumption | with_reducible refine State.guard_upholds _ _ _ _ _ ?_ ?_
                 | with_reducible apply State.modUpd_upholds)

theorem execEnsStatus_upholds (t : Ten) (n : SlotIx) (s : State) (hu : s0.Upholds s) :
    Out.Upholds s0 (execEnsStatus t n s) := by
  unfold execEnsStatus
  refine command_upholds hu fun s hu => ?_
  repeat' (first | with_reducible assumption | with_reducible apply State.answer_upholds)

theorem execEnsLineInfo_upholds (t : Ten) (n : SlotIx) (s : State) (hu : s0.Upholds s) :
    Out.Upholds s0 (execEnsLineInfo t n s) := by
  unfold execEnsLineInfo
  refine commandBy_upholds hu fun s hu => ?_
  dsimp only
  repeat' (first | with_reducible assumption | with_reducible refine State.Upholds.ite ?_ ?_
                 | with_reducible refine State.guard_upholds _ _ _ _ _ ?_ ?_
                 | with_reducible apply State.answer_upholds)

/-! ### Security -/

theorem execSecStatus_upholds (t : Ten) (n : SlotIx) (s : State) (hu : s0.Upholds s) :
    Out.Upholds s0 (execSecStatus t n s) := by
  unfold execSecStatus
  refine command_upholds hu fun s hu => ?_
  repeat' (first | with_reducible assumption | with_reducible apply State.answer_upholds)

theorem execSecThawChallenge_upholds (t : Ten) (n : SlotIx) (s : State) (hu : s0.Upholds s) :
    Out.Upholds s0 (execSecThawChallenge t n s) := by
  unfold execSecThawChallenge
  refine command_upholds hu fun s hu => ?_
  dsimp only
  repeat' (first | with_reducible assumption | with_reducible refine State.guard_upholds _ _ _ _ _ ?_ ?_
                 | with_reducible apply State.drawn_upholds | with_reducible apply State.answer_upholds
                 | with_reducible refine State.Upholds.upd ?_ rfl rfl rfl rfl rfl rfl)

theorem execSecThaw_upholds (t : Ten) (n : SlotIx) (s : State) (hu : s0.Upholds s) :
    Out.Upholds s0 (execSecThaw t n s) := by
  unfold execSecThaw
  refine commandBy_upholds hu fun s hu => ?_
  dsimp only
  repeat' (first | with_reducible assumption | with_reducible refine State.Upholds.ite ?_ ?_
                 | with_reducible apply State.thawFailed_upholds | with_reducible apply State.done_upholds
                 | with_reducible apply State.raiseLevel_upholds | with_reducible apply State.enterThawed_upholds
                 | with_reducible apply State.answer_upholds | split
                 | with_reducible refine State.Upholds.upd ?_ rfl rfl rfl rfl rfl rfl)

theorem execSecFreeze_upholds (t : Ten) (n : SlotIx) (s : State) (hu : s0.Upholds s) :
    Out.Upholds s0 (execSecFreeze t n s) := by
  unfold execSecFreeze
  refine command_upholds hu fun s hu => ?_
  repeat' (first | with_reducible assumption | with_reducible refine State.Upholds.ite ?_ ?_
                 | with_reducible apply State.retryAuto_upholds | with_reducible apply State.answer_upholds
                 | with_reducible apply State.acceptEntry_upholds | with_reducible apply State.chipReset_upholds
                 | with_reducible apply State.refreeze_upholds)

theorem execLevelTimerExpiry_upholds (s : State) (hu : s0.Upholds s) :
    Out.Upholds s0 (execLevelTimerExpiry s) := by
  unfold execLevelTimerExpiry
  refine .next ?_
  repeat' (first | with_reducible assumption | with_reducible refine State.Upholds.ite ?_ ?_
                 | with_reducible apply State.retryAuto_upholds | with_reducible apply State.reach_upholds
                 | with_reducible apply State.chipReset_upholds | with_reducible apply State.refreeze_upholds | split)

theorem execThawNonceExpiry_upholds (s : State) (hu : s0.Upholds s) :
    Out.Upholds s0 (execThawNonceExpiry s) := by
  unfold execThawNonceExpiry
  refine .next ?_
  repeat' (first | with_reducible assumption | with_reducible apply State.reach_upholds | split
                 | with_reducible refine State.Upholds.upd ?_ rfl rfl rfl rfl rfl rfl)

theorem execThawLockoutEnd_upholds (s : State) (hu : s0.Upholds s) :
    Out.Upholds s0 (execThawLockoutEnd s) := by
  unfold execThawLockoutEnd
  refine .next ?_
  repeat' (first | with_reducible assumption | with_reducible apply State.reach_upholds | split
                 | with_reducible refine State.Upholds.upd ?_ rfl rfl rfl rfl rfl rfl)

theorem execSecSeal_upholds (t : Ten) (n : SlotIx) (s : State) (hu : s0.Upholds s) :
    Out.Upholds s0 (execSecSeal t n s) := by
  refine commandBy_upholds hu fun s hu => State.guard_upholds_of _ _ _ _ _ hu fun passed => ?_
  have fresh := passed _ (List.mem_cons_of_mem _ List.mem_cons_self)
  simp only [Bool.or_eq_false_iff, Bool.not_eq_false'] at fresh
  exact State.answer_upholds _ _ _ _ (State.sealTo_upholds _ _ hu fresh.1.1)

theorem execSecRetire_upholds (t : Ten) (n : SlotIx) (s : State) (hu : s0.Upholds s) :
    Out.Upholds s0 (execSecRetire t n s) := by
  unfold execSecRetire
  refine command_upholds hu fun s hu => ?_
  repeat' (first | with_reducible assumption | with_reducible refine State.Upholds.ite ?_ ?_
                 | with_reducible refine State.guard_upholds _ _ _ _ _ ?_ ?_
                 | with_reducible apply State.startWait_upholds)

/-! ### FirnRows -/

theorem execFirnModelLoad_upholds (t : Ten) (n : SlotIx) (s : State) (hu : s0.Upholds s) :
    Out.Upholds s0 (execFirnModelLoad t n s) := by
  unfold execFirnModelLoad
  refine command_upholds hu fun s hu => ?_
  dsimp only
  repeat' (first | with_reducible assumption | with_reducible refine State.Upholds.ite ?_ ?_
                 | with_reducible refine State.guard_upholds _ _ _ _ _ ?_ ?_
                 | with_reducible apply State.loadPackage_upholds
                 | with_reducible refine State.Upholds.upd ?_ rfl rfl rfl rfl rfl rfl)

theorem execFirnModelUnload_upholds (t : Ten) (n : SlotIx) (s : State) (hu : s0.Upholds s) :
    Out.Upholds s0 (execFirnModelUnload t n s) := by
  unfold execFirnModelUnload
  refine commandBy_upholds hu fun s hu => ?_
  dsimp only
  repeat' (first | with_reducible assumption | with_reducible refine State.guard_upholds _ _ _ _ _ ?_ ?_
                 | with_reducible apply State.dropModel_upholds | with_reducible apply State.done_upholds)

theorem execFirnModelInfo_upholds (t : Ten) (n : SlotIx) (s : State) (hu : s0.Upholds s) :
    Out.Upholds s0 (execFirnModelInfo t n s) := by
  unfold execFirnModelInfo
  refine command_upholds hu fun s hu => ?_
  dsimp only
  repeat' (first | with_reducible assumption | with_reducible refine State.guard_upholds _ _ _ _ _ ?_ ?_
                 | with_reducible apply State.answer_upholds)

theorem execFirnModelKey_upholds (t : Ten) (n : SlotIx) (s : State) (hu : s0.Upholds s) :
    Out.Upholds s0 (execFirnModelKey t n s) := by
  unfold execFirnModelKey
  refine commandBy_upholds hu fun s hu => ?_
  dsimp only
  repeat' (first | with_reducible assumption | with_reducible refine State.Upholds.ite ?_ ?_
                 | with_reducible refine State.guard_upholds _ _ _ _ _ ?_ ?_
                 | with_reducible apply State.persisted_upholds | with_reducible apply State.answer_upholds
                 | with_reducible refine State.Upholds.upd ?_ rfl rfl rfl rfl rfl rfl)

theorem execFirnRun_upholds (t : Ten) (n : SlotIx) (s : State) (hu : s0.Upholds s) :
    Out.Upholds s0 (execFirnRun t n s) := by
  unfold execFirnRun
  refine command_upholds hu fun s hu => ?_
  dsimp only
  repeat' (first | with_reducible assumption | with_reducible refine State.Upholds.ite ?_ ?_
                 | with_reducible refine State.guard_upholds _ _ _ _ _ ?_ ?_ | with_reducible apply State.done_upholds
                 | with_reducible apply State.submit_upholds | split)

theorem execFirnJobResident_upholds (job : Nat) (s : State) (hu : s0.Upholds s) :
    Out.Upholds s0 (execFirnJobResident job s) := by
  unfold execFirnJobResident
  refine .next ?_
  repeat' (first | with_reducible assumption | with_reducible refine State.Upholds.ite ?_ ?_
                 | with_reducible apply State.reside_upholds | split)

theorem execFirnLayerBoundary_upholds (s : State) (hu : s0.Upholds s) :
    Out.Upholds s0 (execFirnLayerBoundary s) := by
  unfold execFirnLayerBoundary
  refine .next (State.retryAuto_upholds _ ?_)
  split
  · exact hu
  · split
    · exact hu
    · next j found =>
      split
      · exact hu
      · exact State.afterLayer_upholds _ _ _ (State.endLayer_upholds _ _ _ _ (fun m => fjob_work (hu.mem m) found) hu)

theorem execFirnOutputCopied_upholds (s : State) (hu : s0.Upholds s) :
    Out.Upholds s0 (execFirnOutputCopied s) := by
  unfold execFirnOutputCopied
  refine .next ?_
  dsimp only
  repeat' (first | with_reducible assumption | with_reducible refine State.Upholds.ite ?_ ?_
                 | with_reducible apply State.retryAuto_upholds | with_reducible apply State.work_upholds
                 | with_reducible apply State.partWrite_upholds | with_reducible apply State.dropJob_upholds
                 | with_reducible apply State.answer_upholds | with_reducible apply State.raise_upholds
                 | with_reducible apply State.firnTouch_upholds | with_reducible apply State.engineLeft_upholds
                 | with_reducible apply State.firnSettled_upholds | with_reducible apply State.firnNext_upholds
                 | split | with_reducible refine State.Upholds.upd ?_ rfl rfl rfl rfl rfl rfl)

theorem execFirnLayerWatchdog_upholds (s : State) (hu : s0.Upholds s) :
    Out.Upholds s0 (execFirnLayerWatchdog s) := by
  unfold execFirnLayerWatchdog
  refine .next ?_
  dsimp only
  repeat' (first | with_reducible assumption | with_reducible refine State.Upholds.ite ?_ ?_
                 | with_reducible apply State.retryAuto_upholds | with_reducible apply State.reach_upholds
                 | with_reducible apply State.layerTime_upholds | with_reducible apply State.abortJob_upholds
                 | with_reducible apply State.raise_upholds | with_reducible apply State.engineTest_upholds
                 | with_reducible apply State.firnNext_upholds | split
                 | with_reducible refine State.Upholds.upd ?_ rfl rfl rfl rfl rfl rfl)

theorem execFirnSramError_upholds (area : Nat) (single : Bool) (s : State) (hu : s0.Upholds s) :
    Out.Upholds s0 (execFirnSramError area single s) := by
  unfold execFirnSramError
  refine .next ?_
  dsimp only
  repeat' (first | with_reducible assumption | with_reducible refine State.Upholds.ite ?_ ?_ | (intro _ _ _)
                 | with_reducible refine State.Upholds.foldl ?_ ?_ | with_reducible apply State.retryAuto_upholds
                 | with_reducible apply State.cutLayer_upholds | with_reducible apply State.abortJob_upholds
                 | with_reducible apply State.staleConstants_upholds | with_reducible apply State.firnNext_upholds
                 | with_reducible refine State.Upholds.upd ?_ rfl rfl rfl rfl rfl rfl)

theorem execFirnSelfTestDone_upholds (pass : Bool) (s : State) (hu : s0.Upholds s) :
    Out.Upholds s0 (execFirnSelfTestDone pass s) := by
  unfold execFirnSelfTestDone
  refine .next ?_
  dsimp only
  repeat' (first | with_reducible assumption | with_reducible refine State.Upholds.ite ?_ ?_
                 | with_reducible apply State.answer_upholds | with_reducible apply State.done_upholds
                 | with_reducible apply State.firnNext_upholds | split
                 | with_reducible refine State.Upholds.upd ?_ rfl rfl rfl rfl rfl rfl)

theorem execFirnEngine_upholds (t : Ten) (n : SlotIx) (s : State) (hu : s0.Upholds s) :
    Out.Upholds s0 (execFirnEngine t n s) := by
  unfold execFirnEngine
  refine command_upholds hu fun s hu => ?_
  dsimp only
  repeat' (first | with_reducible assumption | with_reducible refine State.Upholds.ite ?_ ?_
                 | with_reducible refine State.guard_upholds _ _ _ _ _ ?_ ?_
                 | with_reducible apply State.engineOut_upholds | with_reducible apply State.answer_upholds
                 | with_reducible refine State.Upholds.upd ?_ rfl rfl rfl rfl rfl rfl)

theorem execFirnStatus_upholds (t : Ten) (n : SlotIx) (s : State) (hu : s0.Upholds s) :
    Out.Upholds s0 (execFirnStatus t n s) := by
  unfold execFirnStatus
  refine command_upholds hu fun s hu => ?_
  dsimp only
  repeat' (first | with_reducible assumption | with_reducible refine State.Upholds.ite ?_ ?_
                 | with_reducible refine State.guard_upholds _ _ _ _ _ ?_ ?_
                 | with_reducible apply State.answer_upholds
                 | with_reducible refine State.Upholds.upd ?_ rfl rfl rfl rfl rfl rfl)

/-! ### Time -/

theorem execComparatorFire_upholds (i : Fin 16) (s : State) (hu : s0.Upholds s) :
    Out.Upholds s0 (execComparatorFire i s) := by
  unfold execComparatorFire
  refine .next ?_
  dsimp only
  repeat' (first | with_reducible assumption | with_reducible refine State.Upholds.ite ?_ ?_
                 | with_reducible apply State.reachTt_upholds | with_reducible apply State.fireCmp_upholds | split)

theorem execParkedTargetCheck_upholds (s : State) (hu : s0.Upholds s) :
    Out.Upholds s0 (execParkedTargetCheck s) := by
  unfold execParkedTargetCheck
  refine .next ?_
  repeat' (first | with_reducible assumption | with_reducible refine State.Upholds.ite ?_ ?_ | (intro _ _ _)
                 | with_reducible refine State.Upholds.foldl ?_ ?_ | split
                 | with_reducible refine State.Upholds.upd ?_ rfl rfl rfl rfl rfl rfl)

theorem execCalendarAlarm_upholds (i : Fin 4) (s : State) (hu : s0.Upholds s) :
    Out.Upholds s0 (execCalendarAlarm i s) := by
  unfold execCalendarAlarm
  refine .next ?_
  repeat' (first | with_reducible assumption | with_reducible refine State.Upholds.ite ?_ ?_
                 | with_reducible apply State.reachTt_upholds | with_reducible apply State.fireAlarm_upholds | split)

theorem execPpsSecond_upholds (s : State) (hu : s0.Upholds s) :
    Out.Upholds s0 (execPpsSecond s) := by
  unfold execPpsSecond
  refine .next ?_
  dsimp only
  repeat' (first | with_reducible assumption | with_reducible refine State.Upholds.ite ?_ ?_
                 | with_reducible apply State.reachTt_upholds | with_reducible apply State.ppsPulse_upholds)

theorem execGridRefCycle_upholds (s : State) (hu : s0.Upholds s) :
    Out.Upholds s0 (execGridRefCycle s) := by
  unfold execGridRefCycle
  refine .next ?_
  dsimp only
  repeat' (first | with_reducible assumption | with_reducible refine State.Upholds.ite ?_ ?_
                 | with_reducible apply State.emit_upholds | with_reducible apply State.raise_upholds
                 | with_reducible refine State.Upholds.upd ?_ rfl rfl rfl rfl rfl rfl)

theorem execPulseStart_upholds (i : Fin 2) (s : State) (hu : s0.Upholds s) :
    Out.Upholds s0 (execPulseStart i s) := by
  unfold execPulseStart
  refine .next ?_
  repeat' (first | with_reducible assumption | with_reducible refine State.Upholds.ite ?_ ?_
                 | with_reducible apply State.reachTt_upholds | with_reducible apply State.pulseRise_upholds | split)

theorem execPulseStop_upholds (i : Fin 2) (s : State) (hu : s0.Upholds s) :
    Out.Upholds s0 (execPulseStop i s) := by
  unfold execPulseStop
  refine .next ?_
  repeat' (first | with_reducible assumption | with_reducible refine State.Upholds.ite ?_ ?_
                 | with_reducible apply State.reachTt_upholds | with_reducible apply State.pulseFall_upholds | split)

theorem execLeapSecond_upholds (s : State) (hu : s0.Upholds s) :
    Out.Upholds s0 (execLeapSecond s) := by
  unfold execLeapSecond
  refine .next ?_
  repeat' (first | with_reducible assumption | with_reducible refine State.Upholds.ite ?_ ?_
                 | with_reducible apply State.reachTt_upholds | with_reducible apply State.leapNow_upholds)

theorem execTimeStamp_upholds (s : State) (hu : s0.Upholds s) :
    Out.Upholds s0 (execTimeStamp s) := by
  unfold execTimeStamp
  refine .next ?_
  dsimp only
  repeat' (first | with_reducible assumption | with_reducible refine State.Upholds.ite ?_ ?_
                 | with_reducible apply State.useStamp_upholds | split
                 | with_reducible refine State.Upholds.upd ?_ rfl rfl rfl rfl rfl rfl)

theorem execRateCorrection_upholds (s : State) (hu : s0.Upholds s) :
    Out.Upholds s0 (execRateCorrection s) := by
  unfold execRateCorrection
  refine .next ?_
  dsimp only
  repeat' (first | with_reducible assumption | with_reducible refine State.Upholds.ite ?_ ?_ | (intro _ _ _)
                 | with_reducible refine State.Upholds.foldl ?_ ?_ | split
                 | with_reducible refine State.Upholds.upd ?_ rfl rfl rfl rfl rfl rfl)

theorem execHoldoverEntry_upholds (s : State) (hu : s0.Upholds s) :
    Out.Upholds s0 (execHoldoverEntry s) := by
  unfold execHoldoverEntry
  refine .next ?_
  repeat' (first | with_reducible assumption | with_reducible refine State.Upholds.ite ?_ ?_
                 | with_reducible apply State.reach_upholds | with_reducible apply State.enterHoldover_upholds)

theorem execTransformRebase_upholds (s : State) (hu : s0.Upholds s) :
    Out.Upholds s0 (execTransformRebase s) := by
  unfold execTransformRebase
  refine .next ?_
  repeat' (first | with_reducible assumption | with_reducible refine State.Upholds.ite ?_ ?_
                 | with_reducible refine State.Upholds.upd ?_ rfl rfl rfl rfl rfl rfl)

theorem execCaptureEdge_upholds (input : Fin 4) (rising : Bool) (phase ns : Nat) (s : State) (hu : s0.Upholds s) :
    Out.Upholds s0 (execCaptureEdge input rising phase ns s) := by
  unfold execCaptureEdge
  refine .next ?_
  dsimp only
  repeat' (first | with_reducible assumption | with_reducible refine State.Upholds.ite ?_ ?_
                 | with_reducible apply State.raise_upholds | split
                 | with_reducible refine State.Upholds.upd ?_ rfl rfl rfl rfl rfl rfl)

theorem execTimeStatus_upholds (t : Ten) (n : SlotIx) (s : State) (hu : s0.Upholds s) :
    Out.Upholds s0 (execTimeStatus t n s) := by
  unfold execTimeStatus
  refine command_upholds hu fun s hu => ?_
  dsimp only
  repeat' (first | with_reducible assumption | with_reducible refine State.Upholds.ite ?_ ?_
                 | with_reducible refine State.guard_upholds _ _ _ _ _ ?_ ?_
                 | with_reducible apply State.answer_upholds
                 | with_reducible refine State.Upholds.upd ?_ rfl rfl rfl rfl rfl rfl)

theorem execTimeRead_upholds (t : Ten) (n : SlotIx) (s : State) (hu : s0.Upholds s) :
    Out.Upholds s0 (execTimeRead t n s) := by
  unfold execTimeRead
  refine command_upholds hu fun s hu => ?_
  repeat' (first | with_reducible assumption | with_reducible apply State.answer_upholds)

theorem execTimeSessionOpen_upholds (t : Ten) (n : SlotIx) (s : State) (hu : s0.Upholds s) :
    Out.Upholds s0 (execTimeSessionOpen t n s) := by
  unfold execTimeSessionOpen
  refine commandBy_upholds hu fun s hu => ?_
  dsimp only
  repeat' (first | with_reducible assumption | with_reducible refine State.Upholds.ite ?_ ?_
                 | with_reducible refine State.guard_upholds _ _ _ _ _ ?_ ?_
                 | with_reducible apply State.openAnswer_upholds | with_reducible apply State.closeTime_upholds)

theorem execTimeSessionClose_upholds (t : Ten) (n : SlotIx) (s : State) (hu : s0.Upholds s) :
    Out.Upholds s0 (execTimeSessionClose t n s) := by
  unfold execTimeSessionClose
  refine command_upholds hu fun s hu => ?_
  repeat' (first | with_reducible assumption | with_reducible refine State.guard_upholds _ _ _ _ _ ?_ ?_
                 | with_reducible apply State.closeTime_upholds | with_reducible apply State.answer_upholds)

theorem execTimeStep_upholds (t : Ten) (n : SlotIx) (s : State) (hu : s0.Upholds s) :
    Out.Upholds s0 (execTimeStep t n s) := by
  unfold execTimeStep
  refine commandBy_upholds hu fun s hu => ?_
  dsimp only
  repeat' (first | with_reducible assumption | with_reducible refine State.Upholds.ite ?_ ?_
                 | with_reducible refine State.guard_upholds _ _ _ _ _ ?_ ?_ | with_reducible apply State.done_upholds
                 | with_reducible apply State.tenantStep_upholds | split)

theorem execTimeRate_upholds (t : Ten) (n : SlotIx) (s : State) (hu : s0.Upholds s) :
    Out.Upholds s0 (execTimeRate t n s) := by
  unfold execTimeRate
  refine command_upholds hu fun s hu => ?_
  dsimp only
  repeat' (first | with_reducible assumption | with_reducible refine State.Upholds.ite ?_ ?_
                 | with_reducible refine State.guard_upholds _ _ _ _ _ ?_ ?_ | with_reducible apply State.done_upholds
                 | with_reducible apply State.faultTime_upholds | split
                 | with_reducible refine State.Upholds.upd ?_ rfl rfl rfl rfl rfl rfl)

theorem execTimeCmpArm_upholds (t : Ten) (n : SlotIx) (s : State) (hu : s0.Upholds s) :
    Out.Upholds s0 (execTimeCmpArm t n s) := by
  unfold execTimeCmpArm
  refine command_upholds hu fun s hu => ?_
  dsimp only
  repeat' (first | with_reducible assumption | with_reducible refine State.Upholds.ite ?_ ?_
                 | with_reducible refine State.guard_upholds _ _ _ _ _ ?_ ?_ | with_reducible apply State.done_upholds
                 | with_reducible apply State.fireCmp_upholds | with_reducible apply State.answer_upholds | split
                 | with_reducible refine State.Upholds.upd ?_ rfl rfl rfl rfl rfl rfl)

theorem execTimeCmpCancel_upholds (t : Ten) (n : SlotIx) (s : State) (hu : s0.Upholds s) :
    Out.Upholds s0 (execTimeCmpCancel t n s) := by
  unfold execTimeCmpCancel
  refine command_upholds hu fun s hu => ?_
  dsimp only
  repeat' (first | with_reducible assumption | with_reducible refine State.Upholds.ite ?_ ?_
                 | with_reducible apply State.done_upholds | with_reducible apply State.answer_upholds | split
                 | with_reducible refine State.Upholds.upd ?_ rfl rfl rfl rfl rfl rfl)

theorem execTimeCalRead_upholds (t : Ten) (n : SlotIx) (s : State) (hu : s0.Upholds s) :
    Out.Upholds s0 (execTimeCalRead t n s) := by
  unfold execTimeCalRead
  refine command_upholds hu fun s hu => ?_
  dsimp only
  repeat' (first | with_reducible assumption | with_reducible refine State.Upholds.ite ?_ ?_
                 | with_reducible refine State.guard_upholds _ _ _ _ _ ?_ ?_ | with_reducible apply State.done_upholds
                 | with_reducible apply State.answer_upholds | split)

theorem execTimeZone_upholds (t : Ten) (n : SlotIx) (s : State) (hu : s0.Upholds s) :
    Out.Upholds s0 (execTimeZone t n s) := by
  unfold execTimeZone
  refine command_upholds hu fun s hu => ?_
  dsimp only
  repeat' (first | with_reducible assumption | with_reducible refine State.guard_upholds _ _ _ _ _ ?_ ?_
                 | with_reducible apply State.done_upholds
                 | with_reducible refine State.Upholds.upd ?_ rfl rfl rfl rfl rfl rfl)

theorem execTimeAlarm_upholds (t : Ten) (n : SlotIx) (s : State) (hu : s0.Upholds s) :
    Out.Upholds s0 (execTimeAlarm t n s) := by
  unfold execTimeAlarm
  refine commandBy_upholds hu fun s hu => ?_
  dsimp only
  repeat' (first | with_reducible assumption | with_reducible refine State.Upholds.ite ?_ ?_
                 | with_reducible refine State.guard_upholds _ _ _ _ _ ?_ ?_
                 | with_reducible apply State.setAlarm_upholds | with_reducible apply State.done_upholds
                 | with_reducible apply State.answer_upholds | split
                 | with_reducible refine State.Upholds.upd ?_ rfl rfl rfl rfl rfl rfl)

theorem execTimePps_upholds (t : Ten) (n : SlotIx) (s : State) (hu : s0.Upholds s) :
    Out.Upholds s0 (execTimePps t n s) := by
  unfold execTimePps
  refine commandBy_upholds hu fun s hu => ?_
  dsimp only
  repeat' (first | with_reducible assumption | with_reducible refine State.guard_upholds _ _ _ _ _ ?_ ?_
                 | with_reducible apply State.done_upholds
                 | with_reducible refine State.Upholds.upd ?_ rfl rfl rfl rfl rfl rfl)

theorem execTimeGridRef_upholds (t : Ten) (n : SlotIx) (s : State) (hu : s0.Upholds s) :
    Out.Upholds s0 (execTimeGridRef t n s) := by
  unfold execTimeGridRef
  refine commandBy_upholds hu fun s hu => ?_
  dsimp only
  repeat' (first | with_reducible assumption | with_reducible refine State.Upholds.ite ?_ ?_
                 | with_reducible refine State.guard_upholds _ _ _ _ _ ?_ ?_ | with_reducible apply State.done_upholds
                 | with_reducible refine State.Upholds.upd ?_ rfl rfl rfl rfl rfl rfl)

theorem execTimePulse_upholds (t : Ten) (n : SlotIx) (s : State) (hu : s0.Upholds s) :
    Out.Upholds s0 (execTimePulse t n s) := by
  unfold execTimePulse
  refine commandBy_upholds hu fun s hu => ?_
  dsimp only
  repeat' (first | with_reducible assumption | with_reducible refine State.Upholds.ite ?_ ?_
                 | with_reducible refine State.guard_upholds _ _ _ _ _ ?_ ?_ | with_reducible apply State.done_upholds
                 | with_reducible apply State.answer_upholds | with_reducible apply State.pulseArm_upholds
                 | with_reducible apply State.pulseHalt_upholds | split)

theorem execTimeCaptureCfg_upholds (t : Ten) (n : SlotIx) (s : State) (hu : s0.Upholds s) :
    Out.Upholds s0 (execTimeCaptureCfg t n s) := by
  unfold execTimeCaptureCfg
  refine command_upholds hu fun s hu => ?_
  dsimp only
  repeat' (first | with_reducible assumption | with_reducible refine State.guard_upholds _ _ _ _ _ ?_ ?_
                 | with_reducible apply State.done_upholds
                 | with_reducible refine State.Upholds.upd ?_ rfl rfl rfl rfl rfl rfl)

theorem execTimeCaptureRead_upholds (t : Ten) (n : SlotIx) (s : State) (hu : s0.Upholds s) :
    Out.Upholds s0 (execTimeCaptureRead t n s) := by
  unfold execTimeCaptureRead
  refine command_upholds hu fun s hu => ?_
  dsimp only
  repeat' (first | with_reducible assumption | with_reducible refine State.guard_upholds _ _ _ _ _ ?_ ?_
                 | with_reducible apply State.answer_upholds
                 | with_reducible refine State.Upholds.upd ?_ rfl rfl rfl rfl rfl rfl)

theorem execTimeConfig_upholds (t : Ten) (n : SlotIx) (s : State) (hu : s0.Upholds s) :
    Out.Upholds s0 (execTimeConfig t n s) := by
  unfold execTimeConfig
  refine command_upholds hu fun s hu => ?_
  dsimp only
  repeat' (first | with_reducible assumption | with_reducible refine State.Upholds.ite ?_ ?_
                 | with_reducible refine State.guard_upholds _ _ _ _ _ ?_ ?_
                 | with_reducible apply State.persisted_upholds | with_reducible apply State.done_upholds
                 | with_reducible refine State.Upholds.upd ?_ rfl rfl rfl rfl rfl rfl)

/-! ### Audio -/

theorem execAudioContainer_upholds (lane : Fin 2) (bytes : List Byte) (s : State) (hu : s0.Upholds s) :
    Out.Upholds s0 (execAudioContainer lane bytes s) := by
  unfold execAudioContainer
  refine tribRow_upholds hu fun s t b hu => ?_
  repeat' (first | with_reducible assumption | with_reducible refine State.Upholds.ite ?_ ?_
                 | with_reducible apply State.countDs_upholds | with_reducible apply State.annGap_upholds
                 | with_reducible refine State.Upholds.upd ?_ rfl rfl rfl rfl rfl rfl)

theorem execTpsContainer_upholds (lane : Fin 2) (bytes : List Byte) (s : State) (hu : s0.Upholds s) :
    Out.Upholds s0 (execTpsContainer lane bytes s) := by
  unfold execTpsContainer
  refine tribRow_upholds hu fun s t b hu => ?_
  dsimp only
  repeat' (first | with_reducible assumption | with_reducible refine State.Upholds.ite ?_ ?_
                 | with_reducible apply State.tpsTake_upholds | with_reducible apply State.modTps_upholds)

theorem execUpstreamTribClose_upholds (ttype : Byte) (s : State) (hu : s0.Upholds s) :
    Out.Upholds s0 (execUpstreamTribClose ttype s) := by
  unfold execUpstreamTribClose
  refine .next ?_
  dsimp only
  repeat' (first | with_reducible assumption | with_reducible refine State.Upholds.ite ?_ ?_
                 | with_reducible apply State.tribApply_upholds | with_reducible apply State.closeAudio_upholds
                 | with_reducible apply State.closeTpsFrame_upholds)

theorem execTpsRxdBit_upholds (port : Fin 2) (samples : BitVec 3) (s : State) (hu : s0.Upholds s) :
    Out.Upholds s0 (execTpsRxdBit port samples s) := by
  unfold execTpsRxdBit
  refine .next ?_
  repeat' (first | with_reducible assumption | with_reducible refine State.Upholds.ite ?_ ?_
                 | with_reducible apply State.modTps_upholds)

theorem execTpsTxdBitStart_upholds (port : Fin 2) (s : State) (hu : s0.Upholds s) :
    Out.Upholds s0 (execTpsTxdBitStart port s) := by
  unfold execTpsTxdBitStart
  refine .next ?_
  dsimp only
  repeat' (first | with_reducible assumption | with_reducible refine State.Upholds.ite ?_ ?_
                 | with_reducible apply State.modTps_upholds | with_reducible apply State.emit_upholds | split)

theorem execSampleBoundary_upholds (port : Fin 3) (pair : List Byte) (parity invalid : BitVec 2) (s : State) (hu : s0.Upholds s) :
    Out.Upholds s0 (execSampleBoundary port pair parity invalid s) := by
  unfold execSampleBoundary
  refine .next ?_
  repeat' (first | with_reducible assumption | with_reducible refine State.Upholds.ite ?_ ?_
                 | with_reducible apply State.inPair_upholds | with_reducible apply State.noPair_upholds
                 | with_reducible apply State.outSample_upholds)

theorem execAudioBlockBoundary_upholds (monitor : Bool) (s : State) (hu : s0.Upholds s) :
    Out.Upholds s0 (execAudioBlockBoundary monitor s) := by
  unfold execAudioBlockBoundary
  refine .next ?_
  dsimp only
  repeat' (first | with_reducible assumption | with_reducible refine State.Upholds.ite ?_ ?_
                 | with_reducible apply State.raise_upholds | with_reducible apply State.blockStarts_upholds
                 | with_reducible refine State.Upholds.upd ?_ rfl rfl rfl rfl rfl rfl)

theorem execAudioStartBoundary_upholds (port : Fin 3) (s : State) (hu : s0.Upholds s) :
    Out.Upholds s0 (execAudioStartBoundary port s) := by
  unfold execAudioStartBoundary
  refine .next ?_
  repeat' (first | with_reducible assumption | with_reducible refine State.Upholds.ite ?_ ?_
                 | with_reducible apply State.reachTt_upholds | with_reducible apply State.startPort_upholds | split)

theorem execAudioStopBoundary_upholds (port : Fin 3) (s : State) (hu : s0.Upholds s) :
    Out.Upholds s0 (execAudioStopBoundary port s) := by
  unfold execAudioStopBoundary
  refine .next ?_
  repeat' (first | with_reducible assumption | with_reducible refine State.Upholds.ite ?_ ?_
                 | with_reducible apply State.retryAuto_upholds | with_reducible apply State.reachTt_upholds
                 | with_reducible apply State.stopPort_upholds | split)

theorem execGateTimeout_upholds (port : Fin 3) (s : State) (hu : s0.Upholds s) :
    Out.Upholds s0 (execGateTimeout port s) := by
  unfold execGateTimeout
  refine .next ?_
  repeat' (first | with_reducible assumption | with_reducible apply State.reach_upholds
                 | with_reducible apply State.gateTimeout_upholds | split)

theorem execAudioInputLock_upholds (apart : Nat) (ppm : Int) (s : State) (hu : s0.Upholds s) :
    Out.Upholds s0 (execAudioInputLock apart ppm s) := by
  unfold execAudioInputLock
  refine .next ?_
  repeat' (first | with_reducible assumption | with_reducible refine State.Upholds.ite ?_ ?_
                 | with_reducible refine State.Upholds.upd ?_ rfl rfl rfl rfl rfl rfl)

theorem execAudioInputLoss_upholds (bad : Nat) (ppm : Int) (ns : Nat) (s : State) (hu : s0.Upholds s) :
    Out.Upholds s0 (execAudioInputLoss bad ppm ns s) := by
  unfold execAudioInputLoss
  refine .next ?_
  repeat' (first | with_reducible assumption | with_reducible refine State.Upholds.ite ?_ ?_
                 | with_reducible refine State.Upholds.upd ?_ rfl rfl rfl rfl rfl rfl)

theorem execAudioInputBlock_upholds (cs : List Byte) (s : State) (hu : s0.Upholds s) :
    Out.Upholds s0 (execAudioInputBlock cs s) := by
  unfold execAudioInputBlock
  refine .next ?_
  dsimp only
  repeat' (first | with_reducible assumption | with_reducible refine State.Upholds.ite ?_ ?_
                 | with_reducible refine State.Upholds.upd ?_ rfl rfl rfl rfl rfl rfl)

theorem execAudioStatus_upholds (t : Ten) (n : SlotIx) (s : State) (hu : s0.Upholds s) :
    Out.Upholds s0 (execAudioStatus t n s) := by
  unfold execAudioStatus
  refine command_upholds hu fun s hu => ?_
  dsimp only
  repeat' (first | with_reducible assumption | with_reducible refine State.Upholds.ite ?_ ?_
                 | with_reducible refine State.guard_upholds _ _ _ _ _ ?_ ?_
                 | with_reducible apply State.answer_upholds
                 | with_reducible refine State.Upholds.upd ?_ rfl rfl rfl rfl rfl rfl)

theorem execAudioConfig_upholds (t : Ten) (n : SlotIx) (s : State) (hu : s0.Upholds s) :
    Out.Upholds s0 (execAudioConfig t n s) := by
  unfold execAudioConfig
  refine command_upholds hu fun s hu => ?_
  dsimp only
  repeat' (first | with_reducible assumption | with_reducible refine State.Upholds.ite ?_ ?_
                 | with_reducible refine State.guard_upholds _ _ _ _ _ ?_ ?_
                 | with_reducible apply State.persisted_upholds | with_reducible apply State.done_upholds
                 | with_reducible refine State.Upholds.upd ?_ rfl rfl rfl rfl rfl rfl)

theorem execAudioPort_upholds (t : Ten) (n : SlotIx) (s : State) (hu : s0.Upholds s) :
    Out.Upholds s0 (execAudioPort t n s) := by
  unfold execAudioPort
  refine commandBy_upholds hu fun s hu => ?_
  dsimp only
  repeat' (first | with_reducible assumption | with_reducible refine State.Upholds.ite ?_ ?_
                 | with_reducible refine State.guard_upholds _ _ _ _ _ ?_ ?_
                 | with_reducible apply State.modPort_upholds | with_reducible apply State.persisted_upholds
                 | with_reducible apply State.done_upholds
                 | with_reducible refine State.Upholds.upd ?_ rfl rfl rfl rfl rfl rfl)

theorem execAudioOpen_upholds (t : Ten) (n : SlotIx) (s : State) (hu : s0.Upholds s) :
    Out.Upholds s0 (execAudioOpen t n s) := by
  unfold execAudioOpen
  refine commandBy_upholds hu fun s hu => ?_
  dsimp only
  repeat' (first | with_reducible assumption | with_reducible refine State.Upholds.ite ?_ ?_
                 | with_reducible refine State.guard_upholds _ _ _ _ _ ?_ ?_
                 | with_reducible apply State.retryAuto_upholds | with_reducible apply State.answer_upholds
                 | with_reducible apply State.closePort_upholds | with_reducible apply State.withAud_upholds
                 | with_reducible apply State.openPort_upholds)

theorem execAudioSchedule_upholds (t : Ten) (n : SlotIx) (s : State) (hu : s0.Upholds s) :
    Out.Upholds s0 (execAudioSchedule t n s) := by
  unfold execAudioSchedule
  refine commandBy_upholds hu fun s hu => ?_
  dsimp only
  repeat' (first | with_reducible assumption | with_reducible refine State.Upholds.ite ?_ ?_
                 | with_reducible refine State.guard_upholds _ _ _ _ _ ?_ ?_
                 | with_reducible apply State.schedStart_upholds | with_reducible apply State.done_upholds
                 | with_reducible apply State.haltPort_upholds | split)

theorem execTpsStatus_upholds (t : Ten) (n : SlotIx) (s : State) (hu : s0.Upholds s) :
    Out.Upholds s0 (execTpsStatus t n s) := by
  unfold execTpsStatus
  refine command_upholds hu fun s hu => ?_
  dsimp only
  repeat' (first | with_reducible assumption | with_reducible refine State.Upholds.ite ?_ ?_
                 | with_reducible refine State.guard_upholds _ _ _ _ _ ?_ ?_
                 | with_reducible apply State.modTps_upholds | with_reducible apply State.answer_upholds)

theorem execTpsSchedule_upholds (t : Ten) (n : SlotIx) (s : State) (hu : s0.Upholds s) :
    Out.Upholds s0 (execTpsSchedule t n s) := by
  unfold execTpsSchedule
  refine commandBy_upholds hu fun s hu => ?_
  dsimp only
  repeat' (first | with_reducible assumption | with_reducible refine State.Upholds.ite ?_ ?_
                 | with_reducible refine State.guard_upholds _ _ _ _ _ ?_ ?_
                 | with_reducible apply State.retryAuto_upholds | with_reducible apply State.tpsStart_upholds
                 | with_reducible apply State.done_upholds | with_reducible apply State.tpsHalt_upholds | split)

/-! ### Mailbox -/

theorem execSpiStatusRead_upholds (port : Fin 4) (sent : List Byte) (clocks : Nat) (s : State) (hu : s0.Upholds s) :
    Out.Upholds s0 (execSpiStatusRead port sent clocks s) := by
  unfold execSpiStatusRead
  refine .next ?_
  repeat' (first | with_reducible assumption | with_reducible refine State.Upholds.ite ?_ ?_
                 | with_reducible apply State.spiTransaction_upholds)

theorem execMbxStatusRead_upholds (via : Via) (s : State) (hu : s0.Upholds s) :
    Out.Upholds s0 (execMbxStatusRead via s) := by
  unfold execMbxStatusRead
  refine .next ?_
  repeat' (first | with_reducible assumption | with_reducible refine State.Upholds.ite ?_ ?_
                 | with_reducible apply State.viaRead_upholds)

theorem execMbxStatusClear_upholds (via : Via) (value : Word) (s : State) (hu : s0.Upholds s) :
    Out.Upholds s0 (execMbxStatusClear via value s) := by
  unfold execMbxStatusClear
  refine .next ?_
  repeat' (first | with_reducible assumption | with_reducible refine State.Upholds.ite ?_ ?_
                 | with_reducible apply State.viaWrite_upholds)

theorem execDoorbell_upholds (via : Via) (value : Word) (s : State) (hu : s0.Upholds s) :
    Out.Upholds s0 (execDoorbell via value s) := by
  unfold execDoorbell
  refine .next ?_
  repeat' (first | with_reducible assumption | with_reducible refine State.Upholds.ite ?_ ?_
                 | with_reducible apply State.viaWrite_upholds)

theorem execResultAck_upholds (via : Via) (value : Word) (s : State) (hu : s0.Upholds s) :
    Out.Upholds s0 (execResultAck via value s) := by
  unfold execResultAck
  refine .next ?_
  repeat' (first | with_reducible assumption | with_reducible refine State.Upholds.ite ?_ ?_
                 | with_reducible apply State.viaWrite_upholds)

theorem execResultSlotRead_upholds (via : Via) (slot : SlotIx) (s : State) (hu : s0.Upholds s) :
    Out.Upholds s0 (execResultSlotRead via slot s) := by
  unfold execResultSlotRead
  refine .next ?_
  repeat' (first | with_reducible assumption | with_reducible refine State.Upholds.ite ?_ ?_
                 | with_reducible apply State.viaRead_upholds)

theorem execEvtTail_upholds (via : Via) (value : Word) (s : State) (hu : s0.Upholds s) :
    Out.Upholds s0 (execEvtTail via value s) := by
  unfold execEvtTail
  refine .next ?_
  repeat' (first | with_reducible assumption | with_reducible refine State.Upholds.ite ?_ ?_
                 | with_reducible apply State.viaWrite_upholds)

theorem execBulkBase_upholds (via : Via) (value : Word) (s : State) (hu : s0.Upholds s) :
    Out.Upholds s0 (execBulkBase via value s) := by
  unfold execBulkBase
  refine .next ?_
  repeat' (first | with_reducible assumption | with_reducible refine State.Upholds.ite ?_ ?_
                 | with_reducible apply State.viaWrite_upholds)

theorem execHeartbeat_upholds (via : Via) (value : Word) (s : State) (hu : s0.Upholds s) :
    Out.Upholds s0 (execHeartbeat via value s) := by
  unfold execHeartbeat
  refine .next ?_
  repeat' (first | with_reducible assumption | with_reducible refine State.Upholds.ite ?_ ?_
                 | with_reducible apply State.viaWrite_upholds)

theorem execBulkApertureAccess_upholds (via : Via) (access : Aperture) (s : State) (hu : s0.Upholds s) :
    Out.Upholds s0 (execBulkApertureAccess via access s) := by
  unfold execBulkApertureAccess
  refine .next ?_
  repeat' (first | with_reducible assumption | with_reducible refine State.Upholds.ite ?_ ?_
                 | with_reducible apply State.viaRead_upholds | with_reducible apply State.viaWrite_upholds | split)

theorem execRegisterWrite_upholds (via : Via) (off : Nat) (data : List Byte) (s : State) (hu : s0.Upholds s) :
    Out.Upholds s0 (execRegisterWrite via off data s) := by
  unfold execRegisterWrite
  refine .next ?_
  repeat' (first | with_reducible assumption | with_reducible refine State.Upholds.ite ?_ ?_
                 | with_reducible apply State.viaWrite_upholds)

theorem execWriteBufferDrain_upholds (port : Fin 4) (s : State) (hu : s0.Upholds s) :
    Out.Upholds s0 (execWriteBufferDrain port s) := by
  unfold execWriteBufferDrain
  refine .next ?_
  repeat' (first | with_reducible assumption | with_reducible apply State.drainAll_upholds)

theorem execInbandMbxFrame_upholds (lane : Fin 2) (src payload : List Byte) (s : State) (hu : s0.Upholds s) :
    Out.Upholds s0 (execInbandMbxFrame lane src payload s) := by
  unfold execInbandMbxFrame
  extract_lets t s1 x seq ahead
  have dropped : ∀ y, s0.Upholds y → s0.Upholds (y.ibDrop lane) := fun y => State.ibDrop_upholds _ _
  have used : s0.Upholds s1 := State.firmUse_upholds _ _ hu
  refine .next (.ite hu (.ite (dropped _ hu) (.ite (State.macSend_upholds _ _ _ used) (.ite ?_ (dropped _ used)))))
  split
  · next resp s2 served =>
    exact State.macSend_upholds _ _ _ (State.modTen_upholds _ _ _ (State.ibServe_upholds _ _ _ used served))
  · exact dropped _ used

theorem execNoticeFrameRepeat_upholds (t : Ten) (s : State) (hu : s0.Upholds s) :
    Out.Upholds s0 (execNoticeFrameRepeat t s) := by
  unfold execNoticeFrameRepeat
  refine .next ?_
  dsimp only
  repeat' (first | with_reducible assumption | with_reducible refine State.Upholds.ite ?_ ?_
                 | with_reducible apply State.reach_upholds | with_reducible apply State.sendNotice_upholds
                 | with_reducible apply State.modTen_upholds | split)

theorem execAttachReq_upholds (lane : Fin 2) (dst src payload : List Byte) (s : State) (hu : s0.Upholds s) :
    Out.Upholds s0 (execAttachReq lane dst src payload s) := by
  unfold execAttachReq
  refine .next ?_
  dsimp only
  repeat' (first | with_reducible assumption | with_reducible refine State.Upholds.ite ?_ ?_
                 | with_reducible apply State.attDrop_upholds | with_reducible apply State.attachFail_upholds
                 | with_reducible apply State.drawn_upholds | with_reducible apply State.modTen_upholds
                 | with_reducible apply State.macSend_upholds
                 | with_reducible refine State.Upholds.upd ?_ rfl rfl rfl rfl rfl rfl)

theorem execAttachConf_upholds (lane : Fin 2) (src payload : List Byte) (s : State) (hu : s0.Upholds s) :
    Out.Upholds s0 (execAttachConf lane src payload s) := by
  unfold execAttachConf
  refine .next ?_
  dsimp only
  repeat' (first | with_reducible assumption | with_reducible refine State.Upholds.ite ?_ ?_
                 | with_reducible apply State.attDrop_upholds | with_reducible apply State.attachFail_upholds
                 | with_reducible apply State.resetNow_upholds | with_reducible apply State.openSession_upholds
                 | with_reducible apply State.modTen_upholds | with_reducible apply State.setEntry_upholds
                 | with_reducible apply State.firmUse_upholds | with_reducible apply State.macSend_upholds | split)

theorem execAttachLockoutEnd_upholds (t : Ten) (s : State) (hu : s0.Upholds s) :
    Out.Upholds s0 (execAttachLockoutEnd t s) := by
  unfold execAttachLockoutEnd
  refine .next ?_
  repeat' (first | with_reducible assumption | with_reducible apply State.reach_upholds
                 | with_reducible apply State.modTen_upholds | split)

theorem execCommandStart_upholds (t : Ten) (n : SlotIx) (s : State) (hu : s0.Upholds s) :
    Out.Upholds s0 (execCommandStart t n s) := by
  unfold execCommandStart
  refine .next ?_
  repeat' (first | with_reducible assumption | with_reducible refine State.Upholds.ite ?_ ?_
                 | with_reducible apply State.startCommand_upholds | with_reducible apply State.visited_upholds)

theorem execCommandTimeout_upholds (t : Ten) (n : SlotIx) (s : State) (hu : s0.Upholds s) :
    Out.Upholds s0 (execCommandTimeout t n s) := by
  unfold execCommandTimeout
  refine .next ?_
  dsimp only
  repeat' (first | with_reducible assumption | with_reducible refine State.Upholds.ite ?_ ?_
                 | with_reducible apply State.reach_upholds | with_reducible apply State.modSlot_upholds
                 | with_reducible apply State.askStop_upholds | split)

theorem execSysAbort_upholds (t : Ten) (n : SlotIx) (s : State) (hu : s0.Upholds s) :
    Out.Upholds s0 (execSysAbort t n s) := by
  unfold execSysAbort
  refine command_upholds hu fun s hu => ?_
  dsimp only
  repeat' (first | with_reducible assumption | with_reducible refine State.Upholds.ite ?_ ?_
                 | with_reducible apply State.done_upholds | with_reducible apply State.stopWaiting_upholds
                 | with_reducible apply State.modSlot_upholds | with_reducible apply State.firnSweep_upholds
                 | with_reducible apply State.sweepInject_upholds | split)

theorem execCoreWatchdogExpiry_upholds (core : Fin 2) (s : State) (hu : s0.Upholds s) :
    Out.Upholds s0 (execCoreWatchdogExpiry core s) := by
  unfold execCoreWatchdogExpiry
  refine .next ?_
  dsimp only
  repeat' (first | with_reducible assumption | with_reducible refine State.Upholds.ite ?_ ?_
                 | with_reducible apply State.expiryInReset_upholds | with_reducible apply State.chipReset_upholds
                 | with_reducible apply State.cc0Down_upholds | with_reducible apply State.settleThaw_upholds
                 | with_reducible apply State.leaveToCc0_upholds | with_reducible apply State.cc1Down_upholds
                 | with_reducible refine State.Upholds.upd ?_ rfl rfl rfl rfl rfl rfl)

theorem execHeartbeatDeadline_upholds (t : Ten) (s : State) (hu : s0.Upholds s) :
    Out.Upholds s0 (execHeartbeatDeadline t s) := by
  unfold execHeartbeatDeadline
  refine .next ?_
  repeat' (first | with_reducible assumption | with_reducible refine State.Upholds.ite ?_ ?_
                 | with_reducible apply State.reach_upholds | with_reducible apply State.fault_upholds | split)

theorem execDelegationExpiry_upholds (s : State) (hu : s0.Upholds s) :
    Out.Upholds s0 (execDelegationExpiry s) := by
  unfold execDelegationExpiry
  refine .next ?_
  repeat' (first | with_reducible assumption | with_reducible apply State.reach_upholds
                 | with_reducible apply State.endDelegation_upholds | split)

theorem execRescueResidueDone_upholds (s : State) (hu : s0.Upholds s) :
    Out.Upholds s0 (execRescueResidueDone s) := by
  unfold execRescueResidueDone
  refine .next ?_
  repeat' (first | with_reducible assumption | with_reducible refine State.Upholds.ite ?_ ?_
                 | with_reducible apply State.serveResidue_upholds)

theorem execCoreRestartDone_upholds (core : Fin 2) (s : State) (hu : s0.Upholds s) :
    Out.Upholds s0 (execCoreRestartDone core s) := by
  unfold execCoreRestartDone
  refine .next ?_
  repeat' (first | with_reducible assumption | with_reducible refine State.Upholds.ite ?_ ?_
                 | with_reducible apply State.abortSlots_upholds | with_reducible apply State.serveResidue_upholds
                 | with_reducible apply State.startJobs_upholds | with_reducible apply State.acceptHeld_upholds
                 | with_reducible apply State.cc1Back_upholds
                 | with_reducible refine State.Upholds.upd ?_ rfl rfl rfl rfl rfl rfl)

/-! ### Boot -/

theorem execBoot_upholds (s : State) (hu : s0.Upholds s) :
    Out.Upholds s0 (execBoot s) := by
  unfold execBoot
  extract_lets s2
  have h2 : s0.Upholds s2 := State.romStart_upholds _ hu
  have h3 := State.select_upholds s2.candidates s2 h2
  refine .next (.ite hu (.ite (State.enterRecovery_upholds _ h2) ?_))
  split
  · next x i skipped chosen =>
    rw [chosen] at h3
    exact State.startFirmware_upholds _ _ _ h3
  · next x skipped chosen =>
    rw [chosen] at h3
    exact State.enterRecovery_upholds _ h3

theorem execRomWatchdogExpiry_upholds (s : State) (hu : s0.Upholds s) :
    Out.Upholds s0 (execRomWatchdogExpiry s) := by
  unfold execRomWatchdogExpiry
  refine .next ?_
  repeat' (first | with_reducible assumption | with_reducible refine State.Upholds.ite ?_ ?_
                 | with_reducible apply State.reach_upholds | with_reducible apply State.bootTimeout_upholds)

theorem execMbxReadyTimeout_upholds (s : State) (hu : s0.Upholds s) :
    Out.Upholds s0 (execMbxReadyTimeout s) := by
  unfold execMbxReadyTimeout
  refine .next ?_
  repeat' (first | with_reducible assumption | with_reducible refine State.Upholds.ite ?_ ?_
                 | with_reducible apply State.reach_upholds | with_reducible apply State.bootTimeout_upholds)

theorem execRstNLow_upholds (ns : Nat) (s : State) (hu : s0.Upholds s) :
    Out.Upholds s0 (execRstNLow ns s) := by
  unfold execRstNLow
  refine .next ?_
  dsimp only
  repeat' (first | with_reducible assumption | with_reducible refine State.Upholds.ite ?_ ?_
                 | with_reducible apply State.chipReset_upholds | with_reducible apply State.freed_upholds
                 | with_reducible refine State.Upholds.upd ?_ rfl rfl rfl rfl rfl rfl)

theorem execRstNRelease_upholds (gpio0 : Bool) (s : State) (hu : s0.Upholds s) :
    Out.Upholds s0 (execRstNRelease gpio0 s) := by
  unfold execRstNRelease
  refine .next ?_
  dsimp only
  repeat' (first | with_reducible assumption | with_reducible refine State.Upholds.ite ?_ ?_
                 | with_reducible apply State.startChip_upholds
                 | with_reducible refine State.Upholds.upd ?_ rfl rfl rfl rfl rfl rfl)

theorem execDomainResetStart_upholds (s : State) (hu : s0.Upholds s) :
    Out.Upholds s0 (execDomainResetStart s) := by
  unfold execDomainResetStart
  refine .next ?_
  dsimp only
  repeat' (first | with_reducible assumption | with_reducible refine State.Upholds.ite ?_ ?_ | (intro _ _ _)
                 | with_reducible refine State.Upholds.foldl ?_ ?_ | with_reducible apply State.reach_upholds
                 | with_reducible apply State.freeLease_upholds | with_reducible apply State.powerOff_upholds
                 | with_reducible apply State.wakeDomains_upholds | split
                 | with_reducible refine State.Upholds.upd ?_ rfl rfl rfl rfl rfl rfl)

theorem execSysIdentify_upholds (t : Ten) (n : SlotIx) (s : State) (hu : s0.Upholds s) :
    Out.Upholds s0 (execSysIdentify t n s) := by
  unfold execSysIdentify
  refine command_upholds hu fun s hu => ?_
  repeat' (first | with_reducible assumption | with_reducible apply State.answer_upholds)

theorem execSysBlockStatus_upholds (t : Ten) (n : SlotIx) (s : State) (hu : s0.Upholds s) :
    Out.Upholds s0 (execSysBlockStatus t n s) := by
  unfold execSysBlockStatus
  refine command_upholds hu fun s hu => ?_
  repeat' (first | with_reducible assumption | with_reducible apply State.answer_upholds)

theorem execSysReset_upholds (t : Ten) (n : SlotIx) (s : State) (hu : s0.Upholds s) :
    Out.Upholds s0 (execSysReset t n s) := by
  unfold execSysReset
  refine command_upholds hu fun s hu => ?_
  dsimp only
  repeat' (first | with_reducible assumption | with_reducible refine State.Upholds.ite ?_ ?_
                 | with_reducible refine State.guard_upholds _ _ _ _ _ ?_ ?_ | with_reducible apply State.done_upholds
                 | with_reducible apply State.sendDeregNotice_upholds | with_reducible apply State.acceptEntry_upholds
                 | with_reducible apply State.chipReset_upholds
                 | with_reducible refine State.Upholds.upd ?_ rfl rfl rfl rfl rfl rfl)

theorem execSysResetCause_upholds (t : Ten) (n : SlotIx) (s : State) (hu : s0.Upholds s) :
    Out.Upholds s0 (execSysResetCause t n s) := by
  unfold execSysResetCause
  refine command_upholds hu fun s hu => ?_
  repeat' (first | with_reducible assumption | with_reducible apply State.answer_upholds)

theorem execSysImageStatus_upholds (t : Ten) (n : SlotIx) (s : State) (hu : s0.Upholds s) :
    Out.Upholds s0 (execSysImageStatus t n s) := by
  unfold execSysImageStatus
  refine command_upholds hu fun s hu => ?_
  repeat' (first | with_reducible assumption | with_reducible apply State.answer_upholds)

theorem execSysImageCommit_upholds (t : Ten) (n : SlotIx) (s : State) (hu : s0.Upholds s) :
    Out.Upholds s0 (execSysImageCommit t n s) := by
  unfold execSysImageCommit
  refine command_upholds hu fun s hu => ?_
  dsimp only
  repeat' (first | with_reducible assumption | with_reducible refine State.guard_upholds _ _ _ _ _ ?_ ?_
                 | with_reducible apply State.commitImage_upholds | with_reducible apply State.answer_upholds | split)

theorem execDiagPads_upholds (t : Ten) (n : SlotIx) (s : State) (hu : s0.Upholds s) :
    Out.Upholds s0 (execDiagPads t n s) := by
  unfold execDiagPads
  refine command_upholds hu fun s hu => ?_
  dsimp only
  repeat' (first | with_reducible assumption | with_reducible apply State.answer_upholds)

theorem execRcvStart_upholds (s : State) (hu : s0.Upholds s) :
    Out.Upholds s0 (execRcvStart s) := by
  refine .next (State.inRecovery_upholds _ _ hu fun s hu => ?_)
  exact .ite hu (.ite (.upd hu rfl rfl rfl rfl rfl rfl) (.upd hu rfl rfl rfl rfl rfl rfl))

theorem execRcvChunk_upholds (s : State) (hu : s0.Upholds s) :
    Out.Upholds s0 (execRcvChunk s) := by
  refine .next (State.inRecovery_upholds _ _ hu fun s hu => ?_)
  exact .ite hu (.ite (.upd hu rfl rfl rfl rfl rfl rfl) (.ite (.upd hu rfl rfl rfl rfl rfl rfl)
    (.upd hu rfl rfl rfl rfl rfl rfl)))

theorem execRcvFinish_upholds (s : State) (hu : s0.Upholds s) :
    Out.Upholds s0 (execRcvFinish s) := by
  refine .next (State.inRecovery_upholds _ _ hu fun s hu => ?_)
  exact .ite (.upd hu rfl rfl rfl rfl rfl rfl) hu

theorem execRcvReboot_upholds (s : State) (hu : s0.Upholds s) :
    Out.Upholds s0 (execRcvReboot s) := by
  refine .next (State.inRecovery_upholds _ _ hu fun s hu => ?_)
  exact State.chipReset_upholds _ _ _ hu

theorem execRecoveryVerified_upholds (s : State) (hu : s0.Upholds s) :
    Out.Upholds s0 (execRecoveryVerified s) := by
  unfold execRecoveryVerified
  refine .next (.ite hu (.ite ?_ (.upd hu rfl rfl rfl rfl rfl rfl)))
  exact hu.change (Nat.le_refl _) (Nat.le_refl _) fun m => ⟨m.sram, Memory.canon_clear m.ens _ _, m.buf, m.work⟩

theorem execRecoveryWritten_upholds (ok : Bool) (s : State) (hu : s0.Upholds s) :
    Out.Upholds s0 (execRecoveryWritten ok s) := by
  unfold execRecoveryWritten
  refine .next (.ite hu (.ite ?_ (.upd hu rfl rfl rfl rfl rfl rfl)))
  exact .upd (State.writeLines_upholds _ _ _ _ hu) rfl (Icb.put_minSvn _ _ _) rfl rfl rfl rfl

/-! ### Clock -/

theorem execPllaLossOfLock_upholds (s : State) (hu : s0.Upholds s) :
    Out.Upholds s0 (execPllaLossOfLock s) := by
  unfold execPllaLossOfLock
  refine .next ?_
  repeat' (first | with_reducible assumption | with_reducible refine State.Upholds.ite ?_ ?_
                 | with_reducible apply State.coast_upholds
                 | with_reducible refine State.Upholds.upd ?_ rfl rfl rfl rfl rfl rfl)

theorem execLossOfReference_upholds (edges : Nat) (s : State) (hu : s0.Upholds s) :
    Out.Upholds s0 (execLossOfReference edges s) := by
  unfold execLossOfReference
  refine .next ?_
  dsimp only
  repeat' (first | with_reducible assumption | with_reducible refine State.Upholds.ite ?_ ?_
                 | with_reducible apply State.coast_upholds
                 | with_reducible refine State.Upholds.upd ?_ rfl rfl rfl rfl rfl rfl)

theorem execXtalFault_upholds (s : State) (hu : s0.Upholds s) :
    Out.Upholds s0 (execXtalFault s) := by
  unfold execXtalFault
  refine .next ?_
  repeat' (first | with_reducible assumption | with_reducible apply State.timeXtalFault_upholds
                 | with_reducible apply State.aoAssert_upholds
                 | with_reducible refine State.Upholds.upd ?_ rfl rfl rfl rfl rfl rfl)

theorem execPllaLockAcquired_upholds (s : State) (hu : s0.Upholds s) :
    Out.Upholds s0 (execPllaLockAcquired s) := by
  unfold execPllaLockAcquired
  refine .next ?_
  dsimp only
  repeat' (first | with_reducible assumption | with_reducible refine State.Upholds.ite ?_ ?_ | (intro _ _ _)
                 | with_reducible refine State.Upholds.foldl ?_ ?_ | with_reducible apply State.lolHeld_upholds
                 | with_reducible apply State.setDom_upholds | with_reducible apply State.answer_upholds
                 | with_reducible apply State.coast_upholds | split
                 | with_reducible refine State.Upholds.upd ?_ rfl rfl rfl rfl rfl rfl)

theorem execRefclkQualified_upholds (s : State) (hu : s0.Upholds s) :
    Out.Upholds s0 (execRefclkQualified s) := by
  unfold execRefclkQualified
  refine .next ?_
  dsimp only
  repeat' (first | with_reducible assumption | with_reducible refine State.Upholds.ite ?_ ?_
                 | with_reducible apply State.coast_upholds
                 | with_reducible refine State.Upholds.upd ?_ rfl rfl rfl rfl rfl rfl)

theorem execRelockTimeout_upholds (s : State) (hu : s0.Upholds s) :
    Out.Upholds s0 (execRelockTimeout s) := by
  unfold execRelockTimeout
  refine .next ?_
  repeat' (first | with_reducible assumption | with_reducible apply State.reach_upholds
                 | with_reducible apply State.startRelock_upholds | split)

theorem execLockSearchAttemptTimeout_upholds (s : State) (hu : s0.Upholds s) :
    Out.Upholds s0 (execLockSearchAttemptTimeout s) := by
  unfold execLockSearchAttemptTimeout
  refine .next ?_
  dsimp only
  repeat' (first | with_reducible assumption | with_reducible refine State.Upholds.ite ?_ ?_
                 | with_reducible apply State.reach_upholds | with_reducible apply State.done_upholds | split
                 | with_reducible refine State.Upholds.upd ?_ rfl rfl rfl rfl rfl rfl)

theorem execRelockRetry_upholds (s : State) (hu : s0.Upholds s) :
    Out.Upholds s0 (execRelockRetry s) := by
  unfold execRelockRetry
  refine .next ?_
  repeat' (first | with_reducible assumption | with_reducible apply State.reach_upholds
                 | with_reducible apply State.search_upholds | split)

theorem execDpllMeasurement_upholds (df : Int) (s : State) (hu : s0.Upholds s) :
    Out.Upholds s0 (execDpllMeasurement df s) := by
  unfold execDpllMeasurement
  refine .next ?_
  dsimp only
  repeat' (first | with_reducible assumption | with_reducible refine State.Upholds.ite ?_ ?_
                 | with_reducible apply State.dpllTrack_upholds | with_reducible apply State.fromNextMap_upholds
                 | with_reducible apply State.dpllJump_upholds | with_reducible apply State.dpllAcquire_upholds
                 | split | with_reducible refine State.Upholds.upd ?_ rfl rfl rfl rfl rfl rfl)

theorem execDpllTrackUpdate_upholds (phase : Int) (s : State) (hu : s0.Upholds s) :
    Out.Upholds s0 (execDpllTrackUpdate phase s) := by
  unfold execDpllTrackUpdate
  refine .next ?_
  dsimp only
  repeat' (first | with_reducible assumption | with_reducible refine State.Upholds.ite ?_ ?_
                 | with_reducible apply State.freed_upholds
                 | with_reducible refine State.Upholds.upd ?_ rfl rfl rfl rfl rfl rfl)

theorem execClockStatus_upholds (t : Ten) (n : SlotIx) (s : State) (hu : s0.Upholds s) :
    Out.Upholds s0 (execClockStatus t n s) := by
  unfold execClockStatus
  refine command_upholds hu fun s hu => ?_
  dsimp only
  repeat' (first | with_reducible assumption | with_reducible refine State.Upholds.ite ?_ ?_
                 | with_reducible refine State.guard_upholds _ _ _ _ _ ?_ ?_
                 | with_reducible apply State.answer_upholds
                 | with_reducible refine State.Upholds.upd ?_ rfl rfl rfl rfl rfl rfl)

theorem execClockBandRead_upholds (t : Ten) (n : SlotIx) (s : State) (hu : s0.Upholds s) :
    Out.Upholds s0 (execClockBandRead t n s) := by
  unfold execClockBandRead
  refine command_upholds hu fun s hu => ?_
  dsimp only
  repeat' (first | with_reducible assumption | with_reducible refine State.guard_upholds _ _ _ _ _ ?_ ?_
                 | with_reducible apply State.answer_upholds)

theorem execClockBandWrite_upholds (t : Ten) (n : SlotIx) (s : State) (hu : s0.Upholds s) :
    Out.Upholds s0 (execClockBandWrite t n s) := by
  unfold execClockBandWrite
  refine commandBy_upholds hu fun s hu => ?_
  dsimp only
  repeat' (first | with_reducible assumption | with_reducible refine State.Upholds.ite ?_ ?_
                 | with_reducible refine State.guard_upholds _ _ _ _ _ ?_ ?_
                 | with_reducible apply State.updateEnded_upholds | with_reducible apply State.done_upholds
                 | with_reducible refine State.Upholds.upd ?_ rfl rfl rfl rfl rfl rfl)

theorem execClockDither_upholds (t : Ten) (n : SlotIx) (s : State) (hu : s0.Upholds s) :
    Out.Upholds s0 (execClockDither t n s) := by
  unfold execClockDither
  refine command_upholds hu fun s hu => ?_
  dsimp only
  repeat' (first | with_reducible assumption | with_reducible refine State.Upholds.ite ?_ ?_
                 | with_reducible refine State.guard_upholds _ _ _ _ _ ?_ ?_
                 | with_reducible apply State.persisted_upholds | with_reducible apply State.done_upholds
                 | with_reducible refine State.Upholds.upd ?_ rfl rfl rfl rfl rfl rfl)

theorem execClockDpllConfig_upholds (t : Ten) (n : SlotIx) (s : State) (hu : s0.Upholds s) :
    Out.Upholds s0 (execClockDpllConfig t n s) := by
  unfold execClockDpllConfig
  refine command_upholds hu fun s hu => ?_
  dsimp only
  repeat' (first | with_reducible assumption | with_reducible refine State.Upholds.ite ?_ ?_
                 | with_reducible refine State.guard_upholds _ _ _ _ _ ?_ ?_
                 | with_reducible apply State.persisted_upholds | with_reducible apply State.done_upholds
                 | with_reducible refine State.Upholds.upd ?_ rfl rfl rfl rfl rfl rfl)

theorem execClockRelock_upholds (t : Ten) (n : SlotIx) (s : State) (hu : s0.Upholds s) :
    Out.Upholds s0 (execClockRelock t n s) := by
  unfold execClockRelock
  refine command_upholds hu fun s hu => ?_
  repeat' (first | with_reducible assumption | with_reducible refine State.guard_upholds _ _ _ _ _ ?_ ?_
                 | with_reducible apply State.startRelock_upholds)

/-! ### Tenants -/

theorem execTenantStatus_upholds (t : Ten) (n : SlotIx) (s : State) (hu : s0.Upholds s) :
    Out.Upholds s0 (execTenantStatus t n s) := by
  unfold execTenantStatus
  refine commandBy_upholds hu fun s hu => ?_
  repeat' (first | with_reducible assumption | with_reducible refine State.Upholds.ite ?_ ?_
                 | with_reducible apply State.done_upholds | with_reducible apply State.answer_upholds | split)

theorem execTenantAttach_upholds (t : Ten) (n : SlotIx) (s : State) (hu : s0.Upholds s) :
    Out.Upholds s0 (execTenantAttach t n s) := by
  unfold execTenantAttach
  refine command_upholds hu fun s hu => ?_
  dsimp only
  repeat' (first | with_reducible assumption | with_reducible refine State.guard_upholds _ _ _ _ _ ?_ ?_
                 | with_reducible apply State.openSession_upholds | with_reducible apply State.setSlot_upholds
                 | with_reducible apply State.answer_upholds)

theorem execPermissionDrainDone_upholds (t : Ten) (n : SlotIx) (s : State) (hu : s0.Upholds s) :
    Out.Upholds s0 (execPermissionDrainDone t n s) := by
  unfold execPermissionDrainDone
  refine .next ?_
  repeat' (first | with_reducible assumption | with_reducible refine State.Upholds.ite ?_ ?_
                 | with_reducible apply State.finish_upholds | split
                 | with_reducible refine State.Upholds.upd ?_ rfl rfl rfl rfl rfl rfl)

theorem execTenantDetach_upholds (t : Ten) (n : SlotIx) (s : State) (hu : s0.Upholds s) :
    Out.Upholds s0 (execTenantDetach t n s) := by
  unfold execTenantDetach
  refine command_upholds hu fun s hu => ?_
  dsimp only
  repeat' (first | with_reducible assumption | with_reducible refine State.Upholds.ite ?_ ?_
                 | with_reducible apply State.done_upholds | with_reducible apply State.askStopAll_upholds
                 | with_reducible apply State.endSession_upholds | with_reducible apply State.modTen_upholds
                 | with_reducible apply State.drainOrPost_upholds)

theorem execTenantReset_upholds (t : Ten) (n : SlotIx) (s : State) (hu : s0.Upholds s) :
    Out.Upholds s0 (execTenantReset t n s) := by
  unfold execTenantReset
  refine commandBy_upholds hu fun s hu => ?_
  repeat' (first | with_reducible assumption | with_reducible refine State.Upholds.ite ?_ ?_
                 | with_reducible refine State.guard_upholds _ _ _ _ _ ?_ ?_ | with_reducible apply State.done_upholds
                 | with_reducible apply State.answer_upholds | with_reducible apply State.resetByCc1_upholds
                 | with_reducible apply State.resetByCc0_upholds | split)

theorem execTenantLease_upholds (t : Ten) (n : SlotIx) (s : State) (hu : s0.Upholds s) :
    Out.Upholds s0 (execTenantLease t n s) := by
  unfold execTenantLease
  refine commandBy_upholds hu fun s hu => ?_
  dsimp only
  repeat' (first | with_reducible assumption | with_reducible refine State.Upholds.ite ?_ ?_ | (intro _ _ _)
                 | with_reducible refine State.Upholds.foldl ?_ ?_
                 | with_reducible refine State.guard_upholds _ _ _ _ _ ?_ ?_
                 | with_reducible apply State.answer_upholds | with_reducible apply State.done_upholds
                 | with_reducible apply State.grantLease_upholds | with_reducible apply State.revoke_upholds
                 | with_reducible apply State.drainOrPost_upholds | with_reducible apply State.askStop_upholds
                 | with_reducible apply State.tellRevoked_upholds | split)

theorem execTenantBind_upholds (t : Ten) (n : SlotIx) (s : State) (hu : s0.Upholds s) :
    Out.Upholds s0 (execTenantBind t n s) := by
  refine command_upholds hu fun s hu => ?_
  extract_lets b u code cred auth
  with_reducible refine State.guard_upholds _ _ _ _ _ hu ?_
  extract_lets old s1 lost s2 moved s4 s5 removed s6
  have h2 : s0.Upholds s2 := State.Upholds.foldl (State.modTen_upholds _ _ _ hu) fun x id hx =>
    State.tellRevoked_upholds _ _ _ _ (State.revoke_upholds _ _ hx)
  have h4 : s0.Upholds s4 := .ite (State.resetNow_upholds _ _ _ _ _ h2) h2
  have h5 : s0.Upholds s5 := .ite (State.clearSram_upholds h4 _ _) h4
  exact State.drainOrPost_upholds _ _ (State.persisted_upholds _ h5)

theorem execTenantSetQos_upholds (t : Ten) (n : SlotIx) (s : State) (hu : s0.Upholds s) :
    Out.Upholds s0 (execTenantSetQos t n s) := by
  unfold execTenantSetQos
  refine command_upholds hu fun s hu => ?_
  dsimp only
  repeat' (first | with_reducible assumption | with_reducible refine State.Upholds.ite ?_ ?_
                 | with_reducible refine State.guard_upholds _ _ _ _ _ ?_ ?_
                 | with_reducible apply State.modTen_upholds | with_reducible apply State.persisted_upholds
                 | with_reducible apply State.drainOrPost_upholds)

theorem execTenantPartition_upholds (t : Ten) (n : SlotIx) (s : State) (hu : s0.Upholds s) :
    Out.Upholds s0 (execTenantPartition t n s) := by
  refine command_upholds hu fun s hu => ?_
  extract_lets new old total shrunk
  with_reducible refine State.guard_upholds _ _ _ _ _ hu ?_
  extract_lets s1 s2 stored s3
  have h1 : s0.Upholds s1 := State.Upholds.foldl hu fun x u hx => State.stopBeyond_upholds _ _ _ hx
  have h2 : s0.Upholds s2 := State.Upholds.foldl
    (h1.change (Nat.le_refl _) (Nat.le_refl _) fun m => ⟨movedSram_canon m.sram _ _, m.ens, m.buf, m.work⟩)
    fun x u hx => State.modTen_upholds _ _ _ hx
  have h3 : s0.Upholds s3 := .ite (State.persisted_upholds _ (.upd h2 rfl rfl rfl rfl rfl rfl)) h2
  exact State.drainOrPost_upholds _ _ h3

theorem execTenantDelegate_upholds (t : Ten) (n : SlotIx) (s : State) (hu : s0.Upholds s) :
    Out.Upholds s0 (execTenantDelegate t n s) := by
  unfold execTenantDelegate
  refine command_upholds hu fun s hu => ?_
  dsimp only
  repeat' (first | with_reducible assumption | with_reducible refine State.Upholds.ite ?_ ?_
                 | with_reducible refine State.guard_upholds _ _ _ _ _ ?_ ?_ | with_reducible apply State.done_upholds
                 | with_reducible apply State.endDelegation_upholds | with_reducible apply State.answer_upholds
                 | with_reducible refine State.Upholds.upd ?_ rfl rfl rfl rfl rfl rfl)

/-! ### Events -/

theorem execEventLatchServe_upholds (s : State) (hu : s0.Upholds s) :
    Out.Upholds s0 (execEventLatchServe s) := by
  unfold execEventLatchServe
  refine .next ?_
  repeat' (first | with_reducible assumption | with_reducible refine State.Upholds.ite ?_ ?_ | (intro _ _ _)
                 | with_reducible refine State.Upholds.foldl ?_ ?_ | with_reducible apply State.deliver_upholds
                 | with_reducible apply State.modSource_upholds | with_reducible apply State.deliverEvent_upholds
                 | split | with_reducible refine State.Upholds.upd ?_ rfl rfl rfl rfl rfl rfl)

theorem execEventSourceAssert_upholds (src : Fin 256) (data : Word) (s : State) (hu : s0.Upholds s) :
    Out.Upholds s0 (execEventSourceAssert src data s) := by
  unfold execEventSourceAssert
  refine .next ?_
  repeat' (first | with_reducible assumption | with_reducible refine State.Upholds.ite ?_ ?_
                 | with_reducible apply State.aoAssert_upholds | with_reducible apply State.raise_upholds)

theorem execMbxNoticeRepeat_upholds (s : State) (hu : s0.Upholds s) :
    Out.Upholds s0 (execMbxNoticeRepeat s) := by
  unfold execMbxNoticeRepeat
  refine .next ?_
  dsimp only
  repeat' (first | with_reducible assumption | with_reducible refine State.Upholds.ite ?_ ?_
                 | with_reducible apply State.reach_upholds | with_reducible apply State.sendNotice_upholds
                 | with_reducible apply State.modTen_upholds | split)

theorem execEvtSubscribe_upholds (t : Ten) (n : SlotIx) (s : State) (hu : s0.Upholds s) :
    Out.Upholds s0 (execEvtSubscribe t n s) := by
  unfold execEvtSubscribe
  refine commandBy_upholds hu fun s hu => ?_
  dsimp only
  repeat' (first | with_reducible assumption | with_reducible refine State.guard_upholds _ _ _ _ _ ?_ ?_
                 | with_reducible apply State.modTen_upholds | with_reducible apply State.modSource_upholds
                 | with_reducible apply State.done_upholds)

theorem execEvtUnsubscribe_upholds (t : Ten) (n : SlotIx) (s : State) (hu : s0.Upholds s) :
    Out.Upholds s0 (execEvtUnsubscribe t n s) := by
  unfold execEvtUnsubscribe
  refine command_upholds hu fun s hu => ?_
  dsimp only
  repeat' (first | with_reducible assumption | with_reducible refine State.Upholds.ite ?_ ?_
                 | with_reducible apply State.done_upholds | with_reducible apply State.modTen_upholds
                 | with_reducible apply State.modSource_upholds | split)

theorem execEvtConfig_upholds (t : Ten) (n : SlotIx) (s : State) (hu : s0.Upholds s) :
    Out.Upholds s0 (execEvtConfig t n s) := by
  unfold execEvtConfig
  refine command_upholds hu fun s hu => ?_
  dsimp only
  repeat' (first | with_reducible assumption | with_reducible refine State.Upholds.ite ?_ ?_
                 | with_reducible refine State.guard_upholds _ _ _ _ _ ?_ ?_
                 | with_reducible apply State.modSource_upholds | with_reducible apply State.done_upholds)

theorem execEvtAoWatch_upholds (t : Ten) (n : SlotIx) (s : State) (hu : s0.Upholds s) :
    Out.Upholds s0 (execEvtAoWatch t n s) := by
  unfold execEvtAoWatch
  refine command_upholds hu fun s hu => ?_
  dsimp only
  repeat' (first | with_reducible assumption | with_reducible refine State.guard_upholds _ _ _ _ _ ?_ ?_
                 | with_reducible apply State.answer_upholds
                 | with_reducible refine State.Upholds.upd ?_ rfl rfl rfl rfl rfl rfl)

theorem execEvtStatus_upholds (t : Ten) (n : SlotIx) (s : State) (hu : s0.Upholds s) :
    Out.Upholds s0 (execEvtStatus t n s) := by
  unfold execEvtStatus
  refine command_upholds hu fun s hu => ?_
  dsimp only
  repeat' (first | with_reducible assumption | with_reducible refine State.Upholds.ite ?_ ?_
                 | with_reducible apply State.answer_upholds | with_reducible apply State.done_upholds | split)

theorem execEvtTest_upholds (t : Ten) (n : SlotIx) (s : State) (hu : s0.Upholds s) :
    Out.Upholds s0 (execEvtTest t n s) := by
  unfold execEvtTest
  refine command_upholds hu fun s hu => ?_
  repeat' (first | with_reducible assumption | with_reducible apply State.raise_upholds
                 | with_reducible apply State.done_upholds)

/-! ### Every row -/

/-- Every row of the table answers a next state and upholds what held before it. -/
theorem exec_upholds (i : Instr) (s : State) (hu : s0.Upholds s) : Out.Upholds s0 (exec i s) :=
  match i with
  | .sysIdentify t n => execSysIdentify_upholds t n s hu
  | .sysBlockStatus t n => execSysBlockStatus_upholds t n s hu
  | .sysReset t n => execSysReset_upholds t n s hu
  | .sysResetCause t n => execSysResetCause_upholds t n s hu
  | .sysImageStatus t n => execSysImageStatus_upholds t n s hu
  | .sysImageCommit t n => execSysImageCommit_upholds t n s hu
  | .sysAbort t n => execSysAbort_upholds t n s hu
  | .tenantStatus t n => execTenantStatus_upholds t n s hu
  | .tenantAttach t n => execTenantAttach_upholds t n s hu
  | .tenantDetach t n => execTenantDetach_upholds t n s hu
  | .tenantReset t n => execTenantReset_upholds t n s hu
  | .tenantLease t n => execTenantLease_upholds t n s hu
  | .tenantBind t n => execTenantBind_upholds t n s hu
  | .tenantSetQos t n => execTenantSetQos_upholds t n s hu
  | .tenantPartition t n => execTenantPartition_upholds t n s hu
  | .tenantDelegate t n => execTenantDelegate_upholds t n s hu
  | .evtSubscribe t n => execEvtSubscribe_upholds t n s hu
  | .evtUnsubscribe t n => execEvtUnsubscribe_upholds t n s hu
  | .evtConfig t n => execEvtConfig_upholds t n s hu
  | .evtAoWatch t n => execEvtAoWatch_upholds t n s hu
  | .evtStatus t n => execEvtStatus_upholds t n s hu
  | .evtTest t n => execEvtTest_upholds t n s hu
  | .powerStatus t n => execPowerStatus_upholds t n s hu
  | .powerSetState t n => execPowerSetState_upholds t n s hu
  | .powerFloor t n => execPowerFloor_upholds t n s hu
  | .powerTimers t n => execPowerTimers_upholds t n s hu
  | .powerWakeCfg t n => execPowerWakeCfg_upholds t n s hu
  | .powerBoost t n => execPowerBoost_upholds t n s hu
  | .timeStatus t n => execTimeStatus_upholds t n s hu
  | .timeRead t n => execTimeRead_upholds t n s hu
  | .timeSessionOpen t n => execTimeSessionOpen_upholds t n s hu
  | .timeSessionClose t n => execTimeSessionClose_upholds t n s hu
  | .timeStep t n => execTimeStep_upholds t n s hu
  | .timeRate t n => execTimeRate_upholds t n s hu
  | .timeCmpArm t n => execTimeCmpArm_upholds t n s hu
  | .timeCmpCancel t n => execTimeCmpCancel_upholds t n s hu
  | .timeCalRead t n => execTimeCalRead_upholds t n s hu
  | .timeZone t n => execTimeZone_upholds t n s hu
  | .timeAlarm t n => execTimeAlarm_upholds t n s hu
  | .timePps t n => execTimePps_upholds t n s hu
  | .timeGridRef t n => execTimeGridRef_upholds t n s hu
  | .timePulse t n => execTimePulse_upholds t n s hu
  | .timeCaptureCfg t n => execTimeCaptureCfg_upholds t n s hu
  | .timeCaptureRead t n => execTimeCaptureRead_upholds t n s hu
  | .timeConfig t n => execTimeConfig_upholds t n s hu
  | .clockStatus t n => execClockStatus_upholds t n s hu
  | .clockBandRead t n => execClockBandRead_upholds t n s hu
  | .clockBandWrite t n => execClockBandWrite_upholds t n s hu
  | .clockDither t n => execClockDither_upholds t n s hu
  | .clockDpllConfig t n => execClockDpllConfig_upholds t n s hu
  | .clockRelock t n => execClockRelock_upholds t n s hu
  | .laneStatus t n => execLaneStatus_upholds t n s hu
  | .laneConfig t n => execLaneConfig_upholds t n s hu
  | .laneSwitch t n => execLaneSwitch_upholds t n s hu
  | .laneMode t n => execLaneMode_upholds t n s hu
  | .laneSlip t n => execLaneSlip_upholds t n s hu
  | .laneCapture t n => execLaneCapture_upholds t n s hu
  | .ltxDsStatus t n => execLtxDsStatus_upholds t n s hu
  | .ltxDsSnapshot t n => execLtxDsSnapshot_upholds t n s hu
  | .ltxRegStatus t n => execLtxRegStatus_upholds t n s hu
  | .ltxActivation t n => execLtxActivation_upholds t n s hu
  | .ltxUsStatus t n => execLtxUsStatus_upholds t n s hu
  | .ltxUsConfig t n => execLtxUsConfig_upholds t n s hu
  | .ltxQueueMap t n => execLtxQueueMap_upholds t n s hu
  | .rulesStatus t n => execRulesStatus_upholds t n s hu
  | .rulesProfile t n => execRulesProfile_upholds t n s hu
  | .rulesWrite t n => execRulesWrite_upholds t n s hu
  | .rulesCommit t n => execRulesCommit_upholds t n s hu
  | .rulesDiscard t n => execRulesDiscard_upholds t n s hu
  | .rulesRead t n => execRulesRead_upholds t n s hu
  | .rulesLane t n => execRulesLane_upholds t n s hu
  | .rulesCounters t n => execRulesCounters_upholds t n s hu
  | .rulesSlowConfig t n => execRulesSlowConfig_upholds t n s hu
  | .trafficStatus t n => execTrafficStatus_upholds t n s hu
  | .trafficQueueCfg t n => execTrafficQueueCfg_upholds t n s hu
  | .trafficQueueStatus t n => execTrafficQueueStatus_upholds t n s hu
  | .trafficPolicer t n => execTrafficPolicer_upholds t n s hu
  | .trafficBuffer t n => execTrafficBuffer_upholds t n s hu
  | .trafficHold t n => execTrafficHold_upholds t n s hu
  | .trafficWatch t n => execTrafficWatch_upholds t n s hu
  | .trafficWatchRead t n => execTrafficWatchRead_upholds t n s hu
  | .trafficInject t n => execTrafficInject_upholds t n s hu
  | .trafficReceive t n => execTrafficReceive_upholds t n s hu
  | .cipherStatus t n => execCipherStatus_upholds t n s hu
  | .cipherGcmSeal t n => execCipherGcmSeal_upholds t n s hu
  | .cipherGcmOpen t n => execCipherGcmOpen_upholds t n s hu
  | .cipherCtr t n => execCipherCtr_upholds t n s hu
  | .cipherCmac t n => execCipherCmac_upholds t n s hu
  | .cipherCore t n => execCipherCore_upholds t n s hu
  | .keysInfo t n => execKeysInfo_upholds t n s hu
  | .keysImport t n => execKeysImport_upholds t n s hu
  | .keysDerive t n => execKeysDerive_upholds t n s hu
  | .keysDestroy t n => execKeysDestroy_upholds t n s hu
  | .ensRead t n fixed bad => execEnsRead_upholds t n fixed bad s hu
  | .ensWrite t n => execEnsWrite_upholds t n s hu
  | .ensAbort t n => execEnsAbort_upholds t n s hu
  | .ensStatus t n => execEnsStatus_upholds t n s hu
  | .ensLineInfo t n => execEnsLineInfo_upholds t n s hu
  | .secStatus t n => execSecStatus_upholds t n s hu
  | .secThawChallenge t n => execSecThawChallenge_upholds t n s hu
  | .secThaw t n => execSecThaw_upholds t n s hu
  | .secFreeze t n => execSecFreeze_upholds t n s hu
  | .secSeal t n => execSecSeal_upholds t n s hu
  | .secRetire t n => execSecRetire_upholds t n s hu
  | .firnStatus t n => execFirnStatus_upholds t n s hu
  | .firnModelLoad t n => execFirnModelLoad_upholds t n s hu
  | .firnModelUnload t n => execFirnModelUnload_upholds t n s hu
  | .firnModelInfo t n => execFirnModelInfo_upholds t n s hu
  | .firnRun t n => execFirnRun_upholds t n s hu
  | .firnEngine t n => execFirnEngine_upholds t n s hu
  | .firnModelKey t n => execFirnModelKey_upholds t n s hu
  | .audioStatus t n => execAudioStatus_upholds t n s hu
  | .audioConfig t n => execAudioConfig_upholds t n s hu
  | .audioPort t n => execAudioPort_upholds t n s hu
  | .audioOpen t n => execAudioOpen_upholds t n s hu
  | .audioSchedule t n => execAudioSchedule_upholds t n s hu
  | .tpsStatus t n => execTpsStatus_upholds t n s hu
  | .tpsSchedule t n => execTpsSchedule_upholds t n s hu
  | .diagPads t n => execDiagPads_upholds t n s hu
  | .rcvStart => execRcvStart_upholds s hu
  | .rcvChunk => execRcvChunk_upholds s hu
  | .rcvFinish => execRcvFinish_upholds s hu
  | .rcvReboot => execRcvReboot_upholds s hu
  | .recoveryVerified => execRecoveryVerified_upholds s hu
  | .recoveryWritten ok => execRecoveryWritten_upholds ok s hu
  | .spiStatusRead port sent clocks => execSpiStatusRead_upholds port sent clocks s hu
  | .mbxStatusRead via => execMbxStatusRead_upholds via s hu
  | .mbxStatusClear via value => execMbxStatusClear_upholds via value s hu
  | .doorbell via value => execDoorbell_upholds via value s hu
  | .resultAck via value => execResultAck_upholds via value s hu
  | .resultSlotRead via slot => execResultSlotRead_upholds via slot s hu
  | .evtTail via value => execEvtTail_upholds via value s hu
  | .bulkBase via value => execBulkBase_upholds via value s hu
  | .heartbeat via value => execHeartbeat_upholds via value s hu
  | .bulkApertureAccess via access => execBulkApertureAccess_upholds via access s hu
  | .registerWrite via off data => execRegisterWrite_upholds via off data s hu
  | .writeBufferDrain port => execWriteBufferDrain_upholds port s hu
  | .inbandMbxFrame lane src payload => execInbandMbxFrame_upholds lane src payload s hu
  | .noticeFrameRepeat t => execNoticeFrameRepeat_upholds t s hu
  | .attachReq lane dst src payload => execAttachReq_upholds lane dst src payload s hu
  | .attachConf lane src payload => execAttachConf_upholds lane src payload s hu
  | .attachLockoutEnd t => execAttachLockoutEnd_upholds t s hu
  | .commandStart t n => execCommandStart_upholds t n s hu
  | .commandTimeout t n => execCommandTimeout_upholds t n s hu
  | .coreWatchdogExpiry core => execCoreWatchdogExpiry_upholds core s hu
  | .coreRestartDone core => execCoreRestartDone_upholds core s hu
  | .heartbeatDeadline t => execHeartbeatDeadline_upholds t s hu
  | .delegationExpiry => execDelegationExpiry_upholds s hu
  | .rescueResidueDone => execRescueResidueDone_upholds s hu
  | .permissionDrainDone t n => execPermissionDrainDone_upholds t n s hu
  | .eventSourceAssert src data => execEventSourceAssert_upholds src data s hu
  | .eventLatchServe => execEventLatchServe_upholds s hu
  | .mbxNoticeRepeat => execMbxNoticeRepeat_upholds s hu
  | .tDuskExpiry => execTDuskExpiry_upholds s hu
  | .tInfExpiry => execTInfExpiry_upholds s hu
  | .tBoostExpiry => execTBoostExpiry_upholds s hu
  | .tAudExpiry => execTAudExpiry_upholds s hu
  | .tLnlExpiry => execTLnlExpiry_upholds s hu
  | .tLnlProbeExpiry => execTLnlProbeExpiry_upholds s hu
  | .lnlProbeEnd partner => execLnlProbeEnd_upholds partner s hu
  | .tNightExpiry => execTNightExpiry_upholds s hu
  | .tGlacierExpiry => execTGlacierExpiry_upholds s hu
  | .tDarkExpiry => execTDarkExpiry_upholds s hu
  | .tNoticeExpiry => execTNoticeExpiry_upholds s hu
  | .domainWorkArrival d => execDomainWorkArrival_upholds d s hu
  | .sleepAnswerTimeout => execSleepAnswerTimeout_upholds s hu
  | .nightListenWake => execNightListenWake_upholds s hu
  | .nightListenEnd => execNightListenEnd_upholds s hu
  | .wakeTrigger src data => execWakeTrigger_upholds src data s hu
  | .wakeStepReady sig => execWakeStepReady_upholds sig s hu
  | .wakeStepTimeout sig noBand => execWakeStepTimeout_upholds sig noBand s hu
  | .wakeDebounceExpiry pin => execWakeDebounceExpiry_upholds pin s hu
  | .wakePinChange pin level ns => execWakePinChange_upholds pin level ns s hu
  | .csNFall port => execCsNFall_upholds port s hu
  | .debugAttach => execDebugAttach_upholds s hu
  | .debugDetach => execDebugDetach_upholds s hu
  | .vbatLow mv => execVbatLow_upholds mv s hu
  | .xtalFault => execXtalFault_upholds s hu
  | .lightWakeFrame => execLightWakeFrame_upholds s hu
  | .tjUpdate tj => execTjUpdate_upholds tj s hu
  | .pmicWriteComplete ack stretch => execPmicWriteComplete_upholds ack stretch s hu
  | .pmicSettleExpiry => execPmicSettleExpiry_upholds s hu
  | .pmicRetryTimer => execPmicRetryTimer_upholds s hu
  | .railOkLow ns => execRailOkLow_upholds ns s hu
  | .vbatPowerOn mv => execVbatPowerOn_upholds mv s hu
  | .vbatFall mv => execVbatFall_upholds mv s hu
  | .rstNLow ns => execRstNLow_upholds ns s hu
  | .rstNRelease gpio0 => execRstNRelease_upholds gpio0 s hu
  | .boot => execBoot_upholds s hu
  | .romWatchdogExpiry => execRomWatchdogExpiry_upholds s hu
  | .mbxReadyTimeout => execMbxReadyTimeout_upholds s hu
  | .domainResetStart => execDomainResetStart_upholds s hu
  | .laneLock lane rd cdr groups => execLaneLock_upholds lane rd cdr groups s hu
  | .laneLoss lane rd groups cdr => execLaneLoss_upholds lane rd groups cdr s hu
  | .optLosChange lane level => execOptLosChange_upholds lane level s hu
  | .laneRelockQualified lane => execLaneRelockQualified_upholds lane s hu
  | .holdOffExpiry => execHoldOffExpiry_upholds s hu
  | .waitToRestoreExpiry => execWaitToRestoreExpiry_upholds s hu
  | .localLinkUp lane mode pauseRx pauseTx => execLocalLinkUp_upholds lane mode pauseRx pauseTx s hu
  | .localLinkDown lane => execLocalLinkDown_upholds lane s hu
  | .egressHoldExpiry lane => execEgressHoldExpiry_upholds lane s hu
  | .macFrameReceive lane frame fcsOk => execMacFrameReceive_upholds lane frame fcsOk s hu
  | .pauseFrameReceived lane quanta => execPauseFrameReceived_upholds lane quanta s hu
  | .pauseTimeEnd lane => execPauseTimeEnd_upholds lane s hu
  | .xoffCrossing lane => execXoffCrossing_upholds lane s hu
  | .xonCrossing lane => execXonCrossing_upholds lane s hu
  | .pauseRepeat lane => execPauseRepeat_upholds lane s hu
  | .fawDetected lane pos rd groups shift => execFawDetected_upholds lane pos rd groups shift s hu
  | .frameHeader lane bytes => execFrameHeader_upholds lane bytes s hu
  | .grantEntry lane bytes => execGrantEntry_upholds lane bytes s hu
  | .discoveryEntry lane bytes => execDiscoveryEntry_upholds lane bytes s hu
  | .packetContainer lane bytes => execPacketContainer_upholds lane bytes s hu
  | .packetDecryptDone => execPacketDecryptDone_upholds s hu
  | .audioContainer lane bytes => execAudioContainer_upholds lane bytes s hu
  | .tpsContainer lane bytes => execTpsContainer_upholds lane bytes s hu
  | .assignRh lane slot bytes => execAssignRh_upholds lane slot bytes s hu
  | .authChal lane slot bytes => execAuthChal_upholds lane slot bytes s hu
  | .keyDeliver lane slot bytes => execKeyDeliver_upholds lane slot bytes s hu
  | .rangeResult lane slot bytes => execRangeResult_upholds lane slot bytes s hu
  | .deregister lane slot bytes => execDeregister_upholds lane slot bytes s hu
  | .timeInfo lane slot bytes => execTimeInfo_upholds lane slot bytes s hu
  | .upHold lane slot bytes => execUpHold_upholds lane slot bytes s hu
  | .sleepGrant lane slot bytes => execSleepGrant_upholds lane slot bytes s hu
  | .sleepDeny lane slot bytes => execSleepDeny_upholds lane slot bytes s hu
  | .nightWake lane slot bytes => execNightWake_upholds lane slot bytes s hu
  | .ownerMbx lane slot bytes => execOwnerMbx_upholds lane slot bytes s hu
  | .tribCfg lane slot bytes => execTribCfg_upholds lane slot bytes s hu
  | .lof8msExpiry => execLof8msExpiry_upholds s hu
  | .lof2sExpiry => execLof2sExpiry_upholds s hu
  | .lolClear lane => execLolClear_upholds lane s hu
  | .keySwitchBoundary => execKeySwitchBoundary_upholds s hu
  | .keyRetire => execKeyRetire_upholds s hu
  | .grantTableFrameEnd => execGrantTableFrameEnd_upholds s hu
  | .activationListen => execActivationListen_upholds s hu
  | .tAssignExpiry => execTAssignExpiry_upholds s hu
  | .tAuthExpiry => execTAuthExpiry_upholds s hu
  | .tRangeExpiry => execTRangeExpiry_upholds s hu
  | .silentDurationExpiry => execSilentDurationExpiry_upholds s hu
  | .deregNoticeTimeout => execDeregNoticeTimeout_upholds s hu
  | .eqdChangeApply lane => execEqdChangeApply_upholds lane s hu
  | .serialNumberBurst => execSerialNumberBurst_upholds s hu
  | .rangingBurst lane => execRangingBurst_upholds lane s hu
  | .burstFreeze gs => execBurstFreeze_upholds gs s hu
  | .protectionSlotClose gs => execProtectionSlotClose_upholds gs s hu
  | .packetSealDone => execPacketSealDone_upholds s hu
  | .burstCommit gs => execBurstCommit_upholds gs s hu
  | .withdrawal gs => execWithdrawal_upholds gs s hu
  | .timeStamp => execTimeStamp_upholds s hu
  | .rateCorrection => execRateCorrection_upholds s hu
  | .holdoverEntry => execHoldoverEntry_upholds s hu
  | .transformRebase => execTransformRebase_upholds s hu
  | .comparatorFire ix => execComparatorFire_upholds ix s hu
  | .parkedTargetCheck => execParkedTargetCheck_upholds s hu
  | .ppsSecond => execPpsSecond_upholds s hu
  | .gridRefCycle => execGridRefCycle_upholds s hu
  | .pulseStart ix => execPulseStart_upholds ix s hu
  | .pulseStop ix => execPulseStop_upholds ix s hu
  | .captureEdge input rising phase ns => execCaptureEdge_upholds input rising phase ns s hu
  | .leapSecond => execLeapSecond_upholds s hu
  | .calendarAlarm ix => execCalendarAlarm_upholds ix s hu
  | .pllaLockAcquired => execPllaLockAcquired_upholds s hu
  | .pllaLossOfLock => execPllaLossOfLock_upholds s hu
  | .lossOfReference edges => execLossOfReference_upholds edges s hu
  | .refclkQualified => execRefclkQualified_upholds s hu
  | .relockTimeout => execRelockTimeout_upholds s hu
  | .lockSearchAttemptTimeout => execLockSearchAttemptTimeout_upholds s hu
  | .relockRetry => execRelockRetry_upholds s hu
  | .dpllMeasurement df => execDpllMeasurement_upholds df s hu
  | .dpllTrackUpdate phase => execDpllTrackUpdate_upholds phase s hu
  | .ingressFrame src bytes oversize => execIngressFrame_upholds src bytes oversize s hu
  | .parserTake => execParserTake_upholds s hu
  | .laneLookupDone lane parity entry => execLaneLookupDone_upholds lane parity entry s hu
  | .slowPathDecide => execSlowPathDecide_upholds s hu
  | .slowDeadlineExpiry => execSlowDeadlineExpiry_upholds s hu
  | .slowPathSecond => execSlowPathSecond_upholds s hu
  | .reorderRelease src => execReorderRelease_upholds src s hu
  | .versionDrain => execVersionDrain_upholds s hu
  | .pauseUpdateQuiesced => execPauseUpdateQuiesced_upholds s hu
  | .pauseUpdateTimeout => execPauseUpdateTimeout_upholds s hu
  | .entryScrub failed => execEntryScrub_upholds failed s hu
  | .laneOutEmpty lane => execLaneOutEmpty_upholds lane s hu
  | .laneMarkerOut lane pass => execLaneMarkerOut_upholds lane pass s hu
  | .portEgressSelect lane => execPortEgressSelect_upholds lane s hu
  | .holdExpiry id => execHoldExpiry_upholds id s hu
  | .watchPeriod => execWatchPeriod_upholds s hu
  | .injectOffer t n => execInjectOffer_upholds t n s hu
  | .cipherJobDone => execCipherJobDone_upholds s hu
  | .cipherParityFault core => execCipherParityFault_upholds core s hu
  | .cipherSelfTestDone core pass => execCipherSelfTestDone_upholds core pass s hu
  | .kbusOpDone => execKbusOpDone_upholds s hu
  | .kbusWatchdog => execKbusWatchdog_upholds s hu
  | .ceilWriteDone slot ok => execCeilWriteDone_upholds slot ok s hu
  | .ceilWriteRetry => execCeilWriteRetry_upholds s hu
  | .ensLineWriteDone region verify ok fixed => execEnsLineWriteDone_upholds region verify ok fixed s hu
  | .levelTimerExpiry => execLevelTimerExpiry_upholds s hu
  | .thawNonceExpiry => execThawNonceExpiry_upholds s hu
  | .thawLockoutEnd => execThawLockoutEnd_upholds s hu
  | .firnJobResident job => execFirnJobResident_upholds job s hu
  | .firnLayerBoundary => execFirnLayerBoundary_upholds s hu
  | .firnLayerWatchdog => execFirnLayerWatchdog_upholds s hu
  | .firnSramError area single => execFirnSramError_upholds area single s hu
  | .firnOutputCopied => execFirnOutputCopied_upholds s hu
  | .firnSelfTestDone pass => execFirnSelfTestDone_upholds pass s hu
  | .audioBlockBoundary monitor => execAudioBlockBoundary_upholds monitor s hu
  | .audioStartBoundary port => execAudioStartBoundary_upholds port s hu
  | .audioStopBoundary port => execAudioStopBoundary_upholds port s hu
  | .gateTimeout port => execGateTimeout_upholds port s hu
  | .audioInputLock apart ppm => execAudioInputLock_upholds apart ppm s hu
  | .audioInputLoss bad ppm ns => execAudioInputLoss_upholds bad ppm ns s hu
  | .audioInputBlock cs => execAudioInputBlock_upholds cs s hu
  | .upstreamTribClose ttype => execUpstreamTribClose_upholds ttype s hu
  | .vddioLevelDetect field mv => execVddioLevelDetect_upholds field mv s hu
  | .burstEnd => execBurstEnd_upholds s hu
  | .lightWakeSample a b => execLightWakeSample_upholds a b s hu
  | .sampleBoundary port pair parity invalid => execSampleBoundary_upholds port pair parity invalid s hu
  | .tpsRxdBit port samples => execTpsRxdBit_upholds port samples s hu
  | .tpsTxdBitStart port => execTpsTxdBitStart_upholds port s hu

/-- A step upholds what the state before it had. -/
theorem step_upholds (s : State) : Out.Upholds s (step s) := by
  unfold step
  split
  · exact exec_upholds _ _ (.upd (.refl s) rfl rfl rfl rfl rfl rfl)
  · exact .next (State.idle_upholds s (.refl s))

theorem State.upholds_of_step {s s' : State} (h : step s = .next s') : s.Upholds s' := by
  obtain ⟨x, answer, upheld⟩ := step_upholds s
  rw [h] at answer
  cases answer
  exact upheld

/-- Settles O58: every row upholds the order of the lifecycle. -/
theorem lifecycleNeverMovesBack : Obligations.LifecycleNeverMovesBack :=
  fun _ _ h => (State.upholds_of_step h).life

/-- Settles O59: every row upholds the least version. -/
theorem minSvnNeverLowered : Obligations.MinSvnNeverLowered :=
  fun _ _ h => (State.upholds_of_step h).svn

/-- Settles O60: every row upholds the canonical form of the memories. -/
theorem memoriesStayCanonical : Obligations.MemoriesStayCanonical :=
  fun _ _ ok h => (State.upholds_of_step h).mem ok

/-- Settles O2: a row's answer is the next state that `exec_upholds` names. -/
theorem stepNeverStops : Obligations.StepNeverStops := by
  refine ⟨fun c s => ?_, fun s empty => ?_⟩
  · obtain ⟨s', answer, -⟩ := exec_upholds c s (.refl s)
    exact ⟨s', answer⟩
  · show step s = .next s.idle
    unfold step
    rw [empty]

/-- Settles O57: the reset state has no work, empty memories and the part as delivered. -/
theorem resetState : Obligations.ResetState :=
  ⟨rfl, State.reset_memOk, rfl, by decide +kernel, rfl⟩

end Sys2Proof.Machine


/-!
SUPPORT. The mailbox command in a slot that runs it (chapter 05), and what posting a result leaves of the terminal.
-/

namespace Sys2Proof.Machine

/-- Settles O1: the definition of a step. -/
theorem stepRunsFront : Obligations.StepRunsFront := fun _ _ _ => rfl

theorem command_stray {op : Nat} {used : List (Nat × Nat)} {t : Ten} {n : SlotIx} {s : State} {body : State → State}
    (h : s.runs t n op = true) (k : s.stray t n used = true) :
    command op used t n s body = .next (s.done t n Status.param) := by
  rw [command, commandBy_runs h, if_pos k]

theorem commandBy_ghost {op : Nat} {t : Ten} {n : SlotIx} {s : State} {body : State → State}
    (h : s.runs t n op = false) {g : Ghost} (found : s.ghostOf t n op = some g) :
    commandBy op t n s body = .next (s.runGhost g body) := by
  simp [commandBy, h, found]

theorem commandBy_idle {op : Nat} {t : Ten} {n : SlotIx} {s : State} {body : State → State}
    (h : s.runs t n op = false) (none_left : s.ghostOf t n op = none) : commandBy op t n s body = .next s := by
  simp [commandBy, h, none_left]

/-- Settles O3: the three cases of the frame of a mailbox command. -/
theorem commandGuards : Obligations.CommandGuards :=
  ⟨fun _ _ _ _ _ _ idle => ⟨fun noGhost => ⟨commandBy_idle idle noGhost, commandBy_idle idle noGhost⟩,
    fun _ found => commandBy_ghost idle found⟩, fun _ _ _ _ _ _ runs stray => command_stray runs stray⟩

/-! ### What a result changes (R124) -/

/-- From `s` to `s'` a notice goes out: of the tenants only the marks of their notices may differ. -/
structure State.Notices (s s' : State) : Prop where
  slots : ∀ u m, s'.slot u m = s.slot u m
  st : ∀ u, (s'.ten u).st = (s.ten u).st
  cfg : ∀ u, (s'.ten u).cfg = (s.ten u).cfg
  ring : ∀ u, (s'.ten u).ring = (s.ten u).ring
  session : ∀ u, (s'.ten u).session = (s.ten u).session
  vids : ∀ u, (s'.ten u).vids = (s.ten u).vids
  floor : ∀ u, (s'.ten u).floor = (s.ten u).floor

theorem State.Notices.of_tenants {s s' : State} (same : s'.tenants = s.tenants) : s.Notices s' := by
  constructor <;> simp [State.slot, State.ten, same]

/-- A change of a tenant that keeps the fields a notice leaves alone. -/
theorem State.Notices.modTen {s s' : State} (h : s.Notices s') (t : Ten) {f : Tenant → Tenant}
    (keeps : ∀ x, (f x).slots = x.slots ∧ (f x).st = x.st ∧ (f x).cfg = x.cfg ∧ (f x).ring = x.ring ∧
      (f x).session = x.session ∧ (f x).vids = x.vids ∧ (f x).floor = x.floor) : s.Notices (s'.modTen t f) := by
  have at_ : ∀ u {β : Type} (g : Tenant → β), (∀ x, g (f x) = g x) → g ((s'.modTen t f).ten u) = g (s'.ten u) := by
    intro u β g same
    rw [State.modTen_ten]
    split
    · next e => rw [same, e]
    · rfl
  exact ⟨fun u m => (at_ u (·.slots[m]) fun x => by rw [(keeps x).1]).trans (h.slots u m),
    fun u => (at_ u (·.st) fun x => (keeps x).2.1).trans (h.st u),
    fun u => (at_ u (·.cfg) fun x => (keeps x).2.2.1).trans (h.cfg u),
    fun u => (at_ u (·.ring) fun x => (keeps x).2.2.2.1).trans (h.ring u),
    fun u => (at_ u (·.session) fun x => (keeps x).2.2.2.2.1).trans (h.session u),
    fun u => (at_ u (·.vids) fun x => (keeps x).2.2.2.2.2.1).trans (h.vids u),
    fun u => (at_ u (·.floor) fun x => (keeps x).2.2.2.2.2.2).trans (h.floor u)⟩

theorem State.sendNotice_notices (s : State) (t : Ten) : s.Notices (s.sendNotice t) := by
  unfold State.sendNotice
  extract_lets x
  have untouched : s.Notices s := .of_tenants rfl
  split
  · split
    · exact (State.Notices.of_tenants (by simp)).modTen t fun _ => ⟨rfl, rfl, rfl, rfl, rfl, rfl, rfl⟩
    · exact untouched
  · split
    · exact (State.Notices.of_tenants (by simp)).modTen t fun _ => ⟨rfl, rfl, rfl, rfl, rfl, rfl, rfl⟩
    · exact untouched

theorem State.notify_notices (s : State) (t : Ten) : s.Notices (s.notify t) := by
  unfold State.notify
  split
  · exact s.sendNotice_notices t
  · exact .of_tenants rfl

/-- A result of a command no `SYS.ABORT` waits for is posted, and nothing else is. -/
theorem State.post_alone {s : State} {t : Ten} {n : SlotIx} (alone : (s.slot t n).aborters = []) (st : Half)
    (data : List Byte) (bulk : Bool) : s.post t n st data bulk = s.postRaw t n st data bulk := by
  simp [State.post, alone]

/-- Posting a result: the slot's result and a notice. -/
theorem State.postRaw_notices (s : State) (t : Ten) (n : SlotIx) (st : Half) (data : List Byte) (bulk : Bool) :
    (s.modSlot t n fun x => x.posted st data bulk).Notices (s.postRaw t n st data bulk) := by
  unfold State.postRaw
  extract_lets s1
  have touched : (s.modSlot t n fun x => x.posted st data bulk).Notices s1 := .of_tenants rfl
  split
  · exact touched
  · have told := s1.notify_notices t
    exact ⟨told.slots, told.st, told.cfg, told.ring, told.session, told.vids, told.floor⟩

theorem State.modSlot_ten (s : State) (t : Ten) (n : SlotIx) (f : Slot → Slot) (u : Ten) :
    ∃ slots, (s.modSlot t n f).ten u = { s.ten u with slots := slots } := by
  unfold State.modSlot State.setSlot
  rw [State.modTen_ten]
  split
  · next e => exact ⟨_, by rw [e]; rfl⟩
  · exact ⟨_, rfl⟩

/-- Settles O4: the slot holds what `Slot.posted` says, and a notice keeps the tenants' registers. -/
theorem resultFrame : Obligations.ResultFrame := by
  intro s t n st data bulk alone s'
  have raw : s' = s.postRaw t n st data bulk := State.post_alone alone st data bulk
  have told : (s.modSlot t n fun x => x.posted st data bulk).Notices s' := raw ▸ s.postRaw_notices t n st data bulk
  have slot : s'.slot t n = (s.slot t n).posted st data bulk := by rw [told.slots, State.modSlot_slot, if_pos ⟨rfl, rfl⟩]
  refine ⟨by rw [slot]; rfl, by rw [slot]; rfl, by rw [slot]; rfl, by rw [slot]; rfl, by rw [slot]; rfl, ?_, ?_, ?_⟩
  · intro u m other
    rw [told.slots, State.modSlot_slot, if_neg fun e => other (by simp_all)]
  · exact s.post_posts t n st data bulk
  · intro u
    obtain ⟨slots, kept⟩ := s.modSlot_ten t n (fun x => x.posted st data bulk) u
    rw [told.st, told.cfg, told.ring, told.session, told.vids, told.floor, kept]
    exact ⟨rfl, rfl, rfl, rfl, rfl, rfl⟩

end Sys2Proof.Machine


/-!
SUPPORT. The `SYS` and `DIAG` commands (chapters 01, 02, 04 and 05) and the image selection (R99, R101).
-/

namespace Sys2Proof.Machine

theorem command_sends {op : Nat} {used : List (Nat × Nat)} {t : Ten} {n : SlotIx} {s : State} {body : State → State}
    (h : s.sends t n op used) : command op used t n s body = .next (body s) := command_runs h.1 h.2

theorem State.guard_none {s : State} {t : Ten} {n : SlotIx} {k : State → State} : s.guard t n [] k = k s := rfl

theorem State.guard_pass {s : State} {t : Ten} {n : SlotIx} {b : Bool} {st : Half} {l : List (Bool × Half)}
    {k : State → State} (pass : b = false) : s.guard t n ((b, st) :: l) k = s.guard t n l k := by
  simp [State.guard, pass]

theorem State.guard_fail {s : State} {t : Ten} {n : SlotIx} {b : Bool} {st : Half} {l : List (Bool × Half)}
    {k : State → State} (fail : b = true) : s.guard t n ((b, st) :: l) k = s.done t n st := by
  simp [State.guard, fail]

/-! ### SYS and DIAG -/

theorem leBytes_byte (v : Nat) : leBytes 1 v = [BitVec.ofNat 8 v] := by
  simp only [leBytes]

theorem exec_sysIdentify {s : State} {t : Ten} {n : SlotIx} (h : s.sends t n 0x0101 []) :
    exec (.sysIdentify t n) s = .next (s.answer t n
      (leBytes 8 Config.terminalId.toNat ++ [0xB0, BitVec.ofNat 8 (b2n Config.gradeE), 4, Config.fwMinor, Config.fwPatch]
        ++ leBytes 1 (match s.boot.image with | some i => i.val | none => 0)
        ++ leBytes 1 s.lifecycleCode ++ leBytes 1 s.debugCode)) := by
  refine (command_sends h).trans ?_
  simp [leBytes_byte] <;> rfl

theorem exec_sysReset_chip {s : State} {t : Ten} {n : SlotIx} (h : s.sends t n 0x0103 [(0, 2)])
    (scope : s.prm1 t n 0 = 0) (dom : s.prm1 t n 1 = 0) (idle : s.power.entry = none) :
    exec (.sysReset t n) s =
       .next (((if (s.done t n Status.ok).inService then (s.done t n Status.ok).sendDeregNotice 7 else s.done t n Status.ok)
         ).acceptEntry .chipReset false t) := by
  refine (command_sends h).trans ?_
  simp [scope, dom, idle, State.guard_pass, State.guard_none]

theorem exec_sysReset_domain {s : State} {t : Ten} {n : SlotIx} (h : s.sends t n 0x0103 [(0, 2)]) {d : Dom}
    (one : d = dLNL ∨ d = dINF ∨ d = dAUD) (scope : s.prm1 t n 0 = 1) (dom : s.prm1 t n 1 = d.val) :
    exec (.sysReset t n) s =
         .next { s.done t n Status.ok with boot.domReset :=
           (s.done t n Status.ok).boot.domReset ++ [(d, (s.done t n Status.ok).now + 1000000)] } := by
  refine (command_sends h).trans ?_
  rcases one with rfl | rfl | rfl <;> simp [scope, dom, State.guard_pass, State.guard_none]

/-- `SYS.ABORT` of a command that does not run. -/
theorem exec_sysAbort_unknown {s : State} {t : Ten} {n : SlotIx} (h : s.sends t n 0x0107 [(0, 2)])
    (unknown : s.abortTarget t n (s.prm t n 0 2) = none) :
    exec (.sysAbort t n) s = .next (s.done t n Status.abortUnknown) := by
  refine (command_sends h).trans ?_
  simp only [unknown]

theorem exec_sysAbort_waiting {s : State} {t : Ten} {n m : SlotIx} (h : s.sends t n 0x0107 [(0, 2)])
    (found : s.abortTarget t n (s.prm t n 0 2) = some m) (waits : (s.slot t m).phase = .accepted)
    (other : (s.slot t m).opcode ≠ 0x0107) :
    exec (.sysAbort t n) s = .next ((s.stopWaiting t m .abort).done t n Status.ok) := by
  refine (command_sends h).trans ?_
  simp only [found, waits, other, if_false]

theorem exec_sysAbort_running {s : State} {t : Ten} {n m : SlotIx} (h : s.sends t n 0x0107 [(0, 2)])
    (found : s.abortTarget t n (s.prm t n 0 2) = some m) (runs : (s.slot t m).phase = .running)
    (unsafe_ : hasSafePoint (s.slot t m).opcode = false) (other : (s.slot t m).opcode ≠ 0x0107) :
    exec (.sysAbort t n) s = .next ((s.modSlot t m fun y => { y with
      stop := some (y.stop.getD .abort), abortAsked := true }).done t n Status.abortLate) := by
  refine (command_sends h).trans ?_
  simp [found, runs, unsafe_, State.modSlot, other]

/-- Settles O5. -/
theorem sysCommands : Obligations.SysCommands := by
  refine ⟨fun s t n => ⟨exec_sysIdentify, fun h => command_sends h, fun h => command_sends h, fun h => command_sends h,
    fun h => command_sends h⟩, fun s t n h => ⟨exec_sysReset_chip h, fun d => exec_sysReset_domain h⟩,
    fun s t n h => ⟨exec_sysAbort_unknown h, fun m => exec_sysAbort_waiting h, fun m => exec_sysAbort_running h⟩⟩

/-! ### Images -/

theorem Icb.get_put (x : Icb) (i j : Fin 2) (v : ImageState) : (x.put i v).get j = if j = i then v else x.get j := by
  unfold Icb.put Icb.get
  fin_cases i <;> fin_cases j <;> rfl

theorem exec_sysImageCommit {s : State} {t : Ten} {n : SlotIx} (h : s.sends t n 0x0106 [(0, 1)])
    (valid : s.prm1 t n 0 ≤ 1) {i : Fin 2} (runs : s.boot.image = some i) :
    exec (.sysImageCommit t n) s =
      .next ((s.commitImage i (bit (s.prm1 t n 0) 0)).answer t n
        (leBytes 4 (s.commitImage i (bit (s.prm1 t n 0) 0)).icb.minSvn)) := by
  refine (command_sends h).trans ?_
  have fits : decide (1 < s.prm1 t n 0) = false := by simpa using valid
  simp only [State.guard_pass fits, State.guard_none, runs]

/-- An image that is skipped for no reason meets every condition of R99. -/
theorem State.skipReason_zero {s : State} {i : Fin 2} (h : s.skipReason i = 0) :
    s.icb.get i ≠ .rejected ∧ ¬(s.icb.get i = .fresh ∧ s.ao.rst.image.toNat = i.val ∧ 3 ≤ s.ao.rst.tries) ∧
      hdrOk (s.hdr i) = true ∧ s.icb.minSvn ≤ hdrSvn (s.hdr i) ∧ digestOk (s.image i) = true ∧
      signatureOk (s.image i) = true := by
  simp only [State.skipReason] at h
  split_ifs at h <;> simp_all

/-- The state after a candidate is skipped: the reason in `RST_SKIP`, and an image with three tries REJECTED (R99). -/
def State.skipped (s : State) (i : Fin 2) : State :=
  let s1 := { s with ao.rst.skip := BitVec.ofNat 8 (s.skipReason i) }
  if s.skipReason i = 6 then { s1 with icb := s1.icb.put i .rejected } else s1

theorem State.select_skipped {s : State} {i : Fin 2} (skip : s.skipReason i ≠ 0) (rest : List (Fin 2)) :
    s.select (i :: rest) = (((s.skipped i).select rest).1, ((s.skipped i).select rest).2.1,
      i :: ((s.skipped i).select rest).2.2) := by
  rw [State.select, if_neg skip]
  rfl

/-- A candidate that is skipped leaves the store, the least version and the tries to the rest of the selection. -/
theorem State.skipped_frame (s : State) (i : Fin 2) : (s.skipped i).ens = s.ens ∧ (s.skipped i).icb.minSvn = s.icb.minSvn ∧
    (s.skipped i).ao.rst.image = s.ao.rst.image ∧ (s.skipped i).ao.rst.tries = s.ao.rst.tries := by
  unfold State.skipped
  split
  · exact ⟨rfl, Icb.put_minSvn _ _ _, rfl, rfl⟩
  · exact ⟨rfl, rfl, rfl, rfl⟩

/-- The selection returns a candidate that nothing speaks against, in a state with the same store, least version and
tries. -/
theorem State.select_found {is : List (Fin 2)} : ∀ {s s' : State} {i : Fin 2} {skipped : List (Fin 2)},
    s.select is = (s', some i, skipped) → i ∈ is ∧ ∃ s1 : State, s1.ens = s.ens ∧ s1.icb.minSvn = s.icb.minSvn ∧
      s1.ao.rst.image = s.ao.rst.image ∧ s1.ao.rst.tries = s.ao.rst.tries ∧ s' = s1.choose i ∧ s1.skipReason i = 0 := by
  induction is with
  | nil => intro s s' i skipped h; simp [State.select] at h
  | cons k rest ih =>
    intro s s' i skipped h
    by_cases ok : s.skipReason k = 0
    · obtain ⟨rfl, rfl, -⟩ : s.choose k = s' ∧ k = i ∧ [] = skipped := by simpa [State.select, ok] using h
      exact ⟨List.mem_cons_self, s, rfl, rfl, rfl, rfl, rfl, ok⟩
    · obtain ⟨ens, svn, image, tries⟩ := s.skipped_frame k
      rw [State.select_skipped ok] at h
      obtain ⟨same, found, -⟩ : ((s.skipped k).select rest).1 = s' ∧ ((s.skipped k).select rest).2.1 = some i ∧ _ := by
        simpa only [Prod.mk.injEq] using h
      have onward : (s.skipped k).select rest = (s', some i, ((s.skipped k).select rest).2.2) := by
        rw [← same, ← found]
      obtain ⟨mem, x, ens', svn', image', tries', chosen, none_speaks⟩ := ih onward
      exact ⟨List.mem_cons_of_mem _ mem, x, ens'.trans ens, svn'.trans svn, image'.trans image, tries'.trans tries,
        chosen, none_speaks⟩

/-- Settles O6. -/
theorem imageTrust : Obligations.ImageTrust := by
  refine ⟨?_, fun s s' is i skipped h => ?_⟩
  · intro s t n i h valid runs x
    have flag : bit (s.prm1 t n 0) 0 = true ↔ s.prm1 t n 0 = 1 := by
      interval_cases s.prm1 t n 0 <;> decide
    have committed : s.commitImage i (bit (s.prm1 t n 0) 0) = ({ s with icb := x } : State).recordWritten := by
      simp only [State.commitImage, flag, x]
    rw [exec_sysImageCommit h valid runs, committed]
    have same : ({ s with icb := x } : State).recordWritten.icb = x := by simp [State.recordWritten, State.updateEnded]
    rw [same]
    have get (j : Fin 2) : x.get j = if j = i then .confirmed else s.icb.get j := Icb.get_put s.icb i j .confirmed
    exact ⟨rfl, (get i).trans (if_pos rfl), fun j other => (get j).trans (if_neg other)⟩
  · obtain ⟨mem, s1, ens, svn, image, tries, chosen, ok⟩ := State.select_found h
    obtain ⟨trusted, tried, header, floor, digest, signature⟩ := State.skipReason_zero ok
    have hdr : s1.hdr i = s.hdr i := by simp [State.hdr, State.imgRead, ens]
    have whole : s1.image i = s.image i := by simp [State.image, State.imgRead, hdr, ens]
    rw [hdr] at header
    rw [hdr, svn] at floor
    rw [whole] at digest signature
    rw [image, tries] at tried
    exact ⟨mem, s1, ens, svn, chosen, image, tries, tried, trusted, floor, digest, signature, header⟩

end Sys2Proof.Machine


/-!
SUPPORT. BOOT (R93, R99, R102) and what a start leaves of the terminal.
-/

namespace Sys2Proof.Machine

/-! ### What a start and a reset leave -/

/-- Domains set change their conditions alone. -/
theorem State.setDoms_eq (s : State) (ds : List Dom) (x : DomState) : ∃ dom, s.setDoms ds x = { s with power.dom := dom } := by
  unfold State.setDoms
  induction ds generalizing s with
  | nil => exact ⟨s.power.dom, rfl⟩
  | cons d ds ih =>
    obtain ⟨dom, later⟩ := ih (s.setDom d x)
    exact ⟨dom, later⟩

/-- A source raised changes the router alone. -/
theorem State.raise_eq (s : State) (i : Fin 256) (data : Word) : ∃ evt, s.raise i data = { s with evt := evt } := by
  unfold State.raise
  split
  · exact ⟨_, rfl⟩
  · exact ⟨s.evt, rfl⟩

theorem State.spareWatch_eq (s : State) (b : Fin 4) : ∃ nvm evt, s.spareWatch b = { s with nvm := nvm, evt := evt } := by
  unfold State.spareWatch
  split
  · obtain ⟨evt, told⟩ := State.raise_eq { s with nvm.warned := s.nvm.warned.set b true } 0x83 (BitVec.ofNat 32 b.val)
    exact ⟨_, evt, told⟩
  · exact ⟨s.nvm, s.evt, rfl⟩

/-- The journal settled at a boot changes the store's bookkeeping, the record's flags and the router. -/
theorem State.journalBoot_eq (s : State) :
    ∃ nvm flags evt, s.journalBoot = { s with nvm := nvm, ao.rst.flags := flags, evt := evt } := by
  have watched (x : Ens) (flags : Byte) (b : Fin 4) : ∃ nvm evt,
      ({ s with nvm := x, ao.rst.flags := flags } : State).spareWatch b =
        { s with nvm := nvm, ao.rst.flags := flags, evt := evt } :=
    State.spareWatch_eq { s with nvm := x, ao.rst.flags := flags } b
  unfold State.journalBoot
  dsimp only
  split
  · exact ⟨_, _, s.evt, rfl⟩
  · split
    · exact ⟨s.nvm, s.ao.rst.flags, s.evt, rfl⟩
    · exact ⟨_, _, s.evt, rfl⟩
    · obtain ⟨nvm, evt, eq⟩ := watched _ _ _
      exact ⟨nvm, _, evt, eq⟩
    · exact ⟨_, _, s.evt, rfl⟩

/-- The ROM's first steps leave the boot unit and the pads. -/
theorem State.booted_eq (s : State) : ∃ power nvm rst evt, State.booted s =
    { s with power := power, nvm := nvm, ao.rst := rst, evt := evt } := by
  unfold State.booted
  generalize s.ao.rst.start _ _ _ = rst
  obtain ⟨dom, on⟩ := State.setDoms_eq { s with ao.rst := rst } [dTKP, dCTL, dMEM, dPLL, dNVM] .on
  rw [on]
  obtain ⟨nvm, flags, evt, eq⟩ := State.journalBoot_eq { s with ao.rst := rst, power.dom := dom }
  rw [eq]
  exact ⟨_, _, _, _, rfl⟩

theorem State.booted_boot (s : State) : (State.booted s).boot = s.boot := by
  obtain ⟨_, _, _, _, eq⟩ := s.booted_eq
  rw [eq]

/-! ### BOOT -/

theorem State.romStart_booted (s : State) : s.romStart = State.booted s := rfl

/-- The recovery that BOOT enters (R102). -/
theorem State.enterRecovery_fields (s : State) : s.enterRecovery.boot.phase = .recovery ∧ s.enterRecovery.boot.rcv.state = 1 ∧
    s.enterRecovery.ao.rst.image = 0xFF ∧ s.enterRecovery.boot.mbxReady = s.boot.mbxReady ∧
    s.enterRecovery.ens = s.ens := ⟨rfl, rfl, rfl, rfl, rfl⟩

/-- BOOT with the strap high (R102). -/
theorem exec_boot_strap {s : State} (rom : s.boot.phase = .rom) (strap : (State.booted s).pads.strap = true) :
    exec .boot s = .next (State.booted s).enterRecovery := by
  show execBoot s = _
  simp [execBoot, rom, State.romStart_booted, strap]

/-- BOOT with the strap low, by the image that R99 returns. -/
theorem exec_boot_select {s s3 : State} {skipped : List (Fin 2)} (rom : s.boot.phase = .rom)
    (low : (State.booted s).pads.strap = false) {got : Option (Fin 2)}
    (chosen : (State.booted s).select (State.booted s).candidates = (s3, got, skipped)) :
    exec .boot s = .next (match got with | some i => s3.startFirmware i skipped | none => s3.enterRecovery) := by
  show execBoot s = _
  cases got <;> simp [execBoot, rom, State.romStart_booted, low, chosen]

/-- A start that runs out of time with the strap low (R95). -/
theorem State.bootTimeout_eq {s : State} (rom : s.boot.phase = .rom) (low : s.pads.strap = false) :
    s.bootTimeout = ({ (s.romStart.select s.romStart.candidates).1 with boot.cause := none } : State).chipReset 0x08 0 := by
  rw [State.bootTimeout, if_neg (by simp [rom, low])]

/-- Settles O7. -/
theorem boot : Obligations.Boot := by
  refine ⟨fun s rom => ⟨fun strap => ?_, fun i skipped s3 low chosen => ?_, fun skipped s3 low none_ => ?_⟩,
    fun s rom low => ⟨?_, ?_⟩⟩
  · rw [exec_boot_strap rom strap]
    obtain ⟨phase, rcv, image, ready, ens⟩ := (State.booted s).enterRecovery_fields
    exact ⟨_, rfl, phase, rcv, image, ready.trans (by rw [s.booted_boot]), ens⟩
  · exact exec_boot_select rom low chosen
  · exact exec_boot_select rom low none_
  · show execRomWatchdogExpiry s = _
    rw [execRomWatchdogExpiry, if_pos rom, State.bootTimeout_eq (s := s.reach _) rom low]
  · show execMbxReadyTimeout s = _
    rw [execMbxReadyTimeout, if_pos rom, State.bootTimeout_eq (s := s.reach _) rom low]

end Sys2Proof.Machine


/-!
SUPPORT. Chip resets and power-on resets (R38, R87, Table 4.1): what they keep.
-/

namespace Sys2Proof.Machine

/-! ### What a chip reset keeps (R87, Table 4.1) -/

/-- From `s` to `s'` free values are drawn and the store with its bookkeeping changes, and nothing else. -/
def State.CutTo (s s' : State) : Prop := ∃ free nvm ens, s' = { s with free := free, nvm := nvm, ens := ens }

theorem State.CutTo.foldl {s0 s : State} {α : Type} {f : State → α → State} (l : List α) (h : s0.CutTo s)
    (hf : ∀ (x : State) a, x.CutTo (f x a)) : s0.CutTo (l.foldl f s) :=
  List.foldlRecOn l f h fun x ⟨_, _, _, hx⟩ a _ => by
    obtain ⟨free, nvm, ens, hf⟩ := hf x a
    exact ⟨free, nvm, ens, by rw [hf, hx]⟩

theorem State.cutUpdates_cut (s : State) : s.CutTo s.cutUpdates := by
  unfold State.cutUpdates
  extract_lets s1
  have cut : s.CutTo s1 := by
    refine State.CutTo.foldl _ ⟨s.free, s.nvm, s.ens, rfl⟩ fun x u => ?_
    dsimp only
    split <;> split <;> exact ⟨_, _, _, rfl⟩
  obtain ⟨_, _, _, eq⟩ := cut
  exact ⟨_, _, _, by rw [eq]⟩

theorem State.recordCut_eq (s : State) : ∃ rst cause, s.recordCut = { s with ao.rst := rst, boot.cause := cause } := by
  unfold State.recordCut
  split <;> exact ⟨_, _, rfl⟩

/-- The wake of a start changes the always-on domain only where it raises the core's regulator, at code 30 (R524). -/
theorem State.raiseEnable_ao (s : State) (raised : List ReadySig) (sig : ReadySig) :
    (s.raiseEnable raised sig).ao = s.ao ∨ s.pads.enMain = false ∧ (s.raiseEnable raised sig).ao = { s.ao with vcode := 30 } := by
  unfold State.raiseEnable
  split
  · split <;> exact .inl rfl
  · split
    · exact .inl rfl
    · next low => exact .inr ⟨by simpa using low, rfl⟩
  · exact .inl rfl

theorem State.startWake_ao (s : State) (k : WakeKind) (src : PState) (pins : BitVec 4) :
    (s.startWake k src pins).ao = s.ao ∨
      s.pads.enMain = false ∧ (s.startWake k src pins).ao = { s.ao with vcode := 30 } := by
  unfold State.startWake
  extract_lets doms
  split
  next n w _ =>
    extract_lets s0 s1 raised
    have search : s0.ao = s.ao ∧ s0.pads = s.pads := by
      unfold s0
      split <;> exact ⟨rfl, rfl⟩
    show s1.ao = s.ao ∨ s.pads.enMain = false ∧ s1.ao = { s.ao with vcode := 30 }
    rw [← search.1, ← search.2]
    unfold s1
    split
    · exact s0.raiseEnable_ao [] _
    · exact .inl rfl

/-- The parts of a state that a start leaves as they are: the tenants, the fuses, the image control block, the key store
and the persisted configuration. -/
def State.SameBase (s s' : State) : Prop :=
  s'.tenants = s.tenants ∧ s'.fuses = s.fuses ∧ s'.icb = s.icb ∧ s'.keys = s.keys ∧ s'.store = s.store

theorem State.WakesTo.sameBase {s s' : State} (h : s.WakesTo s') : s.SameBase s' := by
  obtain ⟨_, _, _, _, _, _, rfl⟩ := h
  exact ⟨rfl, rfl, rfl, rfl, rfl⟩

/-- The state in which a chip-scope start begins (R87, R100). -/
def State.starting (s : State) : State := { s with ao.imageLock := none, boot.releaseAt := s.now }

theorem State.startChip_eq (s : State) (k : WakeKind) (pins : BitVec 4) : s.startChip k pins =
    if s.pads.enAux && s.pads.enMain then
      { s.starting.setDoms [dTKP, dCTL, dMEM, dPLL, dNVM] .on with boot.phase := .rom, power.pstate := .noon }
    else ({ s.starting with boot.phase := .waking } : State).startWake k .permafrost pins := rfl

/-- With both enables high the ROM runs at once (R37, R96). -/
theorem State.startChip_enabled {s : State} (aux : s.pads.enAux = true) (main : s.pads.enMain = true) (k : WakeKind)
    (pins : BitVec 4) : ∃ dom, s.startChip k pins =
      { s.starting with power.dom := dom, boot.phase := .rom, power.pstate := .noon } := by
  obtain ⟨dom, on⟩ := s.starting.setDoms_eq [dTKP, dCTL, dMEM, dPLL, dNVM] .on
  rw [State.startChip_eq, if_pos (by rw [aux, main]; rfl), on]
  exact ⟨dom, rfl⟩

theorem State.startChip_sameBase (s : State) (k : WakeKind) (pins : BitVec 4) : s.SameBase (s.startChip k pins) := by
  by_cases enabled : s.pads.enAux = true ∧ s.pads.enMain = true
  · obtain ⟨dom, eq⟩ := State.startChip_enabled enabled.1 enabled.2 k pins
    rw [eq]
    exact ⟨rfl, rfl, rfl, rfl, rfl⟩
  · rw [State.startChip_eq, if_neg (by simpa using enabled)]
    exact (State.startWake_wakes { s.starting with boot.phase := .waking } k .permafrost pins).sameBase

/-- A chip-scope start clears the image write-lock and keeps the rest of the always-on domain, but for the code of a
regulator that it raises. -/
theorem State.startChip_ao (s : State) (k : WakeKind) (pins : BitVec 4) :
    (s.startChip k pins).ao = { s.ao with imageLock := none } ∨
      s.pads.enMain = false ∧ (s.startChip k pins).ao = { s.ao with imageLock := none, vcode := 30 } := by
  by_cases enabled : s.pads.enAux = true ∧ s.pads.enMain = true
  · obtain ⟨dom, eq⟩ := State.startChip_enabled enabled.1 enabled.2 k pins
    rw [eq]
    exact .inl rfl
  · rw [State.startChip_eq, if_neg (by simpa using enabled)]
    exact State.startWake_ao { s.starting with boot.phase := .waking } k .permafrost pins

/-- The state from which the start after a chip reset begins (Table 4.1). -/
def State.resetAs (s : State) (cause detail : Nat) : State :=
  let r := s.recordCut
  { r.resetUnits with
    ao.imageLock := none, boot.cause := some (mergeCause r.boot.cause (cause, detail)), boot.releaseAt := r.now,
    boot.wdt0 := r.boot.wdt0 }

theorem State.chipReset_eq (s : State) (cause detail : Nat) : s.chipReset cause detail =
    if !(s.resetAs cause detail).pads.rstN || !(s.resetAs cause detail).pads.powered then s.resetAs cause detail
    else (s.resetAs cause detail).startChip .rstRelease 0 := rfl

/-- The units at their reset values keep what the non-volatile memories hold, and the bindings. -/
theorem State.resetUnits_keeps (s : State) : s.resetUnits.fuses = s.fuses ∧ s.resetUnits.keys = s.keys ∧
    s.resetUnits.icb = s.icb ∧ s.resetUnits.store = s.store ∧ s.resetUnits.ao = { s.ao with dbg := {} } ∧
    s.resetUnits.pads.enMain = s.pads.enMain ∧
    ∀ t, s.resetUnits.ten t = (s.ten t).restarted s.store.parts[t] := by
  obtain ⟨free, nvm, ens, cut⟩ := s.cutUpdates_cut
  have restarted (t : Ten) : s.resetUnits.ten t = (s.cutUpdates.ten t).restarted s.cutUpdates.store.parts[t] := by
    simp [State.resetUnits, State.ten, State.restartedTenants]
  refine ⟨?_, ?_, ?_, ?_, ?_, ?_, fun t => (restarted t).trans (by rw [cut]; rfl)⟩
  all_goals
    unfold State.resetUnits
    rw [cut]

/-- What the start after a chip reset finds. -/
theorem State.resetAs_keeps (s : State) (cause detail : Nat) :
    let r := s.resetAs cause detail
    r.fuses = s.fuses ∧ r.keys = s.keys ∧ r.icb = s.icb ∧ r.store = s.store ∧
      (∃ rst, r.ao = { s.ao with rst := rst, dbg := {}, imageLock := none }) ∧ r.pads.enMain = s.pads.enMain ∧
      ∀ t, r.ten t = (s.ten t).restarted s.store.parts[t] := by
  intro r
  obtain ⟨rst, old, cut⟩ := s.recordCut_eq
  obtain ⟨fuses, keys, icb, store, ao, main, ten⟩ := s.recordCut.resetUnits_keeps
  refine ⟨fuses.trans (by rw [cut]), keys.trans (by rw [cut]), icb.trans (by rw [cut]), store.trans (by rw [cut]),
    ⟨rst, ?_⟩, main.trans (by rw [cut]), fun t => (ten t).trans (by rw [cut]; rfl)⟩
  show { s.recordCut.resetUnits.ao with imageLock := none } = _
  rw [ao, cut]

/-- What a chip reset leaves of the always-on domain. -/
theorem State.chipReset_ao (s : State) (cause detail : Nat) : ∃ rst vcode,
    (s.chipReset cause detail).ao = { s.ao with rst := rst, dbg := {}, imageLock := none, vcode := vcode } ∧
      (s.pads.enMain = true → vcode = s.ao.vcode) := by
  obtain ⟨-, -, -, -, ⟨rst, ao⟩, main, -⟩ := s.resetAs_keeps cause detail
  rw [State.chipReset_eq]
  split
  · exact ⟨rst, _, ao, fun _ => rfl⟩
  · obtain same | ⟨low, raised⟩ := (s.resetAs cause detail).startChip_ao .rstRelease 0
    · exact ⟨rst, _, by rw [same, ao], fun _ => rfl⟩
    · exact ⟨rst, 30, by rw [raised, ao], fun high => by simp [main, high] at low⟩

theorem State.SameBase.ten {s s' : State} (h : s.SameBase s') (t : Ten) : s'.ten t = s.ten t := by
  simp only [State.ten, h.1]

/-- What a chip reset leaves of the non-volatile memories and the bindings. -/
theorem State.chipReset_keeps (s : State) (cause detail : Nat) :
    let r := s.chipReset cause detail
    r.fuses = s.fuses ∧ r.keys = s.keys ∧ r.icb = s.icb ∧ r.store = s.store ∧
      ∀ t, r.ten t = (s.ten t).restarted s.store.parts[t] := by
  intro r
  obtain ⟨fuses, keys, icb, store, -, -, ten⟩ := s.resetAs_keeps cause detail
  have base : (s.resetAs cause detail).SameBase r := by
    unfold r
    rw [State.chipReset_eq]
    split
    · exact ⟨rfl, rfl, rfl, rfl, rfl⟩
    · exact (s.resetAs cause detail).startChip_sameBase _ _
  obtain ⟨-, fuses', icb', keys', store'⟩ := id base
  exact ⟨fuses'.trans fuses, keys'.trans keys, icb'.trans icb, store'.trans store, fun t => (base.ten t).trans (ten t)⟩

/-! ### RST_N and VBAT -/

theorem exec_rstNLow_between {s : State} {ns : Nat} (low : 200 ≤ ns) (high : ns < 1000) (powered : s.pads.powered = true) :
    exec (.rstNLow ns) s = .next (if bit s.freeVal 0 then ({ s.freed with pads.rstN := false } : State).chipReset 0x02 0
      else s.freed) := by
  show execRstNLow ns s = _
  simp [execRstNLow, powered, Nat.not_lt.2 low, Nat.not_le.2 high]

/-- The state in which `RST_N` is released (R38, R93). -/
def State.released (s : State) (gpio0 : Bool) : State :=
  { s with pads.rstN := true, pads.strap := gpio0, boot.releaseAt := s.now, ao.spent := 0,
           pads.gpio := (s.pads.gpio &&& 0xFFFFFE#24) ||| BitVec.ofNat 24 (b2n gpio0) }

theorem exec_rstNRelease {s : State} {g : Bool} (held : s.pads.rstN = false) (powered : s.pads.powered = true) :
    exec (.rstNRelease g) s = .next ((s.released g).startChip .rstRelease 0) := by
  show execRstNRelease g s = _
  rw [execRstNRelease, if_neg (by rw [held, powered]; decide)]
  rfl

/-- Settles O8: the wake of a start touches of the always-on domain only the code of a regulator that it raises. -/
theorem resets : Obligations.Resets := by
  refine ⟨fun s => ⟨fun ns long powered => ?_, fun ns short => ?_, fun ns low high powered => ?_,
    fun g held powered aux main => ?_, fun mv off rise => ?_, fun mv fall => ?_⟩, fun s cause detail => ?_⟩
  · show execRstNLow ns s = _
    have seen : ¬ns < 200 := by omega
    simp [execRstNLow, powered, long, seen]
  · show execRstNLow ns s = _
    simp [execRstNLow, short]
  · refine ⟨_, exec_rstNLow_between low high powered, ?_⟩
    split
    · exact .inr rfl
    · exact .inl rfl
  · rw [exec_rstNRelease held powered]
    obtain ⟨dom, eq⟩ := State.startChip_enabled (s := s.released g) aux main .rstRelease 0
    rw [eq]
    exact ⟨_, rfl, rfl, rfl, rfl, rfl, rfl, rfl, rfl⟩
  · show execVbatPowerOn mv s = _
    simp [execVbatPowerOn, off, rise]
  · obtain ⟨fuses, keys, -, -, -, -, -⟩ := s.resetUnits_keeps
    refine ⟨_, rfl, ?_⟩
    rw [if_pos fall]
    exact ⟨rfl, fun d => by simp [State.dom], rfl, rfl, rfl, fuses, keys, rfl⟩
  · obtain ⟨fuses, keys, icb, store, ten⟩ := s.chipReset_keeps cause detail
    obtain ⟨rst, vcode, ao, code⟩ := s.chipReset_ao cause detail
    intro s'
    have same : s'.ao = { s.ao with rst := rst, dbg := {}, imageLock := none, vcode := vcode } := ao
    rw [same]
    refine ⟨rfl, rfl, rfl, code, rfl, rfl, fuses, icb, store, keys, fun t => ?_, fun t => ?_⟩
    · exact (congrArg Tenant.st (ten t)).trans rfl
    · rw [ten t]
      exact ⟨rfl, rfl⟩

end Sys2Proof.Machine


/-!
SUPPORT. Domain and core resets (R89, R90) and the recovery download (R103).
-/

namespace Sys2Proof.Machine

/-- Settles O9. -/
theorem domainAndCoreResets : Obligations.DomainAndCoreResets := by
  refine ⟨fun s d at_ rest due on => ?_, fun s runs => ⟨fun first => ?_, fun second => ?_, fun first => ?_, fun third => ?_,
    fun down => ?_, fun down => ?_⟩⟩
  · show execDomainResetStart s = _
    have powered : ¬(!({ s.reach at_ with boot.domReset := rest } : State).domOn d) = true := by
      show ¬(!s.domOn d) = true
      simp [on]
    rw [execDomainResetStart, due]
    exact congrArg Host.Outcome.next (if_neg powered)
  · show execCoreWatchdogExpiry 0 s = _
    simp [execCoreWatchdogExpiry, runs, State.window0, first]
  · show execCoreWatchdogExpiry 0 s = _
    simp [execCoreWatchdogExpiry, runs, State.window0, second]
  · show execCoreWatchdogExpiry 1 s = _
    simp [execCoreWatchdogExpiry, runs, first]
  · show execCoreWatchdogExpiry 1 s = _
    simp [execCoreWatchdogExpiry, runs, third]
  · show execCoreRestartDone 0 s = _
    simp [execCoreRestartDone, runs, down]
  · show execCoreRestartDone 1 s = _
    simp [execCoreRestartDone, runs, down]

/-! ### Recovery -/

/-- Nothing posted, nothing to drain (R114). -/
theorem State.drainAll_idle {s : State} {p : Fin 4} (idle : s.mbx.ports[p].buf = []) : s.drainAll p = s := by
  unfold State.drainAll
  rw [idle]
  rfl

/-- A command of the recovery window with nothing posted on SPI0. -/
theorem State.inRecovery_idle {s : State} (recovery : s.boot.phase = .recovery) (idle : s.mbx.ports[(0 : Fin 4)].buf = [])
    (f : State → State) : s.inRecovery f = f s := by
  unfold State.inRecovery
  rw [State.drainAll_idle idle, if_pos recovery]

/-- An image that is whole and well formed but of a version below the least one fails with `SVN` (R97, R103). -/
theorem stagedErr_svn {minSvn : Nat} {img : List Byte} (listed : hdrListed img = true) (ok : hdrOk img = true)
    (whole : img.length = 256 + leAt img 8 4) (old : hdrSvn img < minSvn) : stagedErr minSvn img = 6 := by
  simp [stagedErr, listed, ok, whole, old]

/-- Settles O10. -/
theorem recovery : Obligations.Recovery := by
  intro s phase idle
  have command (f : State → State) : s.inRecovery f = f s := State.inRecovery_idle phase idle f
  refine ⟨fun n3 n4 low high => ?_, fun receiving next more crc => ?_, fun receiving whole => ?_, ?_, fun verifying stands => ?_,
    fun verifying listed ok whole old => ?_, fun writing => ⟨_, rfl, ?_⟩, fun writing => ?_⟩
  · show execRcvStart s = _
    simp [execRcvStart, command, n3, n4, Nat.not_lt.2 low, Nat.not_lt.2 high]
  · show execRcvChunk s = _
    simp [execRcvChunk, command, receiving, next, Nat.not_le.2 more, crc]
  · show execRcvFinish s = _
    simp [execRcvFinish, command, receiving, whole]
  · show execRcvReboot s = _
    rw [execRcvReboot, command]
  · show execRecoveryVerified s = _
    simp [execRecoveryVerified, phase, verifying, stands]
  · show execRecoveryVerified s = _
    simp [execRecoveryVerified, phase, verifying, stagedErr_svn listed ok whole old]
  · show execRecoveryWritten true s = _
    simp [execRecoveryWritten, phase, writing]
  · show execRecoveryWritten false s = _
    simp [execRecoveryWritten, phase, writing]

end Sys2Proof.Machine


/-!
SUPPORT. The registers of a window that act on its slots (R109, R122, R155).
-/

namespace Sys2Proof.Machine

theorem State.setSlot_slot (s : State) (t : Ten) (n : SlotIx) (y : Slot) (u : Ten) (m : SlotIx) :
    (s.setSlot t n y).slot u m = if t = u ∧ n = m then y else s.slot u m := s.modSlot_slot t n (fun _ => y) u m

theorem State.flagTen_notices (s : State) (t : Ten) (get : Win → Bool) (f : Win → Win) : s.Notices (s.flagTen t get f) := by
  unfold State.flagTen
  split
  · exact .of_tenants rfl
  · have flagged : s.Notices (s.modTen t fun x => { x with win := f x.win }) :=
      (State.Notices.of_tenants rfl).modTen t fun _ => ⟨rfl, rfl, rfl, rfl, rfl, rfl, rfl⟩
    have told := State.notify_notices (s.modTen t fun x => { x with win := f x.win }) t
    exact ⟨fun u m => (told.slots u m).trans (flagged.slots u m), fun u => (told.st u).trans (flagged.st u),
      fun u => (told.cfg u).trans (flagged.cfg u), fun u => (told.ring u).trans (flagged.ring u),
      fun u => (told.session u).trans (flagged.session u), fun u => (told.vids u).trans (flagged.vids u),
      fun u => (told.floor u).trans (flagged.floor u)⟩

/-- A slot that takes its descriptor (R122). -/
def State.rung (s : State) (t : Ten) (n : SlotIx) : Slot :=
  let y := { s.slot t n with desc := (s.slot t n).cmd }
  { y with
    phase := if s.accepts n then .accepted else .held, order := s.mbx.nextOrder, stop := none, aborters := []
    expired := false, abortAsked := false, core0 := n = 7 ∧ !s.boot.core1Up
    deadline := if s.accepts n && y.timeout ≠ 0 then some (s.now + y.timeout * 1000000) else none }

theorem State.ringSlot_empty {s : State} {t : Ten} {n : SlotIx} (empty : (s.slot t n).phase = .empty) :
    s.ringSlot t n = { s.setSlot t n (s.rung t n) with mbx.nextOrder := s.mbx.nextOrder + 1 } := if_pos empty

theorem State.ringSlot_full {s : State} {t : Ten} {n : SlotIx} (full : (s.slot t n).phase ≠ .empty) :
    s.ringSlot t n = s.flagTen t (·.ringErr) fun w => { w with ringErr := true } := if_neg full

/-- A result acknowledged (R122). -/
def Slot.acked (x : Slot) : Slot := if x.phase = .ready then { x with phase := .empty } else x

/-- The slots of a list acknowledged: the READY ones are EMPTY, and no other changes. -/
theorem foldl_ack_phase (t : Ten) (n : SlotIx) (l : List SlotIx) (s : State) :
    ((l.foldl (fun s n => if (s.slot t n).phase = .ready then s.modSlot t n fun x => { x with phase := .empty } else s)
      s).slot t n).phase = if n ∈ l ∧ (s.slot t n).phase = .ready then .empty else (s.slot t n).phase := by
  induction l generalizing s with
  | nil => simp
  | cons m l ih =>
    rw [List.foldl_cons, ih]
    by_cases ready : (s.slot t m).phase = .ready
    · simp only [ready, if_true, State.modSlot_slot, true_and]
      by_cases same : m = n
      · subst same
        simp [ready]
      · simp [same, Ne.symm same]
    · simp only [ready, if_false]
      by_cases same : m = n
      · subst same
        simp [ready]
      · simp [Ne.symm same]

/-- Settles O12. -/
theorem slotRegisters : Obligations.SlotRegisters := by
  refine ⟨fun s t n => ⟨fun empty accepts => ?_, fun full => ?_⟩, fun s t => ⟨fun v n => ?_, fun v inside => ?_, fun v st => ?_⟩⟩
  · intro x
    have slot (u : Ten) (m : SlotIx) : (s.ringSlot t n).slot u m = if t = u ∧ n = m then s.rung t n else s.slot u m := by
      rw [State.ringSlot_empty empty]
      exact s.setSlot_slot t n _ u m
    have own : x = s.rung t n := (slot t n).trans (if_pos ⟨rfl, rfl⟩)
    rw [own, State.rung, accepts]
    refine ⟨rfl, rfl, rfl, rfl, ?_, fun u m other => ?_, ?_⟩
    · by_cases none_ : ({ s.slot t n with desc := (s.slot t n).cmd } : Slot).timeout = 0
      · exact (if_neg (by simp [none_])).trans (if_pos none_).symm
      · exact (if_pos (by simpa using none_)).trans (if_neg none_).symm
    · rw [slot, if_neg fun e => other (by simp [e.1, e.2])]
    · rw [State.ringSlot_empty empty]
      rfl
  · rw [State.ringSlot_full full]
    exact ⟨s.flagTen_get t fun _ => rfl, (s.flagTen_notices t _ _).slots t n⟩
  · refine (foldl_ack_phase t n _ s).trans ?_
    simp [List.mem_filter]
  · unfold State.bulkBase
    rw [if_pos inside, State.modTen_ten, if_pos rfl]
  · unfold State.heartbeat
    rw [State.modTen_ten, if_pos rfl, if_neg st]

end Sys2Proof.Machine


/-!
SUPPORT. Lane attach (R142, R143).
-/

namespace Sys2Proof.Machine

theorem State.tellPort_ten (s : State) (t u : Ten) : (s.tellPort t).ten u = s.ten u := by
  unfold State.tellPort
  split
  · simp [State.ten]
  · rfl

/-- A session opened is ATTACHED (R140). -/
theorem State.openSession_st (s : State) (t : Ten) (leaseMs : Nat) (hbAlways : Bool) :
    ((s.openSession t leaseMs hbAlways).ten t).st = .attached := by
  unfold State.openSession
  rw [State.tellPort_ten, State.modTen_ten, if_pos rfl]
  rfl

@[simp] theorem State.setEntry_tenants (s : State) (e : Fin 32) (k : Option BankKey) :
    (s.setEntry e k).tenants = s.tenants := by
  unfold State.setEntry
  extract_lets s1
  split <;> rfl

theorem State.setEntry_entry (s : State) (e : Fin 32) (k : Option BankKey) : (s.setEntry e k).entry e = k := by
  unfold State.setEntry State.entry
  dsimp only
  split <;> simp

@[simp] theorem State.firmUse_entry (s : State) (e f : Fin 32) : (s.firmUse e).entry f = s.entry f := by
  unfold State.firmUse State.entry
  extract_lets n own
  split <;> rfl

theorem State.ten_of_tenants {s s' : State} (same : s'.tenants = s.tenants) (t : Ten) : s'.ten t = s.ten t := by
  simp only [State.ten, same]

/-- A frame to the lane for a tenant that may attach there passes the checks before its tag (R143). -/
theorem exec_attachReq {s : State} {l : Fin 2} {dst src payload : List Byte} (link : s.laneLink l = true)
    (ready : s.boot.mbxReady = true) (addressed : dst = List.replicate 6 0xFF ∨ dst = s.laneMac l)
    (few : (s.mbx.attReqs[l].filter fun f => s.now < f + 1000000000).length < 10) (type : byteAt payload 1 = 0x01)
    (names : s.attachNames l payload (Fin.ofNat 8 (byteAt payload 2)) = true) (lease : beAt payload 26 2 = 0) :
    exec (.attachReq l dst src payload) s = .next
      (let t : Ten := Fin.ofNat 8 (byteAt payload 2)
       let recent := s.mbx.attReqs[l].filter fun f => s.now < f + 1000000000
       let s1 : State := { s with mbx.attReqs := s.mbx.attReqs.set l (recent ++ [s.now]) }
       if !s.attachTag payload t then s1.attachFail l t
       else
         let nD := beBytes 8 (s.draw % 2 ^ 64)
         let ses := nextSession (s.ten t).base
         let nT := field payload 4 8
         (s1.drawn.modTen t fun x => { x with
           att.nT := nT, att.nD := nD, att.session := ses, att.leaseMs := beAt payload 26 2,
           att.hbAlways := bit (byteAt payload 28) 0, att.src := src, att.chalAt := some s.now }).macSend l ⟨src, 0x88B5,
           attachFrame 0x81 t (s.ten t).cfg.cred nT nD ses 0 (s.credKey (s.ten t).cfg.cred)⟩) := by
  have here : (dst == List.replicate 6 0xFF || dst == s.laneMac l) = true := by
    rcases addressed with rfl | rfl <;> simp
  have room : decide (10 ≤ (s.mbx.attReqs[l].filter fun f => s.now < f + 1000000000).length) = false := by
    simpa using few
  show execAttachReq l dst src payload s = _
  unfold execAttachReq
  rw [if_neg (by simp [link]), if_neg (by simp only [ready, here, room]; decide)]
  refine congrArg Host.Outcome.next (if_neg ?_)
  rintro (other | other | other)
  · exact other type
  · refine absurd other ?_
    show ¬(!s.attachNames l payload (Fin.ofNat 8 (byteAt payload 2))) = true
    rw [names]
    decide
  · exact other.1 lease

/-- A frame that names a tenant with a right tag is judged by the challenge that stands (R142, R143). -/
theorem exec_attachConf {s : State} {l : Fin 2} {src payload : List Byte} (link : s.laneLink l = true)
    (ready : s.boot.mbxReady = true) (type : byteAt payload 1 = 0x02)
    (names : s.attachNames l payload (Fin.ofNat 8 (byteAt payload 2)) = true)
    (tag : s.attachTag payload (Fin.ofNat 8 (byteAt payload 2)) = true) {c : Nat}
    (challenged : (s.ten (Fin.ofNat 8 (byteAt payload 2))).att.chalAt = some c) :
    exec (.attachConf l src payload) s = .next
      (let t : Ten := Fin.ofNat 8 (byteAt payload 2)
       let a := (s.ten t).att
       if c + 100000000 < s.now ∨ field payload 4 8 ≠ a.nT ∨ field payload 12 8 ≠ a.nD
            ∨ beAt payload 20 4 ≠ a.session.toNat ∨ src ≠ a.src then s.attDrop l
       else
         let key := kdf 1 (s.credKey (s.ten t).cfg.cred) [0x5A, 0x50, 0x49, 0x42]
            ([BitVec.ofNat 8 t.val] ++ a.nT ++ a.nD ++ beBytes 4 a.session.toNat)
         let s1 := if (s.ten t).st = .detached then s else s.resetNow t true none false
         ((((s1.openSession t a.leaseMs a.hbAlways).modTen t fun x => { x with
            session := a.session, base := a.session, ibMac := src, att.chalAt := none }).setEntry (ibEntry t)
              (some { key := key, flags := 0x04, owner := some t })).firmUse (ibEntry t)).macSend l ⟨src, 0x88B5,
            attachFrame 0x82 t (s.ten t).cfg.cred a.nT a.nD a.session Status.ok key⟩) := by
  show execAttachConf l src payload s = _
  simp only [execAttachConf, link, ready, type, names, tag, challenged, Bool.not_true, Bool.false_eq_true, if_false,
    Bool.or_false, ne_eq, not_true_eq_false, decide_false]

theorem attachFrame_type (type : Byte) (t : Ten) (slot : Nat) (nT nD : List Byte) (session : Word) (status : Half)
    (key : List Byte) : byteAt (attachFrame type t slot nT nD session status key) 1 = type.toNat := rfl

/-- Settles O14. -/
theorem laneAttach : Obligations.LaneAttach := by
  refine ⟨fun s l dst src payload => ?_, fun s l t many => ?_, fun s u d locked => ?_⟩
  · intro t recent s1 a
    refine ⟨fun link ready addressed few type names lease => ⟨fun tag => ?_, fun wrong => ?_⟩,
      fun link ready type names tag c challenged => ⟨fun differs => ?_, fun inTime nT nD session from_ detached => ?_⟩⟩
    · refine ⟨_, _, _, exec_attachReq link ready addressed few type names lease, if_neg (by rw [Bool.not_eq_true', Bool.not_eq_false]; exact tag),
        attachFrame_type _ _ _ _ _ _ _ _, ?_⟩
      rw [State.modTen_ten, if_pos rfl]
      exact ⟨rfl, rfl, rfl, rfl, rfl⟩
    · refine (exec_attachReq link ready addressed few type names lease).trans (congrArg Host.Outcome.next (if_pos ?_))
      simpa [t] using wrong
    · exact (exec_attachConf link ready type names tag challenged).trans (congrArg Host.Outcome.next (if_pos differs))
    · have matches_ : ¬(c + 100000000 < s.now ∨ field payload 4 8 ≠ a.nT ∨ field payload 12 8 ≠ a.nD ∨
          beAt payload 20 4 ≠ a.session.toNat ∨ src ≠ a.src) := by
        simpa [nT, nD, session, from_] using inTime
      refine ⟨_, _, _, exec_attachConf link ready type names tag challenged, if_neg matches_,
        attachFrame_type _ _ _ _ _ _ _ _, ?_⟩
      have kept (x : State) (e : Fin 32) (k : Option BankKey) : ((x.setEntry e k).firmUse e).ten t = x.ten t :=
        State.ten_of_tenants (by simp) t
      have key (x : State) (k : BankKey) : ((x.setEntry (ibEntry t) (some k)).firmUse (ibEntry t)).ibKey t = some k.key := by
        show (State.entry _ _).map _ = _
        rw [State.firmUse_entry, State.setEntry_entry]
        rfl
      rw [kept, key, State.modTen_ten, if_pos rfl, if_pos detached]
      exact ⟨rfl, s.openSession_st t _ _, rfl, rfl, rfl⟩
  · unfold State.attachFail
    rw [State.modTen_ten, if_pos rfl]
    have same : (s.attDrop l).ten t = s.ten t := rfl
    exact if_pos (by simpa [same] using many)
  · show execAttachLockoutEnd u s = _
    simp [execAttachLockoutEnd, locked]

end Sys2Proof.Machine


/-!
SUPPORT. The start of a command (R125, R525) and the deadlines of commands and sessions.
-/

namespace Sys2Proof.Machine

theorem State.modTen_st (s : State) (t : Ten) {f : Tenant → Tenant} (keeps : ∀ x, (f x).st = x.st) (u : Ten) :
    ((s.modTen t f).ten u).st = (s.ten u).st := by
  rw [State.modTen_ten]
  split
  · next e => rw [keeps, e]
  · rfl

/-- CC0's visit leaves the condition of every tenant as it is. -/
theorem State.visited_st (s : State) (t u : Ten) : ((s.visited t).ten u).st = (s.ten u).st := by
  unfold State.visited
  dsimp only
  rw [State.modTen_st _ t (by intro; rfl)]
  split
  · rfl
  · show ((s.modTen t fun x => { x with visit := 0 }).ten u).st = _
    exact s.modTen_st t (by intro; rfl) u

theorem State.visited_power (s : State) (t : Ten) : (s.visited t).power = s.power := by
  unfold State.visited
  dsimp only
  split <;> rfl

theorem State.startCommand_faulted {s : State} {t : Ten} {n : SlotIx} (low : n ≠ 7) (faulted : (s.ten t).st = .faulted) :
    s.startCommand t n = s.done t n Status.faultTenant := if_pos ⟨faulted, low⟩

/-- A command that fails a check of its start posts its status (R525). -/
theorem State.startCommand_fails {s : State} {t : Ten} {n : SlotIx} (goes : ¬((s.ten t).st = .faulted ∧ n ≠ 7)) {st : Half}
    (fails : s.startCheck t n = some st) : s.startCommand t n = s.done t n st := by
  rw [State.startCommand, if_neg goes, fails]

theorem State.startCommand_passes {s : State} {t : Ten} {n : SlotIx} (goes : ¬((s.ten t).st = .faulted ∧ n ≠ 7))
    (passes : s.startCheck t n = none) : s.startCommand t n =
      if s.power.entry.isSome ∧ n ≠ 7 then s.done t n Status.state
      else (s.modSlot t n fun x => { x with phase := .running, rights := s.rightsOf t }).touch.toNoon := by
  rw [State.startCommand, if_neg goes, passes]

/-- The command CC0 serves next starts. -/
theorem exec_commandStart_cc0 {s : State} {t : Ten} {n : SlotIx} (ready : s.boot.mbxReady = true) (low : n ≠ 7)
    (up : s.boot.core0Up = true) (next : s.nextServed = some t) (first : s.startable t = some n) :
    exec (.commandStart t n) s = .next ((s.visited t).startCommand t n) := by
  show execCommandStart t n s = _
  rw [execCommandStart, if_neg (by simp [ready]), if_neg low, if_pos ⟨up, next, first⟩]

theorem exec_commandStart_cc1 {s : State} {t : Ten} (ready : s.boot.mbxReady = true)
    (accepted : (s.slot t 7).phase = .accepted) (up : s.coreUp t 7 = true) :
    exec (.commandStart t 7) s = .next (s.startCommand t 7) := by
  show execCommandStart t 7 s = _
  rw [execCommandStart, if_neg (by simp [ready]), if_pos rfl, if_pos ⟨accepted, up⟩]

/-! ### The checks of a start in their order (R525) -/

theorem State.startCheck_opcode {s : State} {t : Ten} {n : SlotIx} (unassigned : needOf (s.slot t n).opcode = none) :
    s.startCheck t n = some Status.opcode := by
  simp [State.startCheck, slotTakes, unassigned]

section
variable {s : State} {t : Ten} {n : SlotIx} (takes : slotTakes n (s.slot t n).opcode = true)
include takes

theorem State.startCheck_descriptor (desc : s.descOk t (s.slot t n) = false) : s.startCheck t n = some Status.param := by
  simp [State.startCheck, takes, desc]

variable (desc : s.descOk t (s.slot t n) = true)
include desc

theorem State.startCheck_session (detached : (s.ten t).st = .detached)
    (kept : s.detachedMay t n (s.slot t n).opcode = false) : s.startCheck t n = some Status.state := by
  simp [State.startCheck, takes, desc, detached, kept]

variable (attached : (s.ten t).st ≠ .detached) {need : Need} (needs : needOf (s.slot t n).opcode = some need)
include attached needs

theorem State.startCheck_authority (lacks : s.meets t need = false)
    (other : s.retiredOwner t (s.slot t n).opcode = false) : s.startCheck t n = some Status.authority := by
  simp [State.startCheck, takes, desc, attached, needs, lacks, other]

theorem State.startCheck_lease (meets : s.meets t need = true) {id : Nat}
    (leased : leaseNeeded (s.slot t n).opcode = some id) (lacks : s.hasLease t id = false) :
    s.startCheck t n = some Status.lease := by
  simp [State.startCheck, takes, desc, attached, needs, meets, leased, lacks]

end

/-- Settles O15. -/
theorem commandStart : Obligations.CommandStart := by
  refine ⟨fun s t n ready => ⟨fun low up next first => ?_, fun accepted up => ⟨fun st fails => ?_, fun passes => ?_⟩⟩,
    fun s t n => ⟨State.startCheck_opcode, State.startCheck_descriptor, State.startCheck_session,
      fun takes desc attached need needs => ⟨State.startCheck_authority takes desc attached needs,
        fun meets id => State.startCheck_lease takes desc attached needs meets⟩⟩⟩
  · have starts := exec_commandStart_cc0 ready low up next first
    have st := s.visited_st t t
    have goes (ok : (s.ten t).st ≠ .faulted) : ¬(((s.visited t).ten t).st = .faulted ∧ n ≠ 7) := fun h => ok (st ▸ h.1)
    have power := s.visited_power t
    refine ⟨fun faulted => ?_, fun ok st fails => ?_, fun ok passes entry => ?_, fun ok passes entry => ?_⟩
    · rw [starts, State.startCommand_faulted low (st.trans faulted)]
    · rw [starts, State.startCommand_fails (goes ok) fails]
    · rw [starts, State.startCommand_passes (goes ok) passes,
        if_pos ⟨by rw [power]; exact Option.isSome_iff_ne_none.2 entry, low⟩]
    · rw [starts, State.startCommand_passes (goes ok) passes, if_neg (by rw [power, entry]; simp)]
  · rw [exec_commandStart_cc1 ready accepted up, State.startCommand_fails (fun h => h.2 rfl) fails]
  · rw [exec_commandStart_cc1 ready accepted up, State.startCommand_passes (fun h => h.2 rfl) passes,
      if_neg fun h => h.2 rfl]

/-- Settles O16. -/
theorem commandDeadlines : Obligations.CommandDeadlines := by
  refine fun s t n => ⟨fun d due up => ?_, fun f guest attached from_ => ?_, fun u d delegated => ?_, fun up => ?_,
    fun d waits drained => ?_, fun d l due lane irq unread => ?_⟩
  · show execCommandTimeout t n s = _
    have core : (((s.reach d).modSlot t n fun x => { x with deadline := none, expired := true }).slot t n).core0 =
        (s.slot t n).core0 := by
      rw [State.modSlot_slot, if_pos (by simp)]
      rfl
    have same : State.coreUp ((s.reach d).modSlot t n fun x => { x with deadline := none, expired := true }) t n = true := by
      unfold State.coreUp
      rw [core]
      exact up
    simp [execCommandTimeout, due, same]
  · show execHeartbeatDeadline t s = _
    simp [execHeartbeatDeadline, guest, attached, from_]
  · show execDelegationExpiry s = _
    simp [execDelegationExpiry, delegated]
  · show execRescueResidueDone s = _
    simp [execRescueResidueDone, up]
  · show execPermissionDrainDone t n s = _
    simp only [execPermissionDrainDone, waits, drained, if_true]
  · show execNoticeFrameRepeat t s = _
    have reached : (s.reach d).ten t = s.ten t := rfl
    simp [execNoticeFrameRepeat, due, lane, reached, irq, unread]

end Sys2Proof.Machine


/-!
SUPPORT. The wake sequence (R73 to R76): the step after the oscillator's in a chip-scope start.
-/

namespace Sys2Proof.Machine

/-- The wake sequence of a chip-scope start that awaits its crystal, the last signal of the step. -/
def crystalWake : WakeSeq :=
  { kind := .powerOn, src := .noon, step := 2, waiting := [.xtOk], doms := [dPLL], raised := [], startAt := 0, pins := 0 }

/-- A state 1 ns after the last release of reset, with that sequence under way. -/
def crystalStart : State := { now := 1, power.wake := some crystalWake }

theorem crystalStart_next :
    firstStep (crystalStart.signalled .xtOk) crystalWake.kind crystalWake.doms (5 - crystalWake.step) (crystalWake.step + 1) =
      (3, [.pllaLock]) := by decide

/-- The model puts the release of reset at the end of the oscillator's step (log entry 411). -/
theorem exec_crystalReady : exec (.wakeStepReady .xtOk) crystalStart =
    .next { (crystalStart.signalled .xtOk).markRelease crystalWake 3 with
      power.wake := some { crystalWake with step := 3, waiting := [.pllaLock] } } := by
  show execWakeStepReady .xtOk crystalStart = _
  rfl

/-- Refutes O23: the last signal of the oscillator's step of a chip-scope start also sets the release of reset
(log entry 411), so more than the sequence's step and its signals changes. -/
theorem not_wakeSequence : ¬ Obligations.WakeSequence := by
  rintro ⟨rows, -⟩
  obtain ⟨-, -, last, -⟩ := rows crystalStart
  have claim := (last crystalWake .xtOk rfl rfl (by decide)).2 3 .pllaLock [] crystalStart_next (by decide)
  rw [exec_crystalReady] at claim
  have release := congrArg (fun s : State => s.boot.releaseAt) (Host.Outcome.next.inj claim)
  exact absurd release (by decide)

end Sys2Proof.Machine


/-!
SUPPORT. The entries to the deep power states (R63, R64) and NIGHT listening (R66 to R72).
-/

namespace Sys2Proof.Machine

/-! ### The end of a notice period (R63, R64) -/

/-- What a floor forbids does not depend on the time. -/
theorem State.reach_entryFloored (s : State) (n : Nat) (e : Entry) : (s.reach n).entryFloored e = s.entryFloored e := rfl

theorem exec_tNoticeExpiry {s : State} {e : Entry} (entry : s.power.entry = some e) (notice : e.stage = .notice) :
    exec .tNoticeExpiry s = .next ((s.reach e.deadline).endNotice e) := by
  show execTNoticeExpiry s = _
  simp [execTNoticeExpiry, entry, notice]

theorem State.endNotice_floored {s : State} {e : Entry} (floored : s.entryFloored e = true) :
    s.endNotice e = { s with power.entry := none } := if_pos floored

theorem State.endNotice_reset {s : State} {e : Entry} (target : e.target = .chipReset) :
    s.endNotice e = ({ s.endAll with power.entry := none } : State).chipReset 0x07 e.byTenant.val := by
  have free : s.entryFloored e = false := by simp [State.entryFloored, target, EntryTarget.state]
  simp [State.endNotice, free, target]

theorem State.endNotice_deep {s : State} {e : Entry} (free : s.entryFloored e = false) (target : e.target ≠ .chipReset) :
    s.endNotice e = if s.endAll.inService then
        { s.endAll.sendDeregNotice 5 with
          power.entry := some { e with stage := .dereg, deadline := s.endAll.now + 4000000 } }
      else s.endAll.afterNotice e := by
  rw [State.endNotice, if_neg (by simp [free])]
  dsimp only
  split
  · contradiction
  · rfl

/-! ### NIGHT -/

theorem exec_deregNoticeTimeout_wait {s : State} {w : ActWait} (wait : s.reg.wait = some w)
    (other : ∀ e, s.power.entry = some e → e.stage ≠ .dereg) :
    exec .deregNoticeTimeout s = .next ((s.reach w.by_).finishWait w) := by
  show execDeregNoticeTimeout s = _
  unfold execDeregNoticeTimeout
  cases entry : s.power.entry with
  | none => simp [wait]
  | some e => simp [wait, other e entry]

/-- The end of a listen multiframe in NIGHT (R69, R70). -/
def State.listenOver (s : State) (met : Bool) : State :=
  let run := if met then 0 else s.power.night.missedRun + 1
  let s1 := { s with power.night.missedRun := run,
                     power.night.missed := if met then s.power.night.missed else satInc 65535 s.power.night.missed }
  if run = 3 then s1.nightTrigger 0x10
  else
    let s2 := (({ s1 with power.wake := none } : State).powerOffAll [dLNA, dFRM]).dpllLoss
    { s2 with power.night := { s2.power.night with listening := false }.advance }

theorem exec_nightListenEnd {s s0 : State} (night : s.power.pstate = .night) (stays : s.power.night.exiting = false)
    (reached : s0 = s.reachTt (s.power.night.nextListen + 2000000)) :
    exec .nightListenEnd s =
      .next (s0.listenOver (s0.power.night.listening && s0.activeSync && !s0.act.unproven)) := by
  subst reached
  show execNightListenEnd s = _
  rw [execNightListenEnd, if_neg (by simp [night, stays])]
  rfl

/-! ### What PERMAFROST leaves (R53, R64, Table 4.1) -/

/-- From `s` to `s'` the fuses, the image control block and the wake configuration stand. -/
structure State.Still (s s' : State) : Prop where
  fuses : s'.fuses = s.fuses
  icb : s'.icb = s.icb
  wcfg : s'.power.wcfg = s.power.wcfg

section
variable {s0 : State}

theorem State.Still.refl (s : State) : s.Still s := ⟨rfl, rfl, rfl⟩

theorem State.Still.trans {a b c : State} (h : a.Still b) (k : b.Still c) : a.Still c :=
  ⟨k.fuses.trans h.fuses, k.icb.trans h.icb, k.wcfg.trans h.wcfg⟩

/-- A record update of any other fields: the three premises are `rfl`. -/
theorem State.Still.upd {s : State} (h : s0.Still s) {pending now rand free out ao pads tw power boot icb tenants store mbx
    evt sram time clk lanes fr reg us pars tm cip keys ens nvm sec fuses fsec firn aud} (hf : fuses = s.fuses)
    (hi : icb = s.icb) (hw : power.wcfg = s.power.wcfg) :
    s0.Still (State.mk pending now rand free out ao pads tw power boot icb tenants store mbx evt sram time clk lanes fr reg
      us pars tm cip keys ens nvm sec fuses fsec firn aud) :=
  h.trans ⟨hf, hi, hw⟩

theorem State.Still.ite {a b : State} {c : Prop} [Decidable c] (ha : s0.Still a) (hb : s0.Still b) :
    s0.Still (if c then a else b) := by
  split <;> assumption

theorem State.Still.foldl {s : State} {α : Type} {f : State → α → State} {l : List α} (h : s0.Still s)
    (step : ∀ x a, s0.Still x → s0.Still (f x a)) : s0.Still (l.foldl f s) :=
  List.foldlRecOn l f h fun x hx a _ => step x a hx

theorem State.Still.posts {s s' : State} (h : s0.Still s) (k : s.PostsTo s') : s0.Still s' := by
  obtain ⟨_, _, _, _, _, _, _, rfl⟩ := k
  exact h.upd rfl rfl rfl

variable {s : State} (h : s0.Still s)
include h

theorem State.Still.raise (i : Fin 256) (data : Word) : s0.Still (s.raise i data) := by
  obtain ⟨_, eq⟩ := s.raise_eq i data
  rw [eq]
  exact h.upd rfl rfl rfl

theorem State.Still.setDom (d : Dom) (x : DomState) : s0.Still (s.setDom d x) := h.upd rfl rfl rfl

/-! Firn's engine and the audio ports lose power. -/

theorem State.Still.engineLeft : s0.Still s.engineLeft := by
  have out : s0.Still { s with firn.outBy := none } := h.upd rfl rfl rfl
  unfold State.engineLeft
  split
  · refine .ite h ?_
    dsimp only
    split
    · exact out.posts (State.answer_posts _ _ _ _)
    · exact out
  · exact h

theorem State.Still.firnSettled : s0.Still s.firnSettled := by
  unfold State.firnSettled State.revocationOver
  exact .ite h (.ite h (h.upd rfl rfl rfl))

theorem State.Still.firnTouch : s0.Still s.firnTouch := by
  unfold State.firnTouch
  exact .ite (h.upd rfl rfl rfl) h

theorem State.Still.dropJob (j : FJob) : s0.Still (s.dropJob j) := by
  unfold State.dropJob
  dsimp only
  exact .ite (h.upd rfl rfl rfl) (h.upd rfl rfl rfl)

theorem State.Still.abortJob (j : FJob) (reason : Nat) : s0.Still (s.abortJob j reason) := by
  have dropped := h.dropJob j
  have posted (st : Half) (data : List Byte) :
      s0.Still (if j.orphan then s.dropJob j else (s.dropJob j).post j.ten j.slot st data) :=
    .ite dropped (dropped.posts (State.post_posts _ _ _ _ _ _))
  unfold State.abortJob
  exact (((((posted _ _).upd rfl rfl rfl).raise _ _).firnTouch).engineLeft).firnSettled

theorem State.Still.firnOff : s0.Still s.firnOff := by
  have aborted : s0.Still (s.firn.jobs.foldl (fun s j => s.abortJob j 4) s) := h.foldl fun x j hx => hx.abortJob j 4
  exact aborted.upd rfl rfl rfl

theorem State.Still.audOff : s0.Still s.audOff := by
  have ports : s0.Still ((List.finRange 3).foldl (fun s p => s.cutPort p) s) := h.foldl fun x p hx => hx.upd rfl rfl rfl
  have lines := ports.foldl (f := fun s n => s.closeTps n) (l := List.finRange 2) fun x n hx => hx.upd rfl rfl rfl
  exact lines.upd rfl rfl rfl

/-! The lanes and the burst engine lose power. -/

theorem State.Still.localDown (l : Fin 2) : s0.Still (s.localDown l) := by
  unfold State.localDown
  extract_lets any up s1 s2 s3 _ _ s4
  have down : s0.Still s2 := h.upd rfl rfl rfl
  clear_value s2
  have freed : s0.Still s3 := down.foldl fun x t hx => .ite (hx.upd rfl rfl rfl) hx
  clear_value s3
  have told : s0.Still s4 := .ite (freed.upd rfl rfl rfl) freed
  exact .ite (told.raise _ _) told

theorem State.Still.offLocal (l : Fin 2) : s0.Still (s.offLocal l) := by
  have dropped : s0.Still (s.dropLocal l) := .ite (h.localDown l) h
  exact dropped.upd rfl rfl rfl

theorem State.Still.cutLane (l : Fin 2) : s0.Still (s.cutLane l) := by
  have dark : s0.Still { s with pads.txdisLow := s.pads.txdisLow &&& ~~~(1#2 <<< l.val) } := h.upd rfl rfl rfl
  unfold State.cutLane
  dsimp only
  split
  · exact .ite dark (h.upd rfl rfl rfl)
  · exact dark

theorem State.Still.cutBurst : s0.Still s.cutBurst := (h.cutLane 0).cutLane 1

theorem State.Still.offLane (l : Fin 2) : s0.Still (s.offLane l) := by
  unfold State.offLane
  dsimp only
  exact .ite (h.upd rfl rfl rfl) (h.upd rfl rfl rfl)

theorem State.Still.returnTo (ts : List Take) (q : Fin 64) : s0.Still (s.returnTo ts q) := by
  unfold State.returnTo
  split
  · exact h
  · exact h.upd rfl rfl rfl

theorem State.Still.undo (g : Fin 8) : s0.Still (s.undo g) := by
  unfold State.undo
  extract_lets x s1 s2
  have cleared : s0.Still s1 := h.upd rfl rfl rfl
  have back : s0.Still s2 := cleared.foldl fun y q hy => hy.returnTo _ q
  exact .ite h (back.upd rfl rfl rfl)

theorem State.Still.dropBursts (g : Fin 8) (gone : List Burst) (keep : Bool) : s0.Still (s.dropBursts g gone keep) := by
  unfold State.dropBursts
  extract_lets stays ivs lmms left s1
  have queued : s0.Still s1 := h.foldl fun _ _ hx => hx.upd rfl rfl rfl
  exact queued.upd rfl rfl rfl

theorem State.Still.withdrawGs (g : Fin 8) : s0.Still (s.withdrawGs g) := by
  have shorter (kept : List Burst) : s0.Still (s.modGs g fun x => { x with bursts := kept }) := h.upd rfl rfl rfl
  exact ((shorter _).dropBursts g _ false).upd rfl rfl rfl

theorem State.Still.withdrawAll : s0.Still s.withdrawAll := h.foldl fun _ g hx => hx.withdrawGs g

/-! The parser loses power, and time its session. -/

theorem State.Still.persistVersion : s0.Still s.persistVersion := by
  unfold State.persistVersion
  exact .ite (State.Still.raise (h.upd rfl rfl rfl) _ _) h

theorem State.Still.makeCurrent (tag : Fin 4) : s0.Still (s.makeCurrent tag) :=
  State.Still.persistVersion (State.Still.raise (h.upd rfl rfl rfl) _ _)

theorem State.Still.freeDrained (tag : Fin 4) : s0.Still (s.freeDrained tag) := by
  have told (p : Parser) (d : Word) : s0.Still (State.raise { s with pars := p } 0x61 d) :=
    State.Still.raise (h.upd rfl rfl rfl) _ _
  unfold State.freeDrained
  dsimp only
  split
  · exact ((told _ _).upd rfl rfl rfl).makeCurrent _
  · exact told _ _

theorem State.Still.drained : s0.Still (match s.pars.drain with | some d => s.freeDrained d | none => s) := by
  split
  · exact h.freeDrained _
  · exact h

theorem State.Still.stopParser : s0.Still s.stopParser := by
  have stopped (p : Parser) : s0.Still { s with pars := p } := h.upd rfl rfl rfl
  exact (stopped _).drained.drained

theorem State.Still.closeTime : s0.Still s.closeTime := by
  unfold State.closeTime State.leftHoldover
  dsimp only
  exact .ite h (State.Still.raise (.ite (State.Still.raise (h.upd rfl rfl rfl) _ _) (h.upd rfl rfl rfl)) _ _)

theorem State.Still.timeToFrost : s0.Still s.timeToFrost := h.closeTime.upd rfl rfl rfl

/-! Domains lose power. -/

theorem State.Still.powerOff (d : Dom) : s0.Still (s.powerOff d) := by
  unfold State.powerOff
  extract_lets _ s2 _ s3 s4 _ _ _ _ s1
  have cut : s0.Still s2 := h.withdrawAll.cutBurst
  clear_value s2
  have freed : s0.Still s3 := cut.upd rfl rfl rfl
  clear_value s3
  have undone : s0.Still ((List.finRange 8).foldl (fun s g => s.undo g) s3) := freed.foldl fun x g hx => hx.undo g
  refine State.Still.setDom ?_ d .off
  exact .ite h.firnOff <| .ite h.audOff <| .ite ((h.offLocal 0).offLocal 1) <|
    .ite ((h.cutBurst.offLane 0).offLane 1) <| .ite (h.upd rfl rfl rfl) <| .ite (undone.stopParser.upd rfl rfl rfl) <|
    .ite (h.upd rfl rfl rfl) <| .ite (h.upd rfl rfl rfl) <| .ite (h.upd rfl rfl rfl) h

theorem State.Still.powerOffAll (ds : List Dom) : s0.Still (s.powerOffAll ds) := h.foldl fun _ d hx => hx.powerOff d

end

/-- The state after steps 3 to 9 of R64 but for PD_TKP and PD_AO, for PERMAFROST: every unit has lost its power. -/
def State.powerless (s : State) : State :=
  (((((s.zeroiseAll.powerOffAll [dINF, dAUD, dLNL, dPKT, dCIP, dFRM, dLNA]).timeToFrost).powerOffAll [dPLL, dNVM]).powerOff
    dMEM).powerOff dCTL)

/-- The commit point and the enables down (R64, R39). -/
def State.committed (s : State) (lane : Fin 2) : State :=
  { s with
    ao.cfg := s.power.wcfg, sec.trace := false, pads.txdisLow := 0, tw := {}
    power := s.power.asleep .permafrost lane
    boot := { s.boot with mbxReady := false, core0Up := false, core1Up := false, phase := .held } }

/-- Every enable is low, and PD_TKP and PD_AO are still powered. -/
def State.unpowered (s : State) : State := (s.powerless.committed (s.activeLane.getD 0)).enablesDown

theorem State.unpowered_fields (s : State) : s.unpowered.fuses = s.powerless.fuses ∧ s.unpowered.icb = s.powerless.icb ∧
    s.unpowered.ao.cfg = s.powerless.power.wcfg ∧ s.unpowered.pads.enAux = false ∧ s.unpowered.pads.enMain = false ∧
    s.unpowered.pads.txdisLow = 0 := by
  unfold State.unpowered
  generalize s.powerless = x
  exact ⟨rfl, rfl, rfl, rfl, rfl, rfl⟩

/-- PERMAFROST before a pin that is active wakes the terminal. -/
def State.frost (s : State) : State := (s.unpowered.powerOff dTKP).frozen

theorem State.frozen_ao (s : State) : s.frozen.ao = s.ao := rfl

theorem State.frozen_pads (s : State) : s.frozen.pads = s.pads := rfl

theorem State.frozen_fuses (s : State) : s.frozen.fuses = s.fuses := s.resetUnits_keeps.1

theorem State.frozen_icb (s : State) : s.frozen.icb = s.icb := s.resetUnits_keeps.2.2.1

theorem State.enterDeep_frost {s : State} {e : Entry} (frost : e.target = .permafrost) :
    s.enterDeep e = s.frost.levelPins.foldl (fun s i => s.aoAssert (Fin.ofNat 32 i.val) 1) s.frost := by
  have off : ¬(e.retain = true ∧ (!decide (e.target = .permafrost)) = true) := by simp [frost]
  unfold State.enterDeep
  dsimp only
  rw [if_neg off, if_pos frost, if_pos frost, if_pos frost, if_pos frost]
  rfl

theorem State.powerless_still (s : State) : s.Still s.powerless := by
  have keys : s.Still s.zeroiseAll := ⟨rfl, rfl, rfl⟩
  exact ((((keys.powerOffAll _).timeToFrost).powerOffAll _).powerOff _).powerOff _

/-- No unit is in PD_TKP. -/
theorem State.powerOff_tkp (s : State) : s.powerOff dTKP = s.setDom dTKP .off := by
  unfold State.powerOff
  dsimp only
  rw [if_neg (by decide), if_neg (by decide), if_neg (by decide), if_neg (by decide), if_neg (by decide),
    if_neg (by decide), if_neg (by decide), if_neg (by decide), if_neg (by decide)]

/-- With no pin in the wake configuration none is active. -/
theorem State.levelPins_none {s : State} (none_ : s.ao.cfg.set = 0) : s.levelPins = [] := by
  simp [State.levelPins, none_]

/-- What PERMAFROST is (R53, R64, Table 4.1). -/
theorem State.enterDeep_permafrost {s : State} {e : Entry} (frost : e.target = .permafrost) (quiet : s.power.wcfg.set = 0) :
    let s' := s.enterDeep e
    s'.power.pstate = .permafrost ∧ s'.dom 0 = .on ∧ (∀ d : Dom, d ≠ 0 → s'.dom d = .off) ∧ s'.pads.enAux = false ∧
      s'.pads.enMain = false ∧ s'.pads.txdisLow = 0 ∧ s'.boot.mbxReady = false ∧ s'.power.wake = none ∧
      s'.fuses = s.fuses ∧ s'.icb = s.icb := by
  intro s'
  obtain ⟨fuses, icb, wcfg⟩ := s.powerless_still
  obtain ⟨fuses', icb', cfg', aux, main, txdis⟩ := s.unpowered_fields
  have watch : s.frost.ao.cfg.set = 0 := by
    rw [State.frost, State.frozen_ao, State.powerOff_tkp, State.setDom_ao, cfg', wcfg, quiet]
  have same : s' = s.frost := by
    show s.enterDeep e = _
    rw [State.enterDeep_frost frost, State.levelPins_none watch]
    rfl
  have pads : s.frost.pads = s.unpowered.pads := by
    rw [State.frost, State.frozen_pads, State.powerOff_tkp, State.setDom_pads]
  have dom (d : Dom) : s.frost.dom d = ((Vector.replicate 13 DomState.off).set 0 .on)[d] := rfl
  have others : ∀ d : Dom, d ≠ 0 → ((Vector.replicate 13 DomState.off).set 0 .on)[d] = .off := by decide
  rw [same, pads]
  refine ⟨rfl, rfl, fun d other => (dom d).trans (others d other), aux, main, txdis, rfl, rfl, ?_, ?_⟩
  · rw [State.frost, State.frozen_fuses, State.powerOff_tkp, State.setDom_fuses, fuses', fuses]
  · rw [State.frost, State.frozen_icb, State.powerOff_tkp, State.setDom_icb, icb', icb]

/-- Settles O22. -/
theorem entriesAndDeepStates : Obligations.EntriesAndDeepStates := by
  refine ⟨fun s e s1 entry ended => ⟨fun notice target => ?_, fun notice floored => ?_, fun notice target free out => ?_,
      fun notice target free serves => ?_, fun dereg => ?_, fun w other wait => ?_⟩,
    fun s w none_ wait => exec_deregNoticeTimeout_wait wait (by simp [none_]),
    fun s e => State.enterDeep_permafrost, fun s => ⟨fun d due => ⟨_, rfl, ?_⟩,
      fun s1 awake granted reached => ⟨fun ready => ?_, fun over_ => ?_⟩, fun night quiet stays idle => ?_,
      fun s0 night stays reached => ⟨fun listens sync proven => ⟨_, rfl, ?_⟩, fun lost third => ?_⟩⟩⟩
  · rw [exec_tNoticeExpiry entry notice, State.endNotice_reset target, ended]
  · rw [exec_tNoticeExpiry entry notice, State.endNotice_floored (s := s.reach _) floored]
  · rw [exec_tNoticeExpiry entry notice, State.endNotice_deep (s := s.reach _) free target, ← ended, out]
    rfl
  · rw [exec_tNoticeExpiry entry notice, State.endNotice_deep (s := s.reach _) free target, ← ended, serves]
    rfl
  · show execDeregNoticeTimeout s = _
    simp [execDeregNoticeTimeout, entry, dereg]
  · refine exec_deregNoticeTimeout_wait wait fun e' entry' => ?_
    rwa [Option.some.inj (entry'.symm.trans entry)]
  · show execSleepAnswerTimeout s = _
    rw [execSleepAnswerTimeout, due]
    rfl
  · show execNightListenWake s = _
    simp [execNightListenWake, awake, granted, ← reached, ready]
  · show execNightListenWake s = _
    simp [execNightListenWake, awake, granted, ← reached, over_]
  · show execNightListenWake s = _
    simp [execNightListenWake, night, quiet, stays, idle]
  · rw [exec_nightListenEnd night stays reached, listens, sync, proven]
    rfl
  · rw [exec_nightListenEnd night stays reached, lost, Bool.and_false, Bool.false_and, State.listenOver]
    simp only [third, Bool.false_eq_true, if_false, if_true]

end Sys2Proof.Machine


/-!
SUPPORT. The event router (chapter 07): latches and their service, delivery, and the `EVT` commands.
-/

namespace Sys2Proof.Machine

/-! ### Extremes found by a fold -/

theorem le_foldl_max {α : Type} (f : α → Nat) (l : List α) (m : Nat) :
    m ≤ l.foldl (fun m i => max m (f i)) m ∧ ∀ i ∈ l, f i ≤ l.foldl (fun m i => max m (f i)) m := by
  induction l generalizing m with
  | nil => simp
  | cons a l ih =>
    obtain ⟨start, rest⟩ := ih (max m (f a))
    exact ⟨(le_max_left _ _).trans start,
      List.forall_mem_cons.2 ⟨(le_max_right _ _).trans start, rest⟩⟩

theorem foldl_min_le {α : Type} (f : α → Nat) (l : List α) (m : Nat) :
    l.foldl (fun m i => min m (f i)) m ≤ m ∧ ∀ i ∈ l, l.foldl (fun m i => min m (f i)) m ≤ f i := by
  induction l generalizing m with
  | nil => simp
  | cons a l ih =>
    obtain ⟨start, rest⟩ := ih (min m (f a))
    exact ⟨start.trans (min_le_left _ _),
      List.forall_mem_cons.2 ⟨start.trans (min_le_right _ _), rest⟩⟩

/-- The first element of an increasing list that meets a condition is the least one that does. -/
theorem find?_least {n : Nat} {l : List (Fin n)} (sorted : l.Pairwise (· < ·)) {p : Fin n → Bool} {i j : Fin n}
    (found : l.find? p = some i) (mem : j ∈ l) (holds : p j = true) : i ≤ j := by
  obtain ⟨-, before, after, rfl, none_before⟩ := List.find?_eq_some_iff_append.1 found
  obtain early | rfl | late : j ∈ before ∨ j = i ∨ j ∈ after := by simpa using mem
  · have := none_before j early
    simp [holds] at this
  · exact le_refl j
  · exact ((List.pairwise_cons.1 (List.pairwise_append.1 sorted).2.1).1 j late).le

/-! ### Latches (R164, R166) -/

theorem exec_eventSourceAssert {s : State} {src : Fin 256} {data : Word} (router : 0x20 ≤ src.val) (other : src.val ≠ 0xF0)
    (can : s.canAssert src = true) :
    exec (.eventSourceAssert src data) s = .next (s.modSource src fun x => x.assert s.ttNs s.ttEst data) := by
  show execEventSourceAssert src data s = _
  simp [execEventSourceAssert, Nat.not_lt.2 router, State.raise, can, other]

/-- The latches that the router serves next: those that are set, and 0xF0 for the directed events. -/
def State.latched (s : State) : List (Fin 256) :=
  (List.finRange 256).filter fun i => if i.val = 0xF0 then s.evt.directed != [] else (s.source i).latch.isSome

theorem State.nextLatch_eq (s : State) : s.nextLatch = s.latched.find? fun i =>
    (s.source i).prio.toNat == s.latched.foldl (fun m i => max m (s.source i).prio.toNat) 0 := rfl

theorem State.latched_sorted (s : State) : s.latched.Pairwise (· < ·) :=
  (List.pairwise_lt_finRange 256).filter _

/-- The router's choice: the highest `PRIO`, then the lowest number (R166). -/
theorem State.nextLatch_first {s : State} {i j : Fin 256} (next : s.nextLatch = some i) (mem : j ∈ s.latched) :
    (s.source j).prio ≤ (s.source i).prio ∧ ((s.source j).prio = (s.source i).prio → i ≤ j) := by
  rw [State.nextLatch_eq] at next
  have top := List.find?_some next
  simp only [beq_iff_eq] at top
  refine ⟨?_, fun same => find?_least s.latched_sorted next mem (by simpa only [beq_iff_eq, same] using top)⟩
  rw [BitVec.le_def, top]
  exact (le_foldl_max (fun i => (s.source i).prio.toNat) _ _).2 j mem

theorem exec_eventLatchServe_source {s : State} {i : Fin 256} {l : Latch} (on : s.domOn dCTL = true)
    (next : s.nextLatch = some i) (other : i.val ≠ 0xF0) (latch : (s.source i).latch = some l) :
    exec .eventLatchServe s = .next ((s.modSource i fun x => { x with latch := none }).deliverEvent i l) := by
  show execEventLatchServe s = _
  simp [execEventLatchServe, on, next, other, latch]

/-- Settles O26. -/
theorem latchRules : Obligations.LatchRules := by
  refine fun s => ⟨fun src data router other can en free => ?_, fun src data l router other can en full => ?_,
    fun i j next other set_ => ?_, fun i l on next other latch => exec_eventLatchServe_source on next other latch,
    fun d rest on next directed => ?_, fun d due irq unread => ?_⟩
  · refine ⟨_, exec_eventSourceAssert router other can, ?_⟩
    rw [State.modSource_source, if_pos rfl]
    refine ⟨by simp [Source.assert, en, free], by simp [Source.assert, en, free], fun i ne => ?_, rfl⟩
    rw [State.modSource_source, if_neg (Ne.symm ne)]
  · refine ⟨_, exec_eventSourceAssert router other can, ?_⟩
    rw [State.modSource_source, if_pos rfl]
    exact ⟨by simp [Source.assert, en, full], by simp [Source.assert, en, full]⟩
  · exact State.nextLatch_first next (List.mem_filter.2 ⟨List.mem_finRange j, by simpa [other] using set_⟩)
  · show execEventLatchServe s = _
    simp [execEventLatchServe, on, next, directed]
  · show execMbxNoticeRepeat s = _
    have reached : (s.reach d).ten 0 = s.ten 0 := rfl
    simp [execMbxNoticeRepeat, due, reached, irq, unread]

/-! ### Delivery (R133, R134, R169, R172) -/

/-- A notice changes its own marks of a tenant alone. -/
theorem State.notify_ten (s : State) (t u : Ten) : ∃ seq by_ read,
    (s.notify t).ten u = { s.ten u with noticeSeq := seq, noticeBy := by_, statusRead := read } := by
  have same (x : State) (h : x.tenants = s.tenants) : x.ten u = s.ten u := State.ten_of_tenants h u
  have marked (x : State) (h : x.tenants = s.tenants) (f : Tenant → Tenant)
      (hf : ∀ y : Tenant, ∃ seq by_ read, f y = { y with noticeSeq := seq, noticeBy := by_, statusRead := read }) :
      ∃ seq by_ read, (x.modTen t f).ten u = { s.ten u with noticeSeq := seq, noticeBy := by_, statusRead := read } := by
    rw [State.modTen_ten]
    split
    · next e => rw [e, same x h]; exact hf _
    · exact ⟨_, _, _, same x h⟩
  have kept : ∃ seq by_ read, s.ten u = { s.ten u with noticeSeq := seq, noticeBy := by_, statusRead := read } := ⟨_, _, _, rfl⟩
  unfold State.notify State.sendNotice
  split
  · dsimp only
    split
    · split
      · exact marked _ (by simp) _ fun _ => ⟨_, _, _, rfl⟩
      · exact kept
    · split
      · exact marked _ (by simp) _ fun _ => ⟨_, _, _, rfl⟩
      · exact kept
  · exact kept

/-- A flag of `MBX_STATUS` set changes the flags of its tenant and the marks of its notice. -/
theorem State.flagTen_ten (s : State) (t u : Ten) (get : Win → Bool) (f : Win → Win) : ∃ win seq by_ read,
    (s.flagTen t get f).ten u = { s.ten u with win := win, noticeSeq := seq, noticeBy := by_, statusRead := read } ∧
      (win = (s.ten u).win ∨ win = f (s.ten u).win) := by
  unfold State.flagTen
  split
  · exact ⟨_, _, _, _, rfl, .inl rfl⟩
  · obtain ⟨seq, by_, read, told⟩ := State.notify_ten (s.modTen t fun x => { x with win := f x.win }) t u
    rw [State.modTen_ten] at told
    split at told
    · next e => exact ⟨f (s.ten u).win, seq, by_, read, by rw [told, e], .inr rfl⟩
    · exact ⟨_, seq, by_, read, told, .inl rfl⟩

theorem State.deliver_detached {s : State} {t : Ten} (detached : (s.ten t).st = .detached) (vid : Nat) (code : Half)
    (l : Latch) (b : Bool) : s.deliver t vid code l b = s := if_pos detached

/-- A directed event for a tenant that is attached goes to its ring (R175). -/
theorem State.deliver_directed {s : State} {t : Ten} (attached : (s.ten t).st ≠ .detached) (vid : Nat) (code : Half)
    (l : Latch) : s.deliver t vid code l true = s.ringEvent t vid code l := by
  simp [State.deliver, attached]

theorem State.ringEvent_free {s : State} {t : Ten} (free : (s.ten t).unread ≠ 64) (vid : Nat) (code : Half) (l : Latch) :
    s.ringEvent t vid code l = (s.setTen t ((s.ten t).push ((s.ten t).record vid code l))).notify t := if_neg free

theorem State.ringEvent_full {s : State} {t : Ten} (full : (s.ten t).unread = 64) (vid : Nat) (code : Half) (l : Latch) :
    s.ringEvent t vid code l =
      (s.setTen t { (s.ten t).lose with lostRing := satInc 65535 (s.ten t).lostRing }).flagTen t (·.evtOvf)
        fun w => { w with evtOvf := true } := if_pos full

/-- A LOWEST event that no tenant can take is counted (R172). -/
theorem State.deliverEvent_none {s : State} {i : Fin 256} (mode : (s.source i).lowest = true)
    (chosen : s.lowestTarget (s.source i) = none) (l : Latch) :
    s.deliverEvent i l = (s.coreEvent i l).modSource i fun y => { y with noTarget := satInc 255 y.noTarget } := by
  simp only [State.deliverEvent, mode, if_true, State.coreEvent_lowestTarget, chosen]

/-- The tenant of a LOWEST delivery is an eligible target of least current priority (R172). -/
theorem State.lowestTarget_least {s : State} {x : Source} {t : Ten} (chosen : s.lowestTarget x = some t) :
    s.eligible t = true ∧ t ∈ x.tenants ∧
      ∀ u ∈ x.tenants, s.eligible u = true → (s.ten t).win.cpri.toNat ≤ (s.ten u).win.cpri.toNat := by
  unfold State.lowestTarget at chosen
  extract_lets cand least at chosen
  have holds := List.find?_some chosen
  obtain ⟨candidate, lowest⟩ := Bool.and_eq_true_iff.1 holds
  obtain ⟨target, eligible⟩ := List.mem_filter.1 (List.contains_iff_mem.1 candidate)
  refine ⟨eligible, target, fun u mem able => ?_⟩
  rw [beq_iff_eq.1 lowest]
  exact (foldl_min_le (fun t => (s.ten t).win.cpri.toNat) cand 15).2 u (List.mem_filter.2 ⟨mem, able⟩)

/-- Settles O27. -/
theorem delivery : Obligations.Delivery := by
  refine ⟨fun s t vid code l => ⟨fun b detached => State.deliver_detached detached vid code l b, fun attached free => ?_,
    fun attached full => ?_⟩, fun s i l mode => ⟨fun t chosen => ?_, fun none_ => State.deliverEvent_none mode none_ l⟩⟩
  · rw [State.deliver_directed attached, State.ringEvent_free free]
    intro x
    obtain ⟨seq, by_, read, told⟩ :=
      State.notify_ten (s.setTen t ((s.ten t).push ((s.ten t).record vid code l))) t t
    rw [State.setTen_ten, if_pos rfl] at told
    have own : x = _ := told
    rw [own]
    refine ⟨rfl, rfl, rfl, by simp [Tenant.push], fun u other => ?_⟩
    obtain ⟨_, _, _, kept⟩ := State.notify_ten (s.setTen t ((s.ten t).push ((s.ten t).record vid code l))) t u
    rw [kept, State.setTen_ten, if_neg (Ne.symm other)]
  · rw [State.deliver_directed attached, State.ringEvent_full full]
    intro x
    obtain ⟨win, _, _, _, told, kept⟩ := State.flagTen_ten
      (s.setTen t { (s.ten t).lose with lostRing := satInc 65535 (s.ten t).lostRing }) t t (·.evtOvf)
      fun w => { w with evtOvf := true }
    have flagged : x.win.evtOvf = true := State.flagTen_get _ t fun _ => rfl
    rw [State.setTen_ten, if_pos rfl] at told kept
    have own : x = _ := told
    refine ⟨?_, by rw [own]; rfl, flagged, by rw [own]; rfl, by rw [own]; rfl, by rw [own]⟩
    rw [own]
    rcases kept with rfl | rfl <;> rfl
  · obtain ⟨eligible, target, least⟩ := State.lowestTarget_least chosen
    exact ⟨eligible, target, least, State.deliverEvent_lowest mode chosen l⟩

/-! ### The EVT commands (R182) -/

/-- Settles O28. -/
theorem evtCommands : Obligations.EvtCommands := by
  refine fun s t n => ⟨fun h src b subscribes holds low high free other => ?_, fun h src low high taken => ?_,
    fun h other mode prio => ?_, fun h small few => ?_, fun h all => ?_, fun h src low high taken => ?_, fun h => ?_⟩
  · refine (commandBy_runs h.1).trans ?_
    have named : (Fin.ofNat 256 src.val : Fin 256) = src := Fin.ext (Nat.mod_eq_of_lt src.isLt)
    have range : (s.prm1 t n 1 == 0) = false ∧ decide (63 < s.prm1 t n 1) = false := by
      constructor <;> simp <;> omega
    dsimp only
    rw [b, named, State.guard_pass, State.guard_pass, State.guard_pass, State.guard_none]
    · rw [free, other]
      rfl
    · rw [subscribes, range.1, range.2, h.2]
      rfl
    · cases needs : subscribeBit src.val with
      | none => simp
      | some k => simp [holds k needs]
  · refine (command_sends h).trans ?_
    have range : ¬(s.prm1 t n 0 = 0 ∨ 63 < s.prm1 t n 0) := by omega
    simp only [if_neg range, taken]
  · refine (command_sends h).trans ?_
    simp [State.guard_pass, State.guard_none, Nat.not_lt.2 mode, Nat.not_lt.2 prio, other]
  · refine (command_sends h).trans ?_
    have fits : (decide (2 ^ 18 ≤ s.prm t n 0 4) || decide (16 < setSizeOf (BitVec.ofNat 32 (s.prm t n 0 4)))) = false := by
      simpa using ⟨small, few⟩
    dsimp only
    rw [State.guard_pass fits, State.guard_none]
  · refine (command_sends h).trans ?_
    simp only [if_pos all]
  · refine (command_sends h).trans ?_
    have range : ¬(s.prm1 t n 0 = 0 ∨ 63 < s.prm1 t n 0) := by omega
    have one : s.prm1 t n 0 ≠ 0xFF := by omega
    simp only [if_neg range, if_neg one, taken]
  · exact command_sends h

end Sys2Proof.Machine


/-!
SUPPORT. Frame alignment (R222, Table 9.7) and the defect timers (R225 to R228).
-/

namespace Sys2Proof.Machine

/-- What every step of a fold leaves, the fold leaves. -/
theorem foldl_keeps {σ α β : Type} (g : σ → β) {f : σ → α → σ} (step : ∀ x a, g (f x a) = g x) (l : List α) (s : σ) :
    g (l.foldl f s) = g s :=
  List.foldlRecOn l f (motive := fun x => g x = g s) rfl fun x hx a _ => (step x a).trans hx

/-! ### What leaves the channels as they are -/

@[simp] theorem State.tpsDefect_fr (s : State) (n : Fin 2) (on : Bool) : (s.tpsDefect n on).fr = s.fr := by
  unfold State.tpsDefect
  split
  · rfl
  · simp

@[simp] theorem State.tpsFrame_fr (s : State) (n : Fin 2) : (s.tpsFrame n).fr = s.fr := by
  unfold State.tpsFrame
  dsimp only
  split
  · rfl
  · split
    · rfl
    · split <;> simp

@[simp] theorem State.tribFrame_fr (s : State) : s.tribFrame.fr = s.fr := by
  unfold State.tribFrame
  dsimp only
  refine (foldl_keeps State.fr (fun x n => ?_) _ _).trans ?_
  · split <;> rfl
  · exact foldl_keeps State.fr State.tpsFrame_fr _ s

@[simp] theorem State.tpsLof_fr (s : State) : s.tpsLof.fr = s.fr := by
  unfold State.tpsLof
  refine foldl_keeps State.fr (fun x n => ?_) _ s
  split
  · simp
  · rfl

@[simp] theorem State.updateWtr_fr (s : State) : s.updateWtr.fr = s.fr := by
  unfold State.updateWtr
  dsimp only
  split <;> rfl

@[simp] theorem State.markDark_fr (s : State) (was : Bool) : (s.markDark was).fr = s.fr := by
  unfold State.markDark
  split <;> rfl

@[simp] theorem State.tellDefects_ch (s : State) : s.tellDefects.fr.ch = s.fr.ch := by
  unfold State.tellDefects
  dsimp only
  refine (foldl_keeps (fun x : State => x.fr.ch) (fun x i => ?_) _ _).trans rfl
  split <;> simp

theorem State.chan_of_ch {s s' : State} (same : s'.fr.ch = s.fr.ch) (l : Fin 2) : s'.chan l = s.chan l := by
  simp only [State.chan, same]

/-- A channel that goes to HUNT (Table 9.7). -/
theorem State.toHunt_chan (s : State) (l : Fin 2) : (s.toHunt l).chan l = (s.chan l).hunt s.now := by
  have hunted : (s.modChan l fun c => c.hunt s.now).chan l = (s.chan l).hunt s.now := by
    rw [State.modChan_chan, if_pos rfl]
  unfold State.toHunt
  dsimp only
  split
  · rw [← hunted]
    exact State.chan_of_ch (by simp) l
  · exact hunted

/-- A new frame of a channel (R209): its alignment and its run of errored FAWs stand. -/
theorem State.beginFrame_chan (s : State) (l : Fin 2) (n start2 : Nat) (ok : Bool) :
    (s.beginFrame l n start2 ok).chan l = (s.chan l).begin s.time n start2 ok := by
  have begun : ((s.reach (start2 / 2)).modChan l fun c => c.begin s.time n start2 ok).chan l =
      (s.chan l).begin s.time n start2 ok := by
    rw [State.modChan_chan, if_pos rfl]
    rfl
  unfold State.beginFrame
  dsimp only
  split
  · rw [← begun]
    exact State.chan_of_ch (by simp) l
  · exact begun

/-- The FAW in SYNC judged right. -/
theorem State.syncFaw_right (s : State) (l : Fin 2) (start2 : Nat) :
    (s.syncFaw l start2 true).chan l = { (s.chan l).begin s.time 1 start2 true with fawRun := 0 } := by
  unfold State.syncFaw
  rw [if_pos rfl, State.modChan_chan, if_pos rfl, State.beginFrame_chan]

/-- An errored FAW is counted (R222). -/
def State.errored (s : State) (l : Fin 2) (start2 : Nat) : State :=
  (s.reach (start2 / 2)).modChan l fun c => { c with fawRun := c.fawRun + 1, n.fawErr := inc32 c.n.fawErr }

theorem State.syncFaw_wrong (s : State) (l : Fin 2) (start2 : Nat) : s.syncFaw l start2 false =
    if (s.chan l).fawRun = 3 then
      (((s.errored l start2).toHunt l).updateWtr.tellDefects).markDark (s.errored l start2).allDark
    else (s.errored l start2).beginFrame l 1 start2 false := rfl

theorem State.errored_chan (s : State) (l : Fin 2) (start2 : Nat) : (s.errored l start2).chan l =
    { s.chan l with fawRun := (s.chan l).fawRun + 1, n.fawErr := inc32 (s.chan l).n.fawErr } := by
  unfold State.errored
  rw [State.modChan_chan, if_pos rfl]
  rfl

section
variable {s : State} {l : Fin 2} {pos : Nat} {rd : Bool} {groups : List CodeGroup} {shift : Int}
  (on : s.fibreOn l = true) (frame : s.domOn dFRM = true) (lock : (s.phy (fibreIx l)).lock = true)
include on frame lock

/-- A FAW found in SYNC is judged at its place (R222). -/
theorem exec_fawDetected_sync (sync : (s.chan l).st = .sync) : exec (.fawDetected l 78125 rd groups shift) s =
    .next (s.syncFaw l (s.fawAt l 78125 (fawCorrect (s.judged (fibreIx l) rd groups)) shift)
      (fawCorrect (s.judged (fibreIx l) rd groups))) := by
  show execFawDetected l 78125 rd groups shift s = _
  simp [execFawDetected, on, frame, lock, sync]

/-- A FAW found out of SYNC, and not at a position kept through NIGHT. -/
theorem exec_fawDetected_other (other : (s.chan l).st ≠ .sync)
    (anew : s.power.pstate ≠ .night ∨ fawCorrect (s.judged (fibreIx l) rd groups) = false) :
    exec (.fawDetected l pos rd groups shift) s =
      .next (if (s.chan l).st = .hunt then
          (if fawCorrect (s.judged (fibreIx l) rd groups) then
            s.huntFaw l (s.fawAt l pos (fawCorrect (s.judged (fibreIx l) rd groups)) shift) else s)
        else if pos ≠ 78125 then s
        else s.presyncFaw l (s.fawAt l pos (fawCorrect (s.judged (fibreIx l) rd groups)) shift)
          (fawCorrect (s.judged (fibreIx l) rd groups))) := by
  have none_ : ¬(s.power.pstate = .night ∧ fawCorrect (s.judged (fibreIx l) rd groups) = true) := by
    rintro ⟨night, ok⟩
    rcases anew with awake | wrong
    · exact awake night
    · simp [ok] at wrong
  show execFawDetected l pos rd groups shift s = _
  unfold execFawDetected
  simp only [on, frame, lock, Bool.not_true, Bool.or_false, Bool.false_eq_true, if_false, none_]

/-- A right FAW at a position kept through NIGHT (R70). -/
theorem exec_fawDetected_kept (other : (s.chan l).st ≠ .sync) (night : s.power.pstate = .night)
    (ok : fawCorrect (s.judged (fibreIx l) rd groups) = true) {k n mfi : Nat}
    (kept : (s.chan l).keptNear (s.fawAt l pos (fawCorrect (s.judged (fibreIx l) rd groups)) shift) = some (k, n, mfi)) :
    exec (.fawDetected l pos rd groups shift) s =
      .next (s.preload l k n mfi (s.fawAt l pos (fawCorrect (s.judged (fibreIx l) rd groups)) shift)) := by
  show execFawDetected l pos rd groups shift s = _
  rw [ok] at kept ⊢
  unfold execFawDetected
  simp only [on, frame, lock, ok, night, kept, and_self, if_true, Bool.not_true, Bool.or_false, Bool.false_eq_true, if_false]

end

/-- Settles O33. -/
theorem frameAlignment : Obligations.FrameAlignment := by
  refine ⟨fun s l rd groups shift on frame lock => ?_, fun s l start2 sync => ⟨fun fourth => ?_, fun early => ?_, ?_⟩⟩
  · intro ok at_
    refine ⟨fun pos hunt awake => ⟨fun right => ?_, fun wrong => ?_⟩, fun presync awake right => ?_, fun presync wrong => ?_,
      fun sync => exec_fawDetected_sync on frame lock sync,
      fun pos k n mfi other night right kept => exec_fawDetected_kept on frame lock other night right kept⟩
    · rw [exec_fawDetected_other on frame lock (by simp [hunt]) (.inl awake), if_pos hunt, if_pos right]
    · rw [exec_fawDetected_other on frame lock (by simp [hunt]) (.inl awake), if_pos hunt,
        if_neg (Bool.not_eq_true _ ▸ wrong)]
    · rw [exec_fawDetected_other on frame lock (by simp [presync]) (.inl awake), if_neg (by simp [presync]), if_neg (by simp)]
      exact congrArg Host.Outcome.next (if_pos right)
    · rw [exec_fawDetected_other on frame lock (by simp [presync]) (.inr wrong), if_neg (by simp [presync]), if_neg (by simp)]
      exact congrArg Host.Outcome.next (if_neg (Bool.not_eq_true _ ▸ wrong))
  · rw [State.syncFaw_wrong, if_pos fourth, State.chan_of_ch (s := (s.errored l start2).toHunt l) (by simp) l,
      State.toHunt_chan]
    rfl
  · rw [State.syncFaw_wrong, if_neg (by omega), State.beginFrame_chan, State.errored_chan]
    exact ⟨sync, rfl⟩
  · rw [State.syncFaw_right]
    exact ⟨sync, rfl⟩

/-! ### Defects and the key switch (R225 to R228) -/

theorem State.setEntry_other (s : State) {e f : Fin 32} (other : e ≠ f) (k : Option BankKey) :
    (s.setEntry e k).entry f = s.entry f := by
  have apart : e.val ≠ f.val := fun same => other (Fin.ext same)
  unfold State.setEntry State.entry
  dsimp only
  split <;> simp [apart]

/-- Session entries destroyed hold nothing (R228). -/
theorem State.dropEntries_entry {e : Fin 32} {es : List (Fin 32)} (mem : e ∈ es) {s : State} :
    (s.dropEntries es).entry e = none := by
  have stays (l : List (Fin 32)) (x : State) (gone : x.entry e = none) : (x.dropEntries l).entry e = none := by
    refine List.foldlRecOn l _ (motive := fun y => State.entry y e = none) gone fun y hy f _ => ?_
    by_cases same : f = e
    · rw [same, State.setEntry_entry]
    · rw [State.setEntry_other _ same, hy]
  induction es generalizing s with
  | nil => cases mem
  | cons f es ih =>
    rcases List.mem_cons.1 mem with rfl | later
    · exact stays es _ (State.setEntry_entry _ _ _)
    · exact ih later

theorem exec_keyRetire {s : State} {g : Bool} {b : Nat} (retire : s.fr.retire = some (g, b)) : exec .keyRetire s =
    .next (let s2 := (s.reach (s.act.startOf b)).dropEntries ((List.finRange 3).map fun r => trafficEntry r g)
      { s2 with
        fr.retire := none
        reg.ivHigh := (s2.reg.ivHigh.set (b2n g) 0 (by cases g <;> decide)).set (2 + b2n g) 0 (by cases g <;> decide) }) := by
  show execKeyRetire s = _
  unfold execKeyRetire
  split
  · next none_ => simp [retire] at none_
  · next g' b' due =>
    obtain ⟨rfl, rfl⟩ : g = g' ∧ b = b' := by simpa [retire] using due
    rfl

/-- Settles O35. -/
theorem defectTimers : Obligations.DefectTimers := by
  refine fun s => ⟨fun f lof frame awake clear => ?_, fun f lof frame awake registered => ?_, fun l d due => ?_,
    fun b arm held => ?_, fun g b retire => ?_⟩
  · show execLof8msExpiry s = _
    simp [execLof8msExpiry, lof, frame, awake, clear]
  · show execLof2sExpiry s = _
    simp [execLof2sExpiry, lof, frame, awake, registered]
  · show execLolClear l s = _
    rw [execLolClear, due]
    rfl
  · show execKeySwitchBoundary s = _
    simp only [execKeySwitchBoundary, arm, held, if_true]
    rfl
  · refine ⟨_, exec_keyRetire retire, rfl, ?_, ?_, ?_, fun r => ?_⟩
    · cases g <;> simp [b2n]
    · cases g <;> simp [b2n]
    · exact foldl_keeps State.now (fun x e => by unfold State.setEntry; dsimp only; split <;> rfl) _ _
    · exact State.dropEntries_entry (List.mem_map_of_mem (List.mem_finRange r))

end Sys2Proof.Machine


/-!
SUPPORT. Downstream messages (R213): the checks every row shares, and what each message does.
-/

namespace Sys2Proof.Machine

/-! ### The checks every message row shares (R213) -/

theorem lmmKnown_of {type : Nat} (low : 1 ≤ type) (high : type ≤ 12) : lmmKnown type = true := by
  simp [lmmKnown, low, high]

section
variable {s : State} {l : Fin 2} {slot : Fin 3} {bytes : List Byte} {type : Nat} {lens : Nat → Bool}
  {body : State → Nat → List Byte → State}

/-- A message whose CRC is wrong (R213). -/
theorem lmmRow_crc (whole : bytes.length = 48) (active : l = s.lanes.prot.active) (sync : (s.chan l).st = .sync)
    (judged : (s.chan l).rx.judged = true) (used : (s.chan l).rx.lmm.getLsbD slot.val = true)
    (on : s.domOn dFRM = true) (crc : beAt bytes 46 2 ≠ crc16 (bytes.take 46)) :
    lmmRow type lens l slot bytes s body = .next ((s.seeSlot l slot).dropLmm l) := by
  simp only [lmmRow, whole, ← active, sync, judged, used, on, ne_eq, not_true_eq_false, Bool.not_true, Bool.false_eq_true,
    or_self, if_false, crc, not_false_eq_true, if_true]

variable (h : s.lmmArrives l slot bytes type) (low : 1 ≤ type) (high : type ≤ 12)
include h low high

/-- A message of the row's type that has arrived is judged by its length. -/
theorem lmmRow_arrives : lmmRow type lens l slot bytes s body =
    .next (if lens (byteAt bytes 3) then body (s.seeSlot l slot) (beAt bytes 0 2 / 16) (lmmBody bytes)
      else (s.seeSlot l slot).dropLmm l) := by
  obtain ⟨whole, active, sync, judged, used, on, crc, is, up, mine⟩ := h
  have running : (s.seeSlot l slot).boot.core1Up = true := up
  have some_ : type ≠ 0 := by omega
  simp only [lmmRow, whole, ← active, sync, judged, used, on, is, crc, mine, running, some_, lmmKnown_of low high, ne_eq,
    not_true_eq_false, Bool.not_true, Bool.false_eq_true, or_self, if_false]
  cases lens (byteAt bytes 3) <;> rfl

theorem lmmRow_long (long : lens (byteAt bytes 3) = false) :
    lmmRow type lens l slot bytes s body = .next ((s.seeSlot l slot).dropLmm l) := by
  rw [lmmRow_arrives h low high, if_neg (by simp [long])]

theorem lmmRow_takes (fits : lens (byteAt bytes 3) = true) : lmmRow type lens l slot bytes s body =
    .next (body (s.seeSlot l slot) (beAt bytes 0 2 / 16) (lmmBody bytes)) := by
  rw [lmmRow_arrives h low high, if_pos fits]

theorem lmmRow_length {len : Nat} (fits : byteAt bytes 3 = len) : lmmRow type (· == len) l slot bytes s body =
    .next (body (s.seeSlot l slot) (beAt bytes 0 2 / 16) (lmmBody bytes)) :=
  lmmRow_takes h low high (by simp [fits])

end

/-- Settles O37. -/
theorem lmmChecks : Obligations.LmmChecks := by
  intro s l slot bytes type lens body
  exact ⟨lmmRow_crc, fun h low high => lmmRow_long h low high, fun h low high => lmmRow_takes h low high⟩

/-! ### The registration messages -/

@[simp] theorem State.seeSlot_reg (s : State) (l : Fin 2) (slot : Fin 3) : (s.seeSlot l slot).reg = s.reg := rfl

@[simp] theorem State.setEntry_reg (s : State) (e : Fin 32) (k : Option BankKey) : (s.setEntry e k).reg = s.reg := by
  unfold State.setEntry
  dsimp only
  split <;> rfl

theorem State.dropEntries_reg (s : State) (es : List (Fin 32)) : (s.dropEntries es).reg = s.reg :=
  foldl_keeps State.reg (fun x e => x.setEntry_reg e none) es s

/-- The line keys destroyed leave activation where it is. -/
theorem State.dropLineKeys_reg (s : State) : s.dropLineKeys.reg = { s.reg with ivHigh := Vector.replicate 4 0 } := by
  show { (s.dropEntries _).reg with ivHigh := Vector.replicate 4 0 } = _
  rw [State.dropEntries_reg]

theorem State.dropLineKeys_st (s : State) : s.dropLineKeys.reg.st = s.reg.st := by rw [State.dropLineKeys_reg]

section
variable {s : State} {l : Fin 2} {slot : Fin 3} {bytes : List Byte}

theorem exec_assignRh (h : s.lmmArrives l slot bytes 1) (len : byteAt bytes 3 = 13)
    (mine : beAt (lmmBody bytes) 0 8 = Config.terminalId.toNat) (asked : s.reg.st = .discovery)
    (some_ : beAt (lmmBody bytes) 8 2 % 4096 ≠ 0) (high : beAt (lmmBody bytes) 8 2 % 4096 ≤ 0x7FF) :
    exec (.assignRh l slot bytes) s =
      .next ((({ s.seeSlot l slot with reg.rh := beAt (lmmBody bytes) 8 2 % 4096 } : State).setEqd
        (s.seeSlot l slot).lanes.prot.active (beAt (lmmBody bytes) 10 3 % 2 ^ 21)).enterAuth) := by
  show execAssignRh l slot bytes s = _
  rw [execAssignRh, lmmRow_length h (by decide) (by decide) len]
  simp [mine, asked, some_, Nat.not_lt.2 high]

/-- The nonce drawn for a challenge (R237). -/
def State.nonce (s : State) : List Byte := beBytes 8 s.draw ++ beBytes 8 s.drawn.draw

theorem State.nonce_length (s : State) : s.nonce.length = 16 := by simp [State.nonce]

theorem exec_authChal (h : s.lmmArrives l slot bytes 2) (len : byteAt bytes 3 = 16) (asked : s.reg.st = .auth)
    (open_ : (s.seeSlot l slot).slotsUnusable = false) :
    ∃ (s4 : State) (resp : List Byte), exec (.authChal l slot bytes) s = .next (s4.queueLmm 0x81 resp) ∧
      s4.reg.nHe = (lmmBody bytes).take 16 ∧ s4.reg.nT.length = 16 ∧ s4.reg.kseq = Vector.replicate 3 0 ∧ s4.reg.st = .auth ∧
      (s4.entry eOwn).isSome = true ∧ resp.take 16 = s4.reg.nT := by
  have goes : ¬((s.seeSlot l slot).reg.st ≠ .auth ∨ (s.seeSlot l slot).slotsUnusable = true) := by simp [asked, open_]
  have row : execAuthChal l slot bytes s = execAuthChal l slot bytes s := rfl
  conv_rhs at row => rw [execAuthChal, lmmRow_length h (by decide) (by decide) len]
  dsimp only at row
  rw [if_neg goes] at row
  refine ⟨_, _, row, ?_⟩
  rw [State.setEntry_reg, State.setEntry_reg, State.setEntry_reg, State.setEntry_reg]
  refine ⟨rfl, (s.seeSlot l slot).nonce_length, rfl, ?_, ?_, ?_⟩
  · exact ((s.seeSlot l slot).drawn.drawn.dropLineKeys_st).trans asked
  · rw [State.setEntry_entry]
    rfl
  · exact List.take_left' (s.seeSlot l slot).nonce_length

theorem exec_keyDeliver_right (h : s.lmmArrives l slot bytes 3) (len : byteAt bytes 3 = 32)
    (role : byteAt (lmmBody bytes) 0 ≤ 2) (gen : byteAt (lmmBody bytes) 1 ≤ 1) {k : BankKey}
    (key : (s.seeSlot l slot).entry eKmac = some k)
    (asked : s.reg.st = .auth ∨ s.reg.st = .inService ∨ s.reg.st = .silent)
    (tag : field (lmmBody bytes) 24 8 = lmmTag k (beAt bytes 0 2 / 16) 0x03 ((lmmBody bytes).take 24)) :
    exec (.keyDeliver l slot bytes) s =
      .next ((s.seeSlot l slot).takeKey (Fin.ofNat 3 (byteAt (lmmBody bytes) 0)) (byteAt (lmmBody bytes) 1 == 1)
        (lmmBody bytes)) := by
  show execKeyDeliver l slot bytes s = _
  rw [execKeyDeliver, lmmRow_length h (by decide) (by decide) len]
  have other : ¬(s.reg.st ≠ .auth ∧ s.reg.st ≠ .inService ∧ s.reg.st ≠ .silent) := by tauto
  simp only [key, tag, State.seeSlot_reg, other, Nat.not_lt.2 role, Nat.not_lt.2 gen, beq_self_eq_true, decide_false,
    Bool.or_self, Bool.and_false, Bool.false_eq_true, if_false, if_true]

/-- The third wrong tag in AUTH (R240). -/
theorem exec_keyDeliver_wrong (h : s.lmmArrives l slot bytes 3) (len : byteAt bytes 3 = 32) {k : BankKey}
    (key : (s.seeSlot l slot).entry eKmac = some k)
    (tag : field (lmmBody bytes) 24 8 ≠ lmmTag k (beAt bytes 0 2 / 16) 0x03 ((lmmBody bytes).take 24))
    (asked : s.reg.st = .auth) (third : s.reg.authFails = 2) :
    exec (.keyDeliver l slot bytes) s =
      .next ((({ s.seeSlot l slot with reg.keyFail := satInc 65535 (s.seeSlot l slot).reg.keyFail } : State).dereg 4).toListen) := by
  show execKeyDeliver l slot bytes s = _
  rw [execKeyDeliver, lmmRow_length h (by decide) (by decide) len]
  have wrong : (field (lmmBody bytes) 24 8 == lmmTag k (beAt bytes 0 2 / 16) 0x03 ((lmmBody bytes).take 24)) = false := by
    simpa using tag
  simp only [key, wrong, asked, third, State.seeSlot_reg, Bool.false_and, Bool.false_eq_true, ne_eq, not_true_eq_false,
    false_and, if_false, if_true]

theorem exec_rangeResult (h : s.lmmArrives l slot bytes 4) (len : byteAt bytes 3 = 9) {r : Fin 2}
    (lane : byteAt (lmmBody bytes) 0 = r.val) (kind : byteAt (lmmBody bytes) 1 ≤ 1) (out : s.reg.shotOut[r] = true) :
    exec (.rangeResult l slot bytes) s = .next
      (let s1 : State := { s.seeSlot l slot with reg.shotOut := (s.seeSlot l slot).reg.shotOut.set r false }
       if byteAt (lmmBody bytes) 1 = 1 then ({ s1 with reg.again := s1.reg.again.set r true } : State).updateWtr
       else s1.lanesRanged r (beAt (lmmBody bytes) 2 3 % 2 ^ 21) (beAt (lmmBody bytes) 5 4)) := by
  have named : (Fin.ofNat 2 (byteAt (lmmBody bytes) 0) : Fin 2) = r := by
    rw [lane]
    exact Fin.ext (Nat.mod_eq_of_lt r.isLt)
  have goes : ¬(1 < byteAt (lmmBody bytes) 0 ∨ 1 < byteAt (lmmBody bytes) 1 ∨ (!(s.seeSlot l slot).reg.shotOut[r]) = true) := by
    have := r.isLt
    simp [out]
    omega
  show execRangeResult l slot bytes s = _
  rw [execRangeResult, lmmRow_length h (by decide) (by decide) len]
  subst named
  exact congrArg Host.Outcome.next (if_neg goes)

theorem exec_deregister (h : s.lmmArrives l slot bytes 5) (len : byteAt bytes 3 = 12)
    (mine : beAt (lmmBody bytes) 4 8 = Config.terminalId.toNat) {s2 : State}
    (acts : (s.seeSlot l slot).deregAction (byteAt (lmmBody bytes) 0) (beAt bytes 0 2 / 16) (beAt (lmmBody bytes) 2 2) = some s2) :
    exec (.deregister l slot bytes) s = .next { s2 with reg.lastReason := byteAt (lmmBody bytes) 1 } := by
  show execDeregister l slot bytes s = _
  rw [execDeregister, lmmRow_length h (by decide) (by decide) len]
  simp [mine, acts]

/-! ### The other messages -/

theorem exec_timeInfo (h : s.lmmArrives l slot bytes 6) (len : byteAt bytes 3 = 24) (kind : byteAt (lmmBody bytes) 2 = 0)
    (leap : (s.seeSlot l slot).leapOk 0 (toSigned 16 (beAt (lmmBody bytes) 0 2)) (beAt (lmmBody bytes) 4 8) = true)
    (same : s.time.utcOff = toSigned 16 (beAt (lmmBody bytes) 0 2)) :
    exec (.timeInfo l slot bytes) s = .next { s.seeSlot l slot with time := { (s.seeSlot l slot).time with
      utcOff := toSigned 16 (beAt (lmmBody bytes) 0 2), leapKind := 0, leapAt := 0, traceable := bit (byteAt (lmmBody bytes) 3) 0
      timing := some (toSigned 32 (beAt (lmmBody bytes) 12 4), toSigned 32 (beAt (lmmBody bytes) 16 4),
        toSigned 32 (beAt (lmmBody bytes) 20 4)) } } := by
  show execTimeInfo l slot bytes s = _
  rw [execTimeInfo, lmmRow_length h (by decide) (by decide) len]
  have old : (s.seeSlot l slot).time.utcOff = toSigned 16 (beAt (lmmBody bytes) 0 2) := same
  simp [kind, leap, old]

theorem exec_upHold (h : s.lmmArrives l slot bytes 7) (len : byteAt bytes 3 = 4)
    (asked : s.reg.st = .inService ∨ s.reg.st = .silent) :
    exec (.upHold l slot bytes) s = .next (({ s.seeSlot l slot with
      tm.holdHe := holdMasked (s.seeSlot l slot).tm.holdHe (byteAt (lmmBody bytes) 0)
        (holdOf (s.seeSlot l slot).now (beAt (lmmBody bytes) 1 2) (bit (byteAt (lmmBody bytes) 3) 0)) } : State).buildMasked
          (byteAt (lmmBody bytes) 0)) := by
  show execUpHold l slot bytes s = _
  rw [execUpHold, lmmRow_length h (by decide) (by decide) len]
  refine congrArg Host.Outcome.next (if_neg ?_)
  simp only [State.seeSlot_reg]
  tauto

/-- A sleep grant that was asked for, outside NIGHT (R67). -/
theorem exec_sleepGrant (h : s.lmmArrives l slot bytes 8) (len : byteAt bytes 3 = 13)
    (asked : s.power.night.answerBy.isSome = true) (awake : s.power.pstate ≠ .night) :
    exec (.sleepGrant l slot bytes) s = .next
      (if (s.seeSlot l slot).grantOk l (byteAt (lmmBody bytes) 0) (beAt (lmmBody bytes) 1 8) then
        ((s.seeSlot l slot).keepSite (lmmBody bytes)).takeGrant (byteAt (lmmBody bytes) 0) (beAt (lmmBody bytes) 1 8)
      else { s.seeSlot l slot with
        power.night := { (s.seeSlot l slot).power.night with
          discards := (s.seeSlot l slot).power.night.discards + 1, answerBy := none }
        power.idle.night := (s.seeSlot l slot).now }) := by
  show execSleepGrant l slot bytes s = _
  rw [execSleepGrant, lmmRow_length h (by decide) (by decide) len]
  have waits : (s.seeSlot l slot).power.night.answerBy.isSome = true := asked
  have day : ((s.seeSlot l slot).power.pstate == PState.night) = false := by
    show (s.power.pstate == PState.night) = false
    simpa using awake
  dsimp only
  cases (s.seeSlot l slot).grantOk l (byteAt (lmmBody bytes) 0) (beAt (lmmBody bytes) 1 8) <;> simp [waits, day]

theorem exec_sleepDeny (h : s.lmmArrives l slot bytes 9) (len : byteAt bytes 3 = 2)
    (asked : s.power.night.answerBy.isSome = true) :
    exec (.sleepDeny l slot bytes) s = .next { s.seeSlot l slot with
      power.night := { (s.seeSlot l slot).power.night with
        answerBy := none, retryFrom := s.now + beAt (lmmBody bytes) 0 2 * 1000000000 }
      power.idle.night := s.now } := by
  show execSleepDeny l slot bytes s = _
  rw [execSleepDeny, lmmRow_length h (by decide) (by decide) len]
  refine congrArg Host.Outcome.next (if_neg ?_)
  exact Option.isSome_iff_ne_none.1 asked

theorem exec_nightWake (h : s.lmmArrives l slot bytes 10) (len : byteAt bytes 3 = 0) :
    exec (.nightWake l slot bytes) s = .next ((s.seeSlot l slot).nightTrigger 0x01) := by
  show execNightWake l slot bytes s = _
  rw [execNightWake, lmmRow_length h (by decide) (by decide) len]

theorem exec_ownerMbx (h : s.lmmArrives l slot bytes 11) (len : byteAt bytes 3 = 40) {k : BankKey}
    (key : (s.seeSlot l slot).entry eOwn = some k) (serves : s.reg.st = .inService)
    (tag : field (lmmBody bytes) 32 8 = lmmTag k (beAt bytes 0 2 / 16) 0x0B ((lmmBody bytes).take 32))
    (low : 1 ≤ (beAt (lmmBody bytes) 2 2 + 65536 - (s.seeSlot l slot).reg.oseq.getD 0) % 65536)
    (high : (beAt (lmmBody bytes) 2 2 + 65536 - (s.seeSlot l slot).reg.oseq.getD 0) % 65536 ≤ 32767)
    {resp : List Byte} {s2 : State} (served : (s.seeSlot l slot).ownerServe (lmmBody bytes) = some (resp, s2)) :
    exec (.ownerMbx l slot bytes) s = .next (s2.ownerAnswer k (beAt (lmmBody bytes) 2 2) resp) := by
  show execOwnerMbx l slot bytes s = _
  rw [execOwnerMbx, lmmRow_length h (by decide) (by decide) len]
  have goes : ¬((s.seeSlot l slot).reg.st ≠ .inService ∨
      field (lmmBody bytes) 32 8 ≠ lmmTag k (beAt bytes 0 2 / 16) 0x0B ((lmmBody bytes).take 32)) := by simp [serves, tag]
  have ahead : (beAt (lmmBody bytes) 2 2 + 65536 - (s.seeSlot l slot).reg.oseq.getD 0) % 65536 ≠ 0 := by omega
  simp only [key, if_neg goes, if_neg ahead, if_neg (Nat.not_lt.2 high), served]

theorem exec_tribCfg (h : s.lmmArrives l slot bytes 12) (len : byteAt bytes 3 = 24) {cfg : Vector (Option Trib) 3}
    (decoded : tribConfig (lmmBody bytes) = some cfg) (both : ∀ n : Fin 2, (cfg[tribOf n]).isSome = true) :
    exec (.tribCfg l slot bytes) s = .next { s.seeSlot l slot with aud.cfg := cfg } := by
  show execTribCfg l slot bytes s = _
  rw [execTribCfg, lmmRow_length h (by decide) (by decide) len]
  simp only [decoded]
  refine congrArg Host.Outcome.next (foldl_keeps id (fun x n => if_neg ?_) _ _)
  simpa [Option.isNone_iff_eq_none, ← Option.isSome_iff_ne_none] using both n

end

/-- Settles O38. -/
theorem messages : Obligations.Messages := by
  refine ⟨fun s l slot bytes => ⟨exec_assignRh, exec_authChal,
      fun h len role gen k key asked => ⟨exec_keyDeliver_right h len role gen key asked,
        exec_keyDeliver_wrong h len key⟩,
      fun h len r lane kind out => ?_, fun h len r lane kind out => ?_, fun h len mine s2 => exec_deregister h len mine⟩,
    fun s l slot bytes => ⟨fun h len kind leap same => ⟨_, exec_timeInfo h len kind leap same, rfl⟩, exec_upHold,
      fun h len asked awake => ⟨fun ok => ?_, fun bad => ?_⟩, exec_sleepDeny, exec_nightWake,
      fun h len k key serves tag low high resp s2 => exec_ownerMbx h len key serves tag low high,
      fun h len cfg => exec_tribCfg h len⟩⟩
  · exact (exec_rangeResult h len lane (by omega) out).trans (congrArg Host.Outcome.next (if_neg (by omega)))
  · exact (exec_rangeResult h len lane (by omega) out).trans (congrArg Host.Outcome.next (if_pos kind))
  · exact (exec_sleepGrant h len asked awake).trans (congrArg Host.Outcome.next (if_pos ok))
  · exact (exec_sleepGrant h len asked awake).trans (congrArg Host.Outcome.next (if_neg (by simp [bad])))

end Sys2Proof.Machine


/-!
SUPPORT. Queues and ports: admission (Table 15.2), the `TRAFFIC` commands and the rows of the local ports.
-/

namespace Sys2Proof.Machine

/-! ### What the watches of the buffer leave as it is -/

/-- The watch of the cells in use leaves every queue and the round-robin pointers. -/
theorem State.watchFill_queues (s : State) : s.watchFill.tm.queues = s.tm.queues := by
  unfold State.watchFill
  dsimp only
  split
  · rfl
  · split <;> simp

@[simp] theorem State.watchFill_q (s : State) (i : Fin 184) : s.watchFill.q i = s.q i := by
  simp [State.q, State.watchFill_queues]

@[simp] theorem State.noteDrop_q (s : State) (i j : Fin 184) : (s.noteDrop i).q j = s.q j := by
  unfold State.noteDrop
  split <;> rfl

@[simp] theorem State.noteDrop_poolDrop (s : State) (i : Fin 184) : (s.noteDrop i).tm.poolDrop = s.tm.poolDrop := by
  unfold State.noteDrop
  split <;> rfl

/-! ### Admission (R353, Table 15.2) -/

section
variable {s : State} {i : Fin 184} {f : Frame}

theorem State.admitFrame_red (h : s.admission i f = .red) :
    ((s.admitFrame i f).q i).redDrop = inc32 (s.q i).redDrop ∧ ((s.admitFrame i f).q i).frames = (s.q i).frames := by
  simp [State.admitFrame, h, State.modQ_q]

theorem State.admitFrame_yellow (h : s.admission i f = .yellow) :
    ((s.admitFrame i f).q i).yDrop = inc32 (s.q i).yDrop ∧ ((s.admitFrame i f).q i).frames = (s.q i).frames := by
  simp [State.admitFrame, h, State.modQ_q]

theorem State.admitFrame_tail (h : s.admission i f = .tail) :
    ((s.admitFrame i f).q i).tailDrop = inc32 (s.q i).tailDrop ∧ ((s.admitFrame i f).q i).frames = (s.q i).frames := by
  simp [State.admitFrame, h, State.modQ_q]

theorem State.admitFrame_pool (h : s.admission i f = .pool) :
    (s.admitFrame i f).tm.poolDrop = inc32 s.tm.poolDrop ∧ (s.admitFrame i f).q i = s.q i := by
  simp only [State.admitFrame, h, State.noteDrop_poolDrop, State.noteDrop_q]
  exact ⟨trivial, rfl⟩

theorem Queue.tick_frames (x : Queue) (now : Nat) : (x.tick now).frames = x.frames := by
  unfold Queue.tick
  split <;> rfl

theorem State.admitFrame_enqueue (h : s.admission i f = .enqueue) :
    ((s.admitFrame i f).q i).frames = (s.q i).frames ++ [{ f with at_ := s.now }] ∧
      ((s.admitFrame i f).q i).enq = inc32 (s.q i).enq ∧ ∀ j, j ≠ i → (s.admitFrame i f).q j = s.q j := by
  simp only [State.admitFrame, h, State.enqueue, State.watchFill_q, State.modQ_q, if_true, true_and]
  intro j other
  simp [Ne.symm other]

end

/-- Settles O47: each clause is a branch of Table 15.2. -/
theorem admission : Obligations.Admission := by
  intro s i f d free x
  refine ⟨fun red => State.admitFrame_red (if_pos red), fun yellow above => State.admitFrame_yellow ?_,
    fun notRed notOver => ⟨fun above => State.admitFrame_tail ?_, fun fits =>
      ⟨fun noRoom => State.admitFrame_pool ?_, fun cells frames => State.admitFrame_enqueue ?_⟩⟩⟩
  · exact (if_neg (by simp [yellow])).trans (if_pos ⟨yellow, above⟩)
  all_goals
    have past : ¬(f.colour = .yellow ∧ x.cfg.ymax < d) := fun h => Nat.not_lt.2 (notOver h.1) h.2
    refine (if_neg notRed).trans ((if_neg past).trans ?_)
  · exact if_pos above
  · exact (if_neg (Nat.not_lt.2 fits)).trans (if_pos noRoom)
  · exact (if_neg (Nat.not_lt.2 fits)).trans (if_neg (not_or.2 ⟨Nat.not_lt.2 cells, Nat.not_le.2 frames⟩))

/-! ### The `TRAFFIC` commands -/

section
variable {s : State} {t : Ten} {n : SlotIx}

theorem Fin.ofNat_val {k : Nat} [NeZero k] (i : Fin k) : Fin.ofNat k i.val = i := by simp

theorem exec_trafficStatus (h : s.sends t n 0x0A01 [(0, 1)]) (keep : s.prm1 t n 0 = 0) :
    exec (.trafficStatus t n) s =
      .next (({ s with tm.hwmCells := s.upUsed + s.dnUsed } : State).answer t n s.trafficStatus) := by
  refine (command_sends h).trans ?_
  dsimp only
  rw [keep]
  rfl

theorem exec_trafficQueueCfg (h : s.sends t n 0x0A02 [(0, 6), (8, 16)]) {i : Fin 184} (q : byteAt (s.params t n) 0 = i.val)
    (f : byteAt (s.params t n) 1 ≤ 1) (ok : (queueParams (s.params t n)).ok i.val = true) :
    exec (.trafficQueueCfg t n) s = .next
      ((if h : i.val < 64 then
          (s.modQ i fun x => x.configure (queueParams (s.params t n)) s.now).build (s.tm.map[(⟨i.val, h⟩ : Fin 64)]).gs
        else s.modQ i fun x => x.configure (queueParams (s.params t n)) s.now).done t n Status.ok) := by
  have bit1 : bit (byteAt (s.params t n) 1) 1 = false := by
    rcases Nat.le_one_iff_eq_zero_or_eq_one.1 f with f | f <;> rw [f] <;> rfl
  have inRange : ¬183 < byteAt (s.params t n) 0 := by omega
  have flags : ¬3 < byteAt (s.params t n) 1 := by omega
  obtain rfl : i = Fin.ofNat 184 (byteAt (s.params t n) 0) := by rw [q, Fin.ofNat_val]
  rw [← q] at ok
  refine (command_sends h).trans (congrArg Host.Outcome.next ((State.guard_pass ?_).trans ((State.guard_pass ?_).trans ?_)))
  · simp [inRange, flags, ok]
  · simp [bit1]
  · dsimp only
    rw [State.guard_none, if_neg (by simp [bit1])]
    rfl

theorem exec_trafficQueueStatus (h : s.sends t n 0x0A03 [(0, 1)]) {i : Fin 184} (q : s.prm1 t n 0 = i.val) :
    exec (.trafficQueueStatus t n) s =
      .next ((s.modQ i fun x => { x.tick s.now with hwmDepth := 0, hwmDelay := 0 }).answer t n (s.queueStatus i)) := by
  refine (command_sends h).trans ?_
  dsimp only
  have inRange : decide (183 < i.val) = false := by simp; omega
  rw [q, Fin.ofNat_val, State.guard_pass inRange, State.guard_none]

theorem exec_trafficPolicer (h : s.sends t n 0x0A04 [(0, 3), (4, 16)]) {i : Fin 128}
    (which : byteAt (s.params t n) 0 = i.val) (write : byteAt (s.params t n) 1 = 0) (f : byteAt (s.params t n) 2 ≤ 3)
    (ok : (policerParams (s.params t n)).ok = true) :
    exec (.trafficPolicer t n) s = .next (({ s with
      tm.policers := s.tm.policers.set i ((s.tm.policers[i]).write (policerParams (s.params t n)) s.now) } : State).answer
        t n (((s.tm.policers[i]).write (policerParams (s.params t n)) s.now).report (byteAt (s.params t n) 0)
          (byteAt (s.params t n) 1) (byteAt (s.params t n) 2))) := by
  have bits : bit (byteAt (s.params t n) 2) 2 = false ∧ bit (byteAt (s.params t n) 2) 3 = false := by
    generalize byteAt (s.params t n) 2 = b at f
    interval_cases b <;> exact ⟨rfl, rfl⟩
  obtain ⟨bit2, bit3⟩ := bits
  have inRange : ¬127 < byteAt (s.params t n) 0 := by omega
  have flags : ¬15 < byteAt (s.params t n) 2 := by omega
  obtain rfl : i = Fin.ofNat 128 (byteAt (s.params t n) 0) := by rw [which, Fin.ofNat_val]
  refine (command_sends h).trans
    (congrArg Host.Outcome.next ((State.guard_pass ?_).trans ((State.guard_pass ?_).trans ?_)))
  · simp [inRange, flags, ok, write]
  · simp [bit2]
  · dsimp only
    rw [State.guard_none, if_neg (by simp [bit2]), if_neg (by simp [bit3]), if_pos write]

theorem exec_trafficBuffer (h : s.sends t n 0x0A05 [(0, 7)]) (up : 512 ≤ leAt (s.params t n) 0 2)
    (up' : leAt (s.params t n) 0 2 ≤ 7680) (off2 : 2 ≤ byteAt (s.params t n) 2) (off2' : byteAt (s.params t n) 2 ≤ 15)
    (on2 : 1 ≤ byteAt (s.params t n) 3) (on2' : byteAt (s.params t n) 3 < byteAt (s.params t n) 2)
    (off3 : 2 ≤ byteAt (s.params t n) 4) (off3' : byteAt (s.params t n) 4 ≤ 15)
    (on3 : 1 ≤ byteAt (s.params t n) 5) (on3' : byteAt (s.params t n) 5 < byteAt (s.params t n) 4)
    (f : byteAt (s.params t n) 6 = 0) :
    exec (.trafficBuffer t n) s = .next (({ s with tm.buf := {
      upCells := leAt (s.params t n) 0 2, xoff := #v[byteAt (s.params t n) 2, byteAt (s.params t n) 4]
      xon := #v[byteAt (s.params t n) 3, byteAt (s.params t n) 5] } } : State).done t n Status.ok) := by
  refine (command_sends h).trans (congrArg Host.Outcome.next ((State.guard_pass ?_).trans ((State.guard_pass ?_).trans ?_)))
  · have on2'' : byteAt (s.params t n) 3 ≤ byteAt (s.params t n) 2 - 1 := by omega
    have on3'' : byteAt (s.params t n) 5 ≤ byteAt (s.params t n) 4 - 1 := by omega
    simp [within, up, up', off2, off2', on2, on2'', off3, off3', on3, on3'', f]
  · rw [f]
    rfl
  · dsimp only
    rw [State.guard_none, f]
    rfl

theorem exec_trafficHold (h : s.sends t n 0x0A06 [(0, 3), (4, 2)]) (f : s.prm1 t n 2 ≤ 1) {l : Fin 2}
    (what : s.prm1 t n 0 = 2 + l.val) : exec (.trafficHold t n) s = .next (({ s with
      tm.holdPort := s.tm.holdPort.set l (holdOf s.now (s.prm t n 4 2) (bit (s.prm1 t n 2) 0)) } : State).done t n
        Status.ok) := by
  refine (command_sends h).trans (congrArg Host.Outcome.next ((State.guard_pass ?_).trans ?_))
  · rw [what]
    have port : (2 + l.val) = 2 ∨ (2 + l.val) = 3 := by omega
    rcases port with port | port <;> rw [port] <;> simpa using f
  · obtain rfl : l = Fin.ofNat 2 (s.prm1 t n 0 - 2) := by rw [what, Nat.add_sub_cancel_left, Fin.ofNat_val]
    dsimp only
    rw [State.guard_none, if_neg (by omega)]

theorem exec_trafficWatch (h : s.sends t n 0x0A07 [(0, 10)]) (start : s.prm1 t n 0 = 1) (k : s.prm1 t n 1 ≤ 8)
    (qs : ∀ i, i < 8 → s.prm1 t n (2 + i) ≤ 183 ∨ s.prm1 t n (2 + i) = 0xFF) :
    exec (.trafficWatch t n) s = .next (({ s with tm.sampler := {
      running := true, k := s.prm1 t n 1
      qids := ((List.range 8).map fun i => s.prm1 t n (2 + i)).filter (· != 0xFF), start := s.now
      startTt := s.ttU } } : State).done t n Status.ok) := by
  refine (command_sends h).trans (congrArg Host.Outcome.next ((State.guard_pass ?_).trans ?_))
  · simp only [start, decide_eq_false (Nat.not_lt.2 k), Bool.or_eq_false_iff, List.any_eq_false, List.mem_filter,
      List.mem_map, List.mem_range]
    refine ⟨⟨rfl, trivial⟩, ?_⟩
    rintro _ ⟨⟨i, hi, rfl⟩, other⟩
    have := qs i hi
    simp at other ⊢
    omega
  · dsimp only
    rw [State.guard_none, start]
    rfl

theorem exec_trafficWatchRead (h : s.sends t n 0x0A08 [(0, 6), (8, 4)]) (lo : 1 ≤ s.prm t n 4 2)
    (hi : s.prm t n 4 2 ≤ 4096) (range : s.rangeOk t n (s.prm t n 8 4) (8 * s.prm t n 4 2) = true) :
    exec (.trafficWatchRead t n) s = .next
      ((s.partWrite t (s.prm t n 8 4)
          ((s.tm.sampler.from (s.prm t n 0 4) (s.prm t n 4 2)).2.flatMap fun e => leBytes 8 e.toNat)).post t n Status.ok
        (leBytes 4 (s.tm.sampler.from (s.prm t n 0 4) (s.prm t n 4 2)).1
          ++ leBytes 2 (s.tm.sampler.from (s.prm t n 0 4) (s.prm t n 4 2)).2.length ++ leBytes 1 s.tm.sampler.k ++ [0]
          ++ leBytes 4 s.tm.sampler.index ++ ttBytes s.tm.sampler.startTt) true) := by
  refine (command_sends h).trans (congrArg Host.Outcome.next ((State.guard_pass ?_).trans State.guard_none))
  simp [within, lo, hi, range]

theorem Sampler.from_length (x : Sampler) (first count : Nat) : (x.from first count).2.length ≤ count := by
  unfold Sampler.from
  extract_lets age held
  clear_value age held
  split
  · exact Nat.zero_le count
  · exact List.length_take_le _ _

end

/-! ### Injection (R361) -/

section
variable {s : State} {t : Ten} {n : SlotIx}

theorem exec_trafficInject (h : s.runs t n 0x0A09 = true) (bulk : (s.slot t n).bulk = true)
    (stop : (s.slot t n).stop = none) (none_ : (s.tm.inject.any fun x => x.1 == t && x.2.1 == n) = false) :
    exec (.trafficInject t n) s = .next (s.injectRun t n (s.params t n) 1100 0 0) := by
  refine (commandBy_runs h).trans (congrArg Host.Outcome.next ?_)
  dsimp only
  rw [if_neg (by simp [none_]), State.guard_pass (by simp [bulk]), State.guard_none, stop]
  rfl

theorem recordAt_length {bs f : List Byte} {off next : Nat} (h : recordAt bs off = some (f, next)) : off < bs.length := by
  unfold recordAt at h
  dsimp only at h
  split at h
  next ok =>
    simp only [Bool.and_eq_true, decide_eq_true_eq] at ok
    omega
  · cases h

/-- A record for which the FIFO has no room waits where it stands. -/
theorem State.injectRun_waits {bs f : List Byte} {next : Nat} (fuel off k : Nat) (rec_ : recordAt bs off = some (f, next))
    (full : s.injectRoom f.length = false) :
    s.injectRun t n bs (fuel + 1) off k = { s with
      tm.inject := (t, n, off, k) :: s.tm.inject.filter fun x => x.1 != t || x.2.1 != n } := by
  rw [State.injectRun]
  dsimp only
  rw [if_neg (Nat.not_le.2 (recordAt_length rec_)), rec_]
  exact if_pos (by simp [full])

/-- A record for which the FIFO has room goes in, and the next one is offered. -/
theorem State.injectRun_goes {bs f : List Byte} {next : Nat} (fuel off k : Nat) (rec_ : recordAt bs off = some (f, next))
    (room : s.injectRoom f.length = true) :
    s.injectRun t n bs (fuel + 1) off k =
      ((s.ingress { bytes := f, src := 3, ten := t }).toNoon).injectRun t n bs fuel next (k + 1) := by
  rw [State.injectRun]
  dsimp only
  rw [if_neg (Nat.not_le.2 (recordAt_length rec_)), rec_]
  exact if_neg (by simp [room])

/-- Past the last record the injection answers how many went in. -/
theorem State.injectRun_ends {bs : List Byte} {off : Nat} (fuel k : Nat) (end_ : bs.length ≤ off) :
    s.injectRun t n bs (fuel + 1) off k =
      ({ s with tm.inject := s.tm.inject.filter fun x => x.1 != t || x.2.1 != n } : State).answer t n (leBytes 2 k) := by
  rw [State.injectRun]
  exact if_pos end_

theorem exec_injectOffer (h : s.inHand t n 0x0A09 = true) {off k : Nat}
    (waits : (s.tm.inject.find? fun x => x.1 == t && x.2.1 == n) = some (t, n, off, k)) :
    exec (.injectOffer t n) s = .next (s.injectRun t n (s.params t n) 1100 off k) := by
  show execInjectOffer t n s = _
  rw [execInjectOffer, waits]
  exact congrArg Host.Outcome.next (if_pos h)

/-! ### Reception (R359, R360) -/

theorem satTo_eq_min (top v : Nat) : satTo top v = min top v := by
  unfold satTo
  split <;> omega

/-- The copy writes no more than the range. -/
theorem State.copyPort_room (t : Ten) (off room mask most : Nat) (fuel k w : Nat) (s : State) (fits : w ≤ room) :
    (s.copyPort t off room mask most fuel k w).2.2 ≤ room := by
  induction fuel generalizing s k w with
  | zero => exact fits
  | succ fuel ih =>
    rw [State.copyPort]
    split
    · exact fits
    · dsimp only
      split
      · exact fits
      next stays =>
        simp only [Bool.or_eq_true, decide_eq_true_eq, not_or, Nat.not_lt] at stays
        exact ih _ _ _ stays.1

theorem exec_trafficReceive (h : s.sends t n 0x0A0A [(0, 10)]) (big : 64 ≤ s.prm t n 4 4)
    (range : s.rangeOk t n (s.prm t n 0 4) (s.prm t n 4 4) = true) (tenant : t ≠ 0)
    (spi : (spiOf (s.ten t).cfg.transport).isSome = true) {s1 : State} {k w : Nat}
    (copied : s.copyPort t (s.prm t n 0 4) (s.prm t n 4 4) (s.prm1 t n 8) (s.prm1 t n 9) (s.portWaiting t) 0 0 = (s1, k, w)) :
    ∃ s2 : State, exec (.trafficReceive t n) s = .next (s2.tellPort t) ∧
      s2.slot t n = (s1.post t n Status.ok
        (leBytes 2 k ++ leBytes 2 (min 65535 (s1.portWaiting t)) ++ leBytes 4 w) true).slot t n := by
  have portOf : (spiOf (s.ten t).cfg.transport).isNone = false := by
    rw [Option.isNone_eq_false_iff]
    exact spi
  refine ⟨_, (command_sends h).trans
    (congrArg Host.Outcome.next ((State.guard_pass ?_).trans ((State.guard_pass ?_).trans State.guard_none))), ?_⟩
  · simp [range, big]
  · simp [tenant, portOf]
  · rw [copied, ← satTo_eq_min]
    rfl

end

/-! ### Local egress (R358), the end of a hold, the latency watch (R370) -/

section
variable {s : State} {l : Fin 2}

/-- A frame that leaves its queue changes counts there, and may assert a source: the rest of the traffic unit and
every lane stay. -/
theorem State.leave_keeps (s : State) (i : Fin 184) (f : Frame) :
    (∀ j, ((s.leave i f).q j).frames = (s.q j).frames) ∧ (s.leave i f).tm.rr = s.tm.rr ∧ (s.leave i f).lanes = s.lanes := by
  have counts (g : Queue → Queue) (same : ∀ x, (g x).frames = x.frames) (j : Fin 184) :
      ((s.modQ i g).q j).frames = (s.q j).frames := by
    rw [State.modQ_q]
    split
    next e => rw [same, e]
    · rfl
  have raised (x : State) (n : Fin 256) (d : BitVec 32) (j : Fin 184) : (x.raise n d).q j = x.q j := by simp [State.q]
  unfold State.leave
  dsimp only
  split
  · split
    · refine ⟨fun j => ?_, ?_, ?_⟩
      · rw [raised, counts]
        intro x
        rfl
      · simp [State.modQ]
      · simp
    · exact ⟨counts _ fun x => rfl, rfl, rfl⟩
  · exact ⟨counts _ fun x => rfl, rfl, rfl⟩

theorem exec_portEgressSelect_none (h : s.portMaySend l = false) : exec (.portEgressSelect l) s = .next s := by
  show execPortEgressSelect l s = _
  rw [execPortEgressSelect, h]
  rfl

theorem State.q_of_modQ {x : State} {i : Fin 184} {g : Queue → Queue} (h : x.tm.queues = (s.modQ i g).tm.queues) :
    x.q i = g (s.q i) := by
  rw [State.q, h, ← State.q, State.modQ_q, if_pos rfl]

theorem State.frames_of_modQ {x : State} {i : Fin 184} {g : Queue → Queue} {r : List Frame}
    (h : x.tm.queues = (s.modQ i g).tm.queues) (left : (g (s.q i)).frames = r) : (x.q i).frames = r := by
  rw [State.q_of_modQ h, left]

theorem Queue.charge_frames (x : Queue) (n rate : Nat) : (x.charge n rate).frames = x.frames := by
  unfold Queue.charge
  split <;> rfl

/-- The MAC takes the chosen queue's first frame. -/
theorem exec_portEgressSelect (may : s.portMaySend l = true) {band : Fin 4} {q : Fin 64}
    (choice : s.egressChoice l = some (band, q)) {f : Frame} {rest : List Frame}
    (head : (s.q (egressQid l (Fin.ofNat 32 q.val))).frames = f :: rest) :
    ∃ s3 : State, exec (.portEgressSelect l) s = .next (s3.emit (.egress l (padTo 60 f.bytes))).watchFill ∧
      (s3.q (egressQid l (Fin.ofNat 32 q.val))).frames = rest ∧ s3.tm.rr = s.tm.rr.set (portPtr l band) (some q.val) ∧
      (s3.local_ l).busyTo = s.now + (s.local_ l).frameNs f.bytes.length := by
  have row : execPortEgressSelect l s = execPortEgressSelect l s := rfl
  conv_rhs at row => rw [execPortEgressSelect, may, choice]
  dsimp only at row
  rw [if_neg (by simp), Queue.tick_frames, head] at row
  refine ⟨_, row, ?_, ?_, ?_⟩
  · refine ((State.leave_keeps _ _ f).1 _).trans ?_
    exact State.frames_of_modQ (s := s) (g := fun _ => Queue.charge { (s.q _).tick s.now with frames := rest } _ _) rfl
      (Queue.charge_frames _ _ _)
  · exact (State.leave_keeps _ _ f).2.1
  · rw [State.modLocal_local_, if_pos rfl]
    have local_ : ∀ x : State, x.lanes = s.lanes → s.now + (x.local_ l).frameNs f.bytes.length =
        s.now + (s.local_ l).frameNs f.bytes.length := by
      intro x same
      rw [State.local_, same, State.local_]
    exact local_ _ (State.leave_keeps _ _ f).2.2

theorem State.le_reach_now (s : State) (d : Nat) : d ≤ (s.reach d).now := Nat.le_max_right _ _

theorem Hold.swept_ended {h : Option Hold} {d now : Nat} (ends : Hold.ends h = some d) (past : d ≤ now) :
    Hold.swept h now = none := by
  obtain ⟨x, rfl, until_⟩ := Option.bind_eq_some_iff.1 ends
  simp [Hold.swept, Hold.runs, until_, past]

theorem exec_holdExpiry_port {d : Nat} (ends : Hold.ends s.tm.holdPort[l] = some d) :
    exec (.holdExpiry (Fin.ofNat 10 (8 + l.val))) s = .next { s.reach d with tm.holdPort := s.tm.holdPort.set l none } := by
  have id_ : ¬(Fin.ofNat 10 (8 + l.val)).val < 8 ∧ Fin.ofNat 2 ((Fin.ofNat 10 (8 + l.val)).val - 8) = l :=
    (by decide : ∀ l : Fin 2, ¬(Fin.ofNat 10 (8 + l.val)).val < 8 ∧ Fin.ofNat 2 ((Fin.ofNat 10 (8 + l.val)).val - 8) = l) l
  generalize Fin.ofNat 10 (8 + l.val) = id at id_ ⊢
  obtain ⟨local_, rfl⟩ := id_
  show execHoldExpiry _ s = _
  rw [execHoldExpiry, dif_neg local_]
  dsimp only
  rw [ends]
  dsimp only
  rw [State.reach_tm, Hold.swept_ended ends (s.le_reach_now d)]

theorem exec_watchPeriod (runs : s.tm.sampler.running = true) : ∃ ring, exec .watchPeriod s =
    .next { s.reach (s.tm.sampler.start + (s.tm.sampler.period + 1) * s.tm.sampler.periodNs) with
      tm.sampler := { s.tm.sampler with
        period := s.tm.sampler.period + 1, ring := ring
        index := (s.tm.sampler.index + s.tm.sampler.qids.length) % 2 ^ 32 } } := by
  have row : execWatchPeriod s = execWatchPeriod s := rfl
  conv_rhs at row => rw [execWatchPeriod]
  dsimp only at row
  rw [if_neg (by simp [runs])] at row
  exact ⟨_, row⟩

end

/-- Settles O46. -/
theorem trafficCommands : Obligations.TrafficCommands := by
  intro s t n
  refine ⟨exec_trafficStatus, fun h i q f ok => ⟨fun down => ?_, fun up => ?_⟩, fun h i => exec_trafficQueueStatus h,
    fun h i which write f ok => ⟨_, _, exec_trafficPolicer h which write f ok, rfl, rfl, rfl, rfl, rfl⟩,
    exec_trafficBuffer, fun h f l what => exec_trafficHold h f what,
    fun h start k qs => ⟨_, exec_trafficWatch h start k qs, rfl, rfl, rfl, rfl, rfl⟩,
    fun h lo hi range => ⟨exec_trafficWatchRead h lo hi range, Sampler.from_length _ _ _⟩,
    fun h bulk stop idle f next rec_ => ⟨fun full => ?_, fun room last => ⟨_, rfl, ?_⟩⟩,
    fun h off k waits => exec_injectOffer h waits, fun h big range tenant spi => ?_,
    fun l => ⟨exec_portEgressSelect_none, fun band q f rest may choice head => exec_portEgressSelect may choice head⟩,
    fun l d ends => exec_holdExpiry_port ends, fun runs => ?_⟩
  · rw [exec_trafficQueueCfg h q f ok, dif_neg (Nat.not_lt.2 down)]
  · rw [exec_trafficQueueCfg h q f ok, dif_pos up]
  · refine ⟨_, (exec_trafficInject h bulk stop idle).trans
      (congrArg Host.Outcome.next (State.injectRun_waits 1099 0 0 rec_ full)), List.mem_cons_self, rfl, rfl⟩
  · rw [exec_trafficInject h bulk stop idle, State.injectRun_goes 1099 0 0 rec_ room, State.injectRun_ends 1098 1 last]
    rfl
  · obtain ⟨s2, row, slot⟩ := exec_trafficReceive h big range tenant spi rfl
    exact ⟨_, _, _, rfl, State.copyPort_room _ _ _ _ _ _ _ _ _ (Nat.zero_le _), s2, row, slot⟩
  · obtain ⟨ring, row⟩ := exec_watchPeriod runs
    exact ⟨_, row, rfl, rfl, rfl, rfl⟩

end Sys2Proof.Machine


/-!
SUPPORT. Parsing and rules (chapter 14): the `RULES` commands, and a frame through FIFO, parser, lane, slow path and
reorder buffer.
-/

namespace Sys2Proof.Machine

/-! ### Records applied to STAGING (R339) -/

theorem applyProfile_error {x : Parser} {r : List Byte} {st : Half} (h : x.applyProfile r = .error st) : st ≠ Status.ok := by
  unfold Parser.applyProfile at h
  dsimp only at h
  split at h
  · obtain rfl := Except.error.inj h
    decide
  · split at h
    · cases h
    · obtain rfl := Except.error.inj h
      decide

/-- Records that all stand are all counted. -/
theorem applyAll_count {f : Parser → List Byte → Applied} (fails : ∀ {x r st}, f x r = .error st → st ≠ Status.ok) :
    ∀ (rs : List (List Byte)) (x : Parser) (k : Nat), (applyAll f x rs k).2.2 = Status.ok →
      (applyAll f x rs k).2.1 = k + rs.length
  | [], x, k, _ => rfl
  | r :: rs, x, k, ok => by
    cases e : f x r with
    | ok y =>
      simp only [applyAll, e] at ok ⊢
      rw [applyAll_count fails rs y (k + 1) ok, List.length_cons]
      omega
    | error st =>
      simp only [applyAll, e] at ok
      exact absurd ok (fails e)

theorem recordsOf_length (size : Nat) (bs : List Byte) : (recordsOf size bs).length = bs.length / size := by
  simp [recordsOf]

section
variable {s : State} {t : Ten} {n : SlotIx}

theorem params_length_of_bulk (h : (s.slot t n).bulk = true) : (s.params t n).length = (s.slot t n).bLen := by
  simp [State.params, State.paramsOf, h, State.partRead]

/-- Profile or entry records applied (R339). -/
theorem exec_rulesProfile (h : s.runs t n 0x0902 = true) (records : s.recordsOk t n 216 5 = true)
    (open_ : s.pars.pause = none) : exec (.rulesProfile t n) s =
      .next (({ s with pars := (applyAll Parser.applyProfile s.pars (recordsOf 216 (s.params t n)) 0).1 } : State).post t n
        (applyAll Parser.applyProfile s.pars (recordsOf 216 (s.params t n)) 0).2.2
        [BitVec.ofNat 8 (applyAll Parser.applyProfile s.pars (recordsOf 216 (s.params t n)) 0).2.1,
          tagByte (applyAll Parser.applyProfile s.pars (recordsOf 216 (s.params t n)) 0).1.staging]) := by
  refine (commandBy_runs h).trans
    (congrArg Host.Outcome.next ((State.guard_pass ?_).trans ((State.guard_pass ?_).trans State.guard_none)))
  · rw [records]
    rfl
  · rw [open_]
    rfl

theorem recordsOk_count (records : s.recordsOk t n 216 5 = true) :
    (recordsOf 216 (s.params t n)).length = (s.slot t n).bLen / 216 := by
  simp only [State.recordsOk, Bool.and_eq_true] at records
  obtain ⟨⟨bulk, -⟩, -⟩ := records
  rw [recordsOf_length, params_length_of_bulk bulk]

theorem exec_rulesWrite (h : s.runs t n 0x0903 = true) (records : s.recordsOk t n 104 256 = true)
    (open_ : s.pars.pause = none) : exec (.rulesWrite t n) s =
      .next (({ s with pars := (applyAll Parser.applyRule s.pars (recordsOf 104 (s.params t n)) 0).1 } : State).post t n
        (applyAll Parser.applyRule s.pars (recordsOf 104 (s.params t n)) 0).2.2
        (leBytes 2 (applyAll Parser.applyRule s.pars (recordsOf 104 (s.params t n)) 0).2.1
          ++ [tagByte (applyAll Parser.applyRule s.pars (recordsOf 104 (s.params t n)) 0).1.staging])) := by
  refine (commandBy_runs h).trans
    (congrArg Host.Outcome.next ((State.guard_pass ?_).trans ((State.guard_pass ?_).trans State.guard_none)))
  · rw [records]
    rfl
  · rw [open_]
    rfl

/-! ### Commits and discards (R341, R343, R344) -/

/-- A commit without `PERSIST`, in either mode. -/
theorem exec_rulesCommit (h : s.sends t n 0x0904 [(0, 2)]) (mode : s.prm1 t n 0 ≤ 1) (keep : s.prm1 t n 1 = 0)
    (open_ : s.pars.pause = none) {tag : Fin 4} (staged : s.pars.staging = some tag)
    (free : s.prm1 t n 0 = 1 → s.pars.drain = none ∧ s.pars.queued = none) :
    exec (.rulesCommit t n) s = .next (if s.prm1 t n 0 = 1 then
        ({ s with pars.pause := some { ten := t, slot := n, by_ := s.now + 50000, persist := false } } : State)
      else s.commitVersion t n false).retryAuto := by
  refine (command_sends h).trans (congrArg Host.Outcome.next (congrArg State.retryAuto ((State.guard_pass ?_).trans
    ((State.guard_pass ?_).trans ((State.guard_pass ?_).trans ((State.guard_pass ?_).trans ?_))))))
  · simpa [keep] using mode
  · by_cases pause : s.prm1 t n 0 = 1
    · obtain ⟨drain, queued⟩ := free pause
      simp [open_, drain, queued]
    · simp [open_, pause]
  · simp [staged]
  · rw [keep]
    rfl
  · dsimp only
    rw [State.guard_none, keep]
    simp only [beq_iff_eq]
    rfl

/-- A VERSIONED commit where nothing drains: STAGING is CURRENT. -/
theorem State.commitVersion_current {tag : Fin 4} (staged : s.pars.staging = some tag) (drained : s.pars.drain = none) :
    s.commitVersion t n false =
      (({ s with pars.staging := none } : State).makeCurrent tag).answer t n [BitVec.ofNat 8 tag.val, 0] := by
  unfold State.commitVersion
  rw [staged]
  dsimp only
  rw [drained]
  rfl

/-- A VERSIONED commit while a version drains: STAGING is QUEUED. -/
theorem State.commitVersion_queued {tag : Fin 4} (staged : s.pars.staging = some tag) (drains : s.pars.drain ≠ none)
    (free : s.pars.queued = none) : s.commitVersion t n false =
      ({ s with pars := { s.pars with staging := none, queued := some tag } } : State).answer t n
        [BitVec.ofNat 8 tag.val, 1] := by
  obtain ⟨d, drains⟩ := Option.ne_none_iff_exists'.1 drains
  unfold State.commitVersion
  rw [staged]
  dsimp only
  rw [drains, free]
  rfl

theorem State.commitVersion_full {tag : Fin 4} (staged : s.pars.staging = some tag) (drains : s.pars.drain ≠ none)
    (full : s.pars.queued ≠ none) : s.commitVersion t n false = s.done t n Status.versionsFull := by
  obtain ⟨d, drains⟩ := Option.ne_none_iff_exists'.1 drains
  obtain ⟨q, full⟩ := Option.ne_none_iff_exists'.1 full
  unfold State.commitVersion
  rw [staged]
  dsimp only
  rw [drains, full]

/-- No entry bears a cleared tag. -/
theorem Parser.clearTag_bit (x : Parser) (tag : Fin 4) : ∀ r ∈ (x.clearTag tag).rules, r.vmask.getLsbD tag.val = false := by
  intro r mem
  obtain ⟨r0, -, rfl⟩ := List.mem_map.1 (List.mem_filter.1 mem).1
  fin_cases tag <;> simp

theorem exec_rulesDiscard (h : s.sends t n 0x0905 []) (open_ : s.pars.pause = none) {tag : Fin 4}
    (staged : s.pars.staging = some tag) : exec (.rulesDiscard t n) s =
      .next ((({ s with pars := { s.pars.clearTag tag with staging := none } } : State).done t n Status.ok).retryAuto) := by
  refine (command_sends h).trans (congrArg Host.Outcome.next (congrArg State.retryAuto ((State.guard_pass ?_).trans
    ((State.guard_pass ?_).trans (State.guard_none.trans ?_)))))
  · rw [open_]
    rfl
  · rw [staged]
    rfl
  · rw [State.discardStaging, staged]

/-! ### Reading, lanes, counters, the slow path's deadline (R334, R345 to R347) -/

theorem exec_rulesStatus (h : s.sends t n 0x0901 [(0, 1)]) (keep : s.prm1 t n 0 = 0) :
    exec (.rulesStatus t n) s = .next (s.answer t n s.rulesStatus) := by
  refine (command_sends h).trans ?_
  dsimp only
  rw [keep]
  rfl

theorem exec_rulesRead (h : s.sends t n 0x0906 [(0, 2), (4, 4)]) (entry : s.prm t n 0 2 ≤ 4095)
    (range : s.rangeOk t n (s.prm t n 4 4) 104 = true) : exec (.rulesRead t n) s =
      .next ((s.partWrite t (s.prm t n 4 4) (s.pars.entryRecord (s.prm t n 0 2))).post t n Status.ok
        [BitVec.ofNat 8 (s.pars.vmaskOf (s.prm t n 0 2))] true) := by
  refine (command_sends h).trans (congrArg Host.Outcome.next ((State.guard_pass ?_).trans State.guard_none))
  simpa [range] using entry

/-- A lane in service asked to leave, one of several. -/
theorem exec_rulesLane_out (h : s.sends t n 0x0907 [(0, 2)]) (open_ : s.pars.pause = none) {l : Fin 4}
    (lane : s.prm1 t n 0 = l.val) (out : s.prm1 t n 1 = 0) (up : s.pars.lanesIn[l] = true)
    (idle : s.pars.laneOut[l] = none) (others : s.pars.lanesUp ≠ 1) :
    exec (.rulesLane t n) s = .next { s with pars := { s.pars with
      lanesIn := s.pars.lanesIn.set l false, laneOut := s.pars.laneOut.set l (some (some (t, n))) } } := by
  obtain rfl : l = Fin.ofNat 4 (s.prm1 t n 0) := by rw [lane, Fin.ofNat_val]
  refine (command_sends h).trans (congrArg Host.Outcome.next ((State.guard_pass ?_).trans
    ((State.guard_pass ?_).trans ((State.guard_pass ?_).trans (State.guard_none.trans ?_)))))
  · have inRange : ¬3 < s.prm1 t n 0 := by omega
    simp [inRange, out]
  · rw [open_, out, idle, up]
    rfl
  · simp [others]
  · dsimp only
    rw [out, up]
    rfl

/-- A lane in service asked to enter stays as it is. -/
theorem exec_rulesLane_stays (h : s.sends t n 0x0907 [(0, 2)]) (open_ : s.pars.pause = none) {l : Fin 4}
    (lane : s.prm1 t n 0 = l.val) (goIn : s.prm1 t n 1 = 1) (up : s.pars.lanesIn[l] = true)
    (idle : s.pars.laneIn[l] = none) : exec (.rulesLane t n) s = .next (s.answer t n s.pars.laneMask) := by
  obtain rfl : l = Fin.ofNat 4 (s.prm1 t n 0) := by rw [lane, Fin.ofNat_val]
  refine (command_sends h).trans (congrArg Host.Outcome.next ((State.guard_pass ?_).trans
    ((State.guard_pass ?_).trans ((State.guard_pass ?_).trans (State.guard_none.trans ?_)))))
  · have inRange : ¬3 < s.prm1 t n 0 := by omega
    simp [inRange, goIn]
  · rw [open_, goIn, idle, up]
    rfl
  · simp [goIn]
  · dsimp only
    rw [goIn, up]
    rfl

/-- The last lane in service does not leave. -/
theorem exec_rulesLane_last (h : s.sends t n 0x0907 [(0, 2)]) (open_ : s.pars.pause = none) {l : Fin 4}
    (lane : s.prm1 t n 0 = l.val) (out : s.prm1 t n 1 = 0) (up : s.pars.lanesIn[l] = true)
    (idle : s.pars.laneOut[l] = none) (last : s.pars.lanesUp = 1) :
    exec (.rulesLane t n) s = .next (s.done t n Status.state) := by
  obtain rfl : l = Fin.ofNat 4 (s.prm1 t n 0) := by rw [lane, Fin.ofNat_val]
  refine (command_sends h).trans (congrArg Host.Outcome.next ((State.guard_pass ?_).trans
    ((State.guard_pass ?_).trans (State.guard_fail ?_))))
  · have inRange : ¬3 < s.prm1 t n 0 := by omega
    simp [inRange, out]
  · rw [open_, out, idle, up]
    rfl
  · rw [out, up, last]
    rfl

theorem exec_rulesCounters (h : s.sends t n 0x0908 [(0, 4)]) (one : s.prm1 t n 2 = 1) (clear : s.prm1 t n 3 = 1)
    (first : s.prm t n 0 2 < 2048) : exec (.rulesCounters t n) s = .next (({ s with
      pars.counters := s.pars.counters.filter fun c => c.1 < s.prm t n 0 2 || s.prm t n 0 2 + 1 ≤ c.1 } : State).answer t n
        (s.pars.counter (s.prm t n 0 2))) := by
  refine (command_sends h).trans (congrArg Host.Outcome.next ((State.guard_pass ?_).trans (State.guard_none.trans ?_)))
  · simp only [one, clear]
    have a : ¬2047 < s.prm t n 0 2 := by omega
    have b : ¬2048 < s.prm t n 0 2 + 1 := by omega
    simp [a, b, within]
  · dsimp only
    rw [one, clear, show (List.range 1).flatMap (fun i => s.pars.counter (s.prm t n 0 2 + i)) = s.pars.counter (s.prm t n 0 2)
      by simp]
    rfl

/-- A counter cleared reads zero. -/
theorem Parser.counter_cleared (x : Parser) (i : Nat) :
    ({ x with counters := x.counters.filter fun c => c.1 < i || i + 1 ≤ c.1 } : Parser).counter i =
      List.replicate 16 0 := by
  have gone : (x.counters.filter fun c => c.1 < i || i + 1 ≤ c.1).find? (fun c => c.1 == i) = none := by
    rw [List.find?_eq_none]
    intro c mem
    have := (List.mem_filter.1 mem).2
    simp at this ⊢
    omega
  simp only [Parser.counter, gone]
  decide

/-- The other counters stand. -/
theorem Parser.counter_other (x : Parser) {i j : Nat} (other : j ≠ i) :
    ({ x with counters := x.counters.filter fun c => c.1 < i || i + 1 ≤ c.1 } : Parser).counter j = x.counter j := by
  have same : (x.counters.filter fun c => c.1 < i || i + 1 ≤ c.1).find? (fun c => c.1 == j) =
      x.counters.find? fun c => c.1 == j := by
    rw [List.find?_filter]
    congr 1
    funext c
    by_cases e : c.1 = j
    · have : c.1 < i ∨ i + 1 ≤ c.1 := by omega
      simp [e]
      omega
    · simp [e]
  simp only [Parser.counter, same]

theorem exec_rulesSlowConfig (h : s.sends t n 0x0909 [(0, 3)]) (lo : 50 ≤ s.prm t n 0 2) (hi : s.prm t n 0 2 ≤ 2000)
    (keep : s.prm1 t n 2 = 0) : exec (.rulesSlowConfig t n) s =
      .next (({ s with pars.slowDeadline := s.prm t n 0 2 } : State).done t n Status.ok) := by
  refine (command_sends h).trans (congrArg Host.Outcome.next ((State.guard_pass ?_).trans ((State.guard_pass ?_).trans ?_)))
  · simp [within, lo, hi, keep]
  · rw [keep]
    rfl
  · dsimp only
    rw [State.guard_none, keep]
    rfl

end

/-- Settles O44. -/
theorem rulesCommands : Obligations.RulesCommands := by
  intro s t n
  refine ⟨exec_rulesStatus, fun h records open_ => ⟨_, _, _, exec_rulesProfile h records open_, rfl, fun ok => ?_⟩,
    fun h records open_ => ⟨_, _, _, exec_rulesWrite h records open_, rfl⟩,
    fun h keep open_ tag staged => ⟨fun mode drained => ?_, fun mode drains free => ?_, fun mode drains full => ?_,
      fun mode drained free => ?_⟩,
    fun h open_ tag staged => ⟨_, exec_rulesDiscard h open_ staged, rfl, rfl, Parser.clearTag_bit s.pars tag⟩,
    exec_rulesRead, fun h open_ l lane => ⟨exec_rulesLane_out h open_ lane, exec_rulesLane_stays h open_ lane,
      exec_rulesLane_last h open_ lane⟩,
    fun h one clear first => ⟨_, exec_rulesCounters h one clear first, Parser.counter_cleared _ _, fun i other =>
      Parser.counter_other _ other⟩, exec_rulesSlowConfig⟩
  · rw [applyAll_count applyProfile_error _ _ _ ok, recordsOk_count records, Nat.zero_add]
  · rw [exec_rulesCommit h (by omega) keep open_ staged fun one => absurd one (by omega),
      if_neg (by omega), State.commitVersion_current staged drained]
  · rw [exec_rulesCommit h (by omega) keep open_ staged fun one => absurd one (by omega),
      if_neg (by omega), State.commitVersion_queued staged drains free]
  · rw [exec_rulesCommit h (by omega) keep open_ staged fun one => absurd one (by omega),
      if_neg (by omega), State.commitVersion_full staged drains full]
  · rw [exec_rulesCommit h (by omega) keep open_ staged fun _ => ⟨drained, free⟩, if_pos mode]

end Sys2Proof.Machine


/-!
SUPPORT. A frame through FIFO, parser, lane, slow path and reorder buffer; versions drained, PAUSE commits, and lanes
out of service (R325 to R346).
-/

namespace Sys2Proof.Machine

section
variable {s : State}

/-! ### Into the parser (R325, R326, R335) -/

theorem exec_ingressFrame_fits {src : Fin 4} {bytes : List Byte} {oversize : Bool} (on : s.domOn dPKT = true)
    (fits : s.fifoFill src + bytes.length ≤ 16384) : exec (.ingressFrame src bytes oversize) s = .next (({ s with
      pars.fifo := s.pars.fifo.set src (s.pars.fifo[src] ++ [{ bytes := bytes, src := src, oversize := oversize }]) } :
        State).touch.toNoon) := by
  show execIngressFrame src bytes oversize s = _
  have room : s.fifoFits src bytes.length = true := decide_eq_true fits
  rw [execIngressFrame, if_pos on, State.ingress, if_neg (by simp [on]), if_pos room]

theorem exec_ingressFrame_full {src : Fin 4} {bytes : List Byte} {oversize : Bool} (on : s.domOn dPKT = true)
    (full : 16384 < s.fifoFill src + bytes.length) : exec (.ingressFrame src bytes oversize) s =
      .next (({ s with pars.inFull := inc32 s.pars.inFull } : State).touch.toNoon) := by
  show execIngressFrame src bytes oversize s = _
  have room : ¬s.fifoFits src bytes.length = true := by
    rw [State.fifoFits, decide_eq_true_eq]
    exact Nat.not_le.2 full
  rw [execIngressFrame, if_pos on, State.ingress, if_neg (by simp [on]), if_neg room]

/-- A frame in flight joins its own source's buffer. -/
theorem State.putFlight_reorder (s : State) (f : Flight) (src : Fin 4) :
    (s.putFlight f).reorder src = if f.frame.src = src then s.reorder src ++ [f] else s.reorder src := by
  simp only [State.putFlight, State.reorder, Fin.getElem_fin, Vector.getElem_set, Fin.ext_iff]
  split
  next e => simp [e]
  · rfl

/-- A frame whose key Table 14.4 sends to a lane. -/
theorem State.dispatch_lane {f : Flight} {prof : Nat} {key : List Byte}
    (parsed : parse s.pars.profiles[f.tag] f.frame = .key false prof key) : s.dispatch f =
      ({ s with pars.laneRr := s.pars.nextLane + 1 } : State).putFlight
        { f with key := key, prof := prof, at_ := .lane s.pars.nextLane } := by
  rw [State.dispatch, parsed]
  rfl

/-- The parser takes the next frame (R326). -/
theorem exec_parserTake {src : Fin 4} {f : Frame} {rest : List Frame} {prof : Nat} {key : List Byte}
    (next : s.nextIngress = some src) (head : s.pars.fifo[src] = f :: rest)
    (parsed : parse s.pars.profiles[s.pars.cur] { f with src := src } = .key false prof key) :
    exec .parserTake s = .next (({ s with pars := { s.pars with
      fifo := s.pars.fifo.set src rest, nextSrc := src + 1, taken := s.pars.taken + 1
      seqs := s.pars.seqs.set src (s.pars.seqs[src] + 1), laneRr := s.pars.nextLane + 1 } } : State).putFlight {
        seq := s.pars.seqs[src] + 1, tag := s.pars.cur, frame := { f with src := src }, key := key, prof := prof
        n := s.pars.taken, at_ := .lane s.pars.nextLane }) := by
  show execParserTake s = _
  rw [execParserTake, next]
  dsimp only
  rw [head]
  exact congrArg Host.Outcome.next (State.dispatch_lane parsed)

/-! ### Lookups and the slow path (R330, R331, R335, R337) -/

section
variable {l : Fin 4} {f : Flight}

theorem exec_laneLookupDone (oldest : oldestFlight (s.inLane l) = some f) : exec (.laneLookupDone l false false) s =
    .next (s.moveFlight f (.decided (s.pars.lookup f.tag f.prof f.key))) := by
  show execLaneLookupDone l false false s = _
  rw [execLaneLookupDone, oldest]
  rfl

theorem exec_laneLookupDone_entry (oldest : oldestFlight (s.inLane l) = some f) :
    exec (.laneLookupDone l false true) s =
      .next { s.moveFlight f .dropped with pars.entryErr := satInc 65535 s.pars.entryErr } := by
  show execLaneLookupDone l false true s = _
  rw [execLaneLookupDone, oldest]
  rfl

theorem exec_laneLookupDone_parity (oldest : oldestFlight (s.inLane l) = some f) :
    exec (.laneLookupDone l true false) s = .next ((s.moveFlight f .dropped).laneParity l) := by
  show execLaneLookupDone l true false s = _
  rw [execLaneLookupDone, oldest]
  rfl

end

theorem exec_slowPathDecide {i : SlowItem} {rest : List SlowItem} {f : Flight} {d : Nat} (up : s.boot.core0Up = true)
    (head : s.pars.slow = i :: rest) (stands : (s.reorder i.src).find? (fun f => f.n == i.n) = some f)
    (slow : f.at_ = .slow d) : exec .slowPathDecide s = .next (({ s with pars.slow := rest } : State).moveFlight f
      (.decided (s.pars.lookup f.tag f.prof f.key))) := by
  show execSlowPathDecide s = _
  rw [execSlowPathDecide, if_neg (by simp [up]), head]
  dsimp only
  rw [show ({ s with pars.slow := rest } : State).reorder i.src = s.reorder i.src from rfl, stands]
  dsimp only
  rw [slow]
  rfl

theorem exec_slowDeadlineExpiry {f : Flight} {d : Nat} (late : s.nextLate = some (f, d)) :
    exec .slowDeadlineExpiry s =
      .next { (s.reach d).moveFlight f .dropped with pars.slowLate := inc32 s.pars.slowLate } := by
  show execSlowDeadlineExpiry s = _
  rw [execSlowDeadlineExpiry, late]
  rfl

theorem exec_slowPathSecond_none (quiet : s.pars.slowSecond = 0) : exec .slowPathSecond s =
    .next { s.reach s.pars.slowSecondBy with pars := { s.pars with
      slowSecond := 0, slowSecondBy := s.pars.slowSecondBy + 1000000000 } } := by
  show execSlowPathSecond s = _
  rw [execSlowPathSecond]
  exact congrArg Host.Outcome.next (if_pos quiet)

/-! ### Out of the reorder buffer, drains (R336, R342) -/

section
variable {src : Fin 4} {f : Flight} {rest : List Flight}

theorem exec_reorderRelease_decided (head : s.reorder src = f :: rest) {a : Nat} (decided : f.at_ = .decided a) :
    exec (.reorderRelease src) s =
      .next (({ s with pars.reorder := s.pars.reorder.set src rest } : State).actOn f.frame f.uq a) := by
  show execReorderRelease src s = _
  rw [execReorderRelease, head]
  dsimp only
  rw [decided]

theorem exec_reorderRelease_dropped (head : s.reorder src = f :: rest) (dropped : f.at_ = .dropped) :
    exec (.reorderRelease src) s = .next { s with pars.reorder := s.pars.reorder.set src rest } := by
  show execReorderRelease src s = _
  rw [execReorderRelease, head]
  dsimp only
  rw [dropped]

theorem exec_reorderRelease_lane (head : s.reorder src = f :: rest) {l : Fin 4} (lane : f.at_ = .lane l) :
    exec (.reorderRelease src) s = .next s := by
  show execReorderRelease src s = _
  rw [execReorderRelease, head]
  dsimp only
  rw [lane]

end

section
variable {tag : Fin 4}

theorem exec_versionDrain (drain : s.pars.drain = some tag) :
    exec .versionDrain s = .next (if s.inFlight tag then s else s.freeDrained tag) := by
  show execVersionDrain s = _
  rw [execVersionDrain, drain]

/-! ### PAUSE commits (R344) -/

/-- A version written to the config region leaves the parser but for the order to write it. -/
theorem State.persistVersion_pars (s : State) : s.persistVersion.pars = { s.pars with persist := s.persistVersion.pars.persist } := by
  unfold State.persistVersion
  split
  · simp [State.persisted, State.updateEnded]
  · rfl

theorem exec_pauseUpdateQuiesced {p : PauseUpd} (pause : s.pars.pause = some p) (staged : s.pars.staging = some tag)
    (empty : s.inFlight s.pars.cur = false) : ∃ s1 : State,
      exec .pauseUpdateQuiesced s = .next (s1.pausePost p Status.ok [BitVec.ofNat 8 tag.val, 0]).retryAuto ∧
        s1.pars.cur = tag ∧ s1.pars.staging = none ∧ s1.pars.pause = none := by
  have row : execPauseUpdateQuiesced s = execPauseUpdateQuiesced s := rfl
  conv_rhs at row => rw [execPauseUpdateQuiesced, pause, staged]
  dsimp only at row
  rw [if_neg (by simp [empty])] at row
  refine ⟨_, row, ?_⟩
  rw [State.persistVersion_pars]
  simp [Parser.clearTag]

theorem exec_pauseUpdateTimeout {p : PauseUpd} (pause : s.pars.pause = some p) (session : p.orphan = false)
    (lease : s.hasLease p.ten 8 = true) : exec .pauseUpdateTimeout s = .next ((({ s.reach p.by_ with
      pars := { s.pars with pause := none, pauseTo := satInc 65535 s.pars.pauseTo } } : State).post p.ten p.slot
        Status.pauseTimeout []).retryAuto) := by
  have keeps : ∀ x : State, x.mbx = s.mbx → (p.orphan || !x.hasLease p.ten 8) = false := by
    intro x same
    have held : x.hasLease p.ten 8 = s.hasLease p.ten 8 := by simp [State.hasLease, State.holder, same]
    simp [session, held, lease]
  show execPauseUpdateTimeout s = _
  rw [execPauseUpdateTimeout, pause]
  dsimp only
  rw [if_neg (by rw [keeps]; simp; rfl), State.pausePost, if_neg (by simp [session])]
  rfl

end

/-! ### Scrubbing, and lanes out of service (R337, R345, R346) -/

theorem exec_entryScrub (failed : List Nat) : exec (.entryScrub failed) s =
    .next { s with pars.entryErr := min 65535 (s.pars.entryErr + failed.length) } := by
  show execEntryScrub failed s = _
  rw [execEntryScrub, satTo_eq_min]

section
variable {l : Fin 4} {t : Ten} {n : SlotIx}

theorem exec_laneOutEmpty (waits : s.pars.laneOut[l] = some (some (t, n))) (empty : s.inLane l = []) :
    exec (.laneOutEmpty l) s =
      .next ((({ s with pars.laneOut := s.pars.laneOut.set l none } : State).raise 0x62 (BitVec.ofNat 32 l.val)).post t n
        Status.ok s.pars.laneMask) := by
  show execLaneOutEmpty l s = _
  rw [execLaneOutEmpty, waits]
  dsimp only
  rw [if_neg (by simp [empty])]
  rfl

theorem exec_laneMarkerOut_fails (waits : s.pars.laneIn[l] = some (some (t, n))) : exec (.laneMarkerOut l false) s =
    .next (({ s with pars.laneIn := s.pars.laneIn.set l none } : State).post t n Status.state []) := by
  show execLaneMarkerOut l false s = _
  rw [execLaneMarkerOut, waits]
  rfl

theorem exec_laneMarkerOut_passes (waits : s.pars.laneIn[l] = some (some (t, n))) : ∃ s1 : State,
    exec (.laneMarkerOut l true) s = .next (s1.post t n Status.ok s1.pars.laneMask) ∧
      s1.pars.lanesIn = s.pars.lanesIn.set l true ∧ s1.pars.laneIn = s.pars.laneIn.set l none := by
  refine ⟨({ s with pars := { s.pars with laneIn := s.pars.laneIn.set l none, lanesIn := s.pars.lanesIn.set l true } } :
    State).raise 0x62 (BitVec.ofNat 32 (256 + l.val)), ?_, by simp, by simp⟩
  show execLaneMarkerOut l true s = _
  rw [execLaneMarkerOut, waits, State.raise_pars]
  rfl

end
end

/-- Settles O45. -/
theorem parserRows : Obligations.ParserRows := by
  intro s
  refine ⟨fun src bytes oversize on => ⟨exec_ingressFrame_fits on, exec_ingressFrame_full on⟩,
    fun src f rest prof key next head parsed => ⟨_, exec_parserTake next head parsed, ?_, ?_, ?_, fun u other => ?_⟩,
    fun l f oldest => ⟨exec_laneLookupDone oldest, exec_laneLookupDone_entry oldest, exec_laneLookupDone_parity oldest⟩,
    fun i rest f d up head stands slow => exec_slowPathDecide up head stands slow,
    fun f d late => ⟨_, exec_slowDeadlineExpiry late, rfl⟩, exec_slowPathSecond_none,
    fun src f rest head => ⟨fun a => exec_reorderRelease_decided head, exec_reorderRelease_dropped head,
      fun ⟨l, lane⟩ => exec_reorderRelease_lane head lane⟩,
    fun tag drain => ⟨fun empty => ?_, fun flies => ?_⟩,
    fun p tag pause staged empty => exec_pauseUpdateQuiesced pause staged empty,
    fun p pause session lease => ⟨_, exec_pauseUpdateTimeout pause session lease, rfl, rfl, rfl, rfl⟩,
    exec_entryScrub, fun l t n waits empty => exec_laneOutEmpty waits empty,
    fun l t n waits => ⟨exec_laneMarkerOut_fails waits, exec_laneMarkerOut_passes waits⟩⟩
  · simp [State.putFlight]
  · simp [State.putFlight]
  · rw [State.putFlight_reorder, if_pos rfl]
    rfl
  · rw [State.putFlight_reorder, if_neg (Ne.symm other)]
    rfl
  · rw [exec_versionDrain drain, empty]
    rfl
  · rw [exec_versionDrain drain, flies]
    rfl

end Sys2Proof.Machine


/-!
SUPPORT. The `CIPHER` and `KEYS` commands (R376 to R399).
-/

namespace Sys2Proof.Machine

section
variable {s : State} {t : Ten} {n : SlotIx}

/-! ### Keys and invocation values (R387, R391) -/

theorem State.keyView_slot (i : Fin 64) : s.keyView t i.val = some { src := .slot i, attr := s.keys.slots[i] } := by
  have fin : (Fin.ofNat 64 i.val) = i := Fin.ofNat_val i
  simp only [State.keyView, if_pos i.isLt, fin]

theorem within_iff (lo hi v : Nat) : within lo hi v = true ↔ lo ≤ v ∧ v ≤ hi := by simp [within]

theorem keyRefOk_slot {i : Fin 64} (tenant : 8 ≤ i.val) : keyRefOk i.val = true := by
  have : i.val ≤ 63 := by omega
  simp [keyRefOk, within, tenant, this]

@[simp] theorem State.recordWritten_keys (s : State) : s.recordWritten.keys = s.keys := by
  simp [State.recordWritten, State.updateEnded]

@[simp] theorem State.recordWritten_cip (s : State) : s.recordWritten.cip = s.cip := by
  simp [State.recordWritten, State.updateEnded]

theorem State.modSlotKey_slots (s : State) (i : Fin 64) (f : KeySlot → KeySlot) (j : Fin 64) :
    (s.modSlotKey i f).keys.slots[j] = if i = j then f s.keys.slots[i] else s.keys.slots[j] := by
  simp [State.modSlotKey, Vector.getElem_set, Fin.ext_iff]

/-- A drawn value is the slot's counter, below its ceiling, and the counter has passed it. -/
theorem State.drawSlot_got {i : Fin 64} {ctr : Nat} {s1 : State} (drawn : s.drawSlot i = .got ctr s1) :
    ctr = s.keys.slots[i].ctr ∧ ctr < s.keys.slots[i].ceil ∧ s1.keys.slots[i].ctr = ctr + 1 := by
  unfold State.drawSlot at drawn
  extract_lets k last s2 at drawn
  have counted : s2.keys.slots[i].ctr = k.ctr + 1 := by simp only [s2, State.modSlotKey_slots, if_true]; rfl
  clear_value s2
  split at drawn
  · cases drawn
  · split at drawn
    · cases drawn
    next below =>
      obtain ⟨rfl, rfl⟩ := Drawn.got.inj drawn
      refine ⟨rfl, Nat.lt_of_not_le below, ?_⟩
      split
      · simpa using counted
      · exact counted

/-! ### Jobs (R376, R390) -/

theorem State.acceptJob_slot {i : Fin 64} (key : s.prm1 t n 0 = i.val) {op : KeyOp}
    (may : s.keyCheck t (s.keyView t i.val) op = none) (iv : List Byte) :
    s.acceptJob t n op iv = s.queueJob t n (.slot i) iv := by
  rw [State.keyView_slot] at may
  simp only [State.acceptJob, key, State.keyView_slot, may]

theorem State.acceptSeal_slot {i : Fin 64} (key : s.prm1 t n 0 = i.val)
    (may : s.keyCheck t (s.keyView t i.val) .encrypt = none) {ctr : Nat} {s1 : State} (drawn : s.drawSlot i = .got ctr s1) :
    s.acceptSeal t n = s1.queueJob t n (.slot i) (s.keys.slots[i].salt ++ beBytes 8 ctr) := by
  rw [State.keyView_slot] at may
  simp only [State.acceptSeal, key, State.keyView_slot, may, drawn]

theorem State.acceptSeal_refused {i : Fin 64} (key : s.prm1 t n 0 = i.val) {st : Half}
    (check : s.keyCheck t (s.keyView t i.val) .encrypt = some st) : s.acceptSeal t n = s.done t n st := by
  rw [State.acceptSeal, key, check]

theorem exec_cipherStatus (h : s.sends t n 0x0B01 []) : exec (.cipherStatus t n) s = .next (s.answer t n s.cipherStatus) :=
  command_sends h

section
variable {i : Fin 64} (tenant : 8 ≤ i.val) (key : s.prm1 t n 0 = i.val) (new : s.jobWaits t n = false)
include tenant key new

theorem exec_cipherGcmSeal (io : s.ioOk t n = true) (h : s.sends t n 0x0B02 [(0, 1), (4, 18)]) (aad : s.aadOk t n = true) :
    exec (.cipherGcmSeal t n) s = .next (s.acceptSeal t n) := by
  refine (commandBy_runs h.1).trans (congrArg Host.Outcome.next ?_)
  rw [if_neg (by simp [new]), State.guard_pass, State.guard_none]
  rw [key, keyRefOk_slot tenant, io, aad, h.2]
  rfl

theorem exec_cipherGcmOpen (io : s.ioOk t n = true) (h : s.sends t n 0x0B03 [(0, 1), (4, 18), (24, 28)])
    (aad : s.aadOk t n = true) : exec (.cipherGcmOpen t n) s = .next (s.acceptJob t n .decrypt []) := by
  refine (commandBy_runs h.1).trans (congrArg Host.Outcome.next ?_)
  rw [if_neg (by simp [new]), State.guard_pass, State.guard_none]
  rw [key, keyRefOk_slot tenant, io, aad, h.2]
  rfl

theorem exec_cipherCtr_seal (io : s.ioOk t n = true) (h : s.sends t n 0x0B04 [(0, 2), (4, 12)]) (mode : s.prm1 t n 1 = 0) :
    exec (.cipherCtr t n) s = .next (s.acceptSeal t n) := by
  refine (commandBy_runs h.1).trans (congrArg Host.Outcome.next ?_)
  dsimp only
  rw [mode, if_neg (by simp [new]), State.guard_pass, State.guard_none]
  · rfl
  · rw [key, keyRefOk_slot tenant, io, if_neg (by decide), h.2]
    rfl

theorem exec_cipherCtr_open (io : s.ioOk t n = true) (h : s.sends t n 0x0B04 [(0, 2), (4, 28)]) (mode : s.prm1 t n 1 = 1) :
    exec (.cipherCtr t n) s = .next (s.acceptJob t n .decrypt []) := by
  refine (commandBy_runs h.1).trans (congrArg Host.Outcome.next ?_)
  dsimp only
  rw [mode, if_neg (by simp [new]), State.guard_pass, State.guard_none]
  · rfl
  · rw [key, keyRefOk_slot tenant, io, if_pos rfl, h.2]
    rfl

theorem exec_cipherCmac (h : s.sends t n 0x0B05 [(0, 3), (4, 8)]) (mode : s.prm1 t n 1 = 0) (short : 8 ≤ s.prm1 t n 2)
    (long : s.prm1 t n 2 ≤ 16) (len : s.prm t n 8 4 ≤ 65536)
    (range : s.rangeOk t n (s.prm t n 4 4) (s.prm t n 8 4) = true) :
    exec (.cipherCmac t n) s = .next (s.acceptJob t n .macMake []) := by
  refine (commandBy_runs h.1).trans (congrArg Host.Outcome.next ?_)
  dsimp only
  rw [mode, if_neg (by simp [new]), State.guard_pass, State.guard_none]
  · rfl
  · have tag : within 8 16 (s.prm1 t n 2) = true := (within_iff _ _ _).2 ⟨short, long⟩
    rw [key, keyRefOk_slot tenant, range, tag, decide_eq_false (Nat.not_lt.2 len), if_neg (by decide), h.2]
    rfl

end

/-! ### Cores in and out of service (R384) -/

section
variable {c : Fin 2} (core : s.prm1 t n 0 = c.val) (idle : s.cip.coreBy[c] = none)
include core idle

theorem exec_cipherCore_out (h : s.sends t n 0x0B06 [(0, 2)]) (out : s.prm1 t n 1 = 0) (up : s.cip.core[c] = true)
    (others : s.coresIn ≠ 1) :
    exec (.cipherCore t n) s = .next ((s.coreOut c).answer t n (s.coreOut c).coreMask) := by
  obtain rfl : c = Fin.ofNat 2 (s.prm1 t n 0) := by rw [core, Fin.ofNat_val]
  refine (command_sends h).trans (congrArg Host.Outcome.next ((if_neg ?_).trans ((State.guard_pass ?_).trans
    ((State.guard_pass ?_).trans ((State.guard_pass ?_).trans ((State.guard_pass ?_).trans (State.guard_none.trans ?_)))))))
  · rw [idle]
    exact Bool.false_ne_true
  · have inRange : ¬1 < s.prm1 t n 0 := by omega
    simp [inRange, out]
  · rw [out]
    rfl
  · simp [others]
  · rw [out]
    rfl
  · dsimp only
    rw [out, up]
    rfl

theorem exec_cipherCore_last (h : s.sends t n 0x0B06 [(0, 2)]) (out : s.prm1 t n 1 = 0) (up : s.cip.core[c] = true)
    (last : s.coresIn = 1) : exec (.cipherCore t n) s = .next (s.done t n Status.state) := by
  obtain rfl : c = Fin.ofNat 2 (s.prm1 t n 0) := by rw [core, Fin.ofNat_val]
  refine (command_sends h).trans (congrArg Host.Outcome.next ((if_neg ?_).trans ((State.guard_pass ?_).trans
    ((State.guard_pass ?_).trans (State.guard_fail ?_)))))
  · rw [idle]
    exact Bool.false_ne_true
  · have inRange : ¬1 < s.prm1 t n 0 := by omega
    simp [inRange, out]
  · rw [out]
    rfl
  · rw [out, up, last]
    rfl

theorem exec_cipherCore_in (h : s.sends t n 0x0B06 [(0, 2)]) (goIn : s.prm1 t n 1 = 1) (down : s.cip.core[c] = false)
    (whole : s.cip.broken[c] = false) : exec (.cipherCore t n) s = .next { s with
      cip := { s.cip with testing := s.cip.testing.set c true, coreBy := s.cip.coreBy.set c (some (t, n)) } } := by
  obtain rfl : c = Fin.ofNat 2 (s.prm1 t n 0) := by rw [core, Fin.ofNat_val]
  refine (command_sends h).trans (congrArg Host.Outcome.next ((if_neg ?_).trans ((State.guard_pass ?_).trans
    ((State.guard_pass ?_).trans ((State.guard_pass ?_).trans ((State.guard_pass ?_).trans (State.guard_none.trans ?_)))))))
  · rw [idle]
    exact Bool.false_ne_true
  · have inRange : ¬1 < s.prm1 t n 0 := by omega
    simp [inRange, goIn]
  · rw [goIn, idle]
    rfl
  · rw [goIn]
    rfl
  · rw [goIn, whole]
    rfl
  · dsimp only
    rw [goIn, down]
    rfl

end
end

/-- Settles O48. -/
theorem cipherCommands : Obligations.CipherCommands := by
  intro s t n
  refine ⟨exec_cipherStatus, fun i ctr s1 => State.drawSlot_got, fun i tenant key new io =>
    ⟨fun h aad may ctr s1 drawn => ?_, fun h aad may => ?_, fun h mode may ctr s1 drawn => ?_, fun h mode may => ?_,
      fun h aad st check => ?_⟩,
    fun h i tenant key mode short long len range new may => ?_, fun h c core idle =>
      ⟨exec_cipherCore_out core idle h, exec_cipherCore_last core idle h, exec_cipherCore_in core idle h⟩⟩
  · rw [exec_cipherGcmSeal tenant key new io h aad, State.acceptSeal_slot key may drawn]
  · rw [exec_cipherGcmOpen tenant key new io h aad, State.acceptJob_slot key may]
  · rw [exec_cipherCtr_seal tenant key new io h mode, State.acceptSeal_slot key may drawn]
  · rw [exec_cipherCtr_open tenant key new io h mode, State.acceptJob_slot key may]
  · rw [exec_cipherGcmSeal tenant key new io h aad, State.acceptSeal_refused key check]
  · rw [exec_cipherCmac tenant key new h mode short long len range, State.acceptJob_slot key may]

end Sys2Proof.Machine


/-!
SUPPORT. The `KEYS` commands (R387, R389, R397 to R399) and the rows of the cipher engine (R376 to R395).
-/

namespace Sys2Proof.Machine

section
variable {s : State} {t : Ten} {n : SlotIx}

/-! ### The `KEYS` commands -/

section
variable {i : Fin 64} (tenant : 8 ≤ i.val) (key : s.prm1 t n 0 = i.val)
include tenant key

theorem exec_keysInfo (h : s.sends t n 0x0C01 [(0, 1)]) (mine : s.keys.slots[i].tmask.getLsbD t.val = true) :
    exec (.keysInfo t n) s = .next (s.answer t n (s.keyInfo (some { src := .slot i, attr := s.keys.slots[i] }))) := by
  refine (command_sends h).trans (congrArg Host.Outcome.next ?_)
  dsimp only
  rw [key, State.keyView_slot, State.guard_pass, State.guard_pass, State.guard_none]
  · rw [Option.all_some, mine]
    simp
  · rw [keyRefOk_slot tenant]
    rfl

theorem exec_keysInfo_refused (h : s.sends t n 0x0C01 [(0, 1)]) (other : s.keys.slots[i].tmask.getLsbD t.val = false)
    (tenantOnly : s.ownerAt t n = false) : exec (.keysInfo t n) s = .next (s.done t n Status.authority) := by
  refine (command_sends h).trans (congrArg Host.Outcome.next ?_)
  dsimp only
  rw [key, State.keyView_slot, State.guard_pass, State.guard_fail]
  · rw [Option.all_some, other, tenantOnly]
    simp
  · rw [keyRefOk_slot tenant]
    rfl

/-- A slot's key is destroyed at once, its counter kept (R399). -/
theorem exec_keysDestroy (h : s.sends t n 0x0C04 [(0, 2)]) (owner : s.ownerAt t n = true) (whole : s.prm1 t n 1 = 0)
    (line : s.recordCheck = none) (held : s.keys.slots[i].state ≠ 0) (new : ∀ d ∈ s.cip.destroys, d.by_ ≠ some (t, n)) :
    exec (.keysDestroy t n) s = .next ({ s.destroyKey (.slot i) false with
      cip.destroys := (s.destroyKey (.slot i) false).cip.destroys ++ [{ by_ := some (t, n), src := .slot i }] } :
        State).settleDestroys := by
  refine (commandBy_runs h.1).trans (congrArg Host.Outcome.next ?_)
  dsimp only
  rw [key, State.keyView_slot, if_neg, State.guard_pass, State.guard_pass, State.guard_pass, State.guard_pass,
    State.guard_none, whole]
  · rfl
  · simpa using held
  · rw [if_pos i.isLt, line]
    rfl
  · rw [keyRefOk_slot tenant, whole, h.2]
    rfl
  · simp [owner]
  · simpa using new

end

theorem importOk_slot {r : List Byte} (ok : importOk r = true) : byteAt r 0 ≤ 63 := by
  simp only [importOk, Bool.and_eq_true, within_iff] at ok
  exact ok.1.1.1.2

/-- The key that an import record is tagged and wrapped under when slot 2 is named (R397). -/
def State.importKey (s : State) (r : List Byte) : List Byte :=
  kdf 1 s.keys.kek [0x5A, 0x50, 0x4B, 0x49] (beBytes 8 Config.terminalId.toNat ++ [r.getD 0 0] ++ field r 8 4)

/-- An import under slot 2 comes to the checks of its slot and its tag. -/
theorem exec_keysImport (h : s.sends t n 0x0C02 [(0, 1), (8, 8)]) (wrap : s.prm1 t n 0 = 2) (len : s.prm t n 12 4 = 72)
    (range : s.rangeOk t n (s.prm t n 8 4) 72 = true) (ok : importOk (s.importRecord t n) = true) (up : s.coresIn ≠ 0)
    (loads : s.slotLoads 2 = true) (line : s.recordCheck = none) {i : Fin 64}
    (slot : byteAt (s.importRecord t n) 0 = i.val) (empty : s.keys.slots[i].state = 0)
    (newer : s.keys.slots[i].iseq < beAt (s.importRecord t n) 8 4) :
    exec (.keysImport t n) s = .next (s.guard t n [(!(field (s.importRecord t n) 56 16 == beBytes 16
        (Config.gcmTag (s.importKey (s.importRecord t n)) (field (s.importRecord t n) 12 12)
          (field (s.importRecord t n) 0 12) (field (s.importRecord t n) 24 32)).toNat), Status.authority)] fun s1 =>
      (s1.modSlotKey i fun k => k.install
        (keyOf (byteAt (s.importRecord t n) 3 == 1) (ctrCrypt (s.importKey (s.importRecord t n))
          (gcmBlock (field (s.importRecord t n) 12 12)) (field (s.importRecord t n) 24 32)))
        (byteAt (s.importRecord t n) 3 == 1) ((s.importRecord t n).getD 1 0) ((s.importRecord t n).getD 2 0)
        (field (s.importRecord t n) 4 4) (beAt (s.importRecord t n) 8 4)).recordWritten.done t n Status.ok) := by
  obtain rfl : i = Fin.ofNat 64 (byteAt (s.importRecord t n) 0) := by rw [slot, Fin.ofNat_val]
  refine (command_sends h).trans (congrArg Host.Outcome.next ((State.guard_pass ?_).trans (State.guard_none.trans
    ((if_neg up).trans ?_))))
  · rw [wrap, len, range, ok]
    rfl
  · have wraps : s.wrapCheck t 2 = none := (if_pos rfl).trans (if_pos loads)
    have named : s.wrapKey 2 = s.keys.kek := rfl
    rw [State.endImport]
    simp only [wrap, wraps, line, named]
    refine (State.guard_pass ?_).trans rfl
    rw [empty, decide_eq_false (Nat.not_le.2 newer)]
    rfl

/-- A derivation into a free handle (R389, R398). -/
theorem exec_keysDerive (h : s.sends t n 0x0C03 [(0, 6), (8, 48)]) {v : KeyView} {e : Fin 32}
    (view : s.keyView t (byteAt (s.params t n) 0) = some v) (may : s.keyCheck t (some v) .derive_ = none)
    (parent : keyRefOk (byteAt (s.params t n) 0) = true) (lo : 0x80 ≤ byteAt (s.params t n) 1)
    (hi : byteAt (s.params t n) 1 ≤ 0x83) (flags : byteAt (s.params t n) 2 ≤ 31)
    (fewer : (s.params t n).getD 2 0 &&& ~~~(v.attr.flags &&& 0x07) = 0) (mask : byteAt (s.params t n) 3 = 0)
    (label1 : 1 ≤ byteAt (s.params t n) 4) (label2 : byteAt (s.params t n) 4 ≤ 16) (ctx : byteAt (s.params t n) 5 ≤ 32)
    (up : s.coresIn ≠ 0) (free : s.freeHandle = some e) (room : (s.handlesOf t).length < 4)
    (new : s.handleEntry t (byteAt (s.params t n) 1 - 0x80) = none) :
    exec (.keysDerive t n) s = .next ((s.drawn.setEntry e (some {
      key := kdf (if v.attr.big then 2 else 1) v.attr.key (field (s.params t n) 8 (byteAt (s.params t n) 4))
        (field (s.params t n) 24 (byteAt (s.params t n) 5))
      salt := s.saltDraw, big := v.attr.big, flags := (s.params t n).getD 2 0, owner := some t
      handle := byteAt (s.params t n) 1 - 0x80 })).answer t n
        ([BitVec.ofNat 8 (byteAt (s.params t n) 1), 0, 0, 0] ++ s.saltDraw)) := by
  have handle : ¬byteAt (s.params t n) 1 < 64 := by omega
  have noSlot : within 8 63 (byteAt (s.params t n) 1) = false := by
    rw [Bool.eq_false_iff, ne_eq, within_iff]
    omega
  have target : keyRefOk (byteAt (s.params t n) 1) = true := by
    rw [keyRefOk, noSlot, Bool.false_or, within_iff]
    exact ⟨lo, hi⟩
  refine (commandBy_runs h.1).trans (congrArg Host.Outcome.next ((State.guard_pass ?_).trans ((State.guard_pass ?_).trans
    (State.guard_none.trans ((if_neg up).trans ?_)))))
  · rw [noSlot]
    rfl
  · have label_ : within 1 16 (byteAt (s.params t n) 4) = true := (within_iff _ _ _).2 ⟨label1, label2⟩
    rw [parent, target, label_, h.2, mask, decide_eq_false (Nat.not_lt.2 flags), decide_eq_false (Nat.not_lt.2 ctx)]
    simp
  · rw [State.endDerive]
    dsimp only
    rw [view, may]
    refine (State.guard_pass ?_).trans ((State.guard_pass ?_).trans (State.guard_none.trans ((if_neg handle).trans ?_)))
    · rw [fewer]
      rfl
    · simp [handle]
    · rw [State.placeHandle, free]
      refine (State.guard_pass ?_).trans rfl
      rw [new, decide_eq_false (Nat.not_le.2 room)]
      rfl

end

theorem State.destroyKey_slots (s : State) (i j : Fin 64) :
    (s.destroyKey (.slot i) false).keys.slots[j] = if i = j then s.keys.slots[i].emptied else s.keys.slots[j] := by
  show ((s.modSlotKey i fun k => k.emptied).recordWritten).keys.slots[j] = _
  rw [← State.modSlotKey_slots s i KeySlot.emptied j, State.recordWritten_keys]

theorem State.destroyKey_cip (s : State) (i : Fin 64) : (s.destroyKey (.slot i) false).cip = s.cip :=
  State.recordWritten_cip _

/-- Settles O50. -/
theorem keysCommands : Obligations.KeysCommands := by
  intro s t n
  refine ⟨fun h i tenant key => ⟨exec_keysInfo tenant key h, exec_keysInfo_refused tenant key h⟩,
    fun h wrap len range => ?_,
    fun h v e view may parent lo hi flags fewer mask label1 label2 ctx up free room new =>
      exec_keysDerive h view may parent lo hi flags fewer mask label1 label2 ctx up free room new,
    fun h owner i tenant key whole line held new => ⟨_, exec_keysDestroy tenant key h owner whole line held new, ?_⟩⟩
  · intro r key ok up loads line i slot empty newer
    have row := exec_keysImport h wrap len range ok up loads line slot empty newer
    refine ⟨fun tag => row.trans ?_, fun tag => row.trans ?_⟩
    · exact congrArg Host.Outcome.next ((State.guard_pass (by rw [Bool.not_eq_false']; exact beq_iff_eq.2 tag)).trans State.guard_none)
    · exact congrArg Host.Outcome.next (State.guard_fail (by rw [Bool.not_eq_true', beq_eq_false_iff_ne]; exact tag))
  · have own : (s.destroyKey (.slot i) false).keys.slots[i] = s.keys.slots[i].emptied := by
      rw [State.destroyKey_slots, if_pos rfl]
    have ctr := congrArg KeySlot.ctr own
    have ceil := congrArg KeySlot.ceil own
    refine ⟨congrArg KeySlot.state own, congrArg KeySlot.key own, ctr, ceil, ?_,
      fun j other => ?_⟩
    · exact congrArg (·.destroys ++ _) (s.destroyKey_cip i)
    · exact (s.destroyKey_slots i j).trans (if_neg (Ne.symm other))

end Sys2Proof.Machine


/-!
SUPPORT. The rows of the cipher engine (R376 to R395): jobs, KBUS, parity faults, self-tests and ceilings.
-/

namespace Sys2Proof.Machine

section
variable {s : State}

/-! ### Jobs (R376) -/

theorem exec_cipherJobDone {j : Job} (runs : s.jobsOn.runningJob = some j) (held : j.orphan = false) :
    exec .cipherJobDone s = .next ((s.jobsOn.dropCJob j).jobResult j).afterJob := by
  show execCipherJobDone s = _
  rw [execCipherJobDone]
  dsimp only
  rw [runs]
  exact congrArg (fun x : State => Host.Outcome.next x.afterJob) (if_neg (by simp [held]))

/-- A job's bytes and the job itself counted, its work off the core. -/
def State.countJob (s : State) (j : Job) : State :=
  { s with cip := { s.cip with nJobs := inc32 s.cip.nJobs, nBytes := s.cip.nBytes + s.prm j.ten j.slot 8 4 } }

theorem State.jobResult_seal {j : Job} (op : (s.slot j.ten j.slot).opcode = 0x0B02) :
    s.jobResult j = (s.countJob j).endSeal j := by
  rw [State.jobResult]
  exact if_pos op

theorem State.jobResult_open {j : Job} (op : (s.slot j.ten j.slot).opcode = 0x0B03) :
    s.jobResult j = (s.countJob j).endOpen j := by
  rw [State.jobResult]
  exact (if_neg (by rw [op]; decide)).trans (if_pos op)

theorem State.jobResult_ctr {j : Job} (op : (s.slot j.ten j.slot).opcode = 0x0B04) :
    s.jobResult j = (s.countJob j).endCtr j := by
  rw [State.jobResult]
  exact (if_neg (by rw [op]; decide)).trans ((if_neg (by rw [op]; decide)).trans (if_pos op))

theorem State.jobResult_cmac {j : Job} (op : (s.slot j.ten j.slot).opcode = 0x0B05) :
    s.jobResult j = (s.countJob j).endCmac j := by
  rw [State.jobResult]
  exact (if_neg (by rw [op]; decide)).trans ((if_neg (by rw [op]; decide)).trans ((if_neg (by rw [op]; decide)).trans (if_pos op)))

/-- An open whose tag fails writes nothing. -/
theorem State.endOpen_fails {j : Job} (tag : field (s.params j.ten j.slot) 36 16 ≠
      beBytes 16 (Config.gcmTag j.key (field (s.params j.ten j.slot) 24 12) (s.jobAad j.ten j.slot)
        (s.jobInput j.ten j.slot)).toNat) : s.endOpen j = s.answer j.ten j.slot [1, 0, 0, 0, 0, 0, 0, 0] := by
  rw [State.endOpen]
  exact if_neg tag

/-! ### KBUS (R379, R380) -/

theorem exec_kbusOpDone_load {c : Fin 16} {i : Fin 64} {u : Option Ten} {rest : List KOp}
    (first : s.cip.kbus = .load c (.slot i) u :: rest) (held : s.keys.slots[i].state ≠ 0) :
    exec .kbusOpDone s = .next ({ s with cip := { s.cip with
      kbus := rest
      ctx := s.cip.ctx.set c (some { src := .slot i, key := s.keys.slots[i].key, ten := u, used := s.cip.uses }) } } :
        State).startJobs := by
  have key : s.srcKey (.slot i) = some s.keys.slots[i].key := if_neg held
  show execKbusOpDone s = _
  rw [execKbusOpDone, State.kbusDone, first]
  dsimp only
  rw [key]
  rfl

/-- An operation that hangs has its context zeroed, and stays to be issued again. -/
theorem exec_kbusWatchdog {o : KOp} {rest : List KOp} (first : s.cip.kbus = o :: rest) :
    exec .kbusWatchdog s = .next { s with cip := { s.cip with
      kbusWd := satInc 65535 s.cip.kbusWd
      ctx := s.cip.ctx.set o.ctx ((s.cip.ctx[o.ctx]).map fun x => { x with key := [] }) } } := by
  show execKbusWatchdog s = _
  rw [execKbusWatchdog, first]

/-! ### Parity faults and self-tests (R382 to R384) -/

theorem exec_cipherParityFault {c : Fin 2} {w : CoreWork} (runs : s.cip.run[c] = some w) :
    exec (.cipherParityFault c) s = .next
      (if 3 ≤ ((s.countFault.faultWork w).raise 0x80 (BitVec.ofNat 32 (s.workCtx w))).cip.faultsAt.length then
        ((s.countFault.faultWork w).raise 0x80 (BitVec.ofNat 32 (s.workCtx w))).fence
      else (s.countFault.faultWork w).raise 0x80 (BitVec.ofNat 32 (s.workCtx w))).afterJob := by
  show execCipherParityFault c s = _
  rw [execCipherParityFault, runs]

theorem exec_cipherSelfTestDone {c : Fin 2} (tests : s.cip.testing[c] = true) (pass : Bool) :
    exec (.cipherSelfTestDone c pass) s = .next ((if pass then
        ({ s with cip.testing := s.cip.testing.set c false } : State).coreReturns c
      else { s with cip.testing := s.cip.testing.set c false, cip.broken := s.cip.broken.set c true }).coreAnswer c
        pass).startJobs := by
  show execCipherSelfTestDone c pass s = _
  rw [execCipherSelfTestDone, if_neg (by simp [tests])]

/-! ### Ceilings (R393, R395) -/

section
variable {i : Fin 64} {c : Nat} (ready : s.keys.slots[i].failed = false) (pend : s.keys.slots[i].pend = some c)
include ready pend

theorem exec_ceilWriteDone (ok : Bool) : exec (.ceilWriteDone i.val ok) s = .next (if ok && !s.nvm.degraded.getLsbD 5 then
      (s.modSlotKey i fun k => { k with ceil := c, pend := none }).recordWritten.noncesKept
    else { s.modSlotKey i fun k => { k with failed := true } with
      cip.ceilFail := satInc 65535 s.cip.ceilFail }).retryAuto := by
  have lt := i.isLt
  generalize number : i.val = m at lt
  obtain rfl : i = Fin.ofNat 64 m := by rw [← number, Fin.ofNat_val]
  show execCeilWriteDone m ok s = _
  rw [execCeilWriteDone]
  dsimp only
  rw [if_neg (by rw [ready]; simpa using lt), pend]

end

theorem exec_ceilWriteRetry : exec .ceilWriteRetry s =
    .next { s with keys.slots := s.keys.slots.map fun k => { k with failed := false } } := rfl

end

/-- Settles O49. -/
theorem cipherRows : Obligations.CipherRows := by
  intro s
  refine ⟨fun j runs held => ⟨fun op => ?_, fun op => ?_, fun op => ?_, fun op => ?_⟩, fun j => State.endOpen_fails,
    fun c i u rest => exec_kbusOpDone_load, fun c rest first => ⟨_, exec_kbusWatchdog first, rfl, rfl, fun x zeroed => ?_⟩,
    fun c w runs => ⟨_, rfl, fun few => ?_, fun many => ?_⟩,
    fun c tests => ⟨_, rfl, exec_cipherSelfTestDone tests true, exec_cipherSelfTestDone tests false⟩,
    fun i c ready pend => ⟨fun sound => ?_, ?_⟩, _, exec_ceilWriteRetry, fun i => ?_⟩
  · rw [exec_cipherJobDone runs held, State.jobResult_seal op]
    rfl
  · rw [exec_cipherJobDone runs held, State.jobResult_open op]
    rfl
  · rw [exec_cipherJobDone runs held, State.jobResult_ctr op]
    rfl
  · rw [exec_cipherJobDone runs held, State.jobResult_cmac op]
    rfl
  · have own : (s.cip.ctx[c]).map (fun x : Ctx => { x with key := [] }) = some x :=
      (Vector.getElem_set_self _).symm.trans zeroed
    obtain ⟨y, -, rfl⟩ := Option.map_eq_some_iff.1 own
    rfl
  · rw [exec_cipherParityFault runs, if_neg (Nat.not_le.2 few)]
  · rw [exec_cipherParityFault runs, if_pos many]
  · rw [exec_ceilWriteDone ready pend, sound]
    rfl
  · rw [exec_ceilWriteDone ready pend]
    rfl
  · simp

end Sys2Proof.Machine


/-!
SUPPORT. Lifecycle and debug thaw (R413 to R429): the `SEC` commands and their timers.
-/

namespace Sys2Proof.Machine

section
variable {s : State} {t : Ten} {n : SlotIx}

/-! ### The report and the challenge (R423) -/

theorem exec_secStatus (h : s.sends t n 0x0E01 []) : exec (.secStatus t n) s = .next (s.answer t n s.secStatus) :=
  command_sends h

theorem exec_secThawChallenge (h : s.sends t n 0x0E02 []) (open_ : s.sec.lockBy = none) :
    exec (.secThawChallenge t n) s =
      .next (({ s.drawn with sec.nonce := some (leBytes 16 s.draw, s.now + 600000000000) } : State).answer t n
        (s.challengeData (leBytes 16 s.draw))) := by
  refine (command_sends h).trans (congrArg Host.Outcome.next ((State.guard_pass ?_).trans State.guard_none))
  rw [open_]
  rfl

theorem exec_secThawChallenge_locked (h : s.sends t n 0x0E02 []) (locked : s.sec.lockBy ≠ none) :
    exec (.secThawChallenge t n) s = .next (s.done t n Status.busy) :=
  (command_sends h).trans (congrArg Host.Outcome.next (State.guard_fail (Option.isSome_iff_ne_none.2 locked)))

/-! ### Thaw tokens (R424, R425) -/

/-- A token that fails a check (Table 17.4). -/
theorem exec_secThaw_fails (h : s.runs t n 0x0E03 = true) (new : s.sec.thawing = none) {c : Bool × Half}
    (fails : (s.tokenChecks (s.params t n)).find? (fun c => c.1) = some c) :
    exec (.secThaw t n) s = .next (({ s with sec.nonce := none } : State).thawFailed.done t n c.2) := by
  refine (commandBy_runs h).trans (congrArg Host.Outcome.next ((if_neg (by rw [new]; exact Bool.false_ne_true)).trans ?_))
  dsimp only
  rw [fails]

/-- A token for SLUSH that passes them all. -/
theorem exec_secThaw_slush (h : s.runs t n 0x0E03 = true) (new : s.sec.thawing = none)
    (passes : (s.tokenChecks (s.params t n)).find? (fun c => c.1) = none) (slush : byteAt (s.params t n) 5 = 1) :
    exec (.secThaw t n) s =
      .next ((({ s with sec.nonce := none } : State).raiseLevel t (s.params t n)).answer t n [1]) := by
  refine (commandBy_runs h).trans (congrArg Host.Outcome.next ((if_neg (by rw [new]; exact Bool.false_ne_true)).trans ?_))
  dsimp only
  rw [passes]
  exact if_neg (by rw [slush]; decide)

/-! ### Leaving a level (R427) -/

theorem exec_secFreeze (h : s.sends t n 0x0E04 []) : exec (.secFreeze t n) s =
    .next (if s.thawed then (s.answer t n [0]).acceptEntry .chipReset false t else s.refreeze.answer t n [0]).retryAuto :=
  command_sends h

theorem exec_levelTimerExpiry {d : Nat} (timed : s.ao.dbg.by_ = some d) (served : s.power.pstate ≠ .permafrost) :
    exec .levelTimerExpiry s =
      .next (if s.thawed then (s.reach d).chipReset 0x07 0x0F else (s.reach d).refreeze).retryAuto := by
  show execLevelTimerExpiry s = _
  rw [execLevelTimerExpiry, timed]
  exact congrArg (fun x : State => Host.Outcome.next x.retryAuto) (if_neg served)

theorem exec_thawNonceExpiry {x : List Byte} {d : Nat} (nonce : s.sec.nonce = some (x, d)) :
    exec .thawNonceExpiry s = .next { s.reach d with sec.nonce := none } := by
  show execThawNonceExpiry s = _
  rw [execThawNonceExpiry, nonce]

theorem exec_thawLockoutEnd {d : Nat} (locked : s.sec.lockBy = some d) :
    exec .thawLockoutEnd s = .next { s.reach d with sec.lockBy := none } := by
  show execThawLockoutEnd s = _
  rw [execThawLockoutEnd, locked]

/-! ### Sealing and retirement (R417, R418) -/

theorem State.sealTo_life (s : State) (key : List Byte) : (s.sealTo key).fuses.life = .sealed := by
  simp [State.sealTo, State.updateEnded]

theorem State.sealTo_fsec (s : State) (key : List Byte) :
    (s.sealTo key).fsec = { s.fsec with keys := Vector.replicate 2 (some key), thaws := 0 } := by
  simp [State.sealTo, State.updateEnded]

section
variable (h : s.runs t n 0x0E05 = true) (len : (s.params t n).length = 72)
  (id_ : leAt (s.params t n) 0 8 = Config.terminalId.toNat) (curve : Config.onCurve (field (s.params t n) 8 64) = true)
include h len id_ curve

theorem exec_secSeal (factory : s.inFactory = true) (frozen : s.ao.dbg.level = 0) (open_ : s.ao.keyLock = false) :
    exec (.secSeal t n) s = .next ((s.sealTo (field (s.params t n) 8 64)).answer t n [1]) := by
  refine (commandBy_runs h).trans
    (congrArg Host.Outcome.next ((State.guard_pass ?_).trans ((State.guard_pass ?_).trans State.guard_none)))
  · simp [len, id_, curve]
  · simp [factory, frozen, open_]

theorem exec_secSeal_late (late : s.inFactory = false) : exec (.secSeal t n) s = .next (s.done t n Status.state) := by
  refine (commandBy_runs h).trans
    (congrArg Host.Outcome.next ((State.guard_pass ?_).trans (State.guard_fail ?_)))
  · simp [len, id_, curve]
  · simp [late]

end

section
variable (h : s.sends t n 0x0E06 [(0, 9)]) (id_ : s.prm t n 0 8 = Config.terminalId.toNat) (confirm : s.prm1 t n 8 = 0xA5)
  (new : s.waitsFor t n = false)
include h id_ confirm new

/-- Retirement first stops the transmitter. -/
theorem exec_secRetire (life : s.fuses.life = .sealed) (frozen : s.ao.dbg.level = 0) (idle : s.reg.wait = none) :
    exec (.secRetire t n) s =
      .next (s.startWait { ten := t, slot := n, rediscover := false, by_ := s.now + 4000000, retire := true }) := by
  show execSecRetire t n s = _
  rw [execSecRetire, command_sends h, if_neg (by rw [new]; exact Bool.false_ne_true), id_, confirm, life, frozen, idle, State.guard_pass, State.guard_pass,
    State.guard_pass, State.guard_none]
  · rfl
  · rfl
  · simp

theorem exec_secRetire_refused (life : s.fuses.life ≠ .sealed) : exec (.secRetire t n) s = .next (s.done t n Status.state) := by
  show execSecRetire t n s = _
  rw [execSecRetire, command_sends h, if_neg (by rw [new]; exact Bool.false_ne_true), id_, confirm, State.guard_pass, State.guard_fail]
  · rw [bne_iff_ne.2 life]
    rfl
  · simp

end
end

/-- Settles O52. -/
theorem secCommands : Obligations.SecCommands := by
  intro s t n
  refine ⟨exec_secStatus, fun h => ⟨fun open_ => ⟨_, exec_secThawChallenge h open_, rfl⟩, exec_secThawChallenge_locked h⟩,
    fun h new => ⟨fun c fails => ⟨_, exec_secThaw_fails h new fails, rfl, rfl, rfl⟩,
      fun passes slush => ⟨_, exec_secThaw_slush h new passes slush, slush, rfl, rfl, rfl⟩⟩,
    fun h => ⟨fun slush => ?_, fun thawed => ?_⟩,
    fun h len id_ curve => ⟨fun factory frozen open_ => ⟨_, exec_secSeal h len id_ curve factory frozen open_,
      s.sealTo_life _, fun i => ?_, ?_⟩, exec_secSeal_late h len id_ curve⟩,
    fun h id_ confirm new => ⟨exec_secRetire h id_ confirm new, exec_secRetire_refused h id_ confirm new⟩,
    fun d timed => ⟨fun served thawed => ?_, fun served slush => ?_⟩, fun x d nonce => exec_thawNonceExpiry nonce,
    fun d locked => exec_thawLockoutEnd locked⟩
  · rw [exec_secFreeze h, slush]
    rfl
  · rw [exec_secFreeze h, thawed]
    rfl
  · rw [State.sealTo_fsec]
    exact Vector.getElem_replicate _
  · rw [State.sealTo_fsec]
  · rw [exec_levelTimerExpiry timed served, thawed]
    rfl
  · rw [exec_levelTimerExpiry timed served, slush]
    rfl

end Sys2Proof.Machine


/-!
SUPPORT. The rows of audio and teleprotection (R462 to R481).
-/

namespace Sys2Proof.Machine

section
variable {s : State}

/-! ### Tributary containers (R462, R468, R481) -/

section
variable {l : Fin 2} {bytes : List Byte} {mine : Nat → Bool} {body : State → Nat → List Byte → State}
  (active : l = s.lanes.prot.active) (on : s.domOn dFRM = true) (whole : (s.chan l).delinTrib bytes = .whole)
  (role : ((s.modChan l fun c => c.afterTrib bytes .whole).roleOf (kRh bytes)).isSome = true) (own : mine (kType bytes) = true)
  (type1 : 1 ≤ kType bytes) (type3 : kType bytes ≤ 3)
  (known : (s.aud.down[(Fin.ofNat 3 (kType bytes - 1))]).any (·.down) = true)
include active on whole role own type1 type3 known

/-- A whole container of the active lane for a configured tributary comes to its frame check sequence. -/
theorem tribRow_whole : tribRow l bytes s mine body = .next (if tcrcOk bytes = true then
      body (s.modChan l fun c => c.afterTrib bytes .whole) (kType bytes) ((bytes.drop 6).take (kLen bytes - 4))
    else (s.modChan l fun c => c.afterTrib bytes .whole).countDs l fun n => { n with tribCrc := inc32 n.tribCrc }) := by
  have outside : ¬(l ≠ s.lanes.prot.active ∨ (!s.domOn dFRM) = true) := by simp [active, on]
  rw [tribRow, whole]
  dsimp only
  rw [if_neg outside, if_neg]
  · cases tcrcOk bytes <;> rfl
  · have configured : ((s.modChan l fun c => c.afterTrib bytes .whole).aud.down[(Fin.ofNat 3 (kType bytes - 1))]).any (·.down) =
        true := known
    rw [configured, own, decide_eq_true type1, decide_eq_true type3, Option.isNone_iff_eq_none]
    simp [Option.isSome_iff_ne_none.1 role]

end

section
variable {l : Fin 2} {bytes : List Byte} (active : l = s.lanes.prot.active) (on : s.domOn dFRM = true)
  (whole : (s.chan l).delinTrib bytes = .whole)
  (role : ((s.modChan l fun c => c.afterTrib bytes .whole).roleOf (kRh bytes)).isSome = true)
include active on whole role

section
variable (type_ : kType bytes = 1) (known : (s.aud.down[(0 : Fin 3)]).any (·.down) = true)
include type_ known

theorem exec_audioContainer_crc (crc : tcrcOk bytes = false) : exec (.audioContainer l bytes) s =
    .next ((s.modChan l fun c => c.afterTrib bytes .whole).countDs l fun n => { n with tribCrc := inc32 n.tribCrc }) := by
  show execAudioContainer l bytes s = _
  rw [execAudioContainer, tribRow_whole active on whole role (by rw [type_]; rfl) (by omega) (by omega)
    (by simpa [type_] using known), crc]
  rfl

theorem exec_audioContainer (crc : tcrcOk bytes = true) (aud : s.domOn dAUD = true)
    (ok : annOk ((bytes.drop 6).take (kLen bytes - 4)) = true) : exec (.audioContainer l bytes) s =
      .next (({ s.modChan l fun c => c.afterTrib bytes .whole with
          aud.tribRx := inc32 (s.modChan l fun c => c.afterTrib bytes .whole).aud.tribRx } : State).annGap
        (beAt ((bytes.drop 6).take (kLen bytes - 4)) 0 2) (annBlock ((bytes.drop 6).take (kLen bytes - 4)))) := by
  have on' : (s.modChan l fun c => c.afterTrib bytes .whole).domOn dAUD = true := aud
  show execAudioContainer l bytes s = _
  rw [execAudioContainer, tribRow_whole active on whole role (by rw [type_]; rfl) (by omega) (by omega)
    (by simpa [type_] using known), if_pos crc, ok, on']
  rfl

end

theorem exec_tpsContainer {p : Fin 2} (type_ : kType bytes = p.val + 2)
    (known : (s.aud.down[tribOf p]).any (·.down) = true) (crc : tcrcOk bytes = true)
    (len : ((bytes.drop 6).take (kLen bytes - 4)).length =
      2 + tpsBytes ((s.modChan l fun c => c.afterTrib bytes .whole).tpsNDown p))
    (new : (s.tpsPort p).seqIn ≠ some (byteAt ((bytes.drop 6).take (kLen bytes - 4)) 1)) :
    exec (.tpsContainer l bytes) s = .next (if s.domOn dAUD = true then
        (s.modChan l fun c => c.afterTrib bytes .whole).tpsTake p ((bytes.drop 6).take (kLen bytes - 4))
      else ((s.modChan l fun c => c.afterTrib bytes .whole).tpsTake p ((bytes.drop 6).take (kLen bytes - 4))).modTps p
        fun x => { x with seqIn := none }) := by
  have port : Fin.ofNat 2 (kType bytes - 2) = p := by rw [type_, Nat.add_sub_cancel, Fin.ofNat_val]
  have index : Fin.ofNat 3 (kType bytes - 1) = tribOf p := by
    rw [type_]
    rfl
  have mine : (fun t => t == 2 || t == 3) (kType bytes) = true := by
    have : p.val = 0 ∨ p.val = 1 := by omega
    rcases this with e | e <;> rw [type_, e] <;> rfl
  show execTpsContainer l bytes s = _
  rw [execTpsContainer, tribRow_whole active on whole role mine (by omega) (by omega) (by simpa only [index] using known),
    if_pos crc]
  dsimp only
  rw [port]
  exact congrArg Host.Outcome.next (if_neg (not_or.2 ⟨not_not.2 len, new⟩))

end

/-! ### Slip buffers (R469) -/

theorem State.slipWrite_full {blk : List Pair} (full : s.aud.slip.blocks.length = 3) :
    (s.slipWrite blk).aud.slip.blocks = s.aud.slip.blocks.drop 1 ++ [blk] ∧
      (s.slipWrite blk).aud.slipDrop = inc32 s.aud.slipDrop := by
  simp [State.slipWrite, SlipBuf.write, full]

theorem State.blockStarts_aud (s : State) (monitor : Bool) :
    (s.blockStarts monitor).aud = { s.aud with ports := (s.blockStarts monitor).aud.ports } := rfl

/-- Every output of a source starts the block. -/
theorem State.blockStarts_pos {monitor : Bool} {p : Fin 2} (source : (s.port (Fin.ofNat 3 p.val)).cfg.monitor = monitor) :
    ((s.blockStarts monitor).port (Fin.ofNat 3 p.val)).pos = 0 := by
  fin_cases p
  · have own : (s.port 0).cfg.monitor = monitor := source
    simp [State.blockStarts, State.modPort_port, own]
  · have own : (s.port 1).cfg.monitor = monitor := source
    show ((s.blockStarts monitor).port 1).pos = 0
    simp [State.blockStarts, State.modPort_port, own]

theorem exec_audioBlockBoundary {x : List Pair} {rest : List (List Pair)} (on : s.domOn dAUD = true)
    (plays : s.aud.slip.filling = false) (first : s.aud.slip.blocks = x :: rest) :
    exec (.audioBlockBoundary false) s =
      .next (({ s with aud.slip := { s.aud.slip with blocks := rest, play := some x } } : State).blockStarts false) := by
  have read : s.slipRead = ({ s.aud.slip with blocks := rest, play := some x }, false) := by
    simp [State.slipRead, SlipBuf.read, first, plays]
  show execAudioBlockBoundary false s = _
  rw [execAudioBlockBoundary, if_neg (by simp [on])]
  simp only [Bool.false_eq_true, if_false, read]

/-! ### Schedules and gates (R473, R474) -/

section
variable {p : Fin 3}

theorem exec_audioStartBoundary {a : Nat} (start : (s.port p).start = some a) (on : s.domOn dAUD = true) :
    exec (.audioStartBoundary p) s = .next ((s.reachTt (s.portTt p a)).startPort p false) := by
  show execAudioStartBoundary p s = _
  rw [execAudioStartBoundary, start]
  exact congrArg Host.Outcome.next (if_pos on)

theorem exec_audioStopBoundary {a : Nat} (start : (s.port p).start = none) (stop : (s.port p).stop = some a)
    (on : s.domOn dAUD = true) :
    exec (.audioStopBoundary p) s = .next ((s.reachTt (s.portTt p a)).stopPort p).retryAuto := by
  show execAudioStopBoundary p s = _
  rw [execAudioStopBoundary, start, stop]
  exact congrArg (fun x : State => Host.Outcome.next x.retryAuto) (if_pos on)

theorem exec_gateTimeout {d : Nat} (waits : (s.port p).gateBy = some d) :
    exec (.gateTimeout p) s = .next ((s.reach d).gateTimeout p) := by
  show execGateTimeout p s = _
  rw [execGateTimeout, waits]

end

/-! ### The input (R465, R466) -/

theorem exec_audioInputLock (apart : Nat) (ppm : Int) : exec (.audioInputLock apart ppm) s =
    .next (if s.domOn dAUD = true ∧ apart = 192 ∧ ppm.natAbs ≤ 1000 then { s with aud.lock := true } else s) := by
  show execAudioInputLock apart ppm s = _
  simp only [execAudioInputLock, inputLockMet, Bool.and_eq_true, beq_iff_eq, decide_eq_true_eq]

theorem exec_audioInputLoss (bad : Nat) (ppm : Int) (ns : Nat) : exec (.audioInputLoss bad ppm ns) s =
    .next (if 8 ≤ bad ∨ (2000 < ppm.natAbs ∧ 10000000 ≤ ns) then { s with aud.lock := false } else s) := by
  show execAudioInputLoss bad ppm ns s = _
  simp only [execAudioInputLoss, inputLossMet, Bool.or_eq_true, Bool.and_eq_true, decide_eq_true_eq]

theorem exec_audioInputBlock {cs : List Byte} (on : s.domOn dAUD = true) (lock : s.aud.lock = true) :
    ∃ k, exec (.audioInputBlock cs) s = .next { s with aud := { s.aud with
      cs := field cs 0 5, nonPcm := byteAt cs 0 % 4 != 0, inFscode := k } } := by
  refine ⟨if (byteAt cs 3 % 16 != iecFs s.aud.fs) = true then satInc 65535 s.aud.inFscode else s.aud.inFscode, ?_⟩
  exact congrArg Host.Outcome.next (if_neg (by simp [on, lock]))

/-! ### Sample boundaries (R473) -/

theorem State.gateDone_out (s : State) (p : Fin 3) : (s.gateDone p).out = s.out := by
  unfold State.gateDone
  extract_lets x s1 s2
  have down : s2.out = s.out := by
    show (if _ then _ else _ : State).out = s.out
    split
    · rfl
    · simp [s1]
  clear_value s2
  split
  · simp
  · split
    · split
      · simpa [State.openGate] using down
      · exact down
    · rfl

/-- One frame leaves the output. -/
theorem State.outSample_out (s : State) (p : Fin 2) :
    ∃ a b, (s.outSample p).out = s.out ++ [.audio p ((s.port (Fin.ofNat 3 p.val)).frame == 0) a b] :=
  ⟨_, _, State.gateDone_out _ _⟩

theorem exec_sampleBoundary_out {p : Fin 2} {pair : List Byte} {parity invalid : BitVec 2} (on : s.domOn dAUD = true)
    (open_ : (s.port (Fin.ofNat 3 p.val)).st ≠ .closed) :
    exec (.sampleBoundary (Fin.ofNat 3 p.val) pair parity invalid) s = .next (s.outSample p) := by
  have output : Fin.ofNat 3 p.val ≠ 2 ∧ Fin.ofNat 2 (Fin.ofNat 3 p.val).val = p :=
    (by decide : ∀ p : Fin 2, Fin.ofNat 3 p.val ≠ 2 ∧ Fin.ofNat 2 (Fin.ofNat 3 p.val).val = p) p
  obtain ⟨output, same⟩ := output
  show execSampleBoundary _ pair parity invalid s = _
  rw [execSampleBoundary, if_neg (by simp [on]), if_neg output, if_neg open_, same]

theorem exec_sampleBoundary_in {pair : List Byte} {parity invalid : BitVec 2} (on : s.domOn dAUD = true)
    (lock : s.aud.lock = true) :
    exec (.sampleBoundary 2 pair parity invalid) s = .next (s.inPair pair parity invalid) := by
  show execSampleBoundary 2 pair parity invalid s = _
  rw [execSampleBoundary, if_neg (by simp [on]), if_pos rfl, if_pos lock]

/-! ### TPS lines and the close of a tributary (R462, R476, R480) -/

theorem exec_tpsRxdBit {p : Fin 2} {b : BitVec 3} (on : s.domOn dAUD = true) (open_ : (s.tpsPort p).open_ = true)
    (room : (s.tpsPort p).rx.length < 4 * s.tpsN p + 64) : exec (.tpsRxdBit p b) s =
      .next (s.modTps p fun x => { x with rx := x.rx ++ [majority b[0] b[1] b[2]] }) := by
  show execTpsRxdBit p b s = _
  rw [execTpsRxdBit, if_neg (by simp [on, open_]), State.modTps, if_neg (Nat.not_le.2 room)]
  rfl

theorem State.emit_tpsPort (s : State) (e : Emission) (p : Fin 2) : (s.emit e).tpsPort p = s.tpsPort p := rfl

theorem bitTicks_range (n f : Nat) : 15 ≤ bitTicks n f ∧ bitTicks n f ≤ 17 := by
  unfold bitTicks
  split
  · omega
  · split <;> omega

theorem exec_tpsTxdBitStart {p : Fin 2} {b : Bool} {rest : List Bool} (on : s.domOn dAUD = true)
    (open_ : (s.tpsPort p).open_ = true) (goes : (s.tpsPort p).txGo = true) (first : (s.tpsPort p).tx = b :: rest) :
    exec (.tpsTxdBitStart p) s = .next ((s.modTps p fun y => { y with
      tx := rest
      leak := if bitTicks (s.tpsNDown p) (s.tpsPort p).tx.length = 16 then y.leak else inc32 y.leak }).emit
        (.tps p b (bitTicks (s.tpsNDown p) (s.tpsPort p).tx.length))) := by
  show execTpsTxdBitStart p s = _
  rw [execTpsTxdBitStart]
  dsimp only
  rw [if_neg (by simp [on, open_, goes]), first]

theorem exec_upstreamTribClose (t : Fin 3) (frm : s.domOn dFRM = true) (pkt : s.domOn dPKT = true) :
    exec (.upstreamTribClose (BitVec.ofNat 8 (t.val + 1))) s =
      .next (if t = 0 then (s.tribApply t).closeAudio else (s.tribApply t).closeTpsFrame (Fin.ofNat 2 (t.val - 1))) := by
  show execUpstreamTribClose _ s = _
  fin_cases t <;> exact congrArg Host.Outcome.next (if_neg (by simp [frm, pkt]))

end

/-- Settles O56. -/
theorem audioRows : Obligations.AudioRows := by
  intro s
  refine ⟨fun l bytes active on whole => ⟨_, rfl, fun role type_ known => ⟨?_, ?_⟩, fun p role type_ known crc len new =>
      ⟨_, rfl, fun aud => ?_, fun aud => ?_⟩⟩,
    fun blk => State.slipWrite_full,
    fun x rest on plays first => ⟨_, exec_audioBlockBoundary on plays first, rfl, rfl, rfl, fun p own =>
      State.blockStarts_pos own⟩,
    fun p a => exec_audioStartBoundary, fun p a => exec_audioStopBoundary, fun p d => exec_gateTimeout,
    fun apart ppm => ⟨fun on frames rate => ?_, fun off => ?_⟩, fun bad ppm ns => ⟨fun lost => ?_, fun few rate => ?_⟩,
    fun cs on lock => ?_, fun p pair parity invalid on open_ => ⟨exec_sampleBoundary_out on open_, s.outSample_out p⟩,
    fun pair parity invalid => exec_sampleBoundary_in, fun p b => exec_tpsRxdBit,
    fun p b rest on open_ goes first => ⟨_, _, exec_tpsTxdBitStart on open_ goes first, rfl, ?_, (bitTicks_range _ _).1,
      (bitTicks_range _ _).2, fun full => if_pos full⟩,
    exec_upstreamTribClose⟩
  · exact exec_audioContainer_crc active on whole role type_ known
  · exact exec_audioContainer active on whole role type_ known
  · rw [exec_tpsContainer active on whole role type_ known crc len new, if_pos aud]
  · rw [exec_tpsContainer active on whole role type_ known crc len new, aud]
    rfl
  · rw [exec_audioInputLock, if_pos ⟨on, frames, rate⟩]
  · rw [exec_audioInputLock, if_neg (by omega)]
  · rw [exec_audioInputLoss, if_pos lost]
  · rw [exec_audioInputLoss, if_neg (by omega)]
  · obtain ⟨k, row⟩ := exec_audioInputBlock (cs := cs) on lock
    exact ⟨_, row, rfl, rfl⟩
  · rw [State.emit_tpsPort, State.modTps_tpsPort, if_pos rfl]

end Sys2Proof.Machine


/-!
SUPPORT. The events of terminal time (R271 to R304).
-/

namespace Sys2Proof.Machine

section
variable {s : State}

/-! ### Comparators and alarms (R291, R292, R298) -/

theorem exec_comparatorFire {i : Fin 16} {c : Cmp} (armed : s.time.cmps[i] = some c) (near : c.parked = false)
    (on : s.domOn dPLL = true)
    (due : 0 ≤ toSigned 48 (((s.reachTt c.target).ttNs + 2 ^ 48 - c.target % 2 ^ 48) % 2 ^ 48)) :
    exec (.comparatorFire i) s = .next ((s.reachTt c.target).fireCmp i false) := by
  show execComparatorFire i s = _
  rw [execComparatorFire, armed]
  exact congrArg Host.Outcome.next ((if_neg (by simp [near, on])).trans (if_pos due))

/-- What the check of parked targets leaves of a comparator. -/
def Cmp.checked (c : Cmp) (now : Nat) : Cmp := { c with parked := c.parked && !decide (c.target < now + 2 ^ 46) }

/-- One comparator checked. -/
def State.checkCmp (s : State) (i : Fin 16) : State :=
  match s.time.cmps[i] with
  | some c => if c.parked && c.target < s.ttNs + 2 ^ 46 then
      { s with time.cmps := s.time.cmps.set i (some { c with parked := false }) } else s
  | none => s

theorem exec_parkedTargetCheck : exec .parkedTargetCheck s = .next ((List.finRange 16).foldl State.checkCmp s) := rfl

theorem State.checkCmp_ttNs (s : State) (i : Fin 16) : (s.checkCmp i).ttNs = s.ttNs := by
  unfold State.checkCmp
  split
  · split <;> rfl
  · rfl

theorem State.checkCmp_self (s : State) (i : Fin 16) :
    (s.checkCmp i).time.cmps[i] = s.time.cmps[i].map (·.checked s.ttNs) := by
  unfold State.checkCmp
  split
  next c held =>
    rw [held]
    split
    next near => simp at near; simp [Cmp.checked, near]
    next far =>
      rw [held]
      have same : (c.parked && !decide (c.target < s.ttNs + 2 ^ 46)) = c.parked := by
        cases p : c.parked <;> simp [p] at far ⊢
        exact far
      simp only [Option.map_some, Cmp.checked, same]
  next free =>
    rw [free]
    rfl

theorem State.checkCmp_other (s : State) {i j : Fin 16} (other : i ≠ j) : (s.checkCmp i).time.cmps[j] = s.time.cmps[j] := by
  have apart : i.val ≠ j.val := fun e => other (Fin.ext e)
  unfold State.checkCmp
  split
  · split
    · exact Vector.getElem_set_ne i.isLt j.isLt apart
    · rfl
  · rfl

/-- The check goes over the comparators one by one. -/
theorem State.checkCmps (l : List (Fin 16)) (once : l.Nodup) (s : State) (i : Fin 16) :
    (l.foldl State.checkCmp s).time.cmps[i] =
      if i ∈ l then s.time.cmps[i].map (·.checked s.ttNs) else s.time.cmps[i] := by
  induction l generalizing s with
  | nil => simp
  | cons j l ih =>
    obtain ⟨new, once⟩ := List.nodup_cons.1 once
    rw [List.foldl_cons, ih once, State.checkCmp_ttNs]
    by_cases e : j = i
    · subst e
      rw [if_neg new, State.checkCmp_self, if_pos List.mem_cons_self]
    · rw [State.checkCmp_other s e]
      simp [Ne.symm e]

theorem exec_calendarAlarm {i : Fin 4} {sec : Nat} (alarm : s.time.alarms[i] = some sec) (on : s.domOn dTKP = true) :
    exec (.calendarAlarm i) s = .next ((s.reachTt (sec * 10 ^ 9)).fireAlarm i) := by
  show execCalendarAlarm i s = _
  rw [execCalendarAlarm, alarm]
  exact congrArg Host.Outcome.next (if_pos on)

/-! ### Outputs (R300 to R302) -/

/-- The next second, one never output before. -/
theorem exec_ppsSecond {sec : Nat} (on : s.domOn dPLL = true) (mode : s.time.pps.mode = .always)
    (last : s.time.pps.last = some sec) (near : (s.ttNs + 999999999) / 10 ^ 9 ≤ sec + 1) :
    exec .ppsSecond s = .next ((s.reachTt ((sec + 1) * 10 ^ 9)).ppsPulse (sec + 1) ((sec + 1) * 10 ^ 9)) := by
  have runs : ¬(s.time.pps.mode = .off ∨ (!s.domOn dPLL) = true) := by simp [mode, on]
  show execPpsSecond s = _
  rw [execPpsSecond, if_neg runs, last]
  dsimp only
  rw [Nat.max_eq_right near]
  refine congrArg Host.Outcome.next (if_pos ?_)
  show (s.reachTt _).outRuns s.time.pps.mode = true
  rw [mode]
  rfl

/-- The two edges of the next cycle. -/
theorem exec_gridRefCycle (on : s.domOn dPLL = true) (mode : s.time.grid.mode = .always) (f : s.time.grid.f ≠ 0)
    (plain : s.nextCycle % s.time.grid.n ≠ 0) : exec .gridRefCycle s = .next { s with
      now := s.time.instantOf s.now ((s.time.grid.startOf s.nextCycle : Int) * 32768)
      out := s.out ++ [.timeEdge 1 true (s.time.grid.startOf s.nextCycle / 2)]
        ++ [.timeEdge 1 false (s.time.grid.startOf s.nextCycle / 2 + 10 ^ 12 / s.time.grid.f / 2)]
      time.grid := { s.time.grid with
        cycle := some s.nextCycle, cycleAt := s.time.instantOf s.now ((s.time.grid.startOf s.nextCycle : Int) * 32768)
        half := 10 ^ 12 / s.time.grid.f / 2, changed := false } } := by
  have runs : ¬(s.time.grid.mode = .off ∨ s.time.grid.f = 0 ∨ (!s.domOn dPLL) = true) := by simp [mode, on, f]
  have always : ∀ x : State, ¬(!x.outRuns s.time.grid.mode) = true := by
    intro x
    rw [mode]
    exact Bool.false_ne_true
  show execGridRefCycle s = _
  rw [execGridRefCycle, if_neg runs]
  dsimp only
  rw [if_neg (always _), if_neg plain]
  rfl

theorem exec_pulseStart {i : Fin 2} {a : Nat} (start : s.time.pulses[i].start = some a) (on : s.domOn dPLL = true) :
    exec (.pulseStart i) s = .next ((s.reachTt a).pulseRise i) := by
  show execPulseStart i s = _
  rw [execPulseStart, start]
  exact congrArg Host.Outcome.next (if_pos on)

theorem exec_pulseStop {i : Fin 2} {a : Nat} (stop : s.time.pulses[i].stop = some a)
    (active : s.time.pulses[i].active = true) (on : s.domOn dPLL = true) :
    exec (.pulseStop i) s = .next ((s.reachTt a).pulseFall i) := by
  show execPulseStop i s = _
  rw [execPulseStop, stop]
  exact congrArg Host.Outcome.next (if_pos (by rw [active, on]; rfl))

/-! ### Leaps, stamps and rates (R278 to R285) -/

theorem exec_leapSecond (leap : s.time.leapKind = 1) :
    exec .leapSecond s = .next (s.reachTt (s.time.leapAt * 10 ^ 9)).leapNow :=
  congrArg Host.Outcome.next (if_neg (by rw [leap]; decide))

theorem State.leapNow_forward (leap : s.time.leapKind = 1) : s.leapNow.time.utcOff = s.time.utcOff + 1 := if_pos leap

/-- A usable stamp of a HEAD session meets it. -/
theorem exec_timeStamp {st : HeadStamp} {e : Int} (stamp : s.time.stamp = some st) (error : s.stampError st = some e)
    (head : s.time.source = .head) : exec .timeStamp s = .next (({ s with time.stamp := none } : State).useStamp e) := by
  show execTimeStamp s = _
  rw [execTimeStamp, stamp]
  dsimp only
  rw [error]
  exact congrArg Host.Outcome.next (if_pos head)

theorem State.useStamp_unstepped {e : Int} (st : s.time.sstate = .unstepped) :
    s.useStamp e = ({ s with time.lastStamp := s.now } : State).stepTt (-e) := by
  rw [State.useStamp, st]

theorem State.useStamp_near {e : Int} (st : s.time.sstate = .locked) (near : e.natAbs ≤ 65536000000) :
    s.useStamp e = { s with time.lastStamp := s.now, time.errs := s.time.errs ++ [e], time.bad := 0 } := by
  rw [State.useStamp, st]
  exact if_neg (Nat.not_lt.2 near)

/-- The fourth stamp in a row beyond 1 ms is a FAULT (R282). -/
theorem State.useStamp_fault {e : Int} (st : s.time.sstate = .locked) (far : 65536000000 < e.natAbs)
    (third : s.time.bad = 3) : s.useStamp e =
      ({ s with time.lastStamp := s.now, time.errs := s.time.errs ++ [e] } : State).faultTime e := by
  rw [State.useStamp, st]
  exact (if_pos far).trans (if_pos third)

theorem State.faultTime_sstate (s : State) (e : Int) : (s.faultTime e).time.sstate = .fault := by
  unfold State.faultTime State.leftHoldover
  dsimp only
  split <;> simp

theorem setRate_rate (x : TimeUnit) (at_ : Nat) (r : Int) : (x.setRate at_ r).rate = r := by
  unfold TimeUnit.setRate
  split
  next same => exact same
  · rfl

theorem setRate_sstate (x : TimeUnit) (at_ : Nat) (r : Int) : (x.setRate at_ r).sstate = x.sstate := by
  unfold TimeUnit.setRate
  split <;> rfl

theorem exec_rateCorrection_tenant {u : Ten} {r : Int} (st : s.time.sstate = .locked) (up : s.boot.core1Up = true)
    (awake : s.power.pstate ≠ .night) (tenant : s.time.source = .tenant u) (target : s.time.target = some r) :
    exec .rateCorrection s = .next { s with time := {
      s.time.setRate s.now (slew s.time.rate r (s.now - s.time.lastCorr)) with lastCorr := s.now } } := by
  have runs : ¬(s.time.sstate ≠ .locked ∨ (!s.boot.core1Up) = true ∨
      s.power.pstate = .night ∧ (!s.power.night.listening) = true) := by simp [st, up, awake]
  show execRateCorrection s = _
  rw [execRateCorrection, if_neg runs, tenant]
  dsimp only
  rw [target]

/-- A rate moves by at most 5 ppm/s. -/
theorem slew_step (rate target : Int) (dt : Nat) : (slew rate target dt - rate).natAbs ≤ 5 * 2 ^ 40 * dt / 10 ^ 15 := by
  unfold slew
  extract_lets step
  have positive : step = ((5 * 2 ^ 40 * dt / 10 ^ 15 : Nat) : Int) := rfl
  clear_value step
  generalize 5 * 2 ^ 40 * dt / 10 ^ 15 = k at positive ⊢
  split <;> omega

theorem exec_holdoverEntry (head : s.time.source = .head) (st : s.time.sstate = .locked) (awake : s.power.pstate ≠ .night) :
    exec .holdoverEntry s = .next (s.reach (s.time.lastStamp + 10000000)).enterHoldover :=
  congrArg Host.Outcome.next (if_pos ⟨head, st, awake⟩)

theorem State.enterHoldover_sstate (s : State) : s.enterHoldover.time.sstate = .holdover := by simp [State.enterHoldover]

theorem State.enterHoldover_rate (s : State) : s.enterHoldover.time.rate = s.time.rate := by simp [State.enterHoldover]

theorem exec_transformRebase (on : s.time.tk = none) :
    exec .transformRebase s = .next { s with time := s.time.rebase s.now } :=
  congrArg Host.Outcome.next (if_neg (by rw [on]; exact Bool.false_ne_true))

/-- A rebase changes no time. -/
theorem TimeUnit.rebase_ttAt (x : TimeUnit) (at_ : Nat) : (x.rebase at_).ttAt at_ = x.ttAt at_ := by
  have none_ : (x.rebase at_).sinceAnchor at_ = 0 := by
    show (x.frcAt at_ + 2 ^ 48 - x.frcAt at_) % 2 ^ 48 = 0
    rw [Nat.add_sub_cancel_left, Nat.mod_self]
  rw [TimeUnit.ttAt, none_]
  simp [TimeUnit.rebase]

/-! ### Captures (R304) -/

section
variable {i : Fin 4} {rising : Bool} {ph ns : Nat}

theorem exec_captureEdge_short (short : ns < 4) : exec (.captureEdge i rising ph ns) s = .next s :=
  congrArg Host.Outcome.next (if_pos (by rw [decide_eq_true short]; rfl))

section
variable (long : 4 ≤ ns) (acts : s.ballActs (.tsIn i) = true)
  (edges : s.time.caps[i].cfg.getLsbD (if rising then 0 else 1) = true)
include long acts edges

theorem exec_captureEdge_full (full : 16 ≤ s.time.caps[i].fifo.length) : exec (.captureEdge i rising ph ns) s = .next { s with
    time.caps := s.time.caps.set i { s.time.caps[i] with lost := satInc 65535 s.time.caps[i].lost, loss := true } } := by
  refine congrArg Host.Outcome.next ((if_neg ?_).trans (if_pos ?_))
  · rw [acts, edges, decide_eq_false (Nat.not_lt.2 long)]
    exact Bool.false_ne_true
  · rw [decide_eq_true full, Bool.or_true]

theorem exec_captureEdge_room (first : s.time.caps[i].lastEdge = none) (room : s.time.caps[i].fifo.length < 16) : ∃ (r : Stamp) (at_ : Nat) (w : Word),
    exec (.captureEdge i rising ph ns) s = .next (({ s with
      time.caps := s.time.caps.set i { s.time.caps[i] with
        fifo := s.time.caps[i].fifo ++ [r], loss := false, lastEdge := some at_ } } : State).raise
          (Fin.ofNat 256 (0x32 + i.val)) w) := by
  have goes : ¬(decide (ns < 4) || !s.ballActs (.tsIn i) || !s.time.caps[i].cfg.getLsbD (if rising then 0 else 1)) = true := by
    rw [acts, edges, decide_eq_false (Nat.not_lt.2 long)]
    exact Bool.false_ne_true
  refine ⟨_, _, _, congrArg Host.Outcome.next ((if_neg goes).trans (if_neg ?_))⟩
  rw [decide_eq_false (Nat.not_le.2 room), first]
  exact Bool.false_ne_true

end
end
end

/-- Settles O42. -/
theorem timeEvents : Obligations.TimeEvents := by
  intro s
  refine ⟨fun i c armed near on due => exec_comparatorFire armed near on due,
    ⟨_, exec_parkedTargetCheck, fun i c armed => ?_⟩, fun i sec => exec_calendarAlarm, fun sec => exec_ppsSecond,
    fun on mode f plain => ?_, fun i a => exec_pulseStart, fun i a => exec_pulseStop,
    fun leap => ⟨_, exec_leapSecond leap, State.leapNow_forward (s := s.reachTt _) leap, rfl⟩,
    fun st e stamp error head => ⟨fun unstepped => ?_, fun locked near => ?_, fun locked far third => ?_⟩,
    fun u r st up awake tenant target => ⟨_, exec_rateCorrection_tenant st up awake tenant target, rfl, setRate_rate _ _ _, ?_,
      (setRate_sstate _ _ _).trans st⟩,
    fun head st awake => ⟨exec_holdoverEntry head st awake, State.enterHoldover_sstate _, State.enterHoldover_rate _⟩,
    fun on => ⟨_, exec_transformRebase on, s.time.rebase_ttAt _, rfl⟩, fun i rising ph ns => exec_captureEdge_short,
    fun i rising ph ns long acts edges first => ⟨exec_captureEdge_full long acts edges, fun room => ?_⟩⟩
  · rw [State.checkCmps _ (List.nodup_finRange 16), if_pos (List.mem_finRange i), armed]
    rfl
  · exact ⟨_, exec_gridRefCycle on mode f plain, rfl, by simp, rfl⟩
  · rw [exec_timeStamp stamp error head, State.useStamp_unstepped (s := { s with time.stamp := none }) unstepped]
  · rw [exec_timeStamp stamp error head, State.useStamp_near (s := { s with time.stamp := none }) locked near]
  · have row := exec_timeStamp stamp error head
    rw [State.useStamp_fault (s := { s with time.stamp := none }) locked far third] at row
    exact ⟨_, row, State.faultTime_sstate _ e⟩
  · rw [setRate_rate]
    exact slew_step _ _ _
  · obtain ⟨r, at_, w, row⟩ := exec_captureEdge_room (ph := ph) long acts edges first room
    refine ⟨_, r, row, ?_, ?_⟩ <;> simp

end Sys2Proof.Machine


/-!
SUPPORT. Clock synthesis (R307 to R324): the `CLOCK` commands; lock, loss, coast and relock; DPLL-T.
-/

namespace Sys2Proof.Machine

/-! ### The `CLOCK` commands -/

section
variable {s : State} {t : Ten} {n : SlotIx}

theorem exec_clockStatus (h : s.sends t n 0x0601 [(0, 1)]) (keep : s.prm1 t n 0 = 0) :
    exec (.clockStatus t n) s = .next (s.answer t n (clockStatus s.clk)) := by
  refine (command_sends h).trans ?_
  dsimp only
  rw [keep]
  rfl

theorem exec_clockStatus_clear (h : s.sends t n 0x0601 [(0, 1)]) (clear : s.prm1 t n 0 = 1) :
    exec (.clockStatus t n) s = .next (({ s with
      clk := { s.clk with lolCount := 0, lorCount := 0, relocks := 0, holds := 0, steerLim := 0 } } : State).answer t n
        (clockStatus s.clk)) := by
  refine (command_sends h).trans ?_
  dsimp only
  rw [clear]
  rfl

theorem exec_clockBandRead (h : s.sends t n 0x0602 [(0, 2)]) {i : Fin 32} (first : s.prm1 t n 0 = i.val)
    (one : s.prm1 t n 1 = 1) : exec (.clockBandRead t n) s = .next (s.answer t n (leBytes 8 s.clk.bands[i].toNat)) := by
  refine (command_sends h).trans (congrArg Host.Outcome.next ((State.guard_pass ?_).trans (State.guard_none.trans ?_)))
  · rw [first, one]
    have := i.isLt
    simp
    omega
  · have entry : (s.clk.bands.toList.drop i.val).take 1 = [s.clk.bands[i]] := by
      rw [List.take_one, List.head?_drop, List.getElem?_eq_getElem (by simp)]
      simp
    rw [first, one, entry, List.flatMap_singleton]

theorem exec_clockBandWrite (h : s.sends t n 0x0603 [(0, 3), (8, 8)]) {i : Fin 32} (first : s.prm1 t n 0 = i.val)
    (one : s.prm1 t n 1 = 1) (keep : s.prm1 t n 2 = 0)
    (ok : bandsOk (bandsPut s.clk.bands i.val [BitVec.ofNat 64 (s.prm t n 8 8)]) = true)
    (may : s.inFactory = true ∨ s.thawed = true) (idle : s.clk.searching = false) :
    exec (.clockBandWrite t n) s = .next (({ s with
      clk.bands := bandsPut s.clk.bands i.val [BitVec.ofNat 64 (s.prm t n 8 8)] } : State).done t n Status.ok) := by
  have entries : (List.range 1).map (fun k => BitVec.ofNat 64 (s.prm t n (8 + 8 * k) 8)) = [BitVec.ofNat 64 (s.prm t n 8 8)] :=
    rfl
  refine (commandBy_runs h.1).trans ?_
  dsimp only
  rw [first, one, keep, entries, State.guard_pass, State.guard_pass, State.guard_pass, State.guard_none]
  · rfl
  · exact idle
  · rcases may with may | may <;> simp [may, show bit 0 0 = false from rfl]
  · have := i.isLt
    rw [ok, h.2]
    simp
    omega

section
variable (h : s.sends t n 0x0604 [(0, 6)]) (seed : s.prm t n 0 4 < 2 ^ 23) (amp : s.prm1 t n 4 = 1 ∨ s.prm1 t n 4 = 2)
  (keep : s.prm1 t n 5 = 0)
include h seed amp keep

theorem exec_clockDither (some_ : s.prm t n 0 4 ≠ 0) : exec (.clockDither t n) s = .next (({ s with
    clk := { s.clk with seed := s.prm t n 0 4, amp := s.prm1 t n 4 } } : State).done t n Status.ok) := by
  refine (command_sends h).trans (congrArg Host.Outcome.next ((State.guard_pass ?_).trans ((State.guard_pass ?_).trans
    ((State.guard_pass ?_).trans (State.guard_none.trans ?_)))))
  · rcases amp with amp | amp <;> rw [amp, keep, decide_eq_false (Nat.not_le.2 seed)] <;> rfl
  · simpa using some_
  · rw [keep]
    rfl
  · dsimp only
    rw [keep]
    rfl

theorem exec_clockDither_zero (zero : s.prm t n 0 4 = 0) : exec (.clockDither t n) s = .next (s.done t n Status.badSeed) := by
  refine (command_sends h).trans (congrArg Host.Outcome.next ((State.guard_pass ?_).trans (State.guard_fail ?_)))
  · rcases amp with amp | amp <;> rw [amp, keep, decide_eq_false (Nat.not_le.2 seed)] <;> rfl
  · rw [zero]
    rfl

end

theorem exec_clockDpllConfig (h : s.sends t n 0x0605 [(0, 2)]) (bw : s.prm1 t n 0 ≤ 3) (keep : s.prm1 t n 1 = 0) :
    exec (.clockDpllConfig t n) s = .next (({ s with clk.bw := s.prm1 t n 0 } : State).done t n Status.ok) := by
  refine (command_sends h).trans (congrArg Host.Outcome.next ((State.guard_pass ?_).trans ((State.guard_pass ?_).trans
    (State.guard_none.trans ?_))))
  · rw [keep, decide_eq_false (Nat.not_lt.2 bw)]
    rfl
  · rw [keep]
    rfl
  · dsimp only
    rw [keep]
    rfl

theorem exec_clockRelock (h : s.sends t n 0x0606 []) (may : s.inFactory = true ∨ s.thawed = true)
    (idle : s.clk.searching = false) : exec (.clockRelock t n) s = .next (s.startRelock (some (t, n))) := by
  refine (command_sends h).trans (congrArg Host.Outcome.next ((State.guard_pass ?_).trans ((State.guard_pass idle).trans
    State.guard_none)))
  rcases may with may | may <;> simp [may]

end

/-! ### Loss and coast (R308, R314 to R316) -/

section
variable {s : State}

theorem exec_pllaLossOfLock (on : s.domOn dPLL = true) (lock : s.clk.lock = true) : exec .pllaLossOfLock s =
    .next ({ s with clk.lolCount := satInc 65535 s.clk.lolCount } : State).coast :=
  congrArg Host.Outcome.next (if_pos ⟨on, lock⟩)

theorem lorCount_false {edges : Nat} : lorCount false edges = true ↔ edges < 759 ∨ 767 < edges := by simp [lorCount]

section
variable {edges : Nat} (on : s.domOn dPLL = true) (own : s.clk.fallback = false)
include on own

theorem exec_lossOfReference_within (lo : 759 ≤ edges) (hi : edges ≤ 767) : exec (.lossOfReference edges) s = .next s := by
  refine congrArg Host.Outcome.next (if_pos ?_)
  have good : lorCount false edges = false := by
    rw [Bool.eq_false_iff, ne_eq, lorCount_false]
    omega
  rw [own, good, on]
  rfl

theorem exec_lossOfReference (search : s.clk.relock = none) (off : edges < 759 ∨ 767 < edges) (ref : s.clk.refOk = true) :
    exec (.lossOfReference edges) s = .next ({ s with
      clk := { s.clk with refOk := false, lorCount := satInc 65535 s.clk.lorCount } } : State).coast := by
  show execLossOfReference edges s = _
  simp only [execLossOfReference, own, lorCount_false.2 off, on, ref, search, Bool.not_true, Bool.or_self,
    Bool.false_eq_true, if_false, if_true, Option.isSome_none]

end

theorem exec_refclkQualified (on : s.domOn dPLL = true) (coast : s.clk.coast = true) (search : s.clk.relock = none) :
    exec .refclkQualified s = .next { s with clk.refOk := true, clk.recloseBy := some (s.now + 1000000) } := by
  show execRefclkQualified s = _
  rw [execRefclkQualified, if_neg (by rw [on]; exact Bool.false_ne_true)]
  exact congrArg Host.Outcome.next (if_pos ⟨coast, search⟩)

/-! ### Lock and relock (R308, R312, R316) -/

theorem State.setDoms_dom (ds : List Dom) (x : DomState) (s : State) (d : Dom) :
    (s.setDoms ds x).dom d = if d ∈ ds then x else s.dom d := by
  induction ds generalizing s with
  | nil => simp [State.setDoms]
  | cons e ds ih =>
    rw [show s.setDoms (e :: ds) x = (s.setDom e x).setDoms ds x from rfl, ih, State.setDom_dom]
    by_cases later : d ∈ ds
    · rw [if_pos later, if_pos (List.mem_cons_of_mem _ later)]
    · rw [if_neg later]
      by_cases own : e = d
      · rw [if_pos own, own, if_pos List.mem_cons_self]
      · rw [if_neg own, if_neg (by simp [Ne.symm own, later])]

theorem State.lolHeld_power (s : State) : s.lolHeld.power = s.power := by
  unfold State.lolHeld
  split <;> rfl

theorem Clk.endCoast_coast (x : Clk) (now : Nat) : (x.endCoast now).coast = false := by
  unfold Clk.endCoast
  split
  · rfl
  next off => exact Bool.eq_false_iff.2 off

/-- A coast that re-closed ends with a lock. -/
theorem exec_pllaLockAcquired_coast (on : s.domOn dPLL = true) (unlocked : s.clk.lock = false) (search : s.clk.relock = none)
    (closed : s.clk.recloseBy ≠ none) : exec .pllaLockAcquired s =
      .next { s.lolHeld with clk := { s.clk.endCoast s.now with lock := true, recloseBy := none } } := by
  show execPllaLockAcquired s = _
  rw [execPllaLockAcquired, if_neg (by rw [on, unlocked]; exact Bool.false_ne_true), search]
  exact congrArg Host.Outcome.next (if_neg fun h => closed h.2)

/-- A run-time relock ends with a lock, and the clocks that it stopped restart. -/
theorem exec_pllaLockAcquired_search {r : Relock} {i : Fin 32} {rest : List (Fin 32)} (on : s.domOn dPLL = true)
    (unlocked : s.clk.lock = false) (search : s.clk.relock = some r) (trial : r.tries = i :: rest) (alone : r.by_ = none) :
    exec .pllaLockAcquired s = .next (({ s.lolHeld with
      clk := { s.clk.endCoast s.now with lock := true, entry := some i, relock := none } } : State).setDoms
        (r.stopped.filter fun d => s.lolHeld.dom d == .gated) .on) := by
  show execPllaLockAcquired s = _
  rw [execPllaLockAcquired, if_neg (by rw [on, unlocked]; exact Bool.false_ne_true), search]
  dsimp only
  rw [trial, alone]
  rfl

theorem exec_relockTimeout {d : Nat} (closed : s.clk.recloseBy = some d) :
    exec .relockTimeout s = .next ((s.reach d).startRelock none) := by
  show execRelockTimeout s = _
  rw [execRelockTimeout, closed]

section
variable {r : Relock} {d : Nat} (search : s.clk.relock = some r)
include search

theorem exec_lockSearchAttemptTimeout {i j : Fin 32} {rest : List (Fin 32)} (by_ : r.attemptBy = some d)
    (tries : r.tries = i :: j :: rest) : exec .lockSearchAttemptTimeout s = .next { s.reach d with
      clk.relock := some { r with tries := j :: rest, attemptBy := some ((s.reach d).now + 300000) } } := by
  show execLockSearchAttemptTimeout s = _
  rw [execLockSearchAttemptTimeout, search]
  dsimp only
  rw [by_, tries]
  rfl

theorem exec_lockSearchAttemptTimeout_last {i : Fin 32} (by_ : r.attemptBy = some d) (tries : r.tries = [i])
    (alone : r.by_ = none) : exec .lockSearchAttemptTimeout s = .next { s.reach d with
      clk.relock := some { r with
        tries := [], attemptBy := none, retryAt := some ((s.reach d).now + 100000000), by_ := none } } := by
  show execLockSearchAttemptTimeout s = _
  rw [execLockSearchAttemptTimeout, search]
  dsimp only
  rw [by_, tries, alone]
  rfl

theorem exec_relockRetry (retry : r.retryAt = some d) : exec .relockRetry s = .next ((s.reach d).search r) := by
  show execRelockRetry s = _
  rw [execRelockRetry, search]
  dsimp only
  rw [retry]

end

/-! ### DPLL-T (R317 to R320) -/

theorem clampSteer_limit (v : Int) : (clampSteer v).natAbs ≤ 838861 := by
  unfold clampSteer
  omega

section
variable (lock : s.clk.lock = true) (up : s.boot.core1Up = true) (sync : s.activeSync = true)
include lock up sync

theorem exec_dpllMeasurement_track {df : Int} (acquire : s.clk.dpll = .acquire) (jumped : s.clk.jumped = true)
    (near : df.natAbs ≤ 10) : exec (.dpllMeasurement df) s =
      .next ({ s with clk.ferr := df * 10 } : State).dpllTrack.fromNextMap := by
  show execDpllMeasurement df s = _
  rw [execDpllMeasurement, if_neg (by simp [lock, up, sync]), acquire]
  exact congrArg Host.Outcome.next (if_pos ⟨jumped, near⟩)

theorem exec_dpllMeasurement_jump {df : Int} (acquire : s.clk.dpll = .acquire) (far : 10 < df.natAbs) :
    exec (.dpllMeasurement df) s = .next (({ s with clk.ferr := df * 10 } : State).dpllJump df) := by
  show execDpllMeasurement df s = _
  rw [execDpllMeasurement, if_neg (by simp [lock, up, sync]), acquire]
  exact congrArg Host.Outcome.next (if_neg fun h => absurd h.2 (Nat.not_le.2 far))

/-- An update of TRACK sets a word within the limit. -/
theorem exec_dpllTrackUpdate {phase : Int} (track : s.clk.dpll = .track) : ∃ v k, exec (.dpllTrackUpdate phase) s =
    .next { s.freed with clk := { s.clk with steer := clampSteer v, loopAt := s.now, steerLim := k } } := by
  refine ⟨_, _, congrArg Host.Outcome.next (if_neg ?_)⟩
  simp [track, lock, up, sync]

end
end

/-- Settles O43. -/
theorem clockSynthesis : Obligations.ClockSynthesis := by
  refine ⟨fun s t n => ⟨fun h => ⟨exec_clockStatus h, fun clear => ⟨_, exec_clockStatus_clear h clear, rfl⟩⟩,
      fun h i => exec_clockBandRead h, fun h i first one keep ok may idle => exec_clockBandWrite h first one keep ok may idle,
      fun h seed amp keep => ⟨exec_clockDither h seed amp keep, exec_clockDither_zero h seed amp keep⟩,
      exec_clockDpllConfig, exec_clockRelock⟩,
    fun s => ⟨exec_pllaLossOfLock,
      fun edges on own search => ⟨exec_lossOfReference_within on own, exec_lossOfReference on own search⟩,
      exec_refclkQualified,
      fun on unlocked search coast closed => ⟨_, exec_pllaLockAcquired_coast on unlocked search closed, rfl,
        s.clk.endCoast_coast _, rfl, fun d => congrArg (·.dom[d]) s.lolHeld_power⟩,
      fun r i rest on unlocked search trial alone => ⟨_, exec_pllaLockAcquired_search on unlocked search trial alone, ?_⟩,
      fun d => exec_relockTimeout, fun r d i j rest search => exec_lockSearchAttemptTimeout search,
      fun r d i search => exec_lockSearchAttemptTimeout_last search, fun r d search => exec_relockRetry search,
      fun df lock up sync acquire => ⟨fun jumped near =>
          ⟨_, exec_dpllMeasurement_track lock up sync acquire jumped near, rfl⟩,
        fun far => ⟨_, exec_dpllMeasurement_jump lock up sync acquire far, rfl, rfl, rfl⟩⟩,
      fun phase track lock up sync => ?_, rfl⟩⟩
  · have clk : (({ s.lolHeld with clk := { s.clk.endCoast s.now with lock := true, entry := some i, relock := none } } :
        State).setDoms (r.stopped.filter fun d => s.lolHeld.dom d == .gated) .on).clk =
          { s.clk.endCoast s.now with lock := true, entry := some i, relock := none } := by
      obtain ⟨dom, on⟩ := State.setDoms_eq { s.lolHeld with
        clk := { s.clk.endCoast s.now with lock := true, entry := some i, relock := none } }
        (r.stopped.filter fun d => s.lolHeld.dom d == .gated) .on
      rw [on]
    have before (d : Dom) : s.lolHeld.dom d = s.dom d := congrArg (·.dom[d]) s.lolHeld_power
    rw [clk]
    refine ⟨rfl, rfl, rfl, fun d => ?_⟩
    rw [State.setDoms_dom, show State.dom { s.lolHeld with
      clk := { s.clk.endCoast s.now with lock := true, entry := some i, relock := none } } d = s.dom d from before d]
    simp [before]
  · obtain ⟨v, k, row⟩ := exec_dpllTrackUpdate (phase := phase) lock up sync track
    exact ⟨_, row, clampSteer_limit v, track, rfl⟩

end Sys2Proof.Machine


/-!
SUPPORT. The `TIME` commands (R272 to R306).
-/

namespace Sys2Proof.Machine

section
variable {s : State} {t : Ten} {n : SlotIx}

/-! ### Reports and sessions (R272 to R277) -/

theorem exec_timeStatus_clear (h : s.sends t n 0x0501 [(0, 1)]) (clear : s.prm1 t n 0 = 1) :
    exec (.timeStatus t n) s = .next (({ s with
      time := { s.time with outliers := 0, holdovers := 0, pulseLost := 0 } } : State).answer t n (timeStatus s)) := by
  refine (command_sends h).trans ?_
  dsimp only
  rw [clear]
  rfl

theorem exec_timeRead (h : s.sends t n 0x0502 []) : exec (.timeRead t n) s = .next (s.answer t n
    (ttBytes s.ttU ++ leBytes 6 (s.time.frcAt s.now) ++ leBytes 1 (b2n s.time.unset + 2 * b2n s.time.estimated)
      ++ leBytes 1 s.time.sstate.code ++ leBytes 2 s.time.gen.toNat)) :=
  command_sends h

theorem State.closeTime_none (closed : s.time.sstate = .none) : s.closeTime = s := if_pos closed

section
variable (h : s.sends t n 0x0503 [(0, 1)]) (closed : s.time.sstate = .none)
include h closed

theorem exec_timeSessionOpen_head (what : s.prm1 t n 0 = 1) (owner : s.ownerAt t n = true) (service : s.inService = true) :
    exec (.timeSessionOpen t n) s = .next (s.openAnswer t n .head) := by
  refine (commandBy_runs h.1).trans ?_
  dsimp only
  rw [what, owner, service, closed, h.2]
  rfl

theorem exec_timeSessionOpen_tenant (what : s.prm1 t n 0 = 2) (may : s.holdsAt t n 1 = true)
    (lease : s.leasedAt t n 7 = true) (service : s.inService = false) (silent : s.silent = false) :
    exec (.timeSessionOpen t n) s = .next (s.openAnswer t n (.tenant t)) := by
  refine (commandBy_runs h.1).trans ?_
  dsimp only
  rw [what, may, lease, service, silent, closed, h.2]
  exact congrArg (fun x : State => Host.Outcome.next (x.openAnswer t n (.tenant t))) (State.closeTime_none closed)

end

theorem exec_timeSessionClose (h : s.sends t n 0x0504 []) (open_ : s.time.sstate ≠ .none) :
    exec (.timeSessionClose t n) s = .next (s.closeTime.answer t n (leBytes 2 s.time.gen.toNat)) :=
  (command_sends h).trans (congrArg Host.Outcome.next ((State.guard_pass (beq_eq_false_iff_ne.2 open_)).trans
    State.guard_none))

/-- A closed session leaves `RATE` as it was. -/
theorem State.closeTime_closed (open_ : s.time.sstate ≠ .none) :
    s.closeTime.time.sstate = .none ∧ s.closeTime.time.rate = s.time.rate := by
  unfold State.closeTime State.leftHoldover
  rw [if_neg open_]
  dsimp only
  split <;> simp

/-! ### Steps and rates (R279, R285) -/

theorem State.sessionBad_tenant (unspoilt : s.time.sstate = .unstepped ∨ s.time.sstate = .locked) {u : Ten}
    (tenant : s.time.source = .tenant u) : s.sessionBad = none := by
  unfold State.sessionBad
  rcases unspoilt with st | st <;> simp [st, tenant]

/-- A step that keeps TT in range is taken. -/
theorem State.tenantStep_within {by_ : Int} (lo : 0 ≤ (s.ttU : Int) + by_)
    (hi : ((s.ttU : Int) + by_) / (65536 * 10 ^ 9) - s.time.utcOff < (lastSecond : Int)) :
    s.tenantStep t n by_ = (s.stepTt by_).answer t n (leInt 8 (by_ / 65536) ++ leInt 2 (by_ % 65536)) :=
  if_neg (not_or.2 ⟨Int.not_lt.2 lo, Int.not_le.2 hi⟩)

theorem exec_timeStep (h : s.sends t n 0x0505 [(0, 1), (8, 10)]) (what : s.prm1 t n 0 = 0)
    (st : s.time.sstate = .unstepped) {u : Ten} (tenant : s.time.source = .tenant u) (unspent : s.time.spent = false)
    (lo : 0 ≤ s.ttU + (toSigned 64 (s.prm t n 8 8) * 65536 + s.prm t n 16 2 : Int))
    (hi : ((s.ttU : Int) + (toSigned 64 (s.prm t n 8 8) * 65536 + s.prm t n 16 2)) / (65536 * 10 ^ 9) - s.time.utcOff <
      146097 * 86400) : exec (.timeStep t n) s =
    .next ((s.stepTt (toSigned 64 (s.prm t n 8 8) * 65536 + s.prm t n 16 2)).answer t n
      (leInt 8 ((toSigned 64 (s.prm t n 8 8) * 65536 + s.prm t n 16 2) / 65536)
        ++ leInt 2 ((toSigned 64 (s.prm t n 8 8) * 65536 + s.prm t n 16 2) % 65536))) := by
  refine (commandBy_runs h.1).trans ?_
  dsimp only
  rw [what, if_pos rfl, h.2, State.guard_pass, State.guard_none, State.sessionBad_tenant (.inl st) tenant]
  · dsimp only
    have last : (lastSecond : Int) = 146097 * 86400 := rfl
    rw [unspent, if_neg Bool.false_ne_true, if_pos rfl, State.tenantStep_within lo (by rw [last]; exact hi)]
  · rfl

theorem toSigned_low {v : Nat} (other : v ≠ 2 ^ 31) : toSigned 32 v ≠ -(2 ^ 31) := by
  unfold toSigned
  split <;> omega

theorem exec_timeRate (h : s.sends t n 0x0506 [(0, 5), (8, 8)]) (plain : s.prm1 t n 4 = 0) (range : s.prm t n 0 4 ≠ 2 ^ 31)
    (st : s.time.sstate = .locked) {u : Ten} (tenant : s.time.source = .tenant u) : exec (.timeRate t n) s =
      .next (({ s with time := { s.time with
        target := some (toSigned 32 (s.prm t n 0 4))
        lastCorr := if s.time.target.isNone then s.now else s.time.lastCorr } } : State).done t n Status.ok) := by
  refine (command_sends h).trans (congrArg Host.Outcome.next ((State.guard_pass ?_).trans (State.guard_none.trans ?_)))
  · rw [plain, beq_eq_false_iff_ne.2 (toSigned_low range)]
    rfl
  · rw [State.sessionBad_tenant (.inr st) tenant]
    exact if_neg (by rw [plain]; exact fun h => Bool.false_ne_true h.1)

/-! ### Comparators (R292, R294) -/

section
variable {i : Fin 16} (cmp : s.prm1 t n 0 = i.val)
include cmp

/-- A free comparator comes to the judgement of its target. -/
theorem exec_timeCmpArm (h : s.sends t n 0x0507 [(0, 2), (8, 8)]) (free : s.time.cmps[i] = none) (f : s.prm1 t n 1 ≤ 1) :
    exec (.timeCmpArm t n) s = .next (
      if s.prm t n 8 8 ≤ s.ttNs then (s.fireCmp i true).answer t n (leBytes 1 i.val ++ [2])
      else if decide (s.ttNs + cmpReach < s.prm t n 8 8) ∧ s.prm1 t n 1 = 0 then s.done t n Status.tooFar
      else ({ s with
          time.cmps := s.time.cmps.set i (some (Cmp.mk t (s.prm t n 8 8) (decide (s.ttNs + cmpReach < s.prm t n 8 8)))) } :
            State).answer t n
        (leBytes 1 i.val ++ leBytes 1 (b2n (decide (s.ttNs + cmpReach < s.prm t n 8 8))))) := by
  have inRange : ¬15 < i.val := by omega
  have named : s.cmpFor i.val = some i := (if_neg (by omega)).trans (congrArg some (Fin.ofNat_val i))
  have own : ¬s.cmpHeld t i = true := by
    rw [State.cmpHeld, free]
    exact Bool.false_ne_true
  refine (command_sends h).trans ?_
  dsimp only
  rw [cmp, State.guard_pass, State.guard_none, named]
  · dsimp only
    rw [if_neg own]
  · rw [decide_eq_false inRange, decide_eq_false (Nat.not_lt.2 f)]
    rfl

theorem exec_timeCmpCancel_free (h : s.sends t n 0x0508 [(0, 1)]) (free : s.time.cmps[i] = none) :
    exec (.timeCmpCancel t n) s = .next (s.answer t n [1]) := by
  obtain rfl : i = Fin.ofNat 16 (s.prm1 t n 0) := by rw [cmp, Fin.ofNat_val]
  refine (command_sends h).trans (congrArg Host.Outcome.next ((if_neg (by omega)).trans ?_))
  dsimp only
  rw [free]

theorem exec_timeCmpCancel (h : s.sends t n 0x0508 [(0, 1)]) {c : Cmp} (held : s.time.cmps[i] = some c) (own : c.owner = t) :
    exec (.timeCmpCancel t n) s = .next (({ s with time.cmps := s.time.cmps.set i none } : State).answer t n [0]) := by
  obtain rfl : i = Fin.ofNat 16 (s.prm1 t n 0) := by rw [cmp, Fin.ofNat_val]
  refine (command_sends h).trans (congrArg Host.Outcome.next ((if_neg (by omega)).trans ?_))
  dsimp only
  rw [held]
  exact if_neg (not_not.2 own)

end

/-! ### The calendar (R295 to R298) -/

theorem exec_timeCalRead (h : s.sends t n 0x0509 [(0, 1)]) (plain : s.prm1 t n 0 = 0) {d : Date}
    (date : s.time.date s.ttNs 0 = some d) : exec (.timeCalRead t n) s = .next (s.answer t n
      (d.bytes false 0 ++ leBytes 1 d.weekday ++ [0] ++ leBytes 2 d.dayOfYear
        ++ leBytes 1 (b2n s.time.unset + 2 * b2n s.time.estimated + 4 * b2n (s.time.leapKind != 0) + 8 * b2n d.sec60))) := by
  have utc : (if bit 0 0 = true then s.time.zones[t] else 0) = 0 := if_neg Bool.false_ne_true
  refine (command_sends h).trans ?_
  dsimp only
  rw [plain, utc, State.guard_pass, State.guard_none, date]
  · rfl
  · rfl

theorem exec_timeZone (h : s.sends t n 0x050A [(0, 2)]) (lo : -1440 ≤ toSigned 16 (s.prm t n 0 2))
    (hi : toSigned 16 (s.prm t n 0 2) ≤ 1440) : exec (.timeZone t n) s = .next
      (({ s with time.zones := s.time.zones.set t (toSigned 16 (s.prm t n 0 2)) } : State).done t n Status.ok) := by
  refine (command_sends h).trans (congrArg Host.Outcome.next ((State.guard_pass ?_).trans State.guard_none))
  rw [decide_eq_false (Int.not_lt.2 lo), decide_eq_false (Int.not_lt.2 hi)]
  rfl

theorem exec_timeZone_low (h : s.sends t n 0x050A [(0, 2)]) (low : toSigned 16 (s.prm t n 0 2) < -1440) :
    exec (.timeZone t n) s = .next (s.done t n Status.param) := by
  refine (command_sends h).trans (congrArg Host.Outcome.next (State.guard_fail ?_))
  rw [decide_eq_true low]
  rfl

theorem exec_timeAlarm (h : s.sends t n 0x050B [(0, 2), (8, 8)]) {i : Fin 4} (alarm : s.prm1 t n 0 = i.val)
    (what : s.prm1 t n 1 = 0) : exec (.timeAlarm t n) s = .next (s.setAlarm t n i (s.prm t n 8 8)) := by
  obtain rfl : i = Fin.ofNat 4 (s.prm1 t n 0) := by rw [alarm, Fin.ofNat_val]
  have inRange : ¬3 < s.prm1 t n 0 := by omega
  refine (commandBy_runs h.1).trans ?_
  dsimp only
  rw [what, State.guard_pass, State.guard_none]
  · rfl
  · rw [decide_eq_false inRange]
    exact h.2

end

/-! ### Outputs and captures (R286, R299 to R304) -/

section
variable {s : State} {t : Ten} {n : SlotIx}

theorem exec_timePps (h : s.sends t n 0x050C [(0, 1), (4, 4)]) (may : s.mayDrive t n = true) (mode : s.prm1 t n 0 = 1)
    (lo : 1 ≤ s.prm t n 4 4) (hi : s.prm t n 4 4 ≤ 500000) : exec (.timePps t n) s = .next (({ s with
      time.pps := { s.time.pps with mode := .always, widthUs := s.prm t n 4 4 } } : State).done t n Status.ok) := by
  refine (commandBy_runs h.1).trans ?_
  dsimp only
  rw [mode, may, h.2, State.guard_pass, State.guard_pass, State.guard_none]
  · rfl
  · have width : s.prm t n 4 4 ≠ 0 := by omega
    simp [width, hi]
  · rfl

theorem exec_timeGridRef (h : s.sends t n 0x050D [(0, 1), (4, 14)]) (may : s.mayDrive t n = true) (mode : s.prm1 t n 0 = 2)
    (lo : 1000 ≤ s.prm t n 4 4) (hi : s.prm t n 4 4 ≤ 100000000) (every : 1 ≤ s.prm t n 16 2) :
    exec (.timeGridRef t n) s = .next (({ s with time.grid := { s.time.grid with
      mode := .qualified, f := s.prm t n 4 4, t0 := s.prm t n 8 8, n := s.prm t n 16 2, changed := true } } : State).done t n
        Status.ok) := by
  refine (commandBy_runs h.1).trans ?_
  dsimp only
  rw [mode, may, h.2, State.guard_pass, State.guard_pass, State.guard_none]
  · rfl
  · have some_ : s.prm t n 16 2 ≠ 0 := by omega
    simp [some_, lo, hi]
  · rfl

theorem State.pulseHalt_armed {i : Fin 2} {a stop : Nat} (armed : s.time.pulses[i].start = some a) (other : a ≠ stop) :
    s.pulseHalt t n i stop = ({ s with
      time.pulses := s.time.pulses.set i { s.time.pulses[i] with start := none, stop := none } } : State).answer t n [2] := by
  rw [State.pulseHalt]
  dsimp only
  rw [armed]
  dsimp only
  rw [if_neg other]

section
variable {i : Fin 2} (output : s.prm1 t n 0 = i.val) (may : s.mayDrive t n = true) (inv : s.prm1 t n 2 ≤ 1)
include output may inv

/-- A window on a free pulse output (R302). -/
theorem exec_timePulse_window (h : s.sends t n 0x050E [(0, 3), (8, 16)]) (what : s.prm1 t n 1 = 0)
    (idle : s.time.pulses[i].active = false) (free : s.time.pulses[i].start = none)
    (same : s.time.pulses[i].invert = bit (s.prm1 t n 2) 0) (order : s.prm t n 8 8 ≤ s.prm t n 16 8)
    (some_ : s.prm t n 8 8 / 8 * 8 < s.prm t n 16 8 / 8 * 8) (ahead : s.ttNs < s.prm t n 8 8 / 8 * 8)
    (near : s.prm t n 8 8 ≤ s.ttNs + (2 ^ 47 - 1)) : exec (.timePulse t n) s = .next (({ s with
      time.pulses := s.time.pulses.set i.val {
        invert := bit (s.prm1 t n 2) 0, active := false, start := some (s.prm t n 8 8 / 8 * 8)
        stop := some (s.prm t n 16 8 / 8 * 8) } i.isLt } : State).answer t n [0]) := by
  obtain rfl : i = Fin.ofNat 2 (s.prm1 t n 0) := by rw [output, Fin.ofNat_val]
  have inRange : ¬1 < s.prm1 t n 0 := by omega
  refine (commandBy_runs h.1).trans ?_
  dsimp only
  rw [what, may, h.2, State.guard_pass, State.guard_pass, State.guard_none]
  · have stays : ¬s.prm t n 16 8 / 8 * 8 ≤ s.ttNs := by omega
    have reach : decide (s.ttNs + cmpReach < s.prm t n 8 8) = false := decide_eq_false (Nat.not_lt.2 near)
    simp only [idle, free, reach, if_neg (Nat.not_lt.2 order), if_neg (Nat.ne_of_lt some_), if_neg stays, Bool.false_or,
      Option.isSome_none, Bool.false_eq_true, if_false]
    rw [State.pulseArm]
    simp only [same, if_true]
    exact congrArg Host.Outcome.next (if_neg (Nat.not_le.2 ahead))
  · simp [inRange, inv]
  · rfl

/-- A cancel takes an armed start back (R302). -/
theorem exec_timePulse_cancel (h : s.sends t n 0x050E [(0, 3)]) (what : s.prm1 t n 1 = 3) {a : Nat}
    (armed : s.time.pulses[i].start = some a) (other : a ≠ s.ttNs / 8 * 8) : exec (.timePulse t n) s = .next (({ s with
      time.pulses := s.time.pulses.set i { s.time.pulses[i] with start := none, stop := none } } : State).answer t n [2]) := by
  obtain rfl : i = Fin.ofNat 2 (s.prm1 t n 0) := by rw [output, Fin.ofNat_val]
  have inRange : ¬1 < s.prm1 t n 0 := by omega
  refine (commandBy_runs h.1).trans ?_
  dsimp only
  rw [what, may, State.guard_pass, State.guard_pass, State.guard_none]
  · exact congrArg Host.Outcome.next (State.pulseHalt_armed armed other)
  · simp [inRange, inv, h.2]
  · rfl

end

theorem exec_timeCaptureCfg (h : s.sends t n 0x050F [(0, 2)]) {i : Fin 4} (input : s.prm1 t n 0 = i.val)
    (edges : s.prm1 t n 1 ≤ 3) : exec (.timeCaptureCfg t n) s = .next (({ s with
      time.caps := s.time.caps.set i { s.time.caps[i] with cfg := BitVec.ofNat 2 (s.prm1 t n 1) } } : State).done t n
        Status.ok) := by
  obtain rfl : i = Fin.ofNat 4 (s.prm1 t n 0) := by rw [input, Fin.ofNat_val]
  have inRange : ¬3 < s.prm1 t n 0 := by omega
  refine (command_sends h).trans (congrArg Host.Outcome.next ((State.guard_pass ?_).trans State.guard_none))
  rw [decide_eq_false inRange, decide_eq_false (Nat.not_lt.2 edges)]
  rfl

/-- The result of a capture read: how many records, the lost ones, and the records. -/
def Capture.report (c : Capture) : List Byte :=
  leBytes 1 (c.fifo.take 4).length ++ [0] ++ leBytes 2 c.lost ++ field ((c.fifo.take 4).flatMap Stamp.bytes) 0 48

theorem Capture.report_length (c : Capture) : c.report.length = 52 := by simp [Capture.report]

theorem Capture.report_count (c : Capture) : byteAt c.report 0 = min 4 c.fifo.length := by
  have count : (c.fifo.take 4).length = min 4 c.fifo.length := List.length_take
  rw [Capture.report, count, leBytes_byte]
  show (BitVec.ofNat 8 (min 4 c.fifo.length)).toNat = _
  rw [BitVec.toNat_ofNat]
  omega

theorem Capture.report_lost (c : Capture) : leAt c.report 2 2 = c.lost % 65536 := by
  rw [Capture.report, leBytes_byte]
  show (BitVec.ofNat 8 c.lost).toNat + 256 * ((BitVec.ofNat 8 (c.lost / 256)).toNat + 256 * 0) = _
  rw [BitVec.toNat_ofNat, BitVec.toNat_ofNat]
  omega

theorem exec_timeCaptureRead (h : s.sends t n 0x0510 [(0, 1)]) {i : Fin 4} (input : s.prm1 t n 0 = i.val) :
    exec (.timeCaptureRead t n) s = .next (({ s with
      time.caps := s.time.caps.set i { s.time.caps[i] with fifo := s.time.caps[i].fifo.drop 4 } } : State).answer t n
        s.time.caps[i].report) := by
  obtain rfl : i = Fin.ofNat 4 (s.prm1 t n 0) := by rw [input, Fin.ofNat_val]
  have inRange : ¬3 < s.prm1 t n 0 := by omega
  exact (command_sends h).trans (congrArg Host.Outcome.next ((State.guard_pass (decide_eq_false inRange)).trans
    State.guard_none))

theorem exec_timeConfig (h : s.sends t n 0x0511 [(0, 7)]) (keep : s.prm1 t n 6 = 0) : exec (.timeConfig t n) s =
    .next (({ s with time.cfg := { y0 := s.prm t n 0 2, d := s.prm t n 2 2, yTk := s.prm t n 4 2 } } : State).done t n
      Status.ok) := by
  refine (command_sends h).trans ?_
  dsimp only
  rw [keep]
  rfl

end

/-- Settles O41. -/
theorem timeCommands : Obligations.TimeCommands := by
  refine ⟨fun s t n => ⟨exec_timeStatus_clear, exec_timeRead,
      fun h closed => ⟨exec_timeSessionOpen_head h closed, exec_timeSessionOpen_tenant h closed⟩,
      fun h open_ => ⟨exec_timeSessionClose h open_, State.closeTime_closed open_⟩,
      fun h what st ⟨u, tenant⟩ unspent lo hi => exec_timeStep h what st tenant unspent lo hi,
      fun h plain range st ⟨u, tenant⟩ => exec_timeRate h plain range st tenant,
      fun h i cmp free => ⟨fun f ahead near => ?_, fun f past => ?_⟩,
      fun h i cmp => ⟨exec_timeCmpCancel_free cmp h, fun c => exec_timeCmpCancel cmp h⟩,
      fun h plain d => exec_timeCalRead h plain, fun h => ⟨exec_timeZone h, exec_timeZone_low h⟩,
      fun h i alarm what => ⟨fun ahead => ?_, fun past => ?_⟩⟩,
    fun s t n => ⟨exec_timePps, exec_timeGridRef,
      fun h may what inv i output idle free same order some_ ahead near =>
        exec_timePulse_window output may inv h what idle free same order some_ ahead near,
      fun h may what inv i output a => exec_timePulse_cancel output may inv h what,
      fun h i => exec_timeCaptureCfg h,
      fun h i input => ⟨_, exec_timeCaptureRead h input, Capture.report_length _, Capture.report_count _,
        Capture.report_lost _⟩, exec_timeConfig⟩⟩
  · rw [exec_timeCmpArm cmp h free (by omega), if_neg (Nat.not_le.2 ahead),
      show decide (s.ttNs + cmpReach < s.prm t n 8 8) = false from decide_eq_false (Nat.not_lt.2 near)]
    rfl
  · rw [exec_timeCmpArm cmp h free f, if_pos past]
  · rw [exec_timeAlarm h alarm what, State.setAlarm, if_neg (Nat.not_le.2 ahead)]
  · rw [exec_timeAlarm h alarm what, State.setAlarm, if_pos past]

end Sys2Proof.Machine


/-!
SUPPORT. The accesses to a window (R107 to R119): register writes, reads, SPI transactions, the drain of posted writes,
and the in-band frames.
-/

namespace Sys2Proof.Machine

/-! ### Reads of `MBX_STATUS` and of the result slots -/

theorem State.accessed_ready {s : State} {via : Via} : (s.accessed via).boot = s.boot := by
  cases via <;> rfl

theorem readCounts_status : readCounts 4 4 = [] := by decide

/-- A read of one result slot counts for that slot alone (R123). -/
theorem readCounts_slot : ∀ n : SlotIx, readCounts (0x300 + 64 * n.val) 64 = [n] := by decide

theorem winByte_reg {s : State} {t : Ten} {off : Nat} (reg : off < 0x24) : winByte s t off = (regBytes s t).getD off 0 :=
  if_pos reg

/-- Offsets 4 to 7 of a window read `MBX_STATUS` (Table 5.1). -/
theorem winBytes_status (s : State) (t : Ten) :
    ((List.range 4).map fun i => winByte s t (4 + i)) = leBytes 4 (mbxStatus s.boot.mbxReady (s.ten t)) := by
  simp [List.range_succ, winByte_reg, regBytes, leBytes]

/-- A read of `MBX_STATUS` (R96, R119). -/
theorem readWindow_status {s : State} {via : Via} {t : Ten} (ready : s.boot.mbxReady = true) (ht : s.tenOf via = some t) :
    readWindow s via 4 4 = (leBytes 4 (mbxStatus true (s.ten t)), s.statusSeen via) := by
  unfold readWindow
  rw [ht]
  simp [ready, readCounts_status, winBytes_status]

/-- What the 64 bytes of a result slot read. -/
def resultWindow (s : State) (t : Ten) (n : SlotIx) : List Byte :=
  (List.range 64).map fun i => winByte (s.modSlot t n Slot.counted) t (0x300 + 64 * n.val + i)

theorem resultWindow_length (s : State) (t : Ten) (n : SlotIx) : (resultWindow s t n).length = 64 := by
  simp [resultWindow]

theorem resultWindow_byte (s : State) (t : Ten) (n : SlotIx) (i : Nat) (inside : i < 64) :
    (resultWindow s t n).getD i 0 = winByte (s.modSlot t n Slot.counted) t (0x300 + 64 * n.val + i) := by
  simp [resultWindow, List.getD_eq_getElem?_getD, inside]

/-- A read of a result slot (R123). -/
theorem readWindow_slot {s : State} {via : Via} {t : Ten} (ready : s.boot.mbxReady = true) (ht : s.tenOf via = some t)
    (n : SlotIx) : readWindow s via (0x300 + 64 * n.val) 64 = (resultWindow s t n, s.modSlot t n Slot.counted) := by
  have status : ¬(0x300 + 64 * n.val < 8) := by omega
  have below : min (0x300 + 64 * n.val + 64) 0x1000 ≤ max (0x300 + 64 * n.val) 0x900 := by omega
  unfold readWindow
  rw [ht]
  simp [ready, readCounts_slot, resultWindow, status, Nat.not_lt.2 below]

/-- A read below the aperture, on a port with nothing posted, is served at once after one wait byte (R113, R114). -/
theorem State.spiRead_idle {s : State} {p : Fin 4} {t : Ten} (reach : s.reaches (.spi p) t) {off len : Nat}
    (below : off + len ≤ 0x900) {bs : List Byte} {s1 : State}
    (reads : readWindow (s.newTxn p).freed (.spi p) off len = (bs, s1)) :
    s.viaRead (.spi p) off len = s1.emit (.read (.spi p) (0xFF :: 0x5C :: bs)) := by
  obtain ⟨-, runs, -, idle, -⟩ := reach
  have outside : inAperture off len = false := by simp [inAperture]; omega
  have wait : s.waitBytes off len = 0 := by simp [State.waitBytes, State.waitMax, outside, Nat.mod_one]
  have empty : (s.newTxn p).freed.mbx.ports[p].buf = [] := (s.newTxn_buf p).trans (idle p rfl)
  have phase : (s.newTxn p).boot.phase = .running := runs
  show s.spiRead p off len (s.waitBytes off len) = _
  have follows : s.freed.newTxn p = (s.newTxn p).freed := rfl
  unfold State.spiRead
  simp only [follows, State.drainAll_idle empty, wait, empty, outside]
  simp [phase, State.spiServe, reads, spiAnswer]

theorem State.viaRead_direct {s : State} {via : Via} (direct : ∀ p, via ≠ .spi p) {off len : Nat} {bs : List Byte}
    {s1 : State} (reads : readWindow s via off len = (bs, s1)) : s.viaRead via off len = s1.emit (.read via bs) := by
  cases via with
  | spi p => exact absurd rfl (direct p)
  | lane u => simp only [State.viaRead, reads]
  | owner => simp only [State.viaRead, reads]

theorem exec_mbxStatusRead {s : State} {via : Via} (answers : s.answers via = true) :
    exec (.mbxStatusRead via) s = .next (s.viaRead via 4 4) :=
  congrArg Host.Outcome.next (if_pos answers)

theorem exec_resultSlotRead {s : State} {via : Via} (answers : s.answers via = true) (n : SlotIx) :
    exec (.resultSlotRead via n) s = .next (s.viaRead via (0x300 + 64 * n.val) 64) :=
  congrArg Host.Outcome.next (if_pos answers)

/-! ### Register writes and SPI transactions -/

/-- A word written to a register through an access that reaches its window. -/
theorem exec_wordWrite {s : State} {via : Via} {t : Ten} (reach : s.reaches via t) {r : Nat} (hr : r < 0x24)
    (ha : r % 4 = 0) (v : Word) :
    Host.Outcome.next (if s.answers via then s.viaWrite via r (leBytes 4 v.toNat) else s) =
      (.next ((s.accessed via).writeReg t r v.toNat) : Out) := by
  rw [if_pos reach.1, State.viaWrite_word reach hr ha]

section
variable {s : State} {p : Fin 4} {op : Byte} {sent : List Byte} {clocks : Nat} (alive : s.spiAlive p = true)
include alive

theorem exec_spiStatusRead : exec (.spiStatusRead p sent clocks) s = .next (s.spiTransaction p sent clocks) :=
  congrArg Host.Outcome.next (if_pos alive)

/-- An opcode byte that Table 5.2 does not list has no effect. -/
theorem exec_spiStatusRead_unknown (unknown : op ∉ [0xA1, 0xE1, 0xA2, 0xE2, 0xA5, 0xE5]) :
    exec (.spiStatusRead p (op :: sent) clocks) s = .next s := by
  have none_ : spiOp op = none := by
    simp only [List.mem_cons, List.not_mem_nil, or_false] at unknown
    rw [spiOp, if_neg (by tauto), if_neg (by tauto), if_neg (by tauto)]
  rw [exec_spiStatusRead alive]
  simp only [State.spiTransaction, none_]

theorem exec_spiStatusRead_write (write : op = 0xA2 ∨ op = 0xE2) (hi lo : Byte) (data : List Byte) :
    exec (.spiStatusRead p (op :: hi :: lo :: data) clocks) s =
      .next (s.spiWrite p (256 * hi.toNat + lo.toNat) data) := by
  have listed : spiOp op = some .write := by rcases write with rfl | rfl <;> rfl
  rw [exec_spiStatusRead alive]
  simp only [State.spiTransaction, listed]

theorem exec_spiStatusRead_status (status : op = 0xA5 ∨ op = 0xE5) :
    exec (.spiStatusRead p (op :: sent) clocks) s = .next (s.spiStatus p) := by
  have listed : spiOp op = some .status := by rcases status with rfl | rfl <;> rfl
  rw [exec_spiStatusRead alive]
  simp only [State.spiTransaction, listed]

end

theorem b2n_le_one (b : Bool) : b2n b ≤ 1 := by cases b <;> decide

/-- The port status byte is one byte (Table 5.3). -/
theorem statusByte_lt (s : State) (irq busy : Bool) (p : Fin 4) : statusByte s irq busy p.val < 256 := by
  have ready := b2n_le_one s.boot.mbxReady
  have awake := b2n_le_one s.awake
  have low := b2n_le_one irq
  have full := b2n_le_one busy
  have port := p.isLt
  unfold statusByte
  omega

/-- The status read of a port whose tenant is served (R116). -/
theorem State.spiStatus_bound {s : State} {p : Fin 4} {t : Ten} (served : s.boot.phase ≠ .recovery)
    (ht : s.tenOfPort p = some t) :
    s.spiStatus p = (({ s with
      out := s.out ++ [.read (.spi p) (BitVec.ofNat 8 (statusByte s (s.mbx.ports[p].notice || (s.ten t).irq)
        (s.mbx.ports[p].buf != []) p.val) :: leBytes 4 (mbxStatus s.boot.mbxReady (s.ten t)))]
      mbx.ports := s.mbx.ports.set p { s.mbx.ports[p] with notice := false, waiting := none } } : State)).modTen t
        fun x => { x with notice := false } := by
  have low : s.tirqLow p = (s.mbx.ports[p].notice || (s.ten t).irq) := by
    rw [State.tirqLow, if_neg served, ht]
  unfold State.spiStatus
  rw [if_neg served, low]
  simp only [ht]
  rfl

/-- Settles O11. -/
theorem windowAccess : Obligations.WindowAccess := by
  refine ⟨fun s via t v reach => ?_, fun s via t reach direct => ?_, fun s p t reach => ?_,
    fun s p t op sent clocks alive served ht => ⟨fun status => ?_, fun unknown => ?_, fun write hi lo data h => ?_⟩⟩
  · have word (r : Nat) (hr : r < 0x24) (ha : r % 4 = 0) := exec_wordWrite reach hr ha v
    exact ⟨word 0x004 (by decide) (by decide), word 0x008 (by decide) (by decide), word 0x00C (by decide) (by decide),
      word 0x018 (by decide) (by decide), word 0x01C (by decide) (by decide), word 0x020 (by decide) (by decide)⟩
  · obtain ⟨answers, -, ready, -, ht⟩ := reach
    refine ⟨?_, fun n => ⟨resultWindow s t n, ?_, resultWindow_length s t n, resultWindow_byte s t n⟩⟩
    · rw [exec_mbxStatusRead answers, State.viaRead_direct direct (readWindow_status ready ht)]
    · rw [exec_resultSlotRead answers, State.viaRead_direct direct (readWindow_slot ready ht n)]
  · obtain ⟨answers, -, ready, -, ht⟩ := id reach
    intro s1
    have bound : s1.tenOf (.spi p) = some t := ht
    refine ⟨?_, fun n => ⟨resultWindow s1 t n, ?_, resultWindow_length s1 t n, resultWindow_byte s1 t n⟩⟩
    · rw [exec_mbxStatusRead answers, State.spiRead_idle reach (by decide) (readWindow_status (s := s1) ready bound)]
      rfl
    · have below : 0x300 + 64 * n.val + 64 ≤ 0x900 := by omega
      rw [exec_resultSlotRead answers, State.spiRead_idle reach below (readWindow_slot (s := s1) ready bound n)]
  · refine ⟨BitVec.ofNat 8 _, Nat.mod_eq_of_lt (statusByte_lt s _ _ p), ?_⟩
    rw [exec_spiStatusRead_status alive status, State.spiStatus_bound served ht]
  · exact exec_spiStatusRead_unknown alive unknown
  · subst h
    exact exec_spiStatusRead_write alive write hi lo data

/-! ### Posted writes, the aperture and in-band frames (R109, R113 to R118) -/

/-- With the tenant area served, the oldest posted run takes effect and the drain goes on with the rest (R114). -/
theorem exec_writeBufferDrain {s : State} {p : Fin 4} {t : Ten} {e : Posted} {rest : List Posted}
    (posted : s.mbx.ports[p].buf = e :: rest) (runs : s.boot.phase = .running) (ht : s.tenOfPort p = some t)
    (served : s.domOn dMEM = true) :
    exec (.writeBufferDrain p) s = .next (State.drainRuns false p rest.length
      ((s.setBuf p rest).writeWindow t e.off e.data)) := by
  have free : s.holdsRun e false = false := by simp [State.holdsRun, State.memServed, served]
  have oldest : s.drainOne p = (s.setBuf p rest).writeWindow t e.off e.data := by
    unfold State.drainOne
    simp only [posted, runs]
    simp [ht, State.setBuf]
  refine congrArg Host.Outcome.next ?_
  unfold State.drainAll
  rw [posted, List.length_cons, State.drainRuns, ← oldest]
  simp only [posted, free, Bool.false_eq_true, if_false]

theorem exec_bulkApertureAccess_served {s : State} {via : Via} (answers : s.answers via = true) (access : Aperture) :
    exec (.bulkApertureAccess via access) s = .next (match access with
      | .read off len => if 0x900 ≤ off then s.viaRead via off len else s
      | .write off data => if 0x900 ≤ off then s.viaWrite via off data else s) := by
  refine congrArg Host.Outcome.next ?_
  rw [answers]
  rfl

theorem State.viaWrite_lane {s : State} {u t : Ten} (ht : s.tenOf (.lane u) = some t) (off : Nat) (data : List Byte) :
    s.viaWrite (.lane u) off data = s.writeWindow t off (data.take (0x1000 - off)) := by
  simp only [State.viaWrite, ht]

section
variable {s : State} {l : Fin 2} {src payload : List Byte} (ready : s.boot.mbxReady = true) (link : s.laneLink l = true)
include ready link

/-- An in-band frame that does not stand is dropped and counted (R117). -/
theorem exec_inbandMbxFrame_bad {t : Ten} (named : Fin.ofNat 8 (byteAt payload 2) = t)
    (bad : s.ibOk l src payload t = false) :
    exec (.inbandMbxFrame l src payload) s = .next (s.ibDrop l) := by
  show execInbandMbxFrame l src payload s = _
  simp only [execInbandMbxFrame, named, link, ready, bad]
  rfl

/-- The last request repeated is answered again (R118). -/
theorem exec_inbandMbxFrame_again {t : Ten} (named : Fin.ofNat 8 (byteAt payload 2) = t)
    (ok : s.ibOk l src payload t = true)
    (same : (BitVec.ofNat 16 (beAt payload 4 2) - (s.ten t).ibSeq).toNat = 0) (kept : (s.ten t).ibResp ≠ []) :
    exec (.inbandMbxFrame l src payload) s =
      .next ((s.firmUse (ibEntry t)).macSend l ⟨(s.ten t).ibMac, 0x88B6, (s.ten t).ibResp⟩) := by
  have stands : (s.firmUse (ibEntry t)).ten t = s.ten t := State.ten_of_tenants (s.firmUse_tenants _) t
  show execInbandMbxFrame l src payload s = _
  simp only [execInbandMbxFrame, named, link, ready, ok, stands, same]
  simp [kept]

/-- A request ahead of the last one is executed and answered (R117, R118). -/
theorem exec_inbandMbxFrame_next {t : Ten} (named : Fin.ofNat 8 (byteAt payload 2) = t)
    (ok : s.ibOk l src payload t = true)
    (low : 1 ≤ (BitVec.ofNat 16 (beAt payload 4 2) - (s.ten t).ibSeq).toNat)
    (high : (BitVec.ofNat 16 (beAt payload 4 2) - (s.ten t).ibSeq).toNat ≤ 32767) {resp : List Byte} {s1 : State}
    (serves : (s.firmUse (ibEntry t)).ibServe t payload = some (resp, s1)) :
    exec (.inbandMbxFrame l src payload) s = .next ((s1.modTen t fun y =>
      { y with ibSeq := BitVec.ofNat 16 (beAt payload 4 2), ibResp := resp }).macSend l
        ⟨(s.ten t).ibMac, 0x88B6, resp⟩) := by
  have stands : (s.firmUse (ibEntry t)).ten t = s.ten t := State.ten_of_tenants (s.firmUse_tenants _) t
  have later : ¬(BitVec.ofNat 16 (beAt payload 4 2) - (s.ten t).ibSeq).toNat = 0 := by
    omega
  show execInbandMbxFrame l src payload s = _
  simp only [execInbandMbxFrame, named, link, ready, ok, stands, later, low, high, serves]
  simp

end

/-- Settles O13. -/
theorem windowTraffic : Obligations.WindowTraffic := by
  refine ⟨fun s => ⟨fun p off data alive => ?_, fun u off data ready ht => ?_, fun p t e rest posted runs ht served => ?_,
    fun p off data alive inside => ?_, fun p off len alive inside => ?_, fun u off data ready ht inside => ?_,
    fun u off len ready ht inside => ?_⟩, fun s l src payload => ?_⟩
  · exact congrArg Host.Outcome.next (if_pos alive)
  · exact congrArg Host.Outcome.next ((if_pos ready).trans (State.viaWrite_lane ht off data))
  · exact exec_writeBufferDrain posted runs ht served
  · exact (exec_bulkApertureAccess_served (via := .spi p) alive _).trans (congrArg Host.Outcome.next (if_pos inside))
  · exact (exec_bulkApertureAccess_served (via := .spi p) alive _).trans (congrArg Host.Outcome.next (if_pos inside))
  · exact (exec_bulkApertureAccess_served (via := .lane u) ready _).trans
      (congrArg Host.Outcome.next ((if_pos inside).trans (State.viaWrite_lane ht off data)))
  · exact (exec_bulkApertureAccess_served (via := .lane u) ready _).trans (congrArg Host.Outcome.next (if_pos inside))
  · intro t seq ahead s0 ready link
    exact ⟨fun ok low high resp s1 serves => exec_inbandMbxFrame_next ready link rfl ok low high serves,
      fun ok same kept => exec_inbandMbxFrame_again ready link rfl ok same kept,
      fun bad => exec_inbandMbxFrame_bad ready link rfl bad⟩

end Sys2Proof.Machine


/-!
SUPPORT. The `TENANT` commands (R137 to R163).
-/

namespace Sys2Proof.Machine

theorem targetOf_range {t u : Ten} {b : Nat} (target : targetOf t b = some u) : b = 0xFF ∨ b = u.val := by
  unfold targetOf at target
  split at target
  · next self => exact .inl self
  · split at target
    · next low =>
      cases target
      exact .inr (Nat.mod_eq_of_lt low).symm
    · cases target

/-- The parameter byte names the tenant. -/
theorem Ten.named {u : Ten} {b : Nat} (name : b = u.val) : (Fin.ofNat 8 b : Ten) = u := by
  rw [name, Fin.ofNat_val]

/-- A named tenant is no T0 and no number beyond 7. -/
theorem Ten.named_range {u : Ten} {b : Nat} (name : b = u.val) (other : u ≠ 0) : (b == 0 || decide (7 < b)) = false := by
  have range := u.isLt
  have above : u.val ≠ 0 := fun zero => other (Fin.ext zero)
  simp
  omega

section
variable {s : State} {t : Ten} {n : SlotIx}

/-! ### Status, attach, detach, reset (R140, R141, R158, R162, R163) -/

theorem exec_tenantStatus {u : Ten} (h : s.sends t n 0x0201 [(0, 1)]) (target : targetOf t (s.prm1 t n 0) = some u)
    (may : u = t ∨ s.ownerAt t n = true ∧ (u = 0 ∨ s.unreachable u = false)) :
    exec (.tenantStatus t n) s = .next (s.answer t n (tenantStatus s u)) := by
  have allowed : ¬(u ≠ t ∧ (!s.ownerAt t n) = true) := by
    rintro ⟨other, bad⟩
    rcases may with self | ⟨owner, -⟩
    · exact other self
    · simp [owner] at bad
  have reachable : ¬(u ≠ t ∧ u ≠ 0 ∧ s.unreachable u = true) := by
    rintro ⟨other, notOwner, bad⟩
    rcases may with self | ⟨-, zero | reach⟩
    · exact other self
    · exact notOwner zero
    · simp [reach] at bad
  have clean : ¬s.stray t n [(0, 1)] = true := by simp [h.2]
  refine (commandBy_runs h.1).trans (congrArg Host.Outcome.next ?_)
  simp only [target]
  rw [if_neg allowed, if_neg clean, if_neg reachable]

theorem exec_tenantAttach (h : s.sends t n 0x0202 [(0, 3)]) (other : t ≠ 0) (flags : s.prm1 t n 2 ≤ 1)
    (lease : s.prm t n 0 2 = 0 ∨ 100 ≤ s.prm t n 0 2 ∧ s.prm t n 0 2 ≤ 10000) (detached : (s.ten t).st = .detached)
    (spi : (spiOf (s.ten t).cfg.transport).isSome = true) {s1 : State}
    (opened : s1 = (s.openSession t (s.prm t n 0 2) (bit (s.prm1 t n 2) 0)).setSlot t n
      { s.slot t n with cmd := Vector.replicate 64 0 }) :
    exec (.tenantAttach t n) s = .next (s1.answer t n (leBytes 4 (s1.ten t).session.toNat
      ++ leBytes 2 (s1.authOf t).toNat ++ leBytes 1 (s1.ten t).cfg.part ++ [0])) := by
  subst opened
  have range : (decide (1 < s.prm1 t n 2) || (s.prm t n 0 2 != 0 &&
      (decide (s.prm t n 0 2 < 100) || decide (10000 < s.prm t n 0 2)))) = false := by
    simp
    omega
  have may : (t == 0 || (s.ten t).st != .detached || (spiOf (s.ten t).cfg.transport).isNone) = false := by
    obtain ⟨p, port⟩ := Option.isSome_iff_exists.1 spi
    simp [other, detached, port]
  exact (command_sends h).trans (congrArg Host.Outcome.next
    ((State.guard_pass range).trans ((State.guard_pass may).trans State.guard_none)))

theorem exec_tenantDetach (h : s.sends t n 0x0203 []) (other : t ≠ 0) (attached : (s.ten t).st = .attached)
    {s1 s2 : State} (asked : s1 = s.askStopAll t (ownSlot t n t) .detach)
    (ended : s2 = (s1.endSession t).modTen t fun y => { y with st := (s1.ten t).st }) :
    exec (.tenantDetach t n) s = .next (s2.drainOrPost
      { ten := t, slot := n, data := [], after := s2.runningOf t (t, n), res := s1.leasesOf t, fin := .detach }) := by
  subst ended asked
  exact (command_sends h).trans (congrArg Host.Outcome.next (if_neg (by simp [other, attached])))

theorem exec_tenantReset {u : Ten} (h : s.runs t n 0x0204 = true) (target : targetOf t (s.prm1 t n 0) = some u)
    (other : u ≠ 0) (may : u = t ∨ s.ownerAt t n = true ∧ s.unreachable u = false) (flags : s.prm1 t n 1 ≤ 1)
    (clean : s.stray t n [(0, 2)] = false) :
    exec (.tenantReset t n) s = .next
      (if (s.ten u).st = .detached then s.answer t n [0, 0, 0, 0]
       else if n = 7 then s.resetByCc1 t n u (bit (s.prm1 t n 1) 0)
       else s.resetByCc0 t n u (bit (s.prm1 t n 1) 0)) := by
  have allowed : (u != t && !s.ownerAt t n) = false := by
    rcases may with self | ⟨owner, -⟩
    · simp [self]
    · simp [owner]
  have reachable : (u != t && s.unreachable u) = false := by
    rcases may with self | ⟨-, reach⟩
    · simp [self]
    · simp [reach]
  refine (commandBy_runs h).trans (congrArg Host.Outcome.next ?_)
  simp only [target]
  rw [State.guard_pass allowed, State.guard_pass (by simp [other, clean, flags]), State.guard_pass reachable,
    State.guard_none]

/-! ### Leases (R153, R154) -/

section
variable {id : Nat} (h : s.sends t n 0x0205 [(0, 2)]) (name : s.prm1 t n 1 = id) (known : (leaseNeed id == .bad) = false)
  (may : maskAllows t (s.slot t n).rights.auth (s.ownerAt t n) id = true)
include h name known may

/-- A request of a resource (R154). -/
theorem exec_tenantLease_request (asks : s.prm1 t n 0 = 0) : exec (.tenantLease t n) s = .next
    (if s.holder id = some t then s.answer t n (holderByte (s.holder id))
     else if (s.holder id).isSome then s.done t n Status.lease
     else if s.changing id then s.done t n Status.busy
     else (s.grantLease t id).answer t n (holderByte none)) := by
  refine (commandBy_runs h.1).trans (congrArg Host.Outcome.next ?_)
  dsimp only
  rw [name, asks, State.guard_pass known, State.guard_pass, State.guard_pass, State.guard_none]
  · rfl
  · simp [h.2]
  · simp [may]

/-- A release of a resource (R153). -/
theorem exec_tenantLease_release (asks : s.prm1 t n 0 = 1) : exec (.tenantLease t n) s = .next
    (if s.holder id ≠ some t then s.done t n Status.lease else
      (s.revoke id).drainOrPost
        { ten := t, slot := n, data := holderByte (s.holder id), after := [], res := [id], fin := .plain }) := by
  refine (commandBy_runs h.1).trans (congrArg Host.Outcome.next ?_)
  dsimp only
  rw [name, asks, State.guard_pass known, State.guard_pass, State.guard_pass, State.guard_none]
  · rfl
  · simp [h.2]
  · simp [may]

end

/-! ### Binding and shares (R138, R150 to R152, R160, R161) -/

/-- The event at the end of a config write leaves the tenants and the mailbox, so the commands that run. -/
theorem State.persisted_runningOf (s : State) (u : Ten) (but : Ten × SlotIx) :
    s.persisted.runningOf u but = s.runningOf u but := by
  have mailbox : s.persisted.mbx = s.mbx := by simp [State.persisted, State.updateEnded]
  have windows (m : SlotIx) : s.persisted.slot u m = s.slot u m := by
    simp [State.persisted, State.updateEnded, State.slot, State.ten]
  simp only [State.runningOf, mailbox, windows]

section
variable {u : Ten} (open_ : s.fuses.life ≠ .retired) (free : s.configBusy = false)
include open_ free

theorem exec_tenantBind (h : s.sends t n 0x0206 [(0, 6)]) (other : u ≠ 0) (name : s.prm1 t n 0 = u.val)
    (reserved : s.prm1 t n 3 = 0) (mask : s.prm t n 4 2 ≤ 0x1FF) (ok : s.bindOk u (s.prm1 t n 1) (s.prm1 t n 2) = true)
    (reach : s.unreachable u = false) {s1 s2 s3 s4 : State}
    (h1 : s1 = s.modTen u fun x => { x with
      cfg.transport := BitVec.ofNat 8 (s.prm1 t n 1), cfg.cred := s.prm1 t n 2, cfg.auth := BitVec.ofNat 16 (s.prm t n 4 2) })
    (h2 : s2 = ((s1.leasesOf u).filter fun id => !maskAllows u (s1.authOf u) (s1.isOwner u) id).foldl
      (fun s id => (s.revoke id).tellRevoked u id 4) s1)
    (h3 : s3 = if (s.ten u).cfg.transport.toNat ≠ s.prm1 t n 1 ∧ (s2.ten u).st ≠ .detached then
      s2.resetNow u false (ownSlot t n u) (u != t) else s2)
    (h4 : s4 = if (s.ten u).cfg.transport.toNat ≠ s.prm1 t n 1 ∨ (s.ten u).cfg.cred ≠ s.prm1 t n 2 then
      { s3 with sram := s3.sram.clear (s3.partAddr u 0) (s3.partBytes u) } else s3) :
    exec (.tenantBind t n) s = .next (s4.persisted.drainOrPost
      { ten := t, slot := n, data := []
        after := if (s.ten u).cfg.auth &&& ~~~(BitVec.ofNat 16 (s.prm t n 4 2)) ≠ 0 then s4.persisted.runningOf u (t, n) else []
        res := (s1.leasesOf u).filter fun id => !maskAllows u (s1.authOf u) (s1.isOwner u) id, fin := .plain }) := by
  have named : (Fin.ofNat 8 (s.prm1 t n 0) : Ten) = u := Ten.named name
  have range : (s.prm1 t n 0 == 0 || decide (7 < s.prm1 t n 0)) = false := Ten.named_range name other
  refine (command_sends h).trans (congrArg Host.Outcome.next ?_)
  dsimp only
  rw [named, State.guard_pass, State.guard_pass reach, State.guard_pass, State.guard_pass free, State.guard_none]
  · rw [State.persisted_runningOf, h4, h3, h2, h1]
  · simp [open_]
  · rw [range]
    simp [reserved, mask, ok]

theorem exec_tenantSetQos (h : s.sends t n 0x0207 [(0, 24)]) (name : s.prm1 t n 0 = u.val)
    (reach : u = t ∨ s.unreachable u = false) (weight : 1 ≤ s.prm1 t n 1) (slow : 10 ≤ s.prm t n 2 2)
    (fast : s.prm t n 2 2 ≤ 10000) (firn : 1 ≤ s.prm1 t n 4) (reserved : s.prm1 t n 5 = 0)
    (some_ : 1 ≤ s.prm t n 6 2) (few : s.prm t n 6 2 ≤ 10000) {s1 : State}
    (h1 : s1 = s.modTen u fun x => { x with cfg := { x.cfg with
      weight := s.prm1 t n 1, rate := s.prm t n 2 2, firnWeight := s.prm1 t n 4, evtBudget := s.prm t n 6 2,
      uqMask := BitVec.ofNat 64 (s.prm t n 8 8), gsCap := Vector.ofFn fun g => s.prm1 t n (16 + g.val) } }) :
    exec (.tenantSetQos t n) s = .next (s1.persisted.drainOrPost
      { ten := t, slot := n, data := []
        after := if (s.ten u).cfg.uqMask &&& ~~~(BitVec.ofNat 64 (s.prm t n 8 8)) ≠ 0 then s1.runningOf u (t, n) else []
        res := []
        held := if (s.ten u).cfg.uqMask &&& ~~~(BitVec.ofNat 64 (s.prm t n 8 8)) ≠ 0 then s1.classified u else []
        fin := .plain }) := by
  have named : (Fin.ofNat 8 (s.prm1 t n 0) : Ten) = u := Ten.named name
  have low : ¬7 < s.prm1 t n 0 := by omega
  have reachable : (u != t && s.unreachable u) = false := by
    rcases reach with self | far
    · simp [self]
    · simp [far]
  subst h1
  refine (command_sends h).trans (congrArg Host.Outcome.next ?_)
  dsimp only
  rw [named, State.guard_pass, State.guard_pass reachable, State.guard_pass, State.guard_pass free, State.guard_none]
  · simp [open_]
  · simp [low, reserved, fast, few]
    omega

end

/-! ### Delegation (R147, R148) -/

theorem exec_tenantDelegate {u : Ten} (h : s.sends t n 0x0209 [(0, 4)]) (reserved : s.prm1 t n 1 = 0) (other : u ≠ 0)
    (name : s.prm1 t n 0 = u.val) (long : 1 ≤ s.prm t n 2 2) (short : s.prm t n 2 2 ≤ 1440)
    (reach : s.unreachable u = false) (attached : (s.ten u).st = .attached) (new : s.delegate ≠ some u) :
    exec (.tenantDelegate t n) s = .next (({ s.endDelegation 2 with
      mbx.delegate := some (u, (s.endDelegation 2).now + s.prm t n 2 2 * 60000000000) } : State).answer t n
        (holderByte s.delegate)) := by
  have named : (Fin.ofNat 8 (s.prm1 t n 0) : Ten) = u := Ten.named name
  have range : (s.prm1 t n 0 == 0 || decide (7 < s.prm1 t n 0)) = false := Ten.named_range name other
  have names : ¬s.prm1 t n 0 = 0xFF := by omega
  refine (command_sends h).trans (congrArg Host.Outcome.next ?_)
  dsimp only
  rw [if_neg (not_not.2 reserved), if_neg names, named, State.guard_pass, State.guard_pass reach, State.guard_pass,
    State.guard_none, if_neg new]
  · simp [attached]
  · rw [range]
    simp [short]
    omega

theorem exec_tenantDelegate_end (h : s.sends t n 0x0209 [(0, 4)]) (reserved : s.prm1 t n 1 = 0)
    (ends : s.prm1 t n 0 = 0xFF) :
    exec (.tenantDelegate t n) s = .next ((s.endDelegation 1).answer t n (holderByte s.delegate)) :=
  (command_sends h).trans (congrArg Host.Outcome.next ((if_neg (not_not.2 reserved)).trans (if_pos ends)))

/-! ### Partitions (R151, R152) -/

theorem exec_tenantPartition {new old : Vector Nat 8} (hnew : new = Vector.ofFn fun u => s.prm1 t n u.val)
    (hold : old = Vector.ofFn fun u => (s.ten u).cfg.part) (h : s.sends t n 0x0208 [(0, 9)]) (flags : s.prm1 t n 8 ≤ 1)
    (each : ∀ u : Ten, new[u] ≤ 24) (total : allTen.foldl (fun a u => a + new[u]) 0 ≤ 32)
    (bound : ∀ u : Ten, s.bound u = true → new[u] ≠ 0)
    (session : ∀ u : Ten, (s.ten u).st ≠ .detached → baseIn old u = baseIn new u ∧ new[u] ≤ old[u])
    (open_ : s.fuses.life ≠ .retired) (free : s.configBusy = false) {s1 s2 s3 : State}
    (h1 : s1 = (allTen.filter fun u => new[u] < old[u]).foldl (fun s u => s.stopBeyond u (new[u] * 65536)) s)
    (h2 : s2 = allTen.foldl (fun s u => s.modTen u fun x => { x with cfg.part := new[u] })
      { s1 with sram := movedSram s1.sram old new })
    (h3 : s3 = if s.prm1 t n 8 = 1 then ({ s2 with store.parts := new } : State).persisted else s2) :
    exec (.tenantPartition t n) s = .next (s3.drainOrPost
      { ten := t, slot := n, data := allTen.map fun u => BitVec.ofNat 8 (baseIn new u)
        after := (allTen.filter fun u => new[u] < old[u]).flatMap fun u => s3.runningOf u (t, n), res := [], fin := .plain }) := by
  have persists : bit (s.prm1 t n 8) 0 = decide (s.prm1 t n 8 = 1) := by
    rcases Nat.le_one_iff_eq_zero_or_eq_one.1 flags with zero | one
    · rw [zero]; rfl
    · rw [one]; rfl
  have sizes : (decide (1 < s.prm1 t n 8) || allTen.any (fun u => decide (24 < new[u]))
      || decide (32 < allTen.foldl (fun a u => a + new[u]) 0) || allTen.any fun u => s.bound u && new[u] == 0) = false := by
    simp only [Bool.or_eq_false_iff, decide_eq_false_iff_not, List.any_eq_false, Bool.and_eq_true, beq_iff_eq,
      decide_eq_true_eq, not_and]
    exact ⟨⟨⟨Nat.not_lt.2 flags, fun u _ => Nat.not_lt.2 (each u)⟩, Nat.not_lt.2 total⟩, fun u _ => bound u⟩
  have moves : (s.fuses.life == .retired || allTen.any fun u => (s.ten u).st != .detached &&
      (baseIn old u != baseIn new u || decide (old[u] < new[u]))) = false := by
    simp only [Bool.or_eq_false_iff, List.any_eq_false, Bool.and_eq_true, bne_iff_ne, Bool.or_eq_true,
      decide_eq_true_eq, not_and, not_or, Nat.not_lt, not_not, beq_eq_false_iff_ne]
    exact ⟨open_, fun u _ => session u⟩
  refine (command_sends h).trans (congrArg Host.Outcome.next ?_)
  dsimp only
  rw [← hnew, ← hold, State.guard_pass sizes, State.guard_pass moves, State.guard_pass free, State.guard_none, persists,
    h3, h2, h1]
  simp only [decide_eq_true_eq]

end

/-- Settles O17. -/
theorem tenantCommands : Obligations.TenantCommands := by
  refine ⟨fun s t n => ⟨fun u h target may => exec_tenantStatus h target may,
      fun h other flags lease detached spi => ⟨_, exec_tenantAttach h other flags lease detached spi rfl, rfl⟩,
      fun h other attached => ⟨_, _, rfl, rfl, exec_tenantDetach h other attached rfl rfl⟩,
      fun u h target other may flags clean => exec_tenantReset h target other may flags clean,
      fun id h name known may => ⟨fun asks none_ idle => ?_, fun asks own => ?_, fun u asks other held => ?_,
        fun asks none_ => ?_, fun asks own => ?_⟩⟩,
    fun s t n u => ⟨fun h other name reserved mask ok reach open_ free => ?_,
      fun h name reach weight slow fast firn reserved some_ few open_ free => ?_,
      fun h reserved => ⟨fun other name long short reach attached new => ⟨_, rfl, ?_⟩, fun ends => ?_⟩⟩,
    fun s t n new old hnew hold h flags each total bound session open_ free => ?_⟩
  · rw [exec_tenantLease_request h name known may asks, none_, idle]
    rfl
  · rw [exec_tenantLease_request h name known may asks, if_pos own, own]
    rfl
  · have taken : s.holder id ≠ some t := by simp [held, other]
    rw [exec_tenantLease_request h name known may asks, if_neg taken, held]
    rfl
  · rw [exec_tenantLease_release h name known may asks, if_pos none_]
  · rw [exec_tenantLease_release h name known may asks, if_neg (not_not.2 own), own]
    rfl
  · exact ⟨_, _, _, _, rfl, rfl, rfl, rfl,
      exec_tenantBind open_ free h other name reserved mask ok reach rfl rfl rfl rfl⟩
  · exact ⟨_, _, rfl, exec_tenantSetQos open_ free h name reach weight slow fast firn reserved some_ few rfl, rfl, rfl, rfl,
      rfl, fun same => ⟨if_neg (not_not.2 same), if_neg (not_not.2 same)⟩, fun less => ⟨if_pos less, if_pos less⟩⟩
  · exact exec_tenantDelegate h reserved other name long short reach attached new
  · exact exec_tenantDelegate_end h reserved ends
  · exact ⟨_, _, _, _, rfl, rfl, rfl,
      exec_tenantPartition hnew hold h flags each total bound session open_ free rfl rfl rfl, rfl, rfl, rfl, rfl⟩

end Sys2Proof.Machine


/-!
SUPPORT. The `POWER` commands (R57 to R86) and the idle timers (R55 to R61, Table 3.2).
-/

namespace Sys2Proof.Machine

section
variable {s : State} {t : Ten} {n : SlotIx}

/-! ### Floors, timers, wake configuration, boost -/

/-- The states a floor can be have the codes 0, 2, 3 and 4. -/
theorem floor_code {f : PState} (boost : f ≠ .boost) (frost : f ≠ .permafrost) :
    (f.code = 0 ∧ f = .noon) ∨ (f.code = 2 ∧ f = .dusk) ∨ (f.code = 3 ∧ f = .night) ∨ (f.code = 4 ∧ f = .glacier) := by
  cases f with
  | noon => exact .inl ⟨rfl, rfl⟩
  | boost => exact absurd rfl boost
  | dusk => exact .inr (.inl ⟨rfl, rfl⟩)
  | night => exact .inr (.inr (.inl ⟨rfl, rfl⟩))
  | glacier => exact .inr (.inr (.inr ⟨rfl, rfl⟩))
  | permafrost => exact absurd rfl frost

theorem exec_powerFloor {f : PState} (boost : f ≠ .boost) (frost : f ≠ .permafrost) (h : s.sends t n 0x0403 [(0, 1)])
    (code : s.prm1 t n 0 = f.code) {s1 : State} (h1 : s1 = s.modTen t fun x => { x with floor := some f }) :
    exec (.powerFloor t n) s =
      .next (s1.answer t n (leBytes 1 (match s1.floor with | some g => g.code | none => 0xFF))).retryAuto := by
  subst h1
  refine (command_sends h).trans (congrArg Host.Outcome.next ?_)
  dsimp only
  rcases floor_code boost frost with ⟨c, rfl⟩ | ⟨c, rfl⟩ | ⟨c, rfl⟩ | ⟨c, rfl⟩ <;> rw [code, c] <;> rfl

theorem exec_powerTimers (h : s.sends t n 0x0404 [(0, 48)]) (flags : s.prm t n 44 4 ≤ 3)
    (ok : (timerParams (s.params t n)).ok = true) : exec (.powerTimers t n) s =
      .next (({ s with power.cfg := timerParams (s.params t n) } : State).done t n Status.ok).retryAuto := by
  have transient : bit (s.prm t n 44 4) 2 = false := by
    simp [bit, Nat.testBit_eq_decide_div_mod_eq]
    omega
  refine (command_sends h).trans (congrArg Host.Outcome.next ?_)
  dsimp only
  rw [transient, State.guard_pass, State.guard_pass, State.guard_none]
  · rfl
  · rfl
  · rw [ok]
    simp
    omega

/-! The wake configuration: the pins give bits 0 to 3 of the AO-watch set, light-wake gives bit 8. -/

theorem bitsOf_four : ∀ f : Fin 4 → Bool, (∀ i : Fin 4, (bitsOf 4 f).testBit i.val = f i) ∧ bitsOf 4 f < 16 := by
  decide

theorem watchMask : ∀ i : Fin 32, 4 ≤ i.val → i.val ≠ 8 → (0xFFFFFEF0#32).getLsbD i.val = true := by
  decide

/-- The set that pins and light-wake give (R86). -/
def watchSet (old : BitVec 32) (pins : Fin 4 → Bool) (light : Bool) : BitVec 32 :=
  (old &&& 0xFFFFFEF0#32) ||| BitVec.ofNat 32 (bitsOf 4 pins) ||| BitVec.ofNat 32 (256 * b2n light)

theorem lightBit_testBit (light : Bool) (i : Nat) : (256 * b2n light).testBit i = (decide (i = 8) && light) := by
  cases light with
  | false => simp [b2n]
  | true =>
    have power : 256 * b2n true = 2 ^ 8 := rfl
    rw [power, Nat.testBit_two_pow, Bool.and_true]
    exact decide_eq_decide.2 eq_comm

theorem watchSet_pin (old : BitVec 32) (pins : Fin 4 → Bool) (light : Bool) (i : Fin 4) :
    (watchSet old pins light).getLsbD i.val = pins i := by
  have mask : ∀ j : Fin 4, (0xFFFFFEF0#32).getLsbD j.val = false := by decide
  have range : i.val < 32 := by omega
  have other : i.val ≠ 8 := by omega
  simp only [watchSet, BitVec.getLsbD_or, BitVec.getLsbD_and, BitVec.getLsbD_ofNat, mask i, (bitsOf_four pins).1 i,
    lightBit_testBit, range, other]
  simp

theorem watchSet_light (old : BitVec 32) (pins : Fin 4 → Bool) (light : Bool) :
    (watchSet old pins light).getLsbD 8 = light := by
  have high : (bitsOf 4 pins).testBit 8 = false :=
    Nat.testBit_lt_two_pow (Nat.lt_trans (bitsOf_four pins).2 (by decide))
  have mask : (0xFFFFFEF0#32).getLsbD 8 = false := by decide
  simp only [watchSet, BitVec.getLsbD_or, BitVec.getLsbD_and, BitVec.getLsbD_ofNat, high, lightBit_testBit, mask]
  simp

theorem watchSet_other (old : BitVec 32) (pins : Fin 4 → Bool) (light : Bool) {i : Nat} (above : 4 ≤ i) (other : i ≠ 8) :
    (watchSet old pins light).getLsbD i = old.getLsbD i := by
  by_cases inside : i < 32
  · have power : 2 ^ 4 ≤ 2 ^ i := Nat.pow_le_pow_right (by decide) above
    have high : (bitsOf 4 pins).testBit i = false :=
      Nat.testBit_lt_two_pow (Nat.lt_of_lt_of_le (bitsOf_four pins).2 power)
    simp only [watchSet, BitVec.getLsbD_or, BitVec.getLsbD_and, BitVec.getLsbD_ofNat, high, lightBit_testBit,
      watchMask ⟨i, inside⟩ above other, other]
    simp
  · rw [BitVec.getLsbD_of_ge _ _ (Nat.not_lt.1 inside), BitVec.getLsbD_of_ge _ _ (Nat.not_lt.1 inside)]

theorem exec_powerWakeCfg (h : s.sends t n 0x0405 [(0, 6)]) (pins : ∀ i : Fin 4, s.prm1 t n i.val ≤ 7)
    (flags : s.prm1 t n 5 ≤ 3) {set : BitVec 32}
    (hset : set = watchSet s.power.wcfg.set (fun i => bit (s.prm1 t n i.val) 0) (bit (s.prm1 t n 5) 0))
    (size : setSizeOf set ≤ 16) :
    exec (.powerWakeCfg t n) s = .next (({ s with
      power.wcfg := { set := set, pinHigh := BitVec.ofNat 4 (bitsOf 4 fun i => bit (s.prm1 t n i.val) 1)
                      pinEdge := BitVec.ofNat 4 (bitsOf 4 fun i => bit (s.prm1 t n i.val) 2)
                      debounce := s.prm1 t n 4, bcast := bit (s.prm1 t n 5) 1 } } : State).done t n Status.ok) := by
  subst hset
  have range : ((List.finRange 4).any (fun i => decide (7 < s.prm1 t n i.val)) || decide (3 < s.prm1 t n 5)
      || decide (16 < setSizeOf (watchSet s.power.wcfg.set (fun i => bit (s.prm1 t n i.val) 0) (bit (s.prm1 t n 5) 0))))
      = false := by
    simp only [Bool.or_eq_false_iff, List.any_eq_false, decide_eq_false_iff_not, decide_eq_true_eq]
    exact ⟨⟨fun i _ => Nat.not_lt.2 (pins i), Nat.not_lt.2 flags⟩, Nat.not_lt.2 size⟩
  exact (command_sends h).trans (congrArg Host.Outcome.next ((State.guard_pass range).trans State.guard_none))

theorem exec_powerBoost (h : s.sends t n 0x0406 [(0, 1)]) (flag : s.prm1 t n 0 ≤ 1) :
    exec (.powerBoost t n) s = .next ((if s.prm1 t n 0 = 0
      then ({ s with power.boostAuto := s.prm1 t n 0 == 1 } : State).leaveBoost
      else ({ s with power.boostAuto := s.prm1 t n 0 == 1 } : State).seekBoost).done t n Status.ok) :=
  (command_sends h).trans (congrArg Host.Outcome.next
    ((State.guard_pass (decide_eq_false (Nat.not_lt.2 flag))).trans State.guard_none))

/-! ### `POWER.SET_STATE` (R57, R60 to R62) -/

section
variable (h : s.sends t n 0x0402 [(0, 2)])
include h

section
variable (plain : s.prm1 t n 1 = 0)
include plain

/-- `POWER.SET_STATE` without flags, for DUSK. -/
theorem exec_powerSetState_dusk (dusk : s.prm1 t n 0 = 2) : exec (.powerSetState t n) s = .next
    (if s.power.pstate = .night ∨ s.power.night.granted then (s.stateAnswer t n).nightTrigger 0x02
     else s.stateAnswer t n) := by
  refine (commandBy_runs h.1).trans (congrArg Host.Outcome.next ?_)
  dsimp only
  rw [plain, dusk, State.guard_pass, State.guard_pass, State.guard_none, if_pos rfl]
  · simp [h.2, bit]
  · simp [bit]

variable (low : 3 ≤ s.prm1 t n 0) (high : s.prm1 t n 0 ≤ 5)
include low high

/-- `POWER.SET_STATE` without flags, for a state below DUSK: what a floor, then a blocker holds back. -/
theorem exec_powerSetState_deep {night : Bool} (deep : night = (s.prm1 t n 0 = 3 || s.prm1 t n 0 = 4)) :
    (s.floorAllows (targetState (s.prm1 t n 0)) = false → exec (.powerSetState t n) s = .next (s.done t n Status.state)) ∧
    (s.floorAllows (targetState (s.prm1 t n 0)) = true →
      (∀ st, s.blocker night = some st → exec (.powerSetState t n) s = .next (s.done t n st)) ∧
      (s.blocker night = none → exec (.powerSetState t n) s = .next
        (if s.prm1 t n 0 = 3 then ((s.stateAnswer t n).requestSleep 1).leaveBoost
         else if s.prm1 t n 0 = 4 then (s.stateAnswer t n).acceptEntry .glacier s.power.cfg.glacierRetain t
         else (s.stateAnswer t n).acceptEntry .permafrost false t))) := by
  subst deep
  have range : (decide (s.prm1 t n 0 < 2) || decide (5 < s.prm1 t n 0) || decide (7 < 0) || s.stray t n [(0, 2)]
      || (bit 0 1 && bit 0 2)) = false := by
    have above : ¬s.prm1 t n 0 < 2 := by omega
    simp [h.2, above, Nat.not_lt.2 high, bit]
  have nothing (i : Nat) : bit 0 i = false := Nat.zero_testBit i
  have other : ¬s.prm1 t n 0 = 2 := by omega
  have unforced : (bit 0 0 && !s.ownerAt t n) = false := by simp [nothing]
  refine ⟨fun floored => ?_, fun free => ⟨fun st blocked => ?_, fun open_ => ?_⟩⟩ <;>
    refine (commandBy_runs h.1).trans (congrArg Host.Outcome.next ?_) <;> dsimp only <;>
    rw [plain, State.guard_pass unforced, State.guard_pass range, State.guard_none, if_neg other]
  · simp [nothing, floored]
  · simp [nothing, free, blocked]
  · simp [nothing, free, open_]

end

/-- `POWER.SET_STATE` with `FORCE` alone, by the owner (R62). -/
theorem exec_powerSetState_force (low : 3 ≤ s.prm1 t n 0) (high : s.prm1 t n 0 ≤ 5) (force : s.prm1 t n 1 = 1)
    (owner : s.ownerAt t n = true) {night : Bool} (deep : night = (s.prm1 t n 0 = 3 || s.prm1 t n 0 = 4))
    (free : s.hardBlocker night = none) :
    exec (.powerSetState t n) s = .next
      (if s.prm1 t n 0 = 3 then ((s.clearForcible.stateAnswer t n).requestSleep 1 true).leaveBoost
       else if s.prm1 t n 0 = 4 then
         (s.clearForcible.stateAnswer t n).acceptEntry .glacier s.power.cfg.glacierRetain t true
       else (s.clearForcible.stateAnswer t n).acceptEntry .permafrost false t true) := by
  subst deep
  have forced : bit 1 0 = true := rfl
  have keep : bit 1 1 = false := rfl
  have drop : bit 1 2 = false := rfl
  have range : (decide (s.prm1 t n 0 < 2) || decide (5 < s.prm1 t n 0) || decide (7 < 1) || s.stray t n [(0, 2)]
      || (bit 1 1 && bit 1 2)) = false := by
    have above : ¬s.prm1 t n 0 < 2 := by omega
    simp [h.2, above, Nat.not_lt.2 high, keep]
  have other : ¬s.prm1 t n 0 = 2 := by omega
  refine (commandBy_runs h.1).trans (congrArg Host.Outcome.next ?_)
  dsimp only
  rw [force, State.guard_pass, State.guard_pass range, State.guard_none, if_neg other]
  · simp only [forced, keep, drop, free]
    simp
  · simp [owner]

end

end

/-- Settles O20. -/
theorem powerCommands : Obligations.PowerCommands := by
  refine ⟨fun s t n => ⟨fun h => command_sends h, fun f boost frost h code => ⟨_, rfl, exec_powerFloor boost frost h code rfl⟩,
    fun h flags ok => exec_powerTimers h flags ok,
    fun h pins flags => ⟨_, watchSet_pin _ _ _, watchSet_light _ _ _, fun i above other => watchSet_other _ _ _ above other,
      fun size => exec_powerWakeCfg h pins flags rfl size⟩,
    fun h => ⟨fun off => ?_, fun on => ?_⟩⟩, fun s t n h => ?_⟩
  · rw [exec_powerBoost h (by omega), off]
    rfl
  · rw [exec_powerBoost h (by omega), on]
    rfl
  · intro b night
    refine ⟨fun dusk plain => exec_powerSetState_dusk h plain dusk,
      fun plain floor free => ⟨fun aim => ?_, fun aim => ?_, fun aim => ?_⟩,
      fun force owner free => ⟨fun aim => ?_, fun aim => ?_, fun aim => ?_⟩,
      fun plain low high floored => (exec_powerSetState_deep h plain low high rfl).1 floored,
      fun st plain low high floor blocked => ((exec_powerSetState_deep h plain low high rfl).2 floor).1 st blocked⟩
    · rw [((exec_powerSetState_deep h plain (by omega) (by omega) rfl).2 floor).2 free, if_pos aim]
    · rw [((exec_powerSetState_deep h plain (by omega) (by omega) rfl).2 floor).2 free, if_neg (by omega), if_pos aim]
    · rw [((exec_powerSetState_deep h plain (by omega) (by omega) rfl).2 floor).2 free, if_neg (by omega),
        if_neg (by omega)]
    · rw [exec_powerSetState_force h (by omega) (by omega) force owner rfl free, if_pos aim]
    · rw [exec_powerSetState_force h (by omega) (by omega) force owner rfl free, if_neg (by omega), if_pos aim]
    · rw [exec_powerSetState_force h (by omega) (by omega) force owner rfl free, if_neg (by omega), if_neg (by omega)]

/-! ### The idle timers (R55 to R61, Table 3.2) -/

section
variable {s : State}

theorem State.reach_late {s : State} {d : Nat} : d ≤ (s.reach d).now := Nat.le_max_right _ _

theorem exec_tDuskExpiry (serving : s.serving = true) (noon : s.power.pstate = .noon) (settled : s.power.pmic = none)
    (stays : s.power.entry = none) (idle : s.workIdle = true) : exec .tDuskExpiry s = .next (if s.floorAllows .dusk
      then (s.reach (s.power.idle.dusk + s.power.cfg.tDusk * 1000000)).toDusk else s) := by
  show execTDuskExpiry s = _
  simp only [execTDuskExpiry, serving, noon, settled, stays, idle, true_and]

theorem exec_tLnlExpiry (dusk : s.power.pstate = .dusk) (on : s.domOn dLNL = true) (free : s.anyLink = false)
    (settled : s.power.probing = none) {s1 : State}
    (h1 : s1 = (s.reach (s.power.idle.lnl + s.power.cfg.tLnl * 1000000000)).powerOff dLNL) :
    exec .tLnlExpiry s = .next { s1 with power.idle.probe := s1.now, power.idle.night := s1.now } := by
  subst h1
  exact congrArg Host.Outcome.next (if_pos ⟨dusk, on, by simp [free], settled⟩)

theorem exec_tLnlProbeExpiry (dusk : s.power.pstate = .dusk) (off : s.dom dLNL = .off) (new : s.power.probeWake = false)
    {s1 : State} (h1 : s1 = s.reach (s.power.idle.probe + s.power.cfg.tLnlProbe * 1000000)) :
    exec .tLnlProbeExpiry s = .next (({ s1 with power.probeWake := true } : State).wakeDomains [dLNL]) := by
  subst h1
  exact congrArg Host.Outcome.next (if_pos ⟨dusk, off, by simp [new]⟩)

/-- The NIGHT request that is due goes out or waits (R58, R61). -/
theorem exec_tNightExpiry (idle : s.nightIdle = true) : exec .tNightExpiry s = .next
    (if s.floorAllows .night && s.blocker true == none then (s.reach s.nightDue).requestSleep 0
     else { s.reach s.nightDue with power.nightWaits := true }) := by
  have still : (s.reach s.nightDue).nightIdle = true := idle
  have late : ¬(s.reach s.nightDue).now < (s.reach s.nightDue).nightDue := Nat.not_lt.2 State.reach_late
  have due : (s.reach s.nightDue).autoNight = (if s.floorAllows .night && s.blocker true == none then
      (s.reach s.nightDue).requestSleep 0 else { s.reach s.nightDue with power.nightWaits := true }) :=
    if_neg (by simp [still, late])
  show execTNightExpiry s = _
  rw [execTNightExpiry, if_pos idle, due]

/-- Automatic GLACIER while one of its timers still runs. -/
theorem State.autoGlacier_early (early : s.now < s.power.idle.glacier + s.power.cfg.tGlacier * 1000000000 ∨
    s.now < s.power.idle.dark + s.power.cfg.tDark * 1000000000) : s.autoGlacier = s :=
  if_pos (.inr (.inr early))

/-- Automatic GLACIER once both timers have expired and nothing holds it back (R59). -/
theorem State.autoGlacier_due (serving : s.serving = true) (awake : s.power.pstate.awake = true) (free : s.mbx.leases = [])
    (dark : s.allDark = true) (quiet : s.power.idle.glacier + s.power.cfg.tGlacier * 1000000000 ≤ s.now)
    (unlit : s.power.idle.dark + s.power.cfg.tDark * 1000000000 ≤ s.now) (auto : s.power.cfg.glacierAuto = true)
    (floor : s.floorAllows .glacier = true) (open_ : s.blocker true = none) :
    s.autoGlacier = s.acceptEntry .glacier s.power.cfg.glacierRetain 0 := by
  have due : ¬((!(s.power.pstate.awake && s.mbx.leases == [] && s.allDark)) = true ∨ (!s.serving) = true
      ∨ s.now < s.power.idle.glacier + s.power.cfg.tGlacier * 1000000000
      ∨ s.now < s.power.idle.dark + s.power.cfg.tDark * 1000000000) := by
    simp [serving, awake, free, dark, quiet, unlit]
  exact (if_neg due).trans (if_pos ⟨auto, floor, open_⟩)

end

/-- Settles O21. -/
theorem idleTimers : Obligations.IdleTimers := by
  intro s
  refine ⟨fun serving noon settled stays idle => exec_tDuskExpiry serving noon settled stays idle,
    fun on idle => congrArg Host.Outcome.next (if_pos ⟨on, idle⟩),
    fun boost idle => congrArg Host.Outcome.next (if_pos ⟨boost, idle⟩),
    fun dusk on idle => congrArg Host.Outcome.next (if_pos ⟨dusk, on, idle⟩),
    fun dusk on free settled => ⟨_, rfl, exec_tLnlExpiry dusk on free settled rfl⟩,
    fun dusk off new => ⟨_, rfl, exec_tLnlProbeExpiry dusk off new rfl⟩,
    fun d probing => ⟨_, rfl, ?_, fun dusk => ?_⟩, fun idle => ⟨fun floor open_ => ?_, fun held => ?_⟩,
    fun serving awake free dark => ⟨fun s1 h1 => ⟨fun early => ?_, fun late auto floor open_ => ?_⟩,
      fun s1 h1 => ⟨fun early => ?_, fun late auto floor open_ => ?_⟩⟩,
    fun d serving awake => congrArg Host.Outcome.next (if_pos ⟨serving, awake⟩)⟩
  · show execLnlProbeEnd true s = _
    rw [execLnlProbeEnd, probing]
    rfl
  · show execLnlProbeEnd false s = _
    rw [execLnlProbeEnd, probing]
    exact congrArg Host.Outcome.next (if_pos dusk)
  · rw [exec_tNightExpiry idle, floor, open_]
    rfl
  · have waits : (s.floorAllows .night && s.blocker true == none) = false := by
      rcases held with floor | blocked
      · simp [floor]
      · rw [beq_eq_false_iff_ne.2 blocked, Bool.and_false]
    rw [exec_tNightExpiry idle, waits]
    rfl
  · subst h1
    exact congrArg Host.Outcome.next ((if_pos ⟨serving, free, awake⟩).trans (State.autoGlacier_early (.inr early)))
  · subst h1
    exact congrArg Host.Outcome.next ((if_pos ⟨serving, free, awake⟩).trans
      (State.autoGlacier_due serving awake free dark State.reach_late late auto floor open_))
  · subst h1
    exact congrArg Host.Outcome.next ((if_pos ⟨serving, dark, awake⟩).trans (State.autoGlacier_early (.inl early)))
  · subst h1
    exact congrArg Host.Outcome.next ((if_pos ⟨serving, dark, awake⟩).trans
      (State.autoGlacier_due serving awake free dark late State.reach_late auto floor open_))

end Sys2Proof.Machine


/-!
SUPPORT. Rails, the PMIC link and the junction temperature (R32 to R80, R524).
-/

namespace Sys2Proof.Machine

section
variable {s : State}

/-! ### Rails (R32, R36) -/

/-- A low of `RAIL_OK` outside its blanking, while `PWR_EN_MAIN` is high and no wake runs (R36, R37). -/
theorem exec_railOkLow_brownout {ns : Nat} (main : s.pads.enMain = true) (open_ : s.pads.enRise + 100000 ≤ s.now)
    (long : 2000 ≤ ns) (settled : s.power.wake = none) :
    exec (.railOkLow ns) s = .next ((({ s with pads.railLowTo := max s.pads.railLowTo (s.now + ns) } : State).reach
      (s.now + 2000)).chipReset 0x03 0) := by
  have seen : max s.now (s.pads.enRise + 100000) = s.now := Nat.max_eq_left open_
  have counts : ((!s.pads.enAux && !s.pads.enMain) || decide (s.now + ns < s.now + 2000)) = false := by
    simp [main, long]
  show execRailOkLow ns s = _
  simp only [execRailOkLow, seen, counts, settled]
  rw [main]
  rfl

theorem exec_railOkLow_short {ns : Nat} (short : s.now + ns < max s.now (s.pads.enRise + 100000) + 2000) :
    exec (.railOkLow ns) s = .next { s with pads.railLowTo := max s.pads.railLowTo (s.now + ns) } :=
  congrArg Host.Outcome.next (if_pos (by simp [short]))

/-- A supply of balls takes its mode as it rises past 1.2 V (R32). -/
theorem exec_vddioLevelDetect_rise {mv : Nat} (new : s.pads.hostMode = none) (high : 1200 < mv) :
    exec (.vddioLevelDetect false mv) s = .next { s with pads.hostMode := some (decide (2500 ≤ mv)) } := by
  have low : ¬mv < 500 := by omega
  have past : ¬mv ≤ 1200 := by omega
  show execVddioLevelDetect false mv s = _
  simp [execVddioLevelDetect, new, low, past]

theorem exec_vddioLevelDetect_kept {mv : Nat} {m : Bool} (old : s.pads.fieldMode = some m) (high : 500 ≤ mv) :
    exec (.vddioLevelDetect true mv) s = .next { s with pads.fieldMode := some m } := by
  show execVddioLevelDetect true mv s = _
  simp [execVddioLevelDetect, old, Nat.not_lt.2 high]

/-! ### The PMIC link (R48, R49, R79, R524) -/

section
variable {op : PmicOp} (writes : s.power.pmic = some op) (active : s.tw.active = some .pm) {stretch : Nat} {s1 : State}
  (h1 : s1 = { s.reach (s.tw.since + min stretch maxStretch) with
    tw := { s.tw with active := none, last := if maxStretch < stretch then Status.busy else 0 } })
include writes active h1

theorem exec_pmicWriteComplete_taken (short : stretch ≤ maxStretch) : exec (.pmicWriteComplete true stretch) s =
    .next { s1 with ao.vcode := op.codes.headD 30, power.pmic := some { op with settleBy := some (s1.now + 50000) } } := by
  subst h1
  show execPmicWriteComplete true stretch s = _
  rw [execPmicWriteComplete, writes]
  exact congrArg Host.Outcome.next ((if_neg (not_not.2 active)).trans (if_pos ⟨rfl, by simp [short]⟩))

theorem exec_pmicWriteComplete_failed {ack : Bool} (fails : ack = false ∨ maxStretch < stretch) :
    exec (.pmicWriteComplete ack stretch) s = .next (if op.retried then s1.pmicFail op
      else { s1 with power.pmic := some { op with retried := true, retryAt := some (s1.now + 100000) } }) := by
  subst h1
  show execPmicWriteComplete ack stretch s = _
  rw [execPmicWriteComplete, writes]
  refine congrArg Host.Outcome.next ((if_neg (not_not.2 active)).trans (if_neg ?_))
  rintro ⟨acked, short⟩
  rcases fails with nack | long
  · simp [nack] at acked
  · simp [long] at short

end

theorem exec_pmicSettleExpiry_last {op : PmicOp} {d c : Nat} (writes : s.power.pmic = some op) (due : op.settleBy = some d)
    (last : op.codes = [c]) : exec .pmicSettleExpiry s = .next ((s.reach d).pmicDone op.why) := by
  show execPmicSettleExpiry s = _
  simp only [execPmicSettleExpiry, writes, due, last, List.drop_succ_cons, List.drop_nil]

theorem exec_pmicSettleExpiry_next {op : PmicOp} {d c c2 : Nat} {cs : List Nat} (writes : s.power.pmic = some op)
    (due : op.settleBy = some d) (more : op.codes = c :: c2 :: cs) (other : op.why ≠ .toBoost) :
    exec .pmicSettleExpiry s = .next
      (({ s.reach d with power.rdAssist := false, power.wrAssist := false } : State).startPmic (c2 :: cs) op.why) := by
  show execPmicSettleExpiry s = _
  simp only [execPmicSettleExpiry, writes, due, more, List.drop_succ_cons, List.drop_zero, other, false_and, if_false]

theorem exec_pmicRetryTimer {op : PmicOp} {d : Nat} (writes : s.power.pmic = some op) (due : op.retryAt = some d)
    (first : op.failed = false) : exec .pmicRetryTimer s =
      .next (({ s.reach d with power.pmic := some { op with retryAt := none } } : State).sendPmic (op.codes.headD 30)) := by
  show execPmicRetryTimer s = _
  simp [execPmicRetryTimer, writes, due, first]

/-! ### The junction (R80) -/

/-- While the thermal hold stands the boost point is not sought. -/
theorem State.seekBoost_held (hold : s.power.thermalHold = true) : s.seekBoost = s :=
  if_neg (by simp [Power.boostOk, hold])

theorem exec_tjUpdate_hot {tj : Int} (hot : 380 < tj) (other : s.power.pstate ≠ .boost) : exec (.tjUpdate tj) s =
    .next ({ s with power.tj := tj, power.thermalHold := true } : State).firnThermal := by
  have held := State.seekBoost_held (s := { s with power.tj := tj, power.thermalHold := true }) rfl
  show execTjUpdate tj s = _
  rw [execTjUpdate]
  simp only [hot, if_true, other, false_and, if_false, held]

theorem exec_tjUpdate_boost {tj : Int} (hot : 380 < tj) (boost : s.power.pstate = .boost)
    (stays : s.power.leaveBoost = false) : exec (.tjUpdate tj) s =
      .next (((({ s with power.tj := tj, power.thermalHold := true } : State).raise 0x93 (BitVec.ofInt 32 tj)).leaveBoost
        ).seekBoost).firnThermal := by
  show execTjUpdate tj s = _
  rw [execTjUpdate]
  simp only [hot, if_true, boost, stays, true_and, Bool.not_false]

end

/-- Settles O25. -/
theorem voltageAndRails : Obligations.VoltageAndRails := by
  intro s
  refine ⟨fun ns main open_ long settled => exec_railOkLow_brownout main open_ long settled,
    fun ns short => exec_railOkLow_short short,
    fun op stretch writes active => ⟨_, rfl, fun short => exec_pmicWriteComplete_taken writes active rfl short,
      fun ack fails => ⟨fun first => ?_, fun second => ?_⟩⟩,
    fun op d c writes due => ⟨fun last => exec_pmicSettleExpiry_last writes due last,
      fun c2 cs more other => exec_pmicSettleExpiry_next writes due more other⟩,
    fun op d writes due first => exec_pmicRetryTimer writes due first,
    fun tj hot => ⟨_, rfl, fun other => exec_tjUpdate_hot hot other, fun boost stays => exec_tjUpdate_boost hot boost stays⟩,
    fun mv new high => exec_vddioLevelDetect_rise new high, fun mv m old high => exec_vddioLevelDetect_kept old high⟩
  · rw [exec_pmicWriteComplete_failed writes active rfl fails, first]
    rfl
  · rw [exec_pmicWriteComplete_failed writes active rfl fails, second]
    rfl

end Sys2Proof.Machine


/-!
SUPPORT. The `LANE` commands (R191 to R208).
-/

namespace Sys2Proof.Machine

section
variable {s : State} {t : Ten} {n : SlotIx}

theorem exec_laneStatus (h : s.sends t n 0x0701 [(0, 2)]) (lane : s.prm1 t n 0 ≤ 3) (keep : s.prm1 t n 1 = 0) :
    exec (.laneStatus t n) s = .next (s.answer t n (laneStatus s (Fin.ofNat 4 (s.prm1 t n 0)))) := by
  refine (command_sends h).trans (congrArg Host.Outcome.next ?_)
  dsimp only
  rw [keep, State.guard_pass, State.guard_none]
  · rfl
  · simp [lane]

/-! ### Settings (R198, R202) -/

theorem State.configFibre_ok (clean : s.stray t n [(0, 8)] = false) (flags : byteAt (s.params t n) 1 ≤ 3)
    (holdOff : (protParams (s.params t n)).holdOffUs ≤ 1000) (wtr : within 10 3600 (protParams (s.params t n)).wtrS = true)
    (invert : byteAt (s.params t n) 6 ≤ 15) (transient : byteAt (s.params t n) 7 = 0) (fitted : s.absentLane 0 = false) :
    s.configFibre t n =
      (({ s with lanes.prot.cfg := protParams (s.params t n) } : State).updateWtr).done t n Status.ok := by
  unfold State.configFibre
  dsimp only
  rw [transient, State.guard_pass, State.guard_pass fitted, State.guard_pass, State.guard_none]
  · rfl
  · rfl
  · simp [flags, holdOff, wtr, invert, clean]

theorem State.configLocal_ok {l : Fin 2} {c : LocalCfg} (clean : s.stray t n [(0, 9)] = false)
    (cfg : c = localParams (s.params t n)) (low : 1 ≤ c.mode) (high : c.mode ≤ 3) (flags : byteAt (s.params t n) 2 ≤ 7)
    (an : c.mode ≠ 3 ∨ c.an = false) (invert : byteAt (s.params t n) 3 ≤ 3) (hold : c.holdMs ≤ 10000) (quanta : c.quanta ≠ 0)
    (transient : byteAt (s.params t n) 8 = 0) (fitted : s.absentLane (2 + l.val) = false) :
    s.configLocal t n l = ((s.dropLocal l).modLocal l fun x => { x with cfg := c }).done t n Status.ok := by
  have mode : (c.mode == 0) = false := beq_eq_false_iff_ne.2 (by omega)
  have plain : (c.mode == 3 && c.an) = false := by
    rcases an with other | off
    · rw [beq_eq_false_iff_ne.2 other, Bool.false_and]
    · rw [off, Bool.and_false]
  unfold State.configLocal
  dsimp only
  rw [transient, ← cfg, State.guard_pass, State.guard_pass fitted, State.guard_pass, State.guard_none]
  · rfl
  · rfl
  · rw [mode, plain]
    simp [high, flags, invert, hold, quanta, clean]

theorem exec_laneConfig_fibre (h : s.runs t n 0x0702 = true) (lane : s.prm1 t n 0 = 0) :
    exec (.laneConfig t n) s = .next (s.configFibre t n) := by
  refine (commandBy_runs h).trans (congrArg Host.Outcome.next ?_)
  rw [lane]
  rfl

theorem exec_laneConfig_local (h : s.runs t n 0x0702 = true) {l : Fin 2} (lane : s.prm1 t n 0 = 2 + l.val) :
    exec (.laneConfig t n) s = .next (s.configLocal t n l) := by
  refine (commandBy_runs h).trans (congrArg Host.Outcome.next ?_)
  rw [lane]
  match l with
  | 0 => rfl
  | 1 => rfl

/-! ### Switch and lockout (R198) -/

section
variable (h : s.sends t n 0x0703 [(0, 1)])
include h

theorem exec_laneSwitch_switch (asks : s.prm1 t n 0 = 0) (free : s.lanes.prot.holdBy = none)
    (open_ : s.lanes.prot.lockout = false) (active : s.activeLane ≠ none) (ok : s.laneEligible s.standby = true) :
    exec (.laneSwitch t n) s = .next ((s.switchTo s.standby).answer t n (s.switchTo s.standby).activeByte) := by
  refine (command_sends h).trans (congrArg Host.Outcome.next ?_)
  dsimp only
  rw [asks, State.guard_pass, State.guard_pass, State.guard_pass, State.guard_none]
  · rfl
  · simp [open_, ok, beq_eq_false_iff_ne.2 active]
  · simp [free]
  · rfl

theorem exec_laneSwitch_lockout (asks : s.prm1 t n 0 = 1 ∨ s.prm1 t n 0 = 2) : exec (.laneSwitch t n) s = .next
    (({ s with lanes.prot.lockout := s.prm1 t n 0 == 1 } : State).answer t n s.activeByte) := by
  have other : (s.prm1 t n 0 == 0) = false := beq_eq_false_iff_ne.2 (by omega)
  have range : decide (2 < s.prm1 t n 0) = false := decide_eq_false (by omega)
  refine (command_sends h).trans (congrArg Host.Outcome.next ?_)
  dsimp only
  rw [State.guard_pass range, State.guard_pass, State.guard_pass, State.guard_none, if_neg (beq_eq_false_iff_ne.1 other)]
  · rfl
  · rw [other, Bool.false_and]
  · rw [other, Bool.false_and]

end

/-! ### Raw mode, slips and capture (R191, R192) -/

section
variable {i : Fin 4} (name : s.prm1 t n 0 = i.val) (fitted : s.absentLane i.val = false)
include name fitted

theorem exec_laneMode_normal (h : s.sends t n 0x0704 [(0, 2)]) (mode : s.prm1 t n 1 = 0) :
    exec (.laneMode t n) s = .next ((s.setRaw i false []).done t n Status.ok) := by
  have named : (Fin.ofNat 4 i.val : Fin 4) = i := Fin.ofNat_val i
  refine (commandBy_runs h.1).trans (congrArg Host.Outcome.next ?_)
  dsimp only
  rw [mode, name, named, State.guard_pass, State.guard_pass, State.guard_none]
  · simp
  · simp [fitted]
  · have range := i.isLt
    simp [h.2]
    omega

theorem exec_laneMode_fibre (h : s.sends t n 0x0704 [(0, 2)]) (mode : s.prm1 t n 1 = 1) (fibre : i.val < 2)
    (idle : s.reg.st = .initial ∨ s.reg.st = .dereg) :
    exec (.laneMode t n) s = .next ((s.setRaw i true []).done t n Status.ok) := by
  have named : (Fin.ofNat 4 i.val : Fin 4) = i := Fin.ofNat_val i
  have noPattern : decide (2 ≤ i.val) = false := decide_eq_false (Nat.not_le.2 fibre)
  have may : (decide (i.val < 2) && 1 == 1 && s.reg.st != .initial && s.reg.st != .dereg) = false := by
    rcases idle with st | st
    · simp [st]
    · simp [st]
  refine (commandBy_runs h.1).trans (congrArg Host.Outcome.next ?_)
  dsimp only
  rw [mode, name, named, noPattern, State.guard_pass, State.guard_pass, State.guard_none]
  · rfl
  · rw [fitted, may]
    rfl
  · have range := i.isLt
    simp [h.2]
    omega

theorem exec_laneMode_local (h : s.sends t n 0x0704 [(0, 18)]) (mode : s.prm1 t n 1 = 1) (lane : 2 ≤ i.val)
    (ok : (s.patternOf t n).all patternOk = true) : exec (.laneMode t n) s =
      .next ((s.setRaw i true ((s.patternOf t n).map (BitVec.ofNat 9))).done t n Status.ok) := by
  have named : (Fin.ofNat 4 i.val : Fin 4) = i := Fin.ofNat_val i
  have pattern : decide (2 ≤ i.val) = true := decide_eq_true lane
  have code : ((s.patternOf t n).any fun v => !patternOk v) = false := by
    rw [List.any_eq_false]
    intro v member
    simp [List.all_eq_true.1 ok v member]
  have above : ¬i.val < 2 := Nat.not_lt.2 lane
  refine (commandBy_runs h.1).trans (congrArg Host.Outcome.next ?_)
  dsimp only
  rw [mode, name, named, pattern, State.guard_pass, State.guard_pass, State.guard_none]
  · rfl
  · simp [fitted, above]
  · have range := i.isLt
    simp [h.2, code]
    omega

theorem exec_laneSlip (h : s.sends t n 0x0705 [(0, 2)]) (low : 1 ≤ s.prm1 t n 1) (high : s.prm1 t n 1 ≤ 9)
    (raw : (s.phy i).raw = true) (free : (s.phy i).slip = none) (new : s.lanes.phy.toList.any (·.slipsFor t n) = false) :
    exec (.laneSlip t n) s = .next (s.modPhy i fun p => { p with slip := some (t, n, s.prm1 t n 1) }) := by
  have named : (Fin.ofNat 4 i.val : Fin 4) = i := Fin.ofNat_val i
  have few : within 1 9 (s.prm1 t n 1) = true := (within_iff _ _ _).2 ⟨low, high⟩
  refine (if_neg (by simp [new])).trans ((command_sends h).trans (congrArg Host.Outcome.next ?_))
  dsimp only
  rw [name, named, State.guard_pass, State.guard_pass, State.guard_pass, State.guard_none]
  · simp [free]
  · simp [fitted, raw]
  · have range := i.isLt
    simp [few]
    omega

theorem exec_laneCapture (h : s.sends t n 0x0706 [(0, 1)]) : exec (.laneCapture t n) s = .next (s.answer t n
    (leBytes 2 (s.phy i).slips ++ leBytes 2 24 ++ (s.phy i).words.flatMap fun w => leBytes 2 w.toNat)) := by
  have named : (Fin.ofNat 4 i.val : Fin 4) = i := Fin.ofNat_val i
  refine (command_sends h).trans (congrArg Host.Outcome.next ?_)
  dsimp only
  rw [name, named, State.guard_pass, State.guard_pass fitted, State.guard_none]
  have range := i.isLt
  simp
  omega

end

theorem exec_laneSlip_ends (h : s.inHand t n 0x0705 = true) (slips : s.lanes.phy.toList.any (·.slipsFor t n) = true) :
    exec (.laneSlip t n) s = .next ((s.endSlips t n).done t n Status.ok) :=
  if_pos (by simp only [h, slips, Bool.and_self])

/-- The slip of a lane that the command of a slot moves, once it has taken effect (R192). -/
theorem State.endSlips_phy {i : Fin 4} {k : Nat} (slip : (s.phy i).slip = some (t, n, k)) :
    (s.endSlips t n).phy i =
      { s.phy i with slips := ((s.phy i).slips + k) % 10, lock := false, qualBy := none, slip := none } := by
  have own : (s.phy i).slipsFor t n = true := by simp [Phy.slipsFor, slip]
  have moved : (s.endSlips t n).phy i = if (s.phy i).slipsFor t n then (s.phy i).slipped else s.phy i :=
    Vector.getElem_map _ i.isLt
  rw [moved, if_pos own, Phy.slipped, slip]

end

/-- Settles O30. -/
theorem laneCommands : Obligations.LaneCommands := by
  refine ⟨fun s t n => ⟨fun h lane keep => exec_laneStatus h lane keep,
    fun h lane flags holdOff wtr invert transient fitted => ?_,
    fun l c h lane cfg low high flags an invert hold quanta transient fitted => ?_,
    fun h => ⟨fun asks free open_ active ok => exec_laneSwitch_switch h asks free open_ active ok, fun asks => ?_, fun asks => ?_⟩,
    fun i name fitted => ⟨fun h mode => exec_laneMode_normal name fitted h mode,
      fun h mode fibre idle => exec_laneMode_fibre name fitted h mode fibre idle,
      fun h mode lane ok => exec_laneMode_local name fitted h mode lane ok⟩,
    fun h i name low high fitted raw free new => exec_laneSlip name fitted h low high raw free new,
    fun h slips => exec_laneSlip_ends h slips,
    fun h i name fitted => exec_laneCapture name fitted h⟩, fun s t n i k slip => ?_⟩
  · rw [exec_laneConfig_fibre h.1 lane, State.configFibre_ok h.2 flags holdOff wtr invert transient fitted]
  · rw [exec_laneConfig_local h.1 lane,
      State.configLocal_ok h.2 cfg low high flags an invert hold quanta transient fitted]
  · rw [exec_laneSwitch_lockout h (.inl asks), asks]
    rfl
  · rw [exec_laneSwitch_lockout h (.inr asks), asks]
    rfl
  · rw [State.endSlips_phy slip]
    exact ⟨rfl, rfl, rfl⟩

end Sys2Proof.Machine


/-!
SUPPORT. Lock, loss and protection of lanes (R188 to R198), local links and their MACs (R201 to R206).
-/

namespace Sys2Proof.Machine

section
variable {s : State}

/-! ### Lock and loss (R188, R190) -/

section
variable {i : Fin 4} {rd : Bool} {groups : List CodeGroup} (on : s.laneOn i = true)
include on

theorem exec_laneLock (unlocked : (s.phy i).lock = false) (light : s.noLight i = false) (settled : (s.phy i).slip = none)
    (met : lockMet (s.judged i rd groups) (s.marks i (s.judged i rd groups)) = true) (byTable : s.byTable i = true) :
    exec (.laneLock i rd true groups) s = .next (if i.val < 2 then (s.takeGroups i rd groups).fibreLocks (fibreOf i)
      else (s.takeGroups i rd groups).modPhy i fun p => { p with lock := true }) :=
  congrArg Host.Outcome.next ((if_neg (by simp [on, unlocked, light, settled])).trans (if_neg (by simp [met, byTable])))

theorem exec_laneLoss_fibre {cdr : Bool} (fibre : i.val < 2) (lock : (s.phy i).lock = true)
    (lost : cdr = true ∨ lossMet (s.marks i (s.judged i rd groups)) = true) :
    exec (.laneLoss i rd groups cdr) s = .next ((s.takeGroups i rd groups).loseLane (fibreOf i)) := by
  have table : s.byTable i = true := by simp [State.byTable, fibre]
  have met : (cdr || lossMet (s.marks i (s.judged i rd groups))) = true := by
    rcases lost with frequency | criterion
    · rw [frequency, Bool.true_or]
    · rw [criterion, Bool.or_true]
  refine congrArg Host.Outcome.next ((if_neg (by simp [on])).trans ((if_neg ?_).trans (if_pos fibre)))
  rw [lock, met, table]
  decide

end

section
variable {l : Fin 2} (acts : s.ballActs (.optics l) = true)
include acts

theorem exec_optLosChange_low (was : s.pads.los.getLsbD l.val = true) : exec (.optLosChange l false) s =
    .next (({ s with pads.los := s.pads.los &&& ~~~(1#2 <<< l.val) } : State).aoAssert (Fin.ofNat 32 (0x0D + l.val)) 0) := by
  have changed : ¬s.pads.los.getLsbD l.val = false := by simp [was]
  exact congrArg Host.Outcome.next ((if_neg (by simp [acts])).trans (if_neg changed))

theorem exec_optLosChange_high (was : s.pads.los.getLsbD l.val = false) : exec (.optLosChange l true) s =
    .next ((({ s with pads.los := s.pads.los ||| (1#2 <<< l.val) } : State).aoAssert
      (Fin.ofNat 32 (0x0D + l.val)) 1).darkLane l) := by
  have changed : ¬s.pads.los.getLsbD l.val = true := by simp [was]
  exact congrArg Host.Outcome.next ((if_neg (by simp [acts])).trans (congrArg (State.darkLane · l) (if_neg changed)))

end

theorem exec_laneRelockQualified_fibre {i : Fin 4} {d : Nat} (fibre : i.val < 2) (due : (s.phy i).qualBy = some d)
    (lock : (s.phy i).lock = true) : exec (.laneRelockQualified i) s = .next
      (((s.reach d).modPhy i fun p => { p with good := true, qualBy := none }).resumeActive.updateWtr.tellDefects) := by
  show execLaneRelockQualified i s = _
  rw [execLaneRelockQualified, due]
  exact congrArg Host.Outcome.next ((if_neg (by simp [lock])).trans (if_pos fibre))

/-! ### Protection timers (R196, R198) -/

theorem exec_holdOffExpiry {d : Nat} (due : s.lanes.prot.holdBy = some d) {s1 : State}
    (h1 : s1 = { s.reach d with lanes.prot.holdBy := none }) : exec .holdOffExpiry s =
      .next (if s1.laneEligible s1.standby && !s.lanes.prot.lockout then s1.switchTo s1.standby else s1).retryAuto := by
  subst h1
  show execHoldOffExpiry s = _
  rw [execHoldOffExpiry, due]
  rfl

theorem exec_waitToRestoreExpiry {d : Nat} (due : s.lanes.prot.wtrBy = some d) : exec .waitToRestoreExpiry s =
    .next (if s.lanes.prot.lockout || !(s.reach d).laneEligible s.lanes.prot.cfg.preferred
      || s.lanes.prot.active == s.lanes.prot.cfg.preferred then s.reach d
      else (s.reach d).switchTo s.lanes.prot.cfg.preferred) := by
  show execWaitToRestoreExpiry s = _
  rw [execWaitToRestoreExpiry, due]
  rfl

end

/-- Settles O31. -/
theorem lockAndProtection : Obligations.LockAndProtection := by
  refine ⟨fun s rd groups => ⟨fun i on unlocked light settled met => ⟨fun fibre => ?_, fun lane raw => ?_⟩,
      fun i cdr fibre on lock lost => exec_laneLoss_fibre on fibre lock lost,
      fun l acts was => exec_optLosChange_low acts was, fun l acts was => exec_optLosChange_high acts was,
      fun i d fibre due lock => exec_laneRelockQualified_fibre fibre due lock⟩,
    fun s => ⟨fun d due => ⟨fun ok open_ => ?_, fun lockout => ?_⟩,
      fun d due => ⟨fun open_ ok other => ?_, fun lockout => ?_⟩⟩⟩
  · rw [exec_laneLock on unlocked light settled met (by simp [State.byTable, fibre]), if_pos fibre]
  · rw [exec_laneLock on unlocked light settled met (by simp [State.byTable, raw]), if_neg (Nat.not_lt.2 lane)]
  · rw [exec_holdOffExpiry due rfl, ok, open_]
    rfl
  · rw [exec_holdOffExpiry due rfl, lockout, Bool.not_true, Bool.and_false]
    rfl
  · rw [exec_waitToRestoreExpiry due, open_, ok, beq_eq_false_iff_ne.2 other]
    rfl
  · rw [exec_waitToRestoreExpiry due, lockout]
    rfl

/-! ### Local links (R189, R190, R201) -/

section
variable {s : State} {l : Fin 2}

theorem exec_localLinkUp_fresh {mode : Byte} {rx tx : Bool} {x : LocalLane} (on : s.localOn l = true)
    (normal : (s.phy (localIx l)).raw = false) (unlocked : (s.phy (localIx l)).lock = false)
    (fresh : (s.phy (localIx l)).lost = false)
    (agreed : ((s.modLocal l fun x => x.countWord mode).local_ l).negotiate mode rx tx = some x) :
    exec (.localLinkUp l mode rx tx) s = .next (((((s.modLocal l fun x => x.countWord mode).modLocal l fun _ => x).modPhy
      (localIx l) fun p => { p with lock := true })).linkUp l) := by
  refine congrArg Host.Outcome.next ((if_neg (by simp [on, normal, unlocked])).trans ?_)
  dsimp only
  rw [agreed]
  exact if_neg (by simp [fresh])

theorem exec_egressHoldExpiry {d : Nat} (due : (s.local_ l).holdBy = some d) (down : s.laneLink l = false) :
    exec (.egressHoldExpiry l) s =
      .next (((s.reach d).modLocal l fun x => { x with holdBy := none }).flushEgress l) := by
  have still : ¬((s.reach d).modLocal l fun x => { x with holdBy := none }).laneLink l = true := by
    show ¬s.laneLink l = true
    simp [down]
  show execEgressHoldExpiry l s = _
  rw [execEgressHoldExpiry, due]
  exact congrArg Host.Outcome.next (if_neg still)

/-! ### The local MACs (R204 to R206) -/

theorem exec_macFrameReceive_bad {frame : List Byte} (link : s.laneLink l = true) : exec (.macFrameReceive l frame false) s =
    .next (s.modLocal l fun x => { x with fcsErr := inc32 x.fcsErr }) :=
  congrArg Host.Outcome.next ((if_neg (by simp [link])).trans (if_pos (.inl rfl)))

theorem exec_macFrameReceive_good {frame : List Byte} (link : s.laneLink l = true) (long : 60 ≤ frame.length)
    (short : frame.length ≤ 16379) : exec (.macFrameReceive l frame true) s = .next (s.macSort l frame) :=
  congrArg Host.Outcome.next ((if_neg (by simp [link])).trans (if_neg (by simp; omega)))

theorem exec_pauseTimeEnd {d : Nat} (due : (s.local_ l).pausedBy = some d) : exec (.pauseTimeEnd l) s =
    .next ((s.local_ l).macq.foldl (fun s f => s.macSend l f)
      ((s.reach d).modLocal l fun x => { x with pausedBy := none, macq := [] })) := by
  show execPauseTimeEnd l s = _
  rw [execPauseTimeEnd, due]

theorem State.modLocal_congr {f g : LocalLane → LocalLane} (same : f (s.local_ l) = g (s.local_ l)) :
    s.modLocal l f = s.modLocal l g := by
  unfold State.modLocal
  rw [same]

/-- Without transmission of PAUSE the crossing of `XOFF` is only kept (R206). -/
theorem exec_xoffCrossing_quiet (below : (s.local_ l).xoff = false)
    (full : 1024 * s.tm.buf.xoff[l] ≤ s.fifoFill (Fin.ofNat 4 (1 + l.val))) (off : (s.local_ l).txPause = false) :
    exec (.xoffCrossing l) s =
      .next (({ s with tm.xoffCnt := s.tm.xoffCnt.set l (inc32 s.tm.xoffCnt[l]) } : State).modLocal l fun y =>
        { y with xoff := true, repeatBy := none }) := by
  have crossed : ¬((s.local_ l).xoff || decide (s.fifoFill (Fin.ofNat 4 (1 + l.val)) < 1024 * s.tm.buf.xoff[l])) = true := by
    rw [below, Bool.false_or, decide_eq_false (Nat.not_lt.2 full)]
    decide
  have silent : ¬((s.local_ l).txPause && s.laneLink l) = true := by simp [off]
  refine congrArg Host.Outcome.next ((if_neg crossed).trans ((if_neg silent).trans ?_))
  refine State.modLocal_congr ?_
  show ({ s.local_ l with
    xoff := true, repeatBy := if (s.local_ l).txPause then some ((s.local_ l).repeatAt s.now) else none } : LocalLane) = _
  rw [off]
  rfl

theorem exec_xonCrossing_sent (above : (s.local_ l).xoff = true)
    (drained : s.fifoFill (Fin.ofNat 4 (1 + l.val)) < 1024 * s.tm.buf.xon[l]) (on : (s.local_ l).txPause = true)
    (link : s.laneLink l = true) : exec (.xonCrossing l) s =
      .next ((s.modLocal l fun y => { y with xoff := false, repeatBy := none }).sendPause l 0) := by
  have crossed : ¬(!(s.local_ l).xoff || decide (1024 * s.tm.buf.xon[l] ≤ s.fifoFill (Fin.ofNat 4 (1 + l.val)))) = true := by
    rw [above, Bool.not_true, Bool.false_or, decide_eq_false (Nat.not_le.2 drained)]
    decide
  exact congrArg Host.Outcome.next ((if_neg crossed).trans (if_pos (by simp [on, link])))

theorem exec_pauseRepeat_sent {d : Nat} (due : (s.local_ l).repeatBy = some d) (above : (s.local_ l).xoff = true)
    (on : (s.local_ l).txPause = true) (link : s.laneLink l = true) : exec (.pauseRepeat l) s =
      .next (((s.reach d).sendPause l (s.local_ l).cfg.quanta).modLocal l fun y =>
        { y with repeatBy := some (y.repeatAt (s.reach d).now) }) := by
  have stands : ((s.reach d).local_ l).xoff && ((s.reach d).local_ l).txPause := by
    show ((s.local_ l).xoff && (s.local_ l).txPause) = true
    simp [above, on]
  show execPauseRepeat l s = _
  rw [execPauseRepeat, due]
  exact congrArg Host.Outcome.next ((if_pos stands).trans
    (congrArg (fun x : State => x.modLocal l fun y => { y with repeatBy := some (y.repeatAt (s.reach d).now) }) (if_pos link)))

end

/-- Settles O32. -/
theorem localLanes : Obligations.LocalLanes :=
  ⟨fun _ _ => ⟨fun _ _ _ _ on normal unlocked fresh agreed => exec_localLinkUp_fresh on normal unlocked fresh agreed, rfl,
      fun _ due down => exec_egressHoldExpiry due down⟩,
    fun _ _ => ⟨fun _ link => exec_macFrameReceive_bad link,
      fun _ link long short => exec_macFrameReceive_good link long short,
      fun _ link => congrArg Host.Outcome.next (if_pos link), fun _ due => exec_pauseTimeEnd due,
      fun below full off => exec_xoffCrossing_quiet below full off,
      fun above drained on link => exec_xonCrossing_sent above drained on link,
      fun _ due above on link => exec_pauseRepeat_sent due above on link⟩⟩

end Sys2Proof.Machine


/-!
SUPPORT. Headers, entries and containers of a frame in SYNC (R211 to R219, R235), and the `LTX` commands (R229 to R269).
-/

namespace Sys2Proof.Machine

section
variable {s : State} {l : Fin 2} {bytes : List Byte}

/-! ### Headers (R211, R223) -/

section
variable (sync : (s.chan l).st = .sync) (new : (s.chan l).rx.judged = false) (whole : bytes.length = 40)
  (on : s.domOn dFRM = true)
include sync new whole on

theorem exec_frameHeader_judged : exec (.frameHeader l bytes) s = .next
    (if headerValid bytes then
      (((s.modChan l fun c => (c.goodHeader bytes).alignPreloaded (hMfi bytes)).useHeader l bytes).updateWtr).tellDefects.endSilence
     else
      (if l == s.lanes.prot.active then ({ s.modChan l Chan.badHeader with
         us.maps := (((s.chan l).k, false) :: s.us.maps).take 4 } : State).resolveAll
       else s.modChan l Chan.badHeader).tellDefects) :=
  congrArg Host.Outcome.next (if_neg (by simp [sync, new, whole, on]))

end

/-- A header that its check keeps is used on the active lane alone (R212). -/
theorem State.useHeader_standby (other : l ≠ s.lanes.prot.active) : s.useHeader l bytes = s := if_pos (.inr other)

theorem State.useHeader_active (own : l = s.lanes.prot.active) (sync : s.inSync l = true) :
    s.useHeader l bytes = s.activeHeader l bytes := if_neg (by simp [own ▸ sync, own])

/-! ### Grant and discovery entries (R215 to R217, R235) -/

section
variable (stands : s.mapEntry l bytes = true) {s1 : State} (h1 : s1 = s.countEntry l)
include stands h1

theorem exec_discoveryEntry_dropped (bad : gOk bytes = false) : exec (.discoveryEntry l bytes) s = .next (s1.dropEntry l) := by
  subst h1
  exact congrArg Host.Outcome.next ((if_neg (by simp [stands])).trans (if_pos (by simp [bad])))

variable (up : s.boot.core1Up = true)
include up

theorem exec_grantEntry_dropped (bad : gOk bytes = false) : exec (.grantEntry l bytes) s = .next (s1.dropEntry l) := by
  subst h1
  exact congrArg Host.Outcome.next ((if_neg (by simp [stands, up])).trans (if_pos (by simp [bad])))

theorem exec_grantEntry_taken {e : Grant} (he : e = grantOf (s1.chan l).k bytes) (ok : gOk bytes = true)
    (own : gRh bytes = s1.reg.rh) (named : gRh bytes ≠ 0) (single : gRh bytes ≠ 0xFFF) (takes : s1.takesEntries l = true) :
    exec (.grantEntry l bytes) s = .next
      (if l ≠ s1.lanes.prot.active then s1.rangingStandby l e
       else if !e.fits s1.us.table then s1.dropEntry l
       else if e.ranging then (s1.rangingActive l e).resolveAll
       else (({ s1 with us.table := s1.us.table ++ [e] } : State).serveGrant e).resolveAll) := by
  subst h1 he
  have mine : ¬(gRh bytes ≠ (s.countEntry l).reg.rh ∨ gRh bytes = 0 ∨ gRh bytes = 0xFFF) := by
    rintro (other | zero | all)
    · exact other own
    · exact named zero
    · exact single all
  exact congrArg Host.Outcome.next ((if_neg (by simp [stands, up])).trans
    ((if_neg (by simp [ok])).trans ((if_neg mine).trans (if_neg (by simp [takes])))))

theorem exec_discoveryEntry_heard (ok : gOk bytes = true) (discovery : gRh bytes = 0xFFF) (own : l = s1.lanes.prot.active)
    (listens : s1.reg.st = .listen) (framed : s1.framed l = true) (locked : s1.dpllSilent = false)
    (slots : s1.slotsUnusable = false) (lit : s1.fr.silenced = false) (open_ : s1.mapOpen l = true) :
    exec (.discoveryEntry l bytes) s = .next
      (if 0 < s1.reg.skip then { s1 with reg.skip := s1.reg.skip - 1 } else s1.useDiscovery bytes) := by
  subst h1
  have heard : ¬(gRh bytes ≠ 0xFFF ∨ l ≠ (s.countEntry l).lanes.prot.active ∨ (s.countEntry l).reg.st ≠ .listen
      ∨ (!(s.countEntry l).framed l) = true) := by
    rintro (other | other | other | other)
    · exact other discovery
    · exact other own
    · exact other listens
    · simp [framed] at other
  have running : (s.countEntry l).boot.core1Up = true := up
  exact congrArg Host.Outcome.next ((if_neg (by simp [stands])).trans ((if_neg (by simp [ok])).trans ((if_neg heard).trans
    ((if_neg (by simp [locked, slots])).trans (if_neg (by simp [lit, open_, running]))))))

end

/-! ### Packet containers (R14, R218, R219) -/

section
variable (own : l = s.lanes.prot.active) (on : s.domOn dFRM = true) (whole : (s.chan l).delinPkt bytes = .whole) {s1 : State}
  (h1 : s1 = s.modChan l fun c => c.afterPkt bytes .whole)
include own on whole h1

theorem exec_packetContainer_role {role : Fin 2} (mine : s1.roleOf (kRh bytes) = some role) :
    exec (.packetContainer l bytes) s = .next (s1.takeContainer l role (bytes.take (6 + kLen bytes))) := by
  subst h1
  show execPacketContainer l bytes s = _
  simp only [execPacketContainer, whole, mine]
  exact congrArg Host.Outcome.next ((if_neg (by simp [on, own])).trans (if_neg (by simp)))

theorem exec_packetContainer_other (other : s1.roleOf (kRh bytes) = none) :
    exec (.packetContainer l bytes) s = .next s1 := by
  subst h1
  show execPacketContainer l bytes s = _
  simp only [execPacketContainer, whole, other]
  exact congrArg Host.Outcome.next ((if_neg (by simp [on, own])).trans (if_neg (by simp)))

end

theorem exec_packetDecryptDone {s1 : State} {d : Dec} (h1 : s1 = s.startJobs)
    (oldest : (s1.cip.decq.find? fun d => s1.runsOn (.dec d)) = some d) : exec .packetDecryptDone s = .next
      ((({ s1 with cip.decq := s1.cip.decq.erase d } : State).freeCores (· == .dec d)).finishDec d).touch.startJobs := by
  subst h1
  show execPacketDecryptDone s = _
  simp only [execPacketDecryptDone, oldest]

end

/-- Settles O34. -/
theorem frameContents : Obligations.FrameContents := by
  intro s l bytes
  refine ⟨fun sync new whole on => ⟨fun bad => ⟨fun other => ?_, fun own => ?_⟩,
      fun s1 good h1 => ⟨fun other => ?_, fun own used => ?_⟩⟩,
    fun s1 e stands up h1 he => ⟨fun bad => ⟨exec_grantEntry_dropped stands h1 up bad, exec_discoveryEntry_dropped stands h1 bad⟩,
      fun ok mine named single takes own fits => ⟨fun plain => ?_, fun ranging => ?_⟩,
      fun ok mine named single takes other => ?_,
      fun ok discovery own listens framed locked slots lit open_ => ⟨fun skips => ?_, fun uses => ?_⟩⟩,
    fun own on whole => ⟨_, rfl, fun role mine => exec_packetContainer_role own on whole rfl mine,
      fun other => exec_packetContainer_other own on whole rfl other⟩,
    fun s1 d h1 oldest => exec_packetDecryptDone h1 oldest⟩
  · rw [exec_frameHeader_judged sync new whole on, bad, beq_eq_false_iff_ne.2 other]
    rfl
  · rw [exec_frameHeader_judged sync new whole on, bad, beq_iff_eq.2 own, if_neg Bool.false_ne_true, if_pos rfl]
  · have standby : s1.useHeader l bytes = s1 := State.useHeader_standby (by subst h1; exact other)
    rw [exec_frameHeader_judged sync new whole on, if_pos good, ← h1, standby]
  · have active : s1.useHeader l bytes = s1.activeHeader l bytes := State.useHeader_active (by subst h1; exact own) used
    rw [exec_frameHeader_judged sync new whole on, if_pos good, ← h1, active]
  · rw [exec_grantEntry_taken stands h1 up he ok mine named single takes, if_neg (not_not.2 own), fits, plain]
    rfl
  · rw [exec_grantEntry_taken stands h1 up he ok mine named single takes, if_neg (not_not.2 own), fits, ranging]
    rfl
  · rw [exec_grantEntry_taken stands h1 up he ok mine named single takes, if_pos other]
  · rw [exec_discoveryEntry_heard stands h1 up ok discovery own listens framed locked slots lit open_, if_pos skips]
  · rw [exec_discoveryEntry_heard stands h1 up ok discovery own listens framed locked slots lit open_,
      if_neg (Nat.not_lt.2 (Nat.le_of_eq uses))]

/-! ### The `LTX` commands -/

section
variable {s : State} {t : Ten} {n : SlotIx}

theorem exec_ltxDsStatus {l : Fin 2} (h : s.sends t n 0x0801 [(0, 2)]) (lane : s.prm1 t n 0 = l.val)
    (keep : s.prm1 t n 1 = 0) (fitted : s.absentLane l.val = false) :
    exec (.ltxDsStatus t n) s = .next (s.answer t n (s.dsStatus l)) := by
  have named : (Fin.ofNat 2 l.val : Fin 2) = l := Fin.ofNat_val l
  refine (command_sends h).trans (congrArg Host.Outcome.next ?_)
  dsimp only
  rw [lane, keep, named, State.guard_pass, State.guard_pass fitted, State.guard_none]
  · rfl
  · have range := l.isLt
    simp
    omega

theorem exec_ltxDsSnapshot {l : Fin 2} (h : s.sends t n 0x0802 [(0, 1)]) (lane : s.prm1 t n 0 = l.val)
    (fitted : s.absentLane l.val = false) : exec (.ltxDsSnapshot t n) s =
      .next (s.answer t n (field (s.chan l).hdr 0 40 ++ leBytes 8 (s.chan l).hdrCap)) := by
  have named : (Fin.ofNat 2 l.val : Fin 2) = l := Fin.ofNat_val l
  refine (command_sends h).trans (congrArg Host.Outcome.next ?_)
  dsimp only
  rw [lane, named, State.guard_pass, State.guard_pass fitted, State.guard_none]
  have range := l.isLt
  simp
  omega

theorem exec_ltxRegStatus (h : s.sends t n 0x0803 [(0, 1)]) (keep : s.prm1 t n 0 = 0) :
    exec (.ltxRegStatus t n) s = .next (s.answer t n s.regStatus) := by
  refine (command_sends h).trans (congrArg Host.Outcome.next ?_)
  dsimp only
  rw [keep, State.guard_pass, State.guard_none]
  · rfl
  · rfl

section
variable (h : s.sends t n 0x0804 [(0, 1)]) (new : s.waitsFor t n = false)
include h new

theorem exec_ltxActivation_start {s1 : State} (asks : s.prm1 t n 0 = 1)
    (h1 : s1 = if s.reg.st = .dereg then s.setAct .initial else s) :
    exec (.ltxActivation t n) s = .next (s1.answer t n (leBytes 1 s1.reg.st.code)) := by
  subst h1
  refine (command_sends h).trans (congrArg Host.Outcome.next ?_)
  dsimp only
  rw [asks, new, if_neg Bool.false_ne_true, State.guard_pass, State.guard_pass, State.guard_none]
  · rfl
  · rfl
  · rfl

/-- A stop or a rediscovery waits for the notice (R246). -/
theorem exec_ltxActivation_wait (asks : s.prm1 t n 0 = 0 ∨ s.prm1 t n 0 = 2) (free : s.reg.wait = none) :
    exec (.ltxActivation t n) s =
      .next (s.startWait { ten := t, slot := n, rediscover := s.prm1 t n 0 == 2, by_ := s.now + 4000000 }) := by
  have range : decide (2 < s.prm1 t n 0) = false := decide_eq_false (by omega)
  have other : ¬s.prm1 t n 0 = 1 := by omega
  refine (command_sends h).trans (congrArg Host.Outcome.next ?_)
  dsimp only
  rw [new, if_neg Bool.false_ne_true, State.guard_pass range, State.guard_pass, State.guard_none, if_neg other]
  simp [free]

end

theorem exec_ltxUsStatus {g : Fin 8} (h : s.sends t n 0x0805 [(0, 2)]) (stream : s.prm1 t n 0 = g.val)
    (keep : s.prm1 t n 1 = 0) : exec (.ltxUsStatus t n) s = .next (s.answer t n (s.usStatus g)) := by
  have named : (Fin.ofNat 8 g.val : Fin 8) = g := Fin.ofNat_val g
  refine (command_sends h).trans (congrArg Host.Outcome.next ?_)
  dsimp only
  rw [stream, keep, named, State.guard_pass, State.guard_none]
  · rfl
  · have range := g.isLt
    simp
    omega

theorem exec_ltxUsConfig {g : Fin 8} (h : s.sends t n 0x0806 [(0, 3)]) (stream : s.prm1 t n 0 = g.val)
    (depth : s.prm1 t n 1 ≤ 2) (transient : s.prm1 t n 2 = 0) (changed : (s.gs g).depth ≠ s.prm1 t n 1) :
    exec (.ltxUsConfig t n) s =
      .next (((s.withdrawGs g).modGs g fun x => { x with depth := s.prm1 t n 1 }).done t n Status.ok) := by
  have range : ¬7 < s.prm1 t n 0 := by omega
  obtain rfl : g = Fin.ofNat 8 (s.prm1 t n 0) := by rw [stream, Fin.ofNat_val]
  refine (command_sends h).trans (congrArg Host.Outcome.next ((State.guard_pass ?_).trans ((State.guard_pass ?_).trans
    (State.guard_none.trans ?_))))
  · simp [depth, range, transient]
  · rw [transient]
    rfl
  · rw [if_neg changed, transient]
    rfl

theorem exec_ltxQueueMap {q : Fin 64} {g : Fin 8} {b : Fin 4} (h : s.sends t n 0x0807 [(0, 6)])
    (queue : byteAt (s.params t n) 0 = q.val) (stream : byteAt (s.params t n) 1 = g.val)
    (band : byteAt (s.params t n) 2 = b.val) (plain : byteAt (s.params t n) 3 = 0) (plen : byteAt (s.params t n) 4 = 0)
    (transient : byteAt (s.params t n) 5 = 0) (empty : s.held (upQid q) = []) : exec (.ltxQueueMap t n) s =
      .next ((s.setMap q { gs := g, band := b, prot := false, plen := 0 }).done t n Status.ok) := by
  have queues : ¬63 < byteAt (s.params t n) 0 := by omega
  have streams : ¬7 < byteAt (s.params t n) 1 := by omega
  have bands : ¬3 < byteAt (s.params t n) 2 := by omega
  obtain rfl : q = Fin.ofNat 64 (byteAt (s.params t n) 0) := by rw [queue, Fin.ofNat_val]
  obtain rfl : g = Fin.ofNat 8 (byteAt (s.params t n) 1) := by rw [stream, Fin.ofNat_val]
  obtain rfl : b = Fin.ofNat 4 (byteAt (s.params t n) 2) := by rw [band, Fin.ofNat_val]
  refine (command_sends h).trans (congrArg Host.Outcome.next ?_)
  dsimp only
  rw [plain, plen, transient, State.guard_pass, State.guard_pass, State.guard_pass, State.guard_none]
  · simp only [Nat.reduceBEq, Bool.false_eq_true, if_false]
  · rfl
  · rw [empty]
    rfl
  · simp [queues, streams, bands]

end

/-- Settles O36. -/
theorem ltxCommands : Obligations.LtxCommands := fun _ _ _ =>
  ⟨fun h _ lane keep fitted => exec_ltxDsStatus h lane keep fitted,
   fun h _ lane fitted => exec_ltxDsSnapshot h lane fitted,
   fun h keep => exec_ltxRegStatus h keep,
   fun _ h asks new h1 => exec_ltxActivation_start h new asks h1,
   fun h asks new free => exec_ltxActivation_wait h new asks free,
   fun h _ stream keep => exec_ltxUsStatus h stream keep,
   fun h _ stream depth transient changed => exec_ltxUsConfig h stream depth transient changed,
   fun h _ _ _ queue stream band plain plen transient empty =>
     exec_ltxQueueMap h queue stream band plain plen transient empty⟩

end Sys2Proof.Machine


/-!
SUPPORT. Activation timers and bursts of registration (R235 to R247), and the burst engine (R216, R257 to R266).
-/

namespace Sys2Proof.Machine

/-! ### Activation and its timers (Table 10.2) -/

section
variable {s : State}

theorem exec_activationListen (initial : s.reg.st = .initial) (on : s.domOn dLNA = true)
    (usable : ∃ l, s.present l = true ∧ s.txFault l = false) (normal : ∀ l : Fin 2, (s.phy (fibreIx l)).raw = false)
    (up : s.boot.core1Up = true) {s1 : State}
    (h1 : s1 = (({ s with lanes.prot.active := s.firstLane } : State).toListen).tellDefects) :
    exec .activationListen s =
      .next (if s1.txFault s1.lanes.prot.active then s1.loseLane s1.lanes.prot.active else s1) := by
  subst h1
  have some_ : ((List.finRange 2).any fun l => s.present l && !s.txFault l) = true := by
    obtain ⟨l, present, good⟩ := usable
    exact List.any_eq_true.2 ⟨l, List.mem_finRange l, by simp [present, good]⟩
  have noRaw : (!(List.finRange 2).any fun l => (s.phy (fibreIx l)).raw) = true := by
    rw [Bool.not_eq_true', List.any_eq_false]
    intro l _
    simp [normal l]
  exact congrArg Host.Outcome.next (if_pos ⟨initial, on, some_, noRaw, up⟩)

theorem exec_tAssignExpiry {d : Nat} (due : s.reg.tAssign = some d) (st : s.reg.st = .discovery) :
    exec .tAssignExpiry s = .next ((s.reach d).countTimeout).toListen := by
  show execTAssignExpiry s = _
  rw [execTAssignExpiry, due]
  exact congrArg Host.Outcome.next (if_pos st)

theorem exec_tAuthExpiry {d : Nat} (due : s.reg.tAuth = some d) (st : s.reg.st = .auth) :
    exec .tAuthExpiry s = .next ((((s.reach d).countTimeout).dereg 3).toListen) := by
  show execTAuthExpiry s = _
  rw [execTAuthExpiry, due]
  exact congrArg Host.Outcome.next (if_pos st)

theorem exec_tRangeExpiry {d : Nat} (due : s.reg.tRange = some d) (st : s.reg.st = .ranging) :
    exec .tRangeExpiry s = .next ((((s.reach d).countTimeout).dereg 3).toListen) := by
  show execTRangeExpiry s = _
  rw [execTRangeExpiry, due]
  exact congrArg Host.Outcome.next (if_pos st)

theorem exec_silentDurationExpiry {d : Nat} (due : s.reg.silentBy = some d) (st : s.reg.st = .silent) :
    exec .silentDurationExpiry s = .next (s.reach d).enterService.fromNextMap := by
  show execSilentDurationExpiry s = _
  rw [execSilentDurationExpiry, due]
  exact congrArg Host.Outcome.next (if_pos st)

theorem exec_eqdChangeApply {l : Fin 2} {e : EqdNext} (due : s.reg.eqdNext[l] = some e) : exec (.eqdChangeApply l) s =
    .next (({ s.reach (s.tickAt l e.frame 0) with reg.eqdNext := s.reg.eqdNext.set l none } : State).setEqd l e.value) := by
  show execEqdChangeApply l s = _
  rw [execEqdChangeApply, due]
  rfl

/-! ### Serial-number and ranging bursts (R235, R241) -/

theorem exec_serialNumberBurst {x : Shot} {at_ : Nat} (waits : s.reg.serial = some x)
    (tick : at_ = s.tickAt s.lanes.prot.active x.frame x.start) (st : s.reg.st = .discovery) {s2 : State}
    (h2 : s2 = { s.reach at_ with reg := { s.reg with serial := none, tAssign := some (at_ + 16000000) } })
    (may : s2.mayTransmit s.lanes.prot.active = true) : exec .serialNumberBurst s =
      .next (({ s2 with reg.snSent := satInc 65535 s.reg.snSent } : State).launch s.lanes.prot.active x.start at_ true
        { lane := s.lanes.prot.active, end_ := at_ + 528, gs := 0, pkts := 0 }
        (recordBurst (burstHeader 0xFFF s2.rdi s2.rdiB false false false false 0 0 16) (s2.serialRecord x))) := by
  have lit : ¬(!s2.mayTransmit s.lanes.prot.active) = true := by simp [may]
  subst tick h2
  show execSerialNumberBurst s = _
  rw [execSerialNumberBurst, waits]
  exact congrArg Host.Outcome.next ((if_neg (not_not.2 st)).trans (if_neg lit))

/-- The state a ranging burst leaves from: its grant is used, its number and its try are counted (R241, R264). -/
def State.rangingSent (s : State) (l : Fin 2) : State :=
  { s with
    us.bseq := s.us.bseq + 1
    reg := { s.reg with
      rangeTries := s.reg.rangeTries.set l (satInc 255 s.reg.rangeTries[l]), shotOut := s.reg.shotOut.set l true } }

section
variable {l : Fin 2} {x : Shot} {rest : List Shot} {at_ : Nat} (waits : s.reg.rangeShot[l] = x :: rest)
  (tick : at_ = s.tickAt l x.frame x.start) {s2 : State}
  (h2 : s2 = { s.reach at_ with reg.rangeShot := s.reg.rangeShot.set l rest })
include waits tick h2

theorem exec_rangingBurst_skipped (dark : s2.mayTransmit l = false) : exec (.rangingBurst l) s = .next s2.updateWtr := by
  have skips : (!s2.mayTransmit l || s2.onFibre at_ || (!(l == s2.lanes.prot.active) && s2.activeBusy at_ (at_ + 528)))
      = true := by
    rw [dark]
    rfl
  subst tick h2
  show execRangingBurst l s = _
  rw [execRangingBurst, waits]
  exact congrArg Host.Outcome.next (if_pos skips)

theorem exec_rangingBurst_sent (may : s2.mayTransmit l = true) (free : s2.onFibre at_ = false)
    (own : l = s.lanes.prot.active) (clear : s2.eqdOverlap l at_ = false) : exec (.rangingBurst l) s =
      .next (((s2.rangingSent l).noteEnd l x.frame (at_ + 528)).launch l x.start at_ true
        { lane := l, end_ := at_ + 528, gs := 0, pkts := 0 }
        (recordBurst (burstHeader (s2.rangingSent l).reg.rh (s2.rangingSent l).rdi (s2.rangingSent l).rdiB
          ((s2.rangingSent l).kiFor x.rx) false false false 0 (s2.us.bseq + 1).toNat 16)
          ((s2.rangingSent l).rangeRecord l x.frame))) := by
  have active : (l == s2.lanes.prot.active) = true := by
    rw [h2]
    exact beq_iff_eq.2 own
  have stays : ¬(!s2.mayTransmit l || s2.onFibre at_ ||
      (!(l == s2.lanes.prot.active) && s2.activeBusy at_ (at_ + 528))) = true := by
    simp [may, free, active]
  have apart : ¬s2.eqdOverlap l at_ = true := by simp [clear]
  subst tick h2
  show execRangingBurst l s = _
  rw [execRangingBurst, waits]
  exact congrArg Host.Outcome.next ((if_neg stays).trans (if_neg apart))

end

end

/-- Settles O39. -/
theorem activationTimers : Obligations.ActivationTimers := by
  intro s
  refine ⟨fun initial on usable normal up => ⟨_, rfl, exec_activationListen initial on usable normal up rfl⟩,
    fun d due st => exec_tAssignExpiry due st, fun d due st => exec_tAuthExpiry due st,
    fun d due st => exec_tRangeExpiry due st, fun d due st => exec_silentDurationExpiry due st,
    fun l e due => exec_eqdChangeApply due, fun x at_ waits tick st => ?_, fun l x rest at_ waits tick => ?_⟩
  · intro s2 may
    exact exec_serialNumberBurst waits tick st rfl may
  · intro s2
    refine ⟨fun dark => exec_rangingBurst_skipped waits tick rfl dark, fun may free own clear =>
      ⟨s2.rangingSent l, _, exec_rangingBurst_sent waits tick rfl may free own clear, rfl, ?_, ?_⟩⟩
    · exact Vector.getElem_set_self l.isLt
    · exact Vector.getElem_set_self l.isLt

/-! ### The burst engine -/

theorem State.updateWtr_us (s : State) : s.updateWtr.us = s.us := by
  unfold State.updateWtr
  extract_lets c l
  split <;> rfl

theorem State.endStandby_table (s : State) : s.endStandby.us.table = s.us.table :=
  congrArg (·.table) (State.updateWtr_us _)

section
variable {s : State} {g : Fin 8}

/-- The oldest frame of the active lane's grant table ends with its entries (R216). -/
theorem exec_grantTableFrameEnd_active {f : Nat} (oldest : (s.us.table.map (·.frame)).min? = some f) {s1 s2 : State}
    (h1 : s1 = (s.reach (s.tickAt s.lanes.prot.active (f + 1) 0)).resolveAll)
    (h2 : s2 = ({ s1 with
      us.table := s1.us.table.filter fun e => f < e.frame
      reg.rangeShot := s1.reg.rangeShot.set s.lanes.prot.active
        ((s1.reg.rangeShot[s.lanes.prot.active]).filter fun x => f < x.frame) } : State).endStandby) :
    exec .grantTableFrameEnd s = .next s2 ∧ ∀ e ∈ s2.us.table, f < e.frame := by
  constructor
  · show execGrantTableFrameEnd s = _
    simp only [execGrantTableFrameEnd, oldest]
    rw [h2, h1]
  · intro e member
    rw [h2, State.endStandby_table] at member
    exact of_decide_eq_true (List.mem_filter.1 member).2

theorem exec_grantTableFrameEnd_standby {f : Nat} (empty : s.us.table = [])
    (oldest : (s.us.standby.map (·.frame)).min? = some f) :
    exec .grantTableFrameEnd s = .next (s.reach (s.tickAt s.standby (f + 1) 0)).endStandby := by
  show execGrantTableFrameEnd s = _
  rw [execGrantTableFrameEnd, empty, oldest]
  rfl

theorem exec_burstFreeze {b : Burst} (first : ((s.resolveGs g).gs g).bursts.find? (fun b => !b.frozen) = some b) :
    exec (.burstFreeze g) s =
      .next ((((s.resolveGs g).reach ((s.resolveGs g).burstAt b - 90000)).freezeBurst g fun x => !x.frozen).rebuild g) := by
  show execBurstFreeze g s = _
  simp only [execBurstFreeze, first]

theorem exec_protectionSlotClose {b : Burst}
    (first : (s.gs g).bursts.find? (fun b => b.slot && b.forecast && !b.slotClosed) = some b) :
    exec (.protectionSlotClose g) s =
      .next (((s.reach (s.burstAt b - 12000)).closeSlot g fun b => b.slot && b.forecast && !b.slotClosed).rebuild g) := by
  show execProtectionSlotClose g s = _
  simp only [execProtectionSlotClose, first]

/-- The mark that the end of a sealing job leaves on its take. -/
def Take.sealedBy (ki : Bool) (iv : Nat) (t : Take) : Take := if t.iv = iv ∧ t.ki = ki then { t with sealed := true } else t

theorem exec_packetSealDone {s1 : State} {ki : Bool} {iv : Nat} (h1 : s1 = s.startJobs)
    (oldest : (s1.cip.sealq.find? fun p => s1.runsOn (.seal p.1 p.2.1 p.2.2)) = some (g, ki, iv)) :
    exec .packetSealDone s = .next (((({ s1 with cip.sealq := s1.cip.sealq.erase (g, ki, iv) } : State).freeCores
      (· == .seal g ki iv)).modGs g fun x => { x with bursts := x.bursts.map fun b => { b with
        takes := b.takes.map (Take.sealedBy ki iv), slotTake := b.slotTake.map (Take.sealedBy ki iv) } }).startJobs) := by
  subst h1
  show execPacketSealDone s = _
  simp only [execPacketSealDone, oldest]
  rfl

theorem exec_withdrawal (waits : (s.gs g).undo ≠ []) : exec (.withdrawal g) s = .next (s.completeUndo g) :=
  congrArg Host.Outcome.next (if_neg (by simp [waits]))

section
variable {b0 : Burst} {at_ : Nat} (bound : (s.gs g).bursts.find? (fun b => b.bound.isSome) = some b0)
  (tick : at_ = s.burstAt b0) {s1 : State} (h1 : s1 = s.reach at_)
  (clear : s1.eqdOverlap s.lanes.prot.active at_ = false)
include bound tick h1 clear

/-- A bound burst without its entry is withdrawn at its start (R16). -/
theorem exec_burstCommit_withdrawn (none_ : s1.granted b0 = false) : exec (.burstCommit g) s =
    .next ((s1.modGs g fun x => { x with
      bursts := updateFirst (fun b => b.frame == b0.frame && b.start == b0.start) (fun b => { b with bound := none })
        x.bursts }).withdrawKept g fun b => b.frame == b0.frame && b.start == b0.start) := by
  subst tick h1
  show execBurstCommit g s = _
  simp only [execBurstCommit, bound]
  rw [if_pos (by rw [none_]; rfl), clear]
  rfl

/-- A frozen burst with its slot closed, whose entry stands, is committed (R264). -/
theorem exec_burstCommit_sent (granted : s1.granted b0 = true) (may : s1.mayTransmit s.lanes.prot.active = true)
    (free : s1.onFibre at_ = false) (frozen : b0.frozen = true) (closed : b0.slotClosed = true) {b : Burst}
    (named : (s1.gs g).bursts.find? (fun b => b.frame == b0.frame && b.start == b0.start) = some b) :
    exec (.burstCommit g) s = .next ((((s1.modGs g fun x => { x with
      bursts := x.bursts.filter fun y => !(y.frame == b0.frame && y.start == b0.start) }).commit b).rebuild g).watchFill) := by
  subst tick h1
  show execBurstCommit g s = _
  simp only [execBurstCommit, bound]
  rw [if_neg (by rw [granted, may, clear, free]; decide)]
  simp only [frozen, closed, if_true, named]

end

theorem exec_burstEnd {b : Sending} (sends : s.us.sending = some b) : exec .burstEnd s = .next { s.reach (b.end_ + 16) with
    pads.txdisLow := s.pads.txdisLow &&& ~~~(1#2 <<< b.lane.val), us.sending := none } := by
  show execBurstEnd s = _
  rw [execBurstEnd, sends]
  rfl

end

/-- Settles O40. -/
theorem burstEngine : Obligations.BurstEngine := by
  intro s g
  refine ⟨fun f oldest => ⟨_, _, rfl, rfl, exec_grantTableFrameEnd_active oldest rfl rfl⟩,
    fun f empty oldest => exec_grantTableFrameEnd_standby empty oldest, fun b first => exec_burstFreeze first,
    fun b first => exec_protectionSlotClose first, fun s1 ki iv h1 oldest => exec_packetSealDone h1 oldest,
    fun waits => exec_withdrawal waits, fun b0 at_ bound tick => ?_, fun b sends => exec_burstEnd sends⟩
  intro mine s1
  exact ⟨fun none_ clear => exec_burstCommit_withdrawn bound tick rfl clear none_,
    fun granted may clear free frozen closed b named =>
      exec_burstCommit_sent bound tick rfl clear granted may free frozen closed named⟩

end Sys2Proof.Machine


/-!
SUPPORT. The `ENS` commands and line writes (R403 to R412).
-/

namespace Sys2Proof.Machine

section
variable {s : State} {t : Ten} {n : SlotIx}

/-! ### Reads (R403) -/

section
variable {fixed : Nat} {bad : List Nat} (h : s.sends t n 0x0D01 [(0, 1), (4, 8)]) {r a len stop : Nat} {s1 : State}
  (hr : r = byteAt (s.params t n) 0) (ha : a = regionBase r + leAt (s.params t n) 4 4) (hlen : len = leAt (s.params t n) 8 4)
  (h1 : s1 = ({ s with nvm.badTag := bad ++ s.nvm.badTag } : State).eccFixed fixed)
  (hstop : stop = s1.nvm.stopsAt a (a + len)) (known : regionOk r = true) (may : s.mayRead t n r = true)
  (aligned : leAt (s.params t n) 4 4 % 4 = 0) (some_ : 1 ≤ len) (few : len ≤ 48)
  (inside : inRegion r (leAt (s.params t n) 4 4) len = true)
include h hr ha hlen h1 hstop known may aligned some_ few inside

/-- A read of up to 48 bytes past its checks; the row gives the bits corrected and the lines found uncorrectable. -/
theorem exec_ensRead : exec (.ensRead t n fixed bad) s = .next
    ((if stop == a + len then s1 else s1.markSuspect (stop / 64)).post t n
      (if stop == a + len then Status.ok else Status.tag)
      (leBytes 4 (s1.ens.getN a (stop - a)).length ++ [0, 0, 0, 0] ++ s1.ens.getN a (stop - a))) := by
  subst hr ha hlen hstop h1
  have inline : ¬48 < leAt (s.params t n) 8 4 := Nat.not_lt.2 few
  have range : within 1 65536 (leAt (s.params t n) 8 4) = true := (within_iff _ _ _).2 ⟨some_, by omega⟩
  refine (commandBy_runs h.1).trans (congrArg Host.Outcome.next ((State.guard_pass ?_).trans ((State.guard_pass ?_).trans
    (State.guard_none.trans ?_))))
  · rw [known, may]
    rfl
  · simp [inline, aligned, range, inside, h.2]
  · simp only [inline, if_false, decide_false]

theorem exec_ensRead_whole (whole : stop = a + len) : exec (.ensRead t n fixed bad) s =
    .next (s1.answer t n (leBytes 4 len ++ [0, 0, 0, 0] ++ s.ens.getN a len)) := by
  have ends : (stop == a + len) = true := beq_iff_eq.2 whole
  have count : stop - a = len := by omega
  have store : s1.ens = s.ens := by rw [h1]; rfl
  rw [exec_ensRead h hr ha hlen h1 hstop known may aligned some_ few inside, if_pos ends, if_pos ends, count, store,
    Memory.getN_length]
  rfl

theorem exec_ensRead_stopped (short : stop < a + len) : exec (.ensRead t n fixed bad) s =
    .next ((s1.markSuspect (stop / 64)).post t n Status.tag
      (leBytes 4 (s.ens.getN a (stop - a)).length ++ [0, 0, 0, 0] ++ s.ens.getN a (stop - a))) := by
  have ends : ¬(stop == a + len) = true := by simp; omega
  have store : s1.ens = s.ens := by rw [h1]; rfl
  rw [exec_ensRead h hr ha hlen h1 hstop known may aligned some_ few inside, if_neg ends, if_neg ends, store]

end

/-! ### Updates (R405, R406) -/

section
variable {r off len src : Nat} (h : s.sends t n 0x0D02 [(0, 1), (4, 12)]) (hr : r = byteAt (s.params t n) 0)
  (hoff : off = leAt (s.params t n) 4 4) (hlen : len = leAt (s.params t n) 8 4) (hsrc : src = leAt (s.params t n) 12 4)
  (known : regionOk r = true) (lease : s.leasedAt t n (regionLease r) = true) (aligned : off % 4 = 0) (whole : len % 4 = 0)
  (some_ : 4 ≤ len) (few : len ≤ 65536) (inside : inRegion r off len = true) (readable : s.rangeOk t n src len = true)
  (other : s.runsImage r = false)
include h hr hoff hlen hsrc known lease aligned whole some_ few inside readable other

/-- An `ENS.WRITE` past the checks of its parameters (R405). -/
theorem exec_ensWrite_checked : exec (.ensWrite t n) s = .next
    (s.guard t n [(s.regionUpdates r, Status.regionBusy), (s.regionWorn r, Status.worn)] fun s =>
      if (s.slot t n).stop.isSome then s.stopAtSafePoint t n else { s with nvm.upd := s.nvm.upd ++ [{
        region := r, addr := regionBase r + off, data := s.partRead t src len, ten := t, slot := n }] }) := by
  subst hr hoff hlen hsrc
  have range : within 4 65536 (leAt (s.params t n) 8 4) = true := (within_iff _ _ _).2 ⟨some_, few⟩
  refine (commandBy_runs h.1).trans (congrArg Host.Outcome.next ((State.guard_pass ?_).trans ((State.guard_pass ?_).trans
    ((State.guard_pass ?_).trans (State.guard_pass other)))))
  · simp [known]
  · simp [lease]
  · simp [aligned, whole, range, inside, readable, h.2]

end

theorem exec_ensAbort {u : EnsUpd} (h : s.sends t n 0x0D03 [(0, 1)]) (known : regionOk (s.prm1 t n 0) = true)
    (may : s.leasedAt t n (regionLease (s.prm1 t n 0)) = true ∨ s.ownerAt t n = true)
    (runs : s.updateOf (s.prm1 t n 0) = some u) (free : u.aborter = none) : exec (.ensAbort t n) s =
      .next (s.modUpd (s.prm1 t n 0) fun x => { x with aborter := some (t, n), stop := true }) := by
  have allowed : (s.leasedAt t n (regionLease (s.prm1 t n 0)) || s.ownerAt t n) = true := by
    rcases may with lease | owner
    · rw [lease, Bool.true_or]
    · rw [owner, Bool.or_true]
  refine (commandBy_runs h.1).trans (congrArg Host.Outcome.next ?_)
  dsimp only
  rw [runs, State.guard_pass, State.guard_pass h.2, State.guard_pass, State.guard_pass, State.guard_none]
  · simp [free]
  · rfl
  · rw [known, allowed]
    rfl

/-! ### Reports (R412) -/

/-- What follows the wear count in `ENS.LINE_INFO` (R412). -/
def State.lineState (s : State) (line : Nat) : List Byte :=
  leBytes 1 (b2n (s.nvm.suspect.contains line) + 2 * b2n (s.nvm.phys line != line)) ++ leBytes 1 (bankOf line).val
    ++ leBytes 2 (if s.nvm.phys line < 131072 then 0xFFFF else (s.nvm.phys line - 131072) % 512)

theorem exec_ensLineInfo {line : Nat} (h : s.sends t n 0x0D05 [(0, 1), (4, 4)]) (known : regionOk (s.prm1 t n 0) = true)
    (inside : inRegion (s.prm1 t n 0) (s.prm t n 4 4) 1 = true)
    (hline : line = (regionBase (s.prm1 t n 0) + s.prm t n 4 4) / 64) :
    exec (.ensLineInfo t n) s = .next (s.answer t n (leBytes 4 (s.nvm.wearOf line) ++ s.lineState line)) := by
  subst hline
  refine (commandBy_runs h.1).trans (congrArg Host.Outcome.next ((State.guard_pass ?_).trans ((State.guard_pass ?_).trans
    (State.guard_none.trans ?_))))
  · simp [known]
  · simp [inside, h.2]
  · unfold State.lineState
    simp only [List.append_assoc]

theorem leAt_leBytes_append (v : Nat) (rest : List Byte) : leAt (leBytes 4 v ++ rest) 0 4 = v % 2 ^ 32 := by
  have bytes : field (leBytes 4 v ++ rest) 0 4 = leBytes 4 v := by
    simpa using field_append_left (leBytes 4 v) rest
  rw [leAt, bytes, leNat_leBytes]
  rfl

/-! ### Line writes (R404, R407 to R410) -/

section
variable {r fixed : Nat} {u : EnsUpd} {ok : Bool} (on : s.domOn dNVM = true) (runs : s.updateOf r = some u) {s1 : State}
  (h1 : s1 = s.eccFixed fixed)
include on runs h1

/-- The end of a line's write, its read-back judged. -/
theorem exec_ensLineWriteDone {verify : Bool} : exec (.ensLineWriteDone r verify ok fixed) s = .next
    (if u.take < 64 ∧ (!ok ∨ s.nvm.bad (u.addr / 64)) then (s1.markSuspect (u.addr / 64)).endUpdate u Status.tag
     else if verify then s1.lineStands u
     else if !u.again then s1.modUpd r fun v => { v with again := true }
     else if (s1.remap (u.addr / 64)).nvm.remaps = s.nvm.remaps then (s1.remap (u.addr / 64)).endUpdate u Status.worn
     else (s1.remap (u.addr / 64)).lineStands { u with remapped := u.remapped + 1 }).retryAuto := by
  subst h1
  refine congrArg Host.Outcome.next ((if_neg (by simp [on])).trans (congrArg State.retryAuto ?_))
  rw [runs]
  rfl

theorem exec_ensLineWriteDone_sound (sound : 64 ≤ u.take ∨ (ok = true ∧ s.nvm.bad (u.addr / 64) = false)) {verify : Bool} :
    exec (.ensLineWriteDone r verify ok fixed) s = .next
      (if verify then s1.lineStands u
       else if !u.again then s1.modUpd r fun v => { v with again := true }
       else if (s1.remap (u.addr / 64)).nvm.remaps = s.nvm.remaps then (s1.remap (u.addr / 64)).endUpdate u Status.worn
       else (s1.remap (u.addr / 64)).lineStands { u with remapped := u.remapped + 1 }).retryAuto := by
  have stands : ¬(u.take < 64 ∧ ((!ok) = true ∨ s.nvm.bad (u.addr / 64) = true)) := by
    rintro ⟨partial_, fails⟩
    rcases sound with whole | ⟨good, clean⟩
    · omega
    · simp [good, clean] at fails
  rw [exec_ensLineWriteDone on runs h1, if_neg stands]

theorem exec_ensLineWriteDone_torn (short : u.take < 64) (fails : ok = false ∨ s.nvm.bad (u.addr / 64) = true) {verify : Bool} :
    exec (.ensLineWriteDone r verify ok fixed) s =
      .next ((s1.markSuspect (u.addr / 64)).endUpdate u Status.tag).retryAuto := by
  have torn : (!ok) = true ∨ s.nvm.bad (u.addr / 64) = true := fails.imp_left (by simp)
  rw [exec_ensLineWriteDone on runs h1, if_pos ⟨short, torn⟩]

end

end

/-- Settles O51. -/
theorem storeCommands : Obligations.StoreCommands := by
  intro s t n
  refine ⟨fun fixed bad h => ?_, fun h => ?_,
    fun h u known may runs free => exec_ensAbort h known may runs free, fun h => command_sends h, fun h known inside => ?_,
    fun r u ok fixed on runs => ?_⟩
  · intro r a len s1 stop known may aligned some_ few inside
    exact ⟨fun whole => exec_ensRead_whole h rfl rfl rfl rfl rfl known may aligned some_ few inside whole,
      fun short => exec_ensRead_stopped h rfl rfl rfl rfl rfl known may aligned some_ few inside short⟩
  · intro r off len src known lease aligned whole some_ few inside readable go other
    have row := exec_ensWrite_checked h rfl rfl rfl rfl known lease aligned whole some_ few inside readable other
    refine ⟨fun free sound => ?_, fun busy => ?_, fun free worn => ?_⟩
    · rw [row, State.guard_pass free, State.guard_pass sound, State.guard_none, go]
      rfl
    · rw [row, State.guard_fail busy]
    · rw [row, State.guard_pass free, State.guard_fail worn]
  · exact ⟨_, exec_ensLineInfo h known inside rfl, by simp [State.lineState], leAt_leBytes_append _ _⟩
  · intro s1 line
    refine ⟨fun sound => ⟨?_, fun first => ?_, fun second spare => ?_, fun second none_ => ?_⟩,
      fun short fails verify => exec_ensLineWriteDone_torn on runs rfl short fails⟩
    · rw [exec_ensLineWriteDone_sound on runs rfl sound]
      rfl
    · rw [exec_ensLineWriteDone_sound on runs rfl sound, first]
      rfl
    · rw [exec_ensLineWriteDone_sound on runs rfl sound, second, if_neg spare]
      rfl
    · rw [exec_ensLineWriteDone_sound on runs rfl sound, second, if_pos none_]
      rfl

end Sys2Proof.Machine


/-!
SUPPORT. The `FIRN` commands (R436 to R460) and the rows of the engine (R449 to R457).
-/

namespace Sys2Proof.Machine

section
variable {s : State} {t : Ten} {n : SlotIx}

theorem exec_firnStatus (h : s.sends t n 0x0F01 [(0, 1)]) (keep : s.prm1 t n 0 = 0) :
    exec (.firnStatus t n) s = .next (s.answer t n s.firnStatus) := by
  refine (command_sends h).trans (congrArg Host.Outcome.next ?_)
  dsimp only
  rw [keep, State.guard_pass, State.guard_none]
  · rfl
  · rfl

/-! ### Models (R436, R437) -/

section
variable (h : s.sends t n 0x0F02 [(0, 1), (4, 4)])
include h

/-- The row that begins a load: the header stands, and nothing else is loaded (R436). -/
theorem exec_firnModelLoad_begins (handle : s.prm1 t n 0 < 8) {off : Nat} (hoff : off = s.prm t n 4 4)
    (aligned : off % 64 = 0) (inside : off < 0x300000) (free : s.updateOf 2 = none)
    (tags : s.pkgTags off (min 256 (0x300000 - off)) = true) (header : headerOk (s.pkgRead off 256) (0x300000 - off) = true)
    (idle : s.modelLoading = false) (live : (s.slot t n).ghost = false) :
    exec (.firnModelLoad t n) s = .next { s with firn.loading := some (t, n) } := by
  subst hoff
  have other : ¬(s.firn.loading == some (t, n)) = true := by
    have none_ : s.firn.loading.isSome = false := (Bool.or_eq_false_iff.1 idle).1
    rw [beq_iff_eq]
    intro own
    simp [own] at none_
  have low : ¬7 < s.prm1 t n 0 := by omega
  refine (command_sends h).trans (congrArg Host.Outcome.next ?_)
  dsimp only
  rw [if_neg other, State.guard_pass, State.guard_pass, State.guard_pass idle, State.guard_pass,
    State.guard_pass, State.guard_none, live]
  · rfl
  · rw [header]; rfl
  · rw [tags]; rfl
  · rw [free]; rfl
  · simp [low, aligned, inside]

/-- The row that ends a load runs steps 2 to 7 of R436. -/
theorem exec_firnModelLoad_ends {i : Fin 8} (handle : s.prm1 t n 0 = i.val) (loads : s.firn.loading = some (t, n)) :
    exec (.firnModelLoad t n) s =
      .next (({ s with firn.loading := none } : State).loadPackage t n (s.prm t n 4 4) i.val) := by
  refine (command_sends h).trans (congrArg Host.Outcome.next ?_)
  dsimp only
  rw [if_pos (beq_iff_eq.2 loads), handle]

end

/-- A load that names a free handle takes it. -/
theorem State.handleFor_free {i : Fin 8} (free : s.fmodel i = none) : s.firn.handleFor i.val = some i := by
  have named : (Fin.ofNat 8 i.val : Fin 8) = i := Fin.ofNat_val i
  have explicit : ¬i.val = 0xFF := by omega
  have open_ : (s.fmodel (Fin.ofNat 8 i.val)).isNone = true := by
    rw [named, free]
    rfl
  exact ((if_neg explicit).trans (if_pos open_)).trans (congrArg some named)

section
variable {off : Nat} {p : List Byte} {x : FModel} (hp : p = s.pkgRead off (leAt (s.pkgRead off 256) 8 4))
  (tags : s.pkgTags off p.length = true)
include hp tags

/-- A package without a good signature is not loaded (R435, R436). -/
theorem State.loadPackage_unsigned {handle : Nat} (unsigned : s.pkgSigned p = false) :
    s.loadPackage t n off handle = s.done t n Status.signature := by
  unfold State.loadPackage
  dsimp only
  rw [← hp, tags, unsigned, Bool.not_true, if_neg Bool.false_ne_true, Bool.not_false, if_pos rfl]

/-- A package that passes every check is loaded under the free handle it names (R436). -/
theorem State.loadPackage_loaded {i : Fin 8} (hx : x = modelOf t p) (signed : s.pkgSigned p = true) (sound : x.bad = none)
    (free : s.fmodel i = none) (fits : s.firn.fits x = true) : s.loadPackage t n off i.val =
      (s.loadModel i x).answer t n (loadData i.val x.hdr (2 ^ 32 - 1)) := by
  unfold State.loadPackage
  dsimp only
  rw [← hp, ← hx, tags, signed, Bool.not_true, if_neg Bool.false_ne_true, if_neg Bool.false_ne_true, sound]
  dsimp only
  rw [State.handleFor_free free]
  dsimp only
  rw [fits, Bool.not_true, if_neg Bool.false_ne_true]

end

section
variable {i : Fin 8} {x : FModel} (handle : s.prm1 t n 0 = i.val) (loaded : s.fmodel i = some x)
include handle loaded

theorem exec_firnModelUnload_checked (h : s.sends t n 0x0F03 [(0, 1)]) (own : x.loader = t) :
    exec (.firnModelUnload t n) s = .next (s.guard t n [(s.firn.jobs.any fun j => j.handle == i, Status.busy)] fun s =>
      (s.dropModel i).done t n Status.ok) := by
  have low : ¬7 < s.prm1 t n 0 := by omega
  obtain rfl : i = Fin.ofNat 8 (s.prm1 t n 0) := by rw [handle, Fin.ofNat_val]
  refine (commandBy_runs h.1).trans (congrArg Host.Outcome.next ?_)
  dsimp only
  rw [loaded, State.guard_pass, State.guard_pass, State.guard_pass]
  · rfl
  · simp [low, h.2]
  · simp [own]

theorem exec_firnModelInfo (h : s.sends t n 0x0F04 [(0, 1)]) :
    exec (.firnModelInfo t n) s = .next (s.answer t n x.info) := by
  have low : ¬7 < s.prm1 t n 0 := by omega
  obtain rfl : i = Fin.ofNat 8 (s.prm1 t n 0) := by rw [handle, Fin.ofNat_val]
  refine (command_sends h).trans (congrArg Host.Outcome.next ?_)
  dsimp only
  rw [State.guard_pass (by simp [low]), State.guard_none, loaded]

/-- A job is submitted while fewer than 8 are held (R448). -/
theorem exec_firnRun_checked (h : s.sends t n 0x0F05 [(0, 1), (4, 2), (8, 8)]) (ok : s.runOk t n x = true)
    (new : ∀ j ∈ s.firn.jobs, j.ten ≠ t ∨ j.slot ≠ n ∨ j.orphan = true) : exec (.firnRun t n) s =
      .next (s.guard t n [(8 ≤ s.firn.jobs.length, Status.busy)] fun s => s.submit t n i) := by
  have low : ¬7 < s.prm1 t n 0 := by omega
  have unsent : ¬(s.firn.jobs.any fun j => j.ten == t && j.slot == n && !j.orphan) = true := by
    rw [Bool.not_eq_true, List.any_eq_false]
    intro j member
    rcases new j member with ten | slot | orphan
    · simp [ten]
    · simp [slot]
    · simp [orphan]
  obtain rfl : i = Fin.ofNat 8 (s.prm1 t n 0) := by rw [handle, Fin.ofNat_val]
  refine (command_sends h).trans (congrArg Host.Outcome.next ?_)
  dsimp only
  rw [if_neg unsent, loaded]
  exact State.guard_pass (by simp [low, ok])

end

/-! ### The engine and the model key (R457, R460) -/

section
variable (h : s.sends t n 0x0F06 [(0, 1)]) (stays : s.firn.outBy = none) (settled : s.firn.testBy = none)
include h stays settled

theorem exec_firnEngine_out (asks : s.prm1 t n 0 = 0) (serves : s.firn.inService = true) :
    exec (.firnEngine t n) s = .next (s.engineOut t n) := by
  have new : s.firn.waitsFor t n = false := by simp [Firn.waitsFor, stays, settled]
  refine (command_sends h).trans (congrArg Host.Outcome.next ?_)
  dsimp only
  rw [new, asks, if_neg Bool.false_ne_true, State.guard_pass, State.guard_pass, State.guard_pass, State.guard_none,
    if_pos rfl, if_pos serves]
  · rfl
  · simp [stays, settled]
  · rfl

theorem exec_firnEngine_test (asks : s.prm1 t n 0 = 1) (out : s.firn.inService = false) (whole : s.firn.failed = false) :
    exec (.firnEngine t n) s = .next { s with firn := { s.firn with testing := true, testBy := some (t, n) } } := by
  have new : s.firn.waitsFor t n = false := by simp [Firn.waitsFor, stays, settled]
  refine (command_sends h).trans (congrArg Host.Outcome.next ?_)
  dsimp only
  rw [new, asks, if_neg Bool.false_ne_true, State.guard_pass, State.guard_pass, State.guard_pass, State.guard_none,
    if_neg Nat.one_ne_zero, out, if_neg Bool.false_ne_true]
  · simp [whole]
  · simp [stays, settled]
  · rfl

end

theorem exec_firnModelKey_erase (h : s.sends t n 0x0F07 [(0, 1)]) (asks : s.prm1 t n 0 = 1) (free : s.configBusy = false) :
    exec (.firnModelKey t n) s =
      .next (({ s with store.modelKey := none } : State).persisted.answer t n (List.replicate 8 0)) := by
  refine (commandBy_runs h.1).trans (congrArg Host.Outcome.next ?_)
  dsimp only
  rw [asks, State.guard_pass, State.guard_pass free, State.guard_none]
  · rfl
  · simp [h.2]

end

/-- Settles O53. -/
theorem firnCommands : Obligations.FirnCommands := by
  intro s t n
  refine ⟨fun h keep => exec_firnStatus h keep, fun h i handle => ?_,
    fun h i x handle loaded own => ⟨fun free => ?_, fun taken => ?_⟩,
    fun h i x handle loaded => exec_firnModelInfo handle loaded h,
    fun h i x handle loaded ok new => ⟨fun room => ?_, fun full => ?_⟩,
    fun h stays settled => ⟨fun asks serves => exec_firnEngine_out h stays settled asks serves,
      fun asks out whole => exec_firnEngine_test h stays settled asks out whole⟩,
    fun h asks free => exec_firnModelKey_erase h asks free⟩
  · intro off p x aligned inside free tags header whole s1
    have low : s.prm1 t n 0 < 8 := by omega
    refine ⟨fun idle live => exec_firnModelLoad_begins h low rfl aligned inside free tags header idle live,
      fun loads signed sound open_ fits => ?_, fun loads unsigned => ?_⟩
    · rw [exec_firnModelLoad_ends h handle loads]
      exact congrArg Host.Outcome.next (State.loadPackage_loaded (s := s1) rfl whole rfl signed sound open_ fits)
    · rw [exec_firnModelLoad_ends h handle loads]
      exact congrArg Host.Outcome.next (State.loadPackage_unsigned (s := s1) rfl whole unsigned)
  · have idle : (s.firn.jobs.any fun j => j.handle == i) = false := by
      rw [List.any_eq_false]
      intro j member
      simp [free j member]
    rw [exec_firnModelUnload_checked handle loaded h own, State.guard_pass idle, State.guard_none]
  · have used : (s.firn.jobs.any fun j => j.handle == i) = true := by
      obtain ⟨j, member, own⟩ := taken
      exact List.any_eq_true.2 ⟨j, member, beq_iff_eq.2 own⟩
    rw [exec_firnModelUnload_checked handle loaded h own, State.guard_fail used]
  · rw [exec_firnRun_checked handle loaded h ok new, State.guard_pass (decide_eq_false (Nat.not_le.2 room)),
      State.guard_none]
  · rw [exec_firnRun_checked handle loaded h ok new, State.guard_fail (decide_eq_true full)]

/-! ### The engine's rows -/

section
variable {s : State}

theorem exec_firnJobResident {j : FJob} {x : FModel} (first : s.smallestTag s.mayReside = some j) (on : s.domOn dINF = true)
    (loaded : s.fmodel j.handle = some x) : exec (.firnJobResident j.num) s = .next ((s.modJob j.num fun y => { y with
      resident := true, work := Memory.putN [] x.inOff (s.partRead j.ten j.inOff x.inLen) }).firnNext) := by
  show execFirnJobResident j.num s = _
  rw [execFirnJobResident, first]
  refine congrArg Host.Outcome.next ((if_pos ⟨on, rfl⟩).trans ?_)
  unfold State.reside
  rw [loaded]

/-! ### Layers (R450, R452, R454) -/

theorem State.fromBoost_now (s : State) : s.fromBoost.now = s.now := by
  unfold State.fromBoost
  split <;> rfl

theorem State.endLayer_now (s : State) (j : FJob) (x : FModel) (start : Nat) :
    (s.endLayer j x start).now = max s.now (start + s.firnNs (layerCycles (s.nextLayer j) + 64)) := by
  unfold State.endLayer
  extract_lets l cyc s1 w tag s2 s3 s4
  split
  · exact State.fromBoost_now _
  · rfl

section
variable {num start : Nat} {j : FJob} (runs : s.firn.run = some (num, start)) (job : s.fjob num = some j)
include runs job

theorem exec_firnLayerBoundary {x : FModel} (loaded : s.fmodel j.handle = some x) : exec .firnLayerBoundary s =
    .next ((s.endLayer j x start).afterLayer num x.layers.length).retryAuto := by
  show execFirnLayerBoundary s = _
  simp only [execFirnLayerBoundary, runs, job, loaded]

theorem exec_firnLayerWatchdog : exec .firnLayerWatchdog s = (
    let cyc := 2 * layerCycles (s.nextLayer j) + 8192
    let s1 := (s.reach (start + s.firnNs cyc)).layerTime start cyc
    let recent := s1.now :: s1.firn.wdtAt.filter fun at_ => s1.now < at_ + 10000000000
    let s2 : State := { s1 with firn := { s1.firn with wdt := satInc 65535 s1.firn.wdt, wdtAt := recent } }
    let s3 := (s2.abortJob { j with runNs := j.runNs + (s1.now - start) } 2).raise 0x92 (BitVec.ofNat 32 num)
    .next (if 3 ≤ recent.length then s3.engineTest else s3).firnNext.retryAuto) := by
  show execFirnLayerWatchdog s = _
  simp only [execFirnLayerWatchdog, runs, job]

end

section
variable {num layers : Nat} {j : FJob} (job : s.fjob num = some j)
include job

/-- A job that is asked to stop ends at the layer's end (R452). -/
theorem State.afterLayer_stop {r : Nat} (stops : s.jobStop j = some r) :
    s.afterLayer num layers = (s.abortJob j r).firnNext := by
  unfold State.afterLayer
  rw [job]
  dsimp only
  rw [stops]

/-- A job that goes on is copied out after its last layer, or makes way for the next layer (R450, R453). -/
theorem State.afterLayer_goes (goes : s.jobStop j = none) : s.afterLayer num layers =
    if layers ≤ j.layer then { s with firn.copying := some num } else s.engineLeft.firnNext := by
  unfold State.afterLayer
  rw [job]
  dsimp only
  rw [goes]

end

/-! ### Output, SRAM errors and the self-test (R453, R455, R457) -/

theorem exec_firnOutputCopied {num : Nat} {j : FJob} {x : FModel} (copies : s.firn.copying = some num)
    (job : s.fjob num = some j) (loaded : s.fmodel j.handle = some x) (live : j.orphan = false) {s1 : State}
    (h1 : s1 = ((s.partWrite j.ten j.outOff (j.work.getN x.outOff x.outLen)).dropJob j).answer j.ten j.slot
      (j.result s.now 0)) : exec .firnOutputCopied s = .next ((({ s1 with
        firn.completed := min (2 ^ 32 - 1) (s1.firn.completed + 1) } : State).raise 0x90
          (BitVec.ofNat 32 num)).firnTouch.engineLeft.firnSettled.firnNext.retryAuto) := by
  subst h1
  show execFirnOutputCopied s = _
  simp only [execFirnOutputCopied, copies, job, loaded, live, Option.map_some, Bool.false_eq_true, if_false, satInc,
    satTo_eq_min]

section
variable {area : Nat} (concerns : s.sramArea area = true) (on : s.domOn dINF = true)
include concerns on

theorem exec_firnSramError_single : exec (.firnSramError area true) s =
    .next ({ s with firn.eccCorr := satInc 65535 s.firn.eccCorr } : State).retryAuto :=
  congrArg (fun x : State => Host.Outcome.next x.retryAuto)
    ((if_neg (by simp [concerns, on])).trans (if_pos rfl))

theorem exec_firnSramError_double (idle : s.firn.run = none) : exec (.firnSramError area false) s =
    .next (((s.sramJobs area).foldl (fun (s : State) j => s.abortJob j 3)
      { s with firn.eccUncorr := satInc 65535 s.firn.eccUncorr }).staleConstants area).firnNext.retryAuto := by
  have uncut : ((s.sramJobs area).any fun j => (s.firn.run.map Prod.fst) == some j.num) = false := by
    rw [List.any_eq_false]
    intro j _
    simp [idle]
  refine congrArg (fun x : State => Host.Outcome.next x.retryAuto)
    ((if_neg (by simp [concerns, on])).trans ((if_neg Bool.false_ne_true).trans ?_))
  dsimp only
  rw [uncut]
  rfl

end

theorem exec_firnSelfTestDone {t : Ten} {n : SlotIx} (tests : s.firn.testing = true) (by_ : s.firn.testBy = some (t, n))
    {pass : Bool} {s1 : State}
    (h1 : s1 = { s with firn := { s.firn with testing := false, testBy := none, inService := pass, failed := !pass } }) :
    exec (.firnSelfTestDone pass) s = .next (if pass then s1.answer t n [1] else s1.done t n Status.state).firnNext := by
  subst h1
  refine congrArg Host.Outcome.next ((if_neg (by simp [tests])).trans ?_)
  dsimp only
  rw [by_]

end

/-- Settles O54. -/
theorem firnRows : Obligations.FirnRows := by
  intro s
  refine ⟨fun j x first on loaded => exec_firnJobResident first on loaded,
    fun num start j x runs job loaded => ⟨exec_firnLayerBoundary runs job loaded, s.endLayer_now j x start,
      exec_firnLayerWatchdog runs job⟩,
    fun num layers j job => ⟨fun r stops => State.afterLayer_stop job stops, fun goes last => ?_, fun goes more => ?_⟩,
    fun num j x copies job loaded live => ⟨_, rfl, exec_firnOutputCopied copies job loaded live rfl⟩,
    fun area concerns on => ⟨exec_firnSramError_single concerns on, fun idle => exec_firnSramError_double concerns on idle⟩,
    fun tests t n by_ => ⟨_, _, rfl, rfl, exec_firnSelfTestDone tests by_ rfl, exec_firnSelfTestDone tests by_ rfl⟩⟩
  · rw [State.afterLayer_goes job goes, if_pos last]
  · rw [State.afterLayer_goes job goes, if_neg (Nat.not_le.2 more)]

end Sys2Proof.Machine


/-!
SUPPORT. The `AUDIO` and `TPS` commands (R463, R472, R474, R475, R482, R484).
-/

namespace Sys2Proof.Machine

section
variable {s : State} {t : Ten} {n : SlotIx}

theorem exec_audioStatus (h : s.sends t n 0x1001 [(0, 1)]) (keep : s.prm1 t n 0 = 0) :
    exec (.audioStatus t n) s = .next (s.answer t n s.audioStatus) := by
  refine (command_sends h).trans (congrArg Host.Outcome.next ?_)
  dsimp only
  rw [keep, State.guard_pass, State.guard_none]
  · rfl
  · rfl

/-! ### The sampling frequency (R463) -/

/-- The command's check of the ports, as a statement about each of them. -/
theorem State.anyPortOpen_iff :
    (s.aud.ports.toList.any fun x => x.st != .closed) = true ↔ ∃ p : Fin 3, (s.port p).st ≠ .closed := by
  simp only [List.any_eq_true, bne_iff_ne, Vector.mem_toList_iff, Vector.mem_iff_getElem]
  constructor
  · rintro ⟨x, ⟨i, hi, rfl⟩, opened⟩
    exact ⟨⟨i, hi⟩, opened⟩
  · rintro ⟨p, opened⟩
    exact ⟨s.port p, ⟨p.val, p.isLt, rfl⟩, opened⟩

section
variable (h : s.sends t n 0x1002 [(0, 2)]) (code : s.prm1 t n 0 ≤ 4) (keep : s.prm1 t n 1 = 0)
include h code keep

/-- The terminal with a new sampling frequency: the monitor starts anew. -/
def State.withFs (s : State) (fs : Nat) : State := { s with aud := { s.aud with fs := fs, mon := {}, monIn := [] } }

theorem exec_audioConfig (shut : ∀ p : Fin 3, (s.port p).st = .closed) :
    exec (.audioConfig t n) s = .next ((s.withFs (s.prm1 t n 0)).done t n Status.ok) := by
  have none_ : (s.aud.ports.toList.any fun x => x.st != .closed) = false :=
    Bool.eq_false_iff.2 fun any => (State.anyPortOpen_iff.1 any).elim fun p opened => opened (shut p)
  have low : ¬4 < s.prm1 t n 0 := by omega
  refine (command_sends h).trans (congrArg Host.Outcome.next ?_)
  dsimp only
  rw [keep, State.guard_pass, State.guard_pass none_, State.guard_pass, State.guard_none]
  · rfl
  · rfl
  · simp [low]

theorem exec_audioConfig_open (opened : ∃ p : Fin 3, (s.port p).st ≠ .closed) :
    exec (.audioConfig t n) s = .next (s.done t n Status.state) := by
  have low : ¬4 < s.prm1 t n 0 := by omega
  refine (command_sends h).trans (congrArg Host.Outcome.next ?_)
  dsimp only
  rw [keep, State.guard_pass, State.guard_fail (State.anyPortOpen_iff.2 opened)]
  simp [low]

end

/-! ### A port's settings (R463) -/

theorem State.portLease_false {b : Nat} (leased : s.leasedAt t n (b + 1) = true) : s.portLease t n b = false := by
  simp [State.portLease, leased]

theorem State.portLease_true {b : Nat} (low : b ≤ 2) (free : s.leasedAt t n (b + 1) = false) :
    s.portLease t n b = true := by
  simp [State.portLease, low, free]

section
variable {p : Fin 3} (h : s.sends t n 0x1003 [(0, 6)]) (name : s.prm1 t n 0 = p.val)
  (leased : s.leasedAt t n (p.val + 1) = true) (ok : s.portPrmOk t n = true)
include h name leased ok

theorem exec_audioPort (keep : bit (s.prm1 t n 4) 1 = false) (shut : (s.port p).st = .closed) :
    exec (.audioPort t n) s =
      .next ((s.modPort p fun x => { x with cfg := s.portCfg t n }).done t n Status.ok) := by
  obtain rfl : p = Fin.ofNat 3 (s.prm1 t n 0) := by rw [name, Fin.ofNat_val]
  refine (commandBy_runs h.1).trans (congrArg Host.Outcome.next ?_)
  dsimp only
  rw [keep, State.guard_pass (State.portLease_false (name ▸ leased)), State.guard_pass, State.guard_pass,
    State.guard_pass, State.guard_none]
  · rfl
  · rfl
  · rw [shut]; rfl
  · rw [ok, h.2]; rfl

theorem exec_audioPort_open (opened : (s.port p).st ≠ .closed) :
    exec (.audioPort t n) s = .next (s.done t n Status.state) := by
  obtain rfl : p = Fin.ofNat 3 (s.prm1 t n 0) := by rw [name, Fin.ofNat_val]
  refine (commandBy_runs h.1).trans (congrArg Host.Outcome.next ?_)
  dsimp only
  rw [State.guard_pass (State.portLease_false (name ▸ leased)), State.guard_pass, State.guard_fail]
  · exact bne_iff_ne.2 opened
  · rw [ok, h.2]; rfl

end

/-! ### A port opened and closed (R463, R475) -/

theorem State.withAud_off {k : State → State} (off : s.dom dAUD = .off) : s.withAud k = s.wakeDomains [dAUD] := if_pos off

theorem State.withAud_on {k : State → State} (on : s.dom dAUD ≠ .off) : s.withAud k = k s := if_neg on

/-- A MUTED port that closes is CLOSED, with nothing scheduled. -/
theorem State.closePort_muted {p : Fin 3} (muted : (s.port p).st = .muted) :
    ((s.closePort p).port p).st = .closed ∧ ((s.closePort p).port p).start = none ∧ ((s.closePort p).port p).stop = none := by
  have stays : ((s.modPort p fun x => { x with start := none, stop := none, startDue := false }).port p).st = .muted := by
    rw [State.modPort_port, if_pos rfl]
    exact muted
  have closes : (s.closePort p).port p =
      { s.port p with start := none, stop := none, startDue := false, st := .closed } := by
    unfold State.closePort
    dsimp only
    rw [stays]
    change (State.modPort (State.modPort s p fun _ => _) p fun _ => _).port p = _
    rw [State.modPort_port, if_pos rfl, State.modPort_port, if_pos rfl]
  rw [closes]
  exact ⟨rfl, rfl, rfl⟩

section
variable {p : Fin 3} (h : s.sends t n 0x1004 [(0, 2)]) (name : s.prm1 t n 0 = p.val)
include h name

theorem exec_audioOpen_unleased (free : s.leasedAt t n (p.val + 1) = false) :
    exec (.audioOpen t n) s = .next (s.done t n Status.lease).retryAuto := by
  have low : p.val ≤ 2 := Nat.le_of_lt_succ p.isLt
  refine (commandBy_runs h.1).trans (congrArg (fun x : State => Host.Outcome.next x.retryAuto) ?_)
  dsimp only
  rw [name, State.guard_fail (State.portLease_true low free)]

variable (leased : s.leasedAt t n (p.val + 1) = true)
include leased

/-- A port that may open waits for PD_AUD where it is off, and else opens and is reported. -/
theorem exec_audioOpen_opens (op : s.prm1 t n 1 = 1) (shut : (s.port p).st = .closed) (may : s.mayOpen p = true) :
    exec (.audioOpen t n) s = .next (s.withAud fun s =>
      (s.openPort p).answer t n (leBytes 1 ((s.openPort p).port p).st.code)).retryAuto := by
  have low : ¬2 < p.val := by omega
  have closed_ : ((s.port p).st == .closed) = true := beq_iff_eq.2 shut
  refine (commandBy_runs h.1).trans (congrArg (fun x : State => Host.Outcome.next x.retryAuto) ?_)
  dsimp only
  rw [name, Fin.ofNat_val, op, closed_, State.guard_pass (State.portLease_false leased), State.guard_pass,
    State.guard_pass, State.guard_none, if_neg Nat.one_ne_zero, if_pos rfl]
  · rw [may]; rfl
  · simp [low, h.2]

theorem exec_audioOpen_closes (op : s.prm1 t n 1 = 0) :
    exec (.audioOpen t n) s =
      .next ((s.closePort p).answer t n (leBytes 1 ((s.closePort p).port p).st.code)).retryAuto := by
  have low : ¬2 < p.val := by omega
  refine (commandBy_runs h.1).trans (congrArg (fun x : State => Host.Outcome.next x.retryAuto) ?_)
  dsimp only
  rw [name, Fin.ofNat_val, op, State.guard_pass (State.portLease_false leased), State.guard_pass, State.guard_pass,
    State.guard_none, if_pos rfl]
  · rfl
  · simp [low, h.2]

end

/-! ### The schedule of a port (R474) -/

/-- A start ahead and in reach, on a port with none under way, is armed. -/
theorem State.schedStart_armed {p : Fin 3} {start : Nat} (muted : (s.port p).st = .muted) (free : (s.port p).start = none)
    (due : (s.port p).startDue = false) (ahead : s.ttNs < s.portTt p start) (near : start ≤ s.ttNs + cmpReach) :
    s.schedStart t n p start none = (s.modPort p fun x => { x with start := some start, stop := none }).answer t n [0] := by
  have reach : ¬s.ttNs + cmpReach < start := Nat.not_lt.2 near
  unfold State.schedStart
  dsimp only [Option.any]
  rw [if_neg Bool.false_ne_true, if_neg Bool.false_ne_true, State.guard_pass, State.guard_pass rfl, State.guard_pass,
    State.guard_none]
  · exact if_neg (Nat.not_le.2 ahead)
  · simp [reach]
  · rw [free, due, muted]; rfl

theorem exec_audioSchedule_start {p : Fin 3} (h : s.sends t n 0x1005 [(0, 2), (8, 8)]) (name : s.prm1 t n 0 = p.val)
    (what : s.prm1 t n 1 = 1) (leased : s.leasedAt t n (p.val + 1) = true) (muted : (s.port p).st = .muted)
    (stays : (s.port p).shutting = false) :
    exec (.audioSchedule t n) s = .next (s.schedStart t n p (s.prm t n 8 8) none) := by
  have low : ¬2 < p.val := by omega
  have used : s.stray t n (schedUsed 1) = false := h.2
  refine (commandBy_runs h.1).trans (congrArg Host.Outcome.next ?_)
  dsimp only
  rw [name, Fin.ofNat_val, what, State.guard_pass (State.portLease_false leased), State.guard_pass, State.guard_pass,
    State.guard_none]
  · rfl
  · rw [muted, stays]; rfl
  · simp [low, used]

/-! ### TPS (R482) -/

theorem exec_tpsStatus {p : Fin 2} (h : s.sends t n 0x1101 [(0, 2)]) (name : s.prm1 t n 0 = p.val)
    (keep : s.prm1 t n 1 = 0) : exec (.tpsStatus t n) s = .next (s.answer t n (s.tpsStatus p)) := by
  have low : ¬1 < p.val := by omega
  refine (command_sends h).trans (congrArg Host.Outcome.next ?_)
  dsimp only
  rw [name, Fin.ofNat_val, keep, State.guard_pass, State.guard_none]
  · rfl
  · simp [low]

/-- An opening ahead and in reach, of a port with none under way, waits for PD_AUD where it is off, and else is armed. -/
theorem State.tpsStart_armed {p : Fin 2} {start : Nat} (free : (s.tpsPort p).openAt = none)
    (shut : (s.tpsPort p).open_ = false) (near : start ≤ s.ttNs + cmpReach) (ahead : s.tickPast p start = false) :
    s.tpsStart t n p start none = s.withAud fun s' =>
      (s'.modTps p fun y => { y with openAt := some start, closeAt := none }).answer t n [0] := by
  have reach : ¬s.ttNs + cmpReach < start := Nat.not_lt.2 near
  unfold State.tpsStart
  dsimp only [Option.any]
  rw [if_neg Bool.false_ne_true, if_neg Bool.false_ne_true, State.guard_pass, State.guard_pass rfl, State.guard_pass,
    State.guard_none]
  · simp only [ahead, Bool.false_eq_true, if_false]
  · simp [reach]
  · rw [free, shut]; rfl

theorem State.tpsHalt_armed {p : Fin 2} {a stop : Nat} (armed : (s.tpsPort p).openAt = some a) :
    s.tpsHalt t n p stop = (s.modTps p fun y => { y with openAt := none, closeAt := none }).answer t n [2] :=
  if_pos (by rw [armed]; rfl)

section
variable {p : Fin 2} (name : s.prm1 t n 0 = p.val) (leased : s.leasedAt t n (p.val + 4) = true)
include name leased

theorem exec_tpsSchedule_start (h : s.sends t n 0x1102 [(0, 2), (8, 8)]) (what : s.prm1 t n 1 = 1)
    (both : s.tpsBoth p = true) :
    exec (.tpsSchedule t n) s = .next (s.tpsStart t n p (s.prm t n 8 8) none).retryAuto := by
  have low : ¬1 < p.val := by omega
  have used : s.stray t n (schedUsed 1) = false := h.2
  refine (commandBy_runs h.1).trans (congrArg (fun x : State => Host.Outcome.next x.retryAuto) ?_)
  dsimp only
  rw [name, Fin.ofNat_val, what, State.guard_pass, State.guard_pass, State.guard_pass, State.guard_none]
  · rfl
  · rw [both]; rfl
  · simp [low, used]
  · simp [leased]

theorem exec_tpsSchedule_cancel (h : s.sends t n 0x1102 [(0, 2)]) (what : s.prm1 t n 1 = 3) :
    exec (.tpsSchedule t n) s = .next (s.tpsHalt t n p s.ttNs).retryAuto := by
  have low : ¬1 < p.val := by omega
  have used : s.stray t n (schedUsed 3) = false := h.2
  refine (commandBy_runs h.1).trans (congrArg (fun x : State => Host.Outcome.next x.retryAuto) ?_)
  dsimp only
  rw [name, Fin.ofNat_val, what, State.guard_pass, State.guard_pass, State.guard_pass, State.guard_none]
  · rfl
  · rfl
  · simp [low, used]
  · simp [leased]

end
end

/-- Settles O55: each command past its checks is its row's work; the rows that need PD_AUD first wake it. -/
theorem audioCommands : Obligations.AudioCommands := by
  intro s t n
  refine ⟨exec_audioStatus, fun h code keep => ⟨fun shut => ?_, exec_audioConfig_open h code keep⟩,
    fun h p name leased ok keep => ⟨exec_audioPort h name leased ok keep, exec_audioPort_open h name leased ok⟩,
    fun h p name => ⟨exec_audioOpen_unleased h name, fun leased op shut may => ⟨fun off => ?_, fun on => ?_⟩,
      fun leased op muted => ?_⟩, fun h p name what leased muted stays free due ahead near => ?_,
    fun h p => exec_tpsStatus h, fun p name leased =>
      ⟨fun h what both free shut near ahead => ⟨fun off => ?_, fun on => ?_⟩, fun h what a armed => ?_⟩⟩
  · exact ⟨s.withFs (s.prm1 t n 0), exec_audioConfig h code keep shut, rfl, rfl, rfl⟩
  · rw [exec_audioOpen_opens h name leased op shut may, State.withAud_off off]
  · exact ⟨s.openPort p, by rw [exec_audioOpen_opens h name leased op shut may, State.withAud_on on], rfl⟩
  · have closes := State.closePort_muted muted
    refine ⟨s.closePort p, ?_, closes⟩
    rw [exec_audioOpen_closes h name leased op, closes.1]
    rfl
  · rw [exec_audioSchedule_start h name what leased muted stays, State.schedStart_armed muted free due ahead near]
  · rw [exec_tpsSchedule_start name leased h what both, State.tpsStart_armed free shut near ahead, State.withAud_off off]
  · rw [exec_tpsSchedule_start name leased h what both, State.tpsStart_armed free shut near ahead, State.withAud_on on]
  · rw [exec_tpsSchedule_cancel name leased h what, State.tpsHalt_armed armed]

end Sys2Proof.Machine
